-- ==== Sys2Proof/Word.lean ====
section
/-!
DEFINITION. The widths the manual gives its words, and their plainest arithmetic (R6, R7, R48).
-/

namespace Sys2Proof

/-- A 32-bit instruction word or lane value. -/
abbrev Word := BitVec 32
/-- A 64-bit address or scalar. -/
abbrev Dword := BitVec 64
/-- One bit per lane of a wave: bit l is lane l (R71). -/
abbrev Mask := BitVec 64
/-- A memory byte. -/
abbrev Byte := BitVec 8

/-- Bits hi down to lo of a number, as a number (R6). -/
def bits (n hi lo : Nat) : Nat := n / 2 ^ lo % 2 ^ (hi + 1 - lo)

/-- The value of byte k of a number, least significant first (R7). -/
def byteOf (n k : Nat) : Byte := BitVec.ofNat 8 (n / 2 ^ (8 * k))

/-- A list of bytes read as a little-endian number (R7). -/
def leNat : List Byte → Nat
  | [] => 0
  | b :: bs => b.toNat + 256 * leNat bs

/-- The n low bytes of a number, least significant first (R7). -/
def leBytes : Nat → Nat → List Byte
  | 0, _ => []
  | n + 1, x => BitVec.ofNat 8 x :: leBytes n (x / 256)

/-- A number as a one-element answer of a test. -/
def b2n (b : Bool) : Nat := if b then 1 else 0

end Sys2Proof
end

