-- ==== Sys2Proof/Syntax.lean ====
section
/-!
DEFINITION. The abstract syntax: the encoding forms of R85 to R89 as records, the packets of R270, and one
constructor of `Instr` for every row of the opcode table. Rows with an encoding carry the fields of their form;
rows without one are the machine's other indivisible steps and carry what names them.
-/

namespace Sys2Proof

/-- B3 with I = 0 (R85): two register sources. -/
structure B3 where
  u : Bool
  ty3 : BitVec 3
  b : BitVec 6
  a : BitVec 6
  d : BitVec 6
  deriving DecidableEq, Repr

/-- B3 with I = 1 and LEN 0b00 (R85): a register and the signed IMM9. -/
structure B3I where
  u : Bool
  imm : BitVec 9
  a : BitVec 6
  d : BitVec 6
  deriving DecidableEq, Repr

/-- B3 with LEN 0b10 (R85): bit 31 (I), bits 30:22 and the literal. -/
structure B3L where
  u : Bool
  i : Bool
  f : BitVec 9
  a : BitVec 6
  d : BitVec 6
  lit : BitVec 64
  deriving DecidableEq, Repr

/-- BM with LEN 0b00 (R86): a register and the unsigned OFF6. -/
structure BM where
  u : Bool
  sz : BitVec 3
  off : BitVec 6
  a : BitVec 6
  d : BitVec 6
  deriving DecidableEq, Repr

/-- BM with LEN 0b10 (R86): the literal is the byte offset. -/
structure BML where
  u : Bool
  sz : BitVec 3
  off : BitVec 6
  a : BitVec 6
  d : BitVec 6
  lit : BitVec 64
  deriving DecidableEq, Repr

/-- The extended form (R89): every field but MAJ, which the constructor gives, and LEN, which is 0b11 with a
literal and 0b01 without. -/
structure Ext where
  u : Bool
  d9 : BitVec 9
  a9 : BitVec 9
  pg : BitVec 4
  b9 : BitVec 9
  c9 : BitVec 9
  pn : Bool
  nw : Bool
  ch : Bool
  stall : BitVec 4
  sbs : BitVec 3
  ty : BitVec 4
  wait : BitVec 6
  sub : BitVec 10
  mod : BitVec 16
  lit : Option (BitVec 64)
  deriving DecidableEq, Repr

/-- A League packet (R270): the header fields of words 0 and 1, words 2 to 7, and up to four data flits. -/
structure Packet where
  ver : BitVec 4
  type : BitVec 6
  src : BitVec 9
  dst : BitVec 9
  tag : BitVec 12
  ndata : BitVec 3
  plane : BitVec 5
  status : BitVec 4
  group : BitVec 12
  atty : BitVec 3
  atop : BitVec 3
  g : Bool
  lenm1 : BitVec 8
  offset : BitVec 40
  ext : BitVec 384
  data : BitVec 2048
  deriving DecidableEq, Repr

/-- A split of a resident wave: core, wave slot, half (0 but in gang mode, R33) and path of the top entry. -/
structure Who where
  core : Nat
  slot : Nat
  half : Nat
  path : Nat
  deriving DecidableEq, Repr

/-- The rows of spec/opcode_table.json. -/
inductive Instr where
  /-- NOP (R395): The one-word no-operation changes no state. -/
  | nop
  /-- ADD_REG (R316): Base-form integer add of two registers; elements wrap modulo 2^w. -/
  | addReg (f : B3)
  /-- ADD_IMM (R316): Base-form integer add of a register and a sign-extended IMM9. -/
  | addImm (f : B3I)
  /-- ADD_LIT (R316): Base-form integer add whose second source is a 64-bit literal (LEN 10). -/
  | addLit (f : B3L)
  /-- ADD_EXT (R316): Extended-form integer add with a guard, 9-bit operand codes and schedule fields. -/
  | addExt (e : Ext)
  /-- SUB_REG (R425): Base-form integer subtract of two registers. -/
  | subReg (f : B3)
  /-- SUB_IMM (R425): Base-form integer subtract of an immediate. -/
  | subImm (f : B3I)
  /-- SUB_LIT (R425): Base-form integer subtract with a literal. -/
  | subLit (f : B3L)
  /-- SUB_EXT (R425): Extended-form integer subtract. -/
  | subExt (e : Ext)
  /-- MUL_REG (R393): Base-form integer multiply, low w bits. -/
  | mulReg (f : B3)
  /-- MUL_IMM (R393): Base-form integer multiply by an immediate. -/
  | mulImm (f : B3I)
  /-- MUL_LIT (R393): Base-form integer multiply by a literal. -/
  | mulLit (f : B3L)
  /-- MUL_EXT (R393): Extended-form integer multiply. -/
  | mulExt (e : Ext)
  /-- MULH_REG (R394): Base-form high half of the exact integer product. -/
  | mulhReg (f : B3)
  /-- MULH_IMM (R394): Base-form high-half multiply by an immediate. -/
  | mulhImm (f : B3I)
  /-- MULH_LIT (R394): Base-form high-half multiply by a literal. -/
  | mulhLit (f : B3L)
  /-- MULH_EXT (R394): Extended-form high-half multiply. -/
  | mulhExt (e : Ext)
  /-- DIV_REG (R356): Base-form integer quotient truncated toward zero; division by zero gives 0. -/
  | divReg (f : B3)
  /-- DIV_IMM (R356): Base-form integer quotient by an immediate. -/
  | divImm (f : B3I)
  /-- DIV_LIT (R356): Base-form integer quotient by a literal. -/
  | divLit (f : B3L)
  /-- DIV_EXT (R356): Extended-form divide, with the remainder selected by MOD REM. -/
  | divExt (e : Ext)
  /-- MIN_REG (R385): Base-form integer minimum. -/
  | minReg (f : B3)
  /-- MIN_IMM (R385): Base-form integer minimum with an immediate. -/
  | minImm (f : B3I)
  /-- MIN_LIT (R385): Base-form integer minimum with a literal. -/
  | minLit (f : B3L)
  /-- MIN_EXT (R385): Extended-form integer minimum. -/
  | minExt (e : Ext)
  /-- MAX_REG (R385): Base-form integer maximum. -/
  | maxReg (f : B3)
  /-- MAX_IMM (R385): Base-form integer maximum with an immediate. -/
  | maxImm (f : B3I)
  /-- MAX_LIT (R385): Base-form integer maximum with a literal. -/
  | maxLit (f : B3L)
  /-- MAX_EXT (R385): Extended-form integer maximum. -/
  | maxExt (e : Ext)
  /-- AND_REG (R317): Base-form bitwise AND; the result has tag 0. -/
  | andReg (f : B3)
  /-- AND_IMM (R317): Base-form bitwise AND with an immediate. -/
  | andImm (f : B3I)
  /-- AND_LIT (R317): Base-form bitwise AND with a literal. -/
  | andLit (f : B3L)
  /-- AND_EXT (R317): Extended-form bitwise AND. -/
  | andExt (e : Ext)
  /-- OR_REG (R401): Base-form bitwise OR. -/
  | orReg (f : B3)
  /-- OR_IMM (R401): Base-form bitwise OR with an immediate. -/
  | orImm (f : B3I)
  /-- OR_LIT (R401): Base-form bitwise OR with a literal. -/
  | orLit (f : B3L)
  /-- OR_EXT (R401): Extended-form bitwise OR. -/
  | orExt (e : Ext)
  /-- XOR_REG (R401): Base-form bitwise XOR. -/
  | xorReg (f : B3)
  /-- XOR_IMM (R401): Base-form bitwise XOR with an immediate. -/
  | xorImm (f : B3I)
  /-- XOR_LIT (R401): Base-form bitwise XOR with a literal. -/
  | xorLit (f : B3L)
  /-- XOR_EXT (R401): Extended-form bitwise XOR. -/
  | xorExt (e : Ext)
  /-- ANDN_REG (R317): Base-form a AND NOT b. -/
  | andnReg (f : B3)
  /-- ANDN_IMM (R317): Base-form a AND NOT an immediate. -/
  | andnImm (f : B3I)
  /-- ANDN_LIT (R317): Base-form a AND NOT a literal. -/
  | andnLit (f : B3L)
  /-- ANDN_EXT (R317): Extended-form a AND NOT b. -/
  | andnExt (e : Ext)
  /-- SHL_REG (R418): Base-form left shift; a count of at least w gives 0. -/
  | shlReg (f : B3)
  /-- SHL_IMM (R418): Base-form left shift by an immediate. -/
  | shlImm (f : B3I)
  /-- SHL_LIT (R418): Base-form left shift by a literal. -/
  | shlLit (f : B3L)
  /-- SHL_EXT (R418): Extended-form left shift. -/
  | shlExt (e : Ext)
  /-- SHR_REG (R418): Base-form logical right shift. -/
  | shrReg (f : B3)
  /-- SHR_IMM (R418): Base-form logical right shift by an immediate. -/
  | shrImm (f : B3I)
  /-- SHR_LIT (R418): Base-form logical right shift by a literal. -/
  | shrLit (f : B3L)
  /-- SHR_EXT (R418): Extended-form logical right shift. -/
  | shrExt (e : Ext)
  /-- SAR_REG (R418): Base-form arithmetic right shift. -/
  | sarReg (f : B3)
  /-- SAR_IMM (R418): Base-form arithmetic right shift by an immediate. -/
  | sarImm (f : B3I)
  /-- SAR_LIT (R418): Base-form arithmetic right shift by a literal. -/
  | sarLit (f : B3L)
  /-- SAR_EXT (R418): Extended-form arithmetic right shift. -/
  | sarExt (e : Ext)
  /-- POPC_REG (R404): Base-form population count, written as a 32-bit count with tag 1. -/
  | popcReg (f : B3)
  /-- POPC_EXT (R404): Extended-form population count. -/
  | popcExt (e : Ext)
  /-- CLZ_REG (R341): Base-form count of leading zero bits. -/
  | clzReg (f : B3)
  /-- CLZ_EXT (R341): Extended-form count of leading zero bits. -/
  | clzExt (e : Ext)
  /-- CTZ_REG (R341): Base-form count of trailing zero bits. -/
  | ctzReg (f : B3)
  /-- CTZ_EXT (R341): Extended-form count of trailing zero bits. -/
  | ctzExt (e : Ext)
  /-- MOV_REG (R390): Base-form register move that copies the tag with the value. -/
  | movReg (f : B3)
  /-- MOV_EXT (R390): Extended-form move, optionally with RETAG to give the bits a new tag. -/
  | movExt (e : Ext)
  /-- MOVI_IMM (R391): Base-form write of a sign-extended IMM9. -/
  | moviImm (f : B3I)
  /-- MOVI_LIT (R391): Base-form write of a 64-bit literal. -/
  | moviLit (f : B3L)
  /-- MOVI_EXT (R391): Extended-form write of an inline constant or literal in the type TY. -/
  | moviExt (e : Ext)
  /-- FADD_REG (R364): Base-form float add, rounded rne. -/
  | faddReg (f : B3)
  /-- FADD_IMM (R364): Base-form f32 add of an immediate converted exactly to f32. -/
  | faddImm (f : B3I)
  /-- FADD_LIT (R364): Base-form float add of a literal. -/
  | faddLit (f : B3L)
  /-- FADD_EXT (R364): Extended-form float add under any RND, including stochastic rounding. -/
  | faddExt (e : Ext)
  /-- FSUB_REG (R370): Base-form float subtract. -/
  | fsubReg (f : B3)
  /-- FSUB_IMM (R370): Base-form f32 subtract of an immediate. -/
  | fsubImm (f : B3I)
  /-- FSUB_LIT (R370): Base-form float subtract of a literal. -/
  | fsubLit (f : B3L)
  /-- FSUB_EXT (R370): Extended-form float subtract. -/
  | fsubExt (e : Ext)
  /-- FMUL_REG (R369): Base-form float multiply. -/
  | fmulReg (f : B3)
  /-- FMUL_IMM (R369): Base-form f32 multiply by an immediate. -/
  | fmulImm (f : B3I)
  /-- FMUL_LIT (R369): Base-form float multiply by a literal. -/
  | fmulLit (f : B3L)
  /-- FMUL_EXT (R369): Extended-form float multiply. -/
  | fmulExt (e : Ext)
  /-- FMIN_REG (R368): Base-form float minimum. -/
  | fminReg (f : B3)
  /-- FMIN_IMM (R368): Base-form f32 minimum with an immediate. -/
  | fminImm (f : B3I)
  /-- FMIN_LIT (R368): Base-form float minimum with a literal. -/
  | fminLit (f : B3L)
  /-- FMIN_EXT (R368): Extended-form float minimum. -/
  | fminExt (e : Ext)
  /-- FMAX_REG (R368): Base-form float maximum. -/
  | fmaxReg (f : B3)
  /-- FMAX_IMM (R368): Base-form f32 maximum with an immediate. -/
  | fmaxImm (f : B3I)
  /-- FMAX_LIT (R368): Base-form float maximum with a literal. -/
  | fmaxLit (f : B3L)
  /-- FMAX_EXT (R368): Extended-form float maximum. -/
  | fmaxExt (e : Ext)
  /-- FRCP_REG (R366): Base-form correctly rounded float reciprocal. -/
  | frcpReg (f : B3)
  /-- FRCP_EXT (R366): Extended-form float reciprocal. -/
  | frcpExt (e : Ext)
  /-- FRSQ_REG (R366): Base-form float reciprocal square root. -/
  | frsqReg (f : B3)
  /-- FRSQ_EXT (R366): Extended-form float reciprocal square root. -/
  | frsqExt (e : Ext)
  /-- FSQRT_REG (R366): Base-form float square root. -/
  | fsqrtReg (f : B3)
  /-- FSQRT_EXT (R366): Extended-form float square root. -/
  | fsqrtExt (e : Ext)
  /-- FEX2_REG (R366): Base-form float 2^a. -/
  | fex2Reg (f : B3)
  /-- FEX2_EXT (R366): Extended-form float 2^a. -/
  | fex2Ext (e : Ext)
  /-- FLG2_REG (R366): Base-form float log2. -/
  | flg2Reg (f : B3)
  /-- FLG2_EXT (R366): Extended-form float log2. -/
  | flg2Ext (e : Ext)
  /-- FFMA (R367): Fused multiply-add, rounded once. -/
  | ffma (e : Ext)
  /-- MAD (R384): Integer multiply-add, optionally 32×32+64 wide. -/
  | mad (e : Ext)
  /-- BFX (R327): Extracts a bit field, with sign or zero extension. -/
  | bfx (e : Ext)
  /-- BFI (R327): Inserts a bit field into a base value. -/
  | bfi (e : Ext)
  /-- CMP (R342): Compares two sources and sets, ANDs or ORs a predicate per lane. -/
  | cmp (e : Ext)
  /-- SEL (R419): Selects one of two sources per lane by a predicate. -/
  | sel (e : Ext)
  /-- LEA (R380): Forms a 64-bit address from a base and a shifted 32-bit index. -/
  | lea (e : Ext)
  /-- PLOG (R402): Applies a three-input LUT to predicates, lane by lane. -/
  | plog (e : Ext)
  /-- PMOV (R403): Moves predicate bits between predicate registers and scalars. -/
  | pmov (e : Ext)
  /-- BALLOT (R322): Collects a predicate over the Active lanes into a scalar bit mask. -/
  | ballot (e : Ext)
  /-- VOTE (R433): Reduces a predicate over the Active lanes to any, all or uniform. -/
  | vote (e : Ext)
  /-- MPREFIX (R392): Counts, per lane, the Active lanes below it whose predicate is set. -/
  | mprefix (e : Ext)
  /-- ELECT (R357): B0 form that sets a predicate in the lowest Active lane only. -/
  | elect (p : BitVec 4)
  /-- ELECT_EXT (R357): Guarded extended-form ELECT. -/
  | electExt (e : Ext)
  /-- CVT (R353): Converts elements between types, with rounding, saturation, optional scales and part selection. -/
  | cvt (e : Ext)
  /-- BQNT (R329): Quantises blocks of 32 f32 values into a narrow format with E8M0 scales. -/
  | bqnt (e : Ext)
  /-- VDOT (R431): Adds a per-lane packed dot product, optionally scaled, to an accumulator register. -/
  | vdot (e : Ext)
  /-- SHFL (R420): Reads a register from another lane of the same segment. -/
  | shfl (e : Ext)
  /-- LSCAN (R382): Computes an inclusive or exclusive prefix over the Active lanes in lane order. -/
  | lscan (e : Ext)
  /-- LRED (R382): Reduces a value over the Active lanes in lane order. -/
  | lred (e : Ext)
  /-- BRA (R331): Base-form branch of the whole split by DISP22. -/
  | bra (d : BitVec 22)
  /-- BRA_ABS (R331): Extended-form branch to the absolute address in a scalar. -/
  | braAbs (e : Ext)
  /-- BRA_DISP (R331): Extended-form branch by a literal displacement. -/
  | braDisp (e : Ext)
  /-- BRC (R332): Conditional branch that divides the split and pushes a divergence entry with a join PC. -/
  | brc (e : Ext)
  /-- BRU (R335): Base-form uniform branch, taken when the predicate holds in any Active lane. -/
  | bru (d : BitVec 17) (neg : Bool) (p : BitVec 4)
  /-- BRU_ABS (R335): Extended-form uniform branch to the address in a scalar. -/
  | bruAbs (e : Ext)
  /-- BRU_DISP (R335): Extended-form uniform branch by a literal displacement. -/
  | bruDisp (e : Ext)
  /-- CALL (R336): Base-form call that saves the return address in s63. -/
  | call (d : BitVec 22)
  /-- CALL_ABS (R336): Extended-form call to the address in a scalar. -/
  | callAbs (e : Ext)
  /-- CALL_DISP (R336): Extended-form call by a literal displacement. -/
  | callDisp (e : Ext)
  /-- RET (R412): Returns the split to the address in s63. -/
  | ret
  /-- JMPI (R375): Indirect per-lane jump that divides the split by target and pushes an entry with pending lanes. -/
  | jmpi (e : Ext)
  /-- LOOP (R164): Claims a zero-overhead loop level, optionally with rotation and stage predicates. -/
  | loop (e : Ext)
  /-- LOOPX (R168): Exits a loop level and every level claimed after it. -/
  | loopx (e : Ext)
  /-- BRKL (R169): Removes lanes from the innermost loop; the level ends early when no live lane remains. -/
  | brkl (e : Ext)
  /-- REGION (R170): Opens a new idempotent region and snapshots the loop state when the stack is empty. -/
  | region
  /-- EXIT (R358): Ends the issuing split and, with it, possibly the wave and the block. -/
  | exit
  /-- YIELD (R437): Gives up issue slots until the other ready waves have issued or 256 cycles pass. -/
  | yield
  /-- TRAP (R430): Raises exception 0x0100 + n precisely. -/
  | trap (n : BitVec 8)
  /-- BRK (R333): Raises BREAKPOINT precisely. -/
  | brk
  /-- LD_REG (R377): Base-form load from memory with OFF6 scaled by the access size. -/
  | ldReg (f : BM)
  /-- LD_LIT (R377): Base-form load with a literal byte offset. -/
  | ldLit (f : BML)
  /-- LD_EXT (R377): Extended-form load with optional acquire, scope and cache hint. -/
  | ldExt (e : Ext)
  /-- ST_REG (R423): Base-form store to memory. -/
  | stReg (f : BM)
  /-- ST_LIT (R423): Base-form store with a literal byte offset. -/
  | stLit (f : BML)
  /-- ST_EXT (R423): Extended-form store with optional release and scope. -/
  | stExt (e : Ext)
  /-- LDL_REG (R379): Base-form plain scratchpad load within the block's allocation. -/
  | ldlReg (f : BM)
  /-- LDL_LIT (R379): Base-form scratchpad load with a literal offset. -/
  | ldlLit (f : BML)
  /-- LDL_EXT (R379): Extended-form scratchpad load, optionally waiting for full granules and clearing them. -/
  | ldlExt (e : Ext)
  /-- STL_REG (R424): Base-form plain scratchpad store. -/
  | stlReg (f : BM)
  /-- STL_LIT (R424): Base-form scratchpad store with a literal offset. -/
  | stlLit (f : BML)
  /-- STL_EXT (R424): Extended-form scratchpad store, optionally waiting for empty granules and setting them full. -/
  | stlExt (e : Ext)
  /-- CMPST (R345): Stores the selected lanes' values packed at a uniform address in ascending element order. -/
  | cmpst (e : Ext)
  /-- EXPLD (R361): Loads consecutive elements from a uniform address into the selected lanes. -/
  | expld (e : Ext)
  /-- ATOM (R319): Per-lane read-modify-write atomic that returns the old value. -/
  | atom (e : Ext)
  /-- ATOMN (R321): Atomic without a returned value; the wave continues once every address is checked and translated. -/
  | atomn (e : Ext)
  /-- FENCE (R209): Acquire and/or release fence at a scope. -/
  | fence (e : Ext)
  /-- FENCEO (R210): Cheap fence that pairs with a FENCER of another wave. -/
  | fenceo (s : BitVec 3)
  /-- FENCER (R211): Heavy fence that cuts every resident wave of the process in its scope and waits for their accesses. -/
  | fencer (e : Ext)
  /-- PREF (R406): Prefetch hint that never faults and has no visible effect. -/
  | pref (e : Ext)
  /-- CFLUSH (R338): Writes dirty copies of an address range back to the level of its scope. -/
  | cflush (e : Ext)
  /-- CINV (R338): Writes back and then discards copies of an address range, including peer G lines and instruction lines. -/
  | cinv (e : Ext)
  /-- RLD (R415): Remote load from a peer's fabric window, one pass per distinct peer. -/
  | rld (e : Ext)
  /-- RST (R417): Remote store to a peer's fabric window. -/
  | rst (e : Ext)
  /-- RATOM (R409): Remote atomic at the exporter's home LLC. -/
  | ratom (e : Ext)
  /-- RMCST (R283): Multicast store of one line to a group, waiting for the aggregated acknowledgement. -/
  | rmcst (e : Ext)
  /-- CPY (R152): Posts a tensor copy, optionally with a follow-on MMA, to the copy queue after checking its record. -/
  | cpy (e : Ext)
  /-- MMA (R143): Posts a matrix multiply-accumulate to the matrix FIFO with tag and descriptor checks. -/
  | mma (e : Ext)
  /-- ACCRD (R311): Waits for earlier FIFO entries that name the accumulator, then reads one row into a register pair. -/
  | accrd (e : Ext)
  /-- ACCWR (R312): Posts a write of one accumulator row from a register pair. -/
  | accwr (e : Ext)
  /-- ACCZ (R313): Posts the zeroing of an accumulator. -/
  | accz (e : Ext)
  /-- TILEMV_LD (R427): Posts a move of scratchpad rows into a tile register. -/
  | tilemvLd (e : Ext)
  /-- TILEMV_ST (R427): Posts a move of a tile register to scratchpad rows. -/
  | tilemvSt (e : Ext)
  /-- CHINIT (R147): Claims or re-initialises a channel and clears its counters. -/
  | chinit (e : Ext)
  /-- CHPUT_RES (R148): Makes a put reservation and waits for room in its slot. -/
  | chputRes (e : Ext)
  /-- CHPUT_DONE (R148): Marks a granted put done, as a release at core scope. -/
  | chputDone (e : Ext)
  /-- CHGET_WAIT (R148): Makes a get reservation and waits for a filled slot. -/
  | chgetWait (e : Ext)
  /-- CHGET_DONE (R148): Marks a granted get done, which empties the slot. -/
  | chgetDone (e : Ext)
  /-- CWAIT (R157): Holds the split until an 8-byte counter reaches a target, then optionally acquires. -/
  | cwait (e : Ext)
  /-- COLL (R346): Posts a collective (reduce, gather, shuffle or coded shuffle) to the copy queue. -/
  | coll (e : Ext)
  /-- GTHR (R371): Posts a gather of indexed table rows to the copy queue. -/
  | gthr (e : Ext)
  /-- BAR (R325): Arrives at a level barrier and waits for the phase to complete. -/
  | bar (e : Ext)
  /-- BARA (R325): Arrives at a level barrier and returns the phase token without waiting. -/
  | bara (e : Ext)
  /-- BARW (R325): Waits for the phase named by a token to complete. -/
  | barw (e : Ext)
  /-- REGROUP_KEY (R175): Arrives at a regroup; the last arrival packs the block's threads by key. -/
  | regroupKey (e : Ext)
  /-- REGROUP_HOME (R175): Arrives at a regroup; the last arrival returns every thread to its home lane. -/
  | regroupHome (e : Ext)
  /-- VGROW (R57): Requests an extended register block from the core's pool and waits for a grant or failure. -/
  | vgrow (e : Ext)
  /-- VSHRINK (R57): Releases an extended register block, which drains or returns to the pool. -/
  | vshrink (e : Ext)
  /-- WCREATE (R230): Makes a wave object from a template and appends it to a run queue. -/
  | wcreate (e : Ext)
  /-- PSEND (R234): Sends a message with optional page grants to a port, waiting when it is full. -/
  | psend (e : Ext)
  /-- PRECV (R235): Takes a message from a local port and maps its granted pages. -/
  | precv (e : Ext)
  /-- OBJNEW (R398): Makes a port, wait set or timer object. -/
  | objnew (e : Ext)
  /-- OBJDEL (R397): Deletes an object of the caller's process. -/
  | objdel (e : Ext)
  /-- WSADD (R238): Places a member in a wait-set slot. -/
  | wsadd (e : Ext)
  /-- WSWAIT (R239): Waits for the wait-set member with the earliest ready time. -/
  | wswait (e : Ext)
  /-- TARM (R240): Arms a timer with a deadline and period and clears its pending count. -/
  | tarm (e : Ext)
  /-- TCANCEL (R240): Cancels a timer and clears its pending count. -/
  | tcancel (e : Ext)
  /-- NSLOOKUP (R237): Resolves a port name, locally or on another device. -/
  | nslookup (e : Ext)
  /-- SRD (R421): Reads a special register by selector. -/
  | srd (e : Ext)
  /-- CRD (R350): Privileged read of a control register into a scalar. -/
  | crd (e : Ext)
  /-- CWR (R350): Privileged write of a control register's RW fields. -/
  | cwr (e : Ext)
  /-- KTCODE_POP (R254): A CWR of KTCODE removes the oldest trap-queue record. -/
  | ktcodePop (e : Ext)
  /-- KMODE_INTLK_WRITE (R94): A CWR of KMODE.INTLK switches every wave on the core between scheduled and interlocked mode. -/
  | kmodeIntlkWrite (e : Ext)
  /-- RFT (R414): Applies a handler's verdict to a trapped resident wave. -/
  | rft (e : Ext)
  /-- CTXSV (R352): Writes a resident wave's context image, optionally with its block's matrix state image. -/
  | ctxsv (e : Ext)
  /-- CTXLD (R351): Loads a context image into a free slot, checking it first. -/
  | ctxld (e : Ext)
  /-- TLBINV (R429): Invalidates translations of a page range or a PASID across a scope. -/
  | tlbinv (e : Ext)
  /-- IDLE (R374): Suspends a firmware agent or the management core until an event is latched. -/
  | idle (e : Ext)
  /-- OBJRD (R400): Reads an object table entry into a buffer. -/
  | objrd (e : Ext)
  /-- OBJWR (R400): Creates, replaces or frees an object table entry from a buffer. -/
  | objwr (e : Ext)
  /-- PWRACQ (R408): Takes power tokens from the pool, waiting in order until enough are free. -/
  | pwracq (e : Ext)
  /-- PWRREL (R408): Returns power tokens to the pool. -/
  | pwrrel (e : Ext)
  /-- MGSIG (R386): Sends a signal to a firmware agent or to the management core. -/
  | mgsig (e : Ext)
  /-- AGENT_RESTART (R254): The management core restarts a halted firmware agent from its ROM entry. -/
  | agentRestart (core : Nat)
  /-- TRAP_RECORD_DELIVERY (R256): The firmware agent pops a record, saves the trapped wave and creates a handler wave. -/
  | trapRecordDelivery (core : Nat)
  /-- TRANSLATION_FILL (R186): A completed translation fill replays the parked access or command. -/
  | translationFill (core slot : Nat) (eng : Bool)
  /-- ATOMN_PERFORM (R321): The atomics of an ATOMN perform without the wave, in lane order. -/
  | atomnPerform (core slot : Nat)
  /-- FBPOP (R188): A write of 1 to FBPOP pops the oldest fault record without answering it. -/
  | fbpop (die : Nat)
  /-- FBRESP_WALK_AGAIN (R188): A response with ACT = 0 makes every access parked on the record walk again. -/
  | fbrespWalkAgain (die : Nat) (seq : BitVec 16)
  /-- FBRESP_RAISE (R188): A response with ACT = 1 raises TRANSLATION in every access parked on the record. -/
  | fbrespRaise (die : Nat) (seq : BitVec 16)
  /-- VGROW_GRANT (R58): A block returned to the pool goes to the oldest waiting VGROW request. -/
  | vgrowGrant (core : Nat)
  /-- VGROW_DEADLOCK_BREAK (R59): When every resident wave waits in VGROW, the youngest wave's requests fail. -/
  | vgrowDeadlockBreak (core : Nat)
  /-- BLOCK_DRAIN_DONE (R60): A draining register block returns to the pool once its outstanding writes retire. -/
  | blockDrainDone (core : Nat)
  /-- BARRIER_PHASE_COMPLETE (R324): A barrier phase completes when every member has arrived and its credits have completed. -/
  | barrierPhaseComplete (blk level : Nat)
  /-- CWAIT_SATISFIED (R157): A waiting CWAIT resumes once its counter reaches the target. -/
  | cwaitSatisfied (w : Who)
  /-- FULL_EMPTY_WAKE (R185): A waiting LDL or STL with an FE mode performs once its granules become full or empty. -/
  | fullEmptyWake (w : Who)
  /-- FENCER_COMPLETE (R211): A FENCER completes once every cut wave's earlier accesses have performed. -/
  | fencerComplete (w : Who)
  /-- KERNEL_OBJECT_WAKE (R229): A PSEND, PRECV or WSWAIT waiting on an object is served in order of waiting. -/
  | kernelObjectWake (w : Who)
  /-- TOKEN_GRANT (R297): A waiting PWRACQ at the head of the pool's waiters receives its tokens. -/
  | tokenGrant
  /-- IDLE_WAKE (R374): A waiting IDLE returns when an event is latched. -/
  | idleWake (core : Nat)
  /-- CHANNEL_RESERVATION_GRANT (R148): A waiting put or get reservation is granted when its slot has room or data. -/
  | channelReservationGrant (core ch : Nat)
  /-- MMA_EXECUTE (R143): The FIFO-head MMA reads its operands and occupies the array. -/
  | mmaExecute (core : Nat)
  /-- MMA_COMPLETE (R145): An MMA completes, writes its accumulator and reports to its counter or barrier credit. -/
  | mmaComplete (core : Nat)
  /-- ACCZ_EXECUTE (R146): An ACCZ entry at the FIFO head zeroes the accumulator and sets its tag. -/
  | acczExecute (core : Nat)
  /-- ACCWR_EXECUTE (R146): An ACCWR entry at the FIFO head writes the posted row values. -/
  | accwrExecute (core : Nat)
  /-- TILEMV_LD_EXECUTE (R146): A TILEMV.ld entry copies scratchpad rows into the tile and sets its tag. -/
  | tilemvLdExecute (core : Nat)
  /-- TILEMV_ST_EXECUTE (R146): A TILEMV.st entry copies the tile to scratchpad and sets full-empty bits. -/
  | tilemvStExecute (core : Nat)
  /-- COPY_FIRE (R152): A copy command whose reservations are granted starts, acquires and reads its box. -/
  | copyFire (core : Nat)
  /-- COPY_COMPLETE (R152): A copy's last byte lands: tags and full-empty bits, put done, release and counter increment. -/
  | copyComplete (core n : Nat)
  /-- FOLLOW_ON_MMA_ENTRY (R153): The copy engine enters a follow-on MMA into the matrix FIFO when there is room. -/
  | followOnMmaEntry (core : Nat)
  /-- GATHER_FIRE (R372): A GTHR command starts reading its index list and table rows. -/
  | gatherFire (core : Nat)
  /-- GATHER_COMPLETE (R372): A GTHR's rows are written, then put done, release and counter increment. -/
  | gatherComplete (core n : Nat)
  /-- COLL_COMPLETE (R346): A participant's collective completes when its destination is written, then release and counter. -/
  | collComplete (core n : Nat)
  /-- TIMER_EXPIRY (R240): When device time reaches a timer's deadline, its pending count rises and its deadline advances. -/
  | timerExpiry (obj : Nat)
  /-- SC_PERIOD_RELEASE (R241): A scheduling context's period release restores its budget and sets its deadline. -/
  | scPeriodRelease (obj : Nat)
  /-- SC_BUDGET_EXHAUSTED (R241): A budget reaching 0 saves the context's waves, pre-empts its blocks and suspends it. -/
  | scBudgetExhausted (obj : Nat)
  /-- KERNEL_DISPATCH (R232): The cluster's kernel unit chooses an entry by deadline and places it on a core that can take it. -/
  | kernelDispatch (cluster : Nat)
  /-- WAVE_REFILL (R233): A non-resident wave's image is loaded into a slot its placement allows and it resumes. -/
  | waveRefill (obj core : Nat)
  /-- PROGRESS_WINDOW_SWAP (R246): When no resident wave issued for a progress window and blocks wait, a resident block is swapped out. -/
  | progressWindowSwap (core : Nat)
  /-- PREEMPT_DRAIN (R265): The block runs on and no other block takes its slots. -/
  | preemptDrain (blk : Nat)
  /-- DRAIN_LIMIT_EXPIRY (R265): A draining block not ended after KPROG.DRAIN µs is pre-empted again without the drain option. -/
  | drainLimitExpiry (blk : Nat)
  /-- PREEMPT_SAVE (R265): Every wave image, the matrix state image and the scratchpad image are written, and the block rejoins its list. -/
  | preemptSave (blk : Nat)
  /-- PREEMPT_FLUSH_RESTART (R265): Every wave is discarded without an image, and the block's ticket rejoins its list. -/
  | preemptFlushRestart (blk : Nat)
  /-- BLOCK_RESTORE (R459): A saved block is restored whole onto a core with the same scratchpad offsets, and its commands are re-posted. -/
  | blockRestore (blk core : Nat)
  /-- BLOCK_PLACEMENT (R296): A firmware agent claims a ticket from its unit's counter and places the block on its core. -/
  | blockPlacement (core launch : Nat)
  /-- CONGESTION_LEVEL_CHANGE (R194): An HBM controller's congestion level changes each core's active-set cap. -/
  | congestionLevelChange (ctl : Nat) (level : BitVec 2)
  /-- QBASE_WRITE (R291): Sets the ring address, ignored while EN = 1. -/
  | qbaseWrite (fn q : Nat) (v : BitVec 64)
  /-- QSIZE_WRITE (R291): Sets the ring size, ignored while EN = 1 or for an invalid value. -/
  | qsizeWrite (fn q : Nat) (v : BitVec 64)
  /-- QUEUE_ENABLE (R291): Setting EN from 0 to 1 zeroes QTAIL, the device tail and QHEAD, unless QSIZE is invalid. -/
  | queueEnable (fn q : Nat)
  /-- QTAIL_WRITE (R292): Admits and copies the new ring packets into the on-chip buffer, or refuses the write with OVF. -/
  | qtailWrite (fn q : Nat) (v : BitVec 64)
  /-- QSTAT_CLEAR (R291): A W1C write clears QSTAT bits. -/
  | qstatClear (fn q : Nat) (v : BitVec 64)
  /-- REGISTER_WRITE (R11): A write to a register with no row of its own updates its RW fields and ignores RES bits. -/
  | registerWrite (fn off : Nat) (v : BitVec 64)
  /-- NOOP_PACKET (R293): A no-operation packet starts and finishes at once. -/
  | noopPacket (fn q : Nat)
  /-- LAUNCH_PACKET (R43): A launch packet starts: its record, levels, rectangle, peers and routing table are checked before any block runs. -/
  | launchPacket (fn q : Nat)
  /-- WAIT_PACKET (R293): A wait packet starts and holds later packets until its completion record has DONE = 1. -/
  | waitPacket (fn q : Nat)
  /-- WAIT_PACKET_FINISH (R293): A wait packet finishes when an acquire read of its record finds DONE = 1. -/
  | waitPacketFinish (fn q : Nat)
  /-- RESERVED_PACKET (R293): A reserved or malformed packet finishes at once and sets BADPKT. -/
  | reservedPacket (fn q : Nat)
  /-- LAUNCH_COMPLETION_RECORD (R461): After the last block ends, dirty writes are pushed and the completion record is written by a release at sys. -/
  | launchCompletionRecord (launch : Nat)
  /-- LAUNCH_ARRIVAL_RECEIPT (R41): The lowest peer takes a launch arrival and releases or refuses once all have arrived or one has failed. -/
  | launchArrivalReceipt (p : Packet)
  /-- LAUNCH_RELEASE_RECEIPT (R41): A member receiving a launch release starts the launch's blocks. -/
  | launchReleaseReceipt (p : Packet)
  /-- LAUNCH_REFUSAL_RECEIPT (R41): A member receiving a refusal rejects the launch with LAUNCH_PEERS. -/
  | launchRefusalReceipt (p : Packet)
  /-- LAUNCH_ARRIVAL_TIMEOUT (R41): 10 ms after the first arrival without all arrivals, the lowest peer refuses the launch. -/
  | launchArrivalTimeout (key : BitVec 32)
  /-- LAUNCH_ANSWER_TIMEOUT (R41): A member with no answer 20 ms after its arrival treats the launch as refused. -/
  | launchAnswerTimeout (launch : Nat)
  /-- MAILBOX_VERSION (R299): The mailbox VERSION command answers min(offer, 1). -/
  | mailboxVersion
  /-- QDESTROY (R300): Disables a queue, discards unstarted packets and closes the ticket counters of started launches. -/
  | qdestroy
  /-- QDESTROY_ANSWER (R300): Once every record of the queue is written, the mailbox answers and STOPPED is set. -/
  | qdestroyAnswer
  /-- PASIDDOWN (R301): Disables queues with unfinished launches of the PASID and discards outstanding translations. -/
  | pasiddown
  /-- PASIDDOWN_ANSWER (R301): The mailbox answers PASIDDOWN once outstanding translation requests have drained. -/
  | pasiddownAnswer
  /-- REGBIND (R303): Binds a run of 2 MiB granules to a free key slot with a random key. -/
  | regbind
  /-- PREEMPT (R299): The mailbox PREEMPT command pre-empts every block of a process. -/
  | preempt
  /-- BOOTCLR (R299): Resets the boot-attempt count to 0. -/
  | bootclr
  /-- WINDOW_ENTRY_WRITE (R276): A write to a fabric window entry takes effect for requests that arrive afterwards. -/
  | windowEntryWrite (i word : Nat) (v : BitVec 64)
  /-- WINDOW_ENTRY_READBACK (R276): A read of a window entry returns the new value only after requests accepted under the old value have performed. -/
  | windowEntryReadback (i word : Nat)
  /-- LOCK_INTERFACE (R302): The TDISP request moves a TDI from CONFIG_UNLOCKED to CONFIG_LOCKED. -/
  | lockInterface (tdi : Nat)
  /-- GET_DEVICE_INTERFACE_REPORT (R302): Returns the VF's BAR0 range, bound granules and measurement-log hash. -/
  | getDeviceInterfaceReport (tdi : Nat)
  /-- START_INTERFACE (R302): Moves a TDI to RUN and writes its key slots to all eight controllers. -/
  | startInterface (tdi : Nat)
  /-- STOP_INTERFACE (R302): Moves a TDI to CONFIG_UNLOCKED. -/
  | stopInterface (tdi : Nat)
  /-- TDI_CONFIG_CHANGE (R302): A change of the VF's configuration, BAR0 placement or QBASE moves the TDI to ERROR. -/
  | tdiConfigChange (tdi : Nat)
  /-- IDE_INTEGRITY_FAILURE (R290): A TLP that fails its IDE integrity check moves the TDI to ERROR. -/
  | ideIntegrityFailure (tdi : Nat)
  /-- GET_MEASUREMENTS (R307): SPDM GET_MEASUREMENTS returns the measurement log signed with the identity key. -/
  | getMeasurements
  /-- POWER_ON_RESET (R304): Reset starts the mask-ROM boot sequence of the management core. -/
  | powerOnReset
  /-- TEMP_HIGH (R298): A die reaching 105 °C makes every agent of the die raise THR by 1. -/
  | tempHigh (die : Nat)
  /-- TEMP_COOL_TICK (R298): Below 95 °C, THR is lowered by 1 each millisecond. -/
  | tempCoolTick (die : Nat)
  /-- REMOTE_READ_REQUEST (R275): The exporter checks a read request against its window and page table and answers. -/
  | remoteReadRequest (p : Packet)
  /-- REMOTE_WRITE_REQUEST (R275): The exporter checks and performs a remote write and acknowledges it. -/
  | remoteWriteRequest (p : Packet)
  /-- REMOTE_ATOMIC_REQUEST (R275): The exporter checks and performs a remote atomic at its home LLC and answers. -/
  | remoteAtomicRequest (p : Packet)
  /-- REMOTE_RESPONSE_RECEIPT (R278): The initiator takes a read, write or atomic response, writing data or raising by reason. -/
  | remoteResponseReceipt (p : Packet)
  /-- REQUEST_TIMEOUT (R272): A request with no response after 100 µs is answered locally with reason 7. -/
  | requestTimeout (tag : Nat)
  /-- MULTICAST_WRITE (R283): The switch receives a multicast write and sends a copy to each group member. -/
  | multicastWrite (p : Packet)
  /-- MULTICAST_COPY_RECEIPT (R283): A member checks a multicast copy, writes the line and answers. -/
  | multicastCopyReceipt (p : Packet)
  /-- MULTICAST_MEMBER_TIMEOUT (R272): A member that has not answered after 20 µs counts as negative with reason 7. -/
  | multicastMemberTimeout (plane tag peer : Nat)
  /-- AGGREGATED_ACK_RECEIPT (R283): The sender receives the aggregated acknowledgement, writes sD and resumes the RMCST. -/
  | aggregatedAckReceipt (p : Packet)
  /-- GROUP_TABLE_WRITE (R284): A switch writes a group entry from a manager peer's packet and drops it from others. -/
  | groupTableWrite (p : Packet)
  /-- INVALIDATE_RECEIPT (R281): An importer discards its cached lines and translations of a page and acknowledges after marked reads finish. -/
  | invalidateReceipt (p : Packet)
  /-- INVALIDATE_ACK_RECEIPT (R281): An invalidate acknowledgement counts toward the completion of a sys-scope TLBINV. -/
  | invalidateAckReceipt (p : Packet)
  /-- IMPORTER_CLOSE_TIMEOUT (R281): An importer that has not acknowledged within 1 ms is closed, and the TLBINV completes. -/
  | importerCloseTimeout (peer : Nat) (page : BitVec 40)
  /-- PORT_MESSAGE_RECEIPT (R288): A port message from a remote PSEND is queued or held as a waiting sender. -/
  | portMessageReceipt (p : Packet)
  /-- NAME_LOOKUP_RECEIPT (R237): The name's home device resolves a lookup and sends a name reply. -/
  | nameLookupReceipt (p : Packet)
  /-- NAME_REPLY_RECEIPT (R237): A name reply completes a waiting NSLOOKUP with a remote port or a status. -/
  | nameReplyReceipt (p : Packet)
  /-- SHUFFLE_SEGMENT_SWITCH (R286): The switch takes a shuffle segment and XORs it with its partner arriving within 2 µs. -/
  | shuffleSegmentSwitch (p : Packet)
  /-- SHUFFLE_PAIR_TIMEOUT (R286): A segment whose partner has not arrived within 2 µs is forwarded uncoded. -/
  | shufflePairTimeout (plane n : Nat)
  /-- UNCODED_SEGMENT_RECEIPT (R287): The receiver writes an uncoded segment and acknowledges its sender. -/
  | uncodedSegmentReceipt (p : Packet)
  /-- CODED_SEGMENT_RECEIPT (R287): The receiver decodes a coded segment with its side block, or answers negative. -/
  | codedSegmentReceipt (p : Packet)
  /-- SEGMENT_NEGATIVE_RECEIPT (R287): The sender retransmits a segment uncoded with pair ID 0. -/
  | segmentNegativeReceipt (p : Packet)
  /-- SHUFFLE_DONE_RECEIPT (R287): A shuffle done counts toward completion, and the completion record is written once all have arrived. -/
  | shuffleDoneReceipt (p : Packet)
  /-- PEER_BARRIER_ARRIVAL (R289): The lowest peer counts a peer-set barrier arrival and releases every peer when all have arrived. -/
  | peerBarrierArrival (p : Packet)
  /-- PEER_BARRIER_RELEASE (R289): A device receiving a peer-set barrier release completes the phase locally. -/
  | peerBarrierRelease (p : Packet)
  /-- LINK_VERSION_MISMATCH (R273): A packet whose VER differs from the link version is dropped, and the link is trained again. -/
  | linkVersionMismatch (port : Nat)
  /-- FLIT_RETRANSMIT (R271): A flit that fails its CRC is retransmitted on the link. -/
  | flitRetransmit (port : Nat)
  /-- RESERVED_PACKET_DROP (R271): A fabric packet of a reserved type is dropped. -/
  | reservedPacketDrop (p : Packet)
  /-- REGISTER_RESULTS_WRITTEN (R95): An outstanding variable-latency instruction writes all its register results, or a store has read its sources, and its scoreboard count falls by 1. -/
  | registerResultsWritten (core slot n : Nat)
  /-- CACHE_LINE_WRITE_BACK (R207): A dirty copy of a line is written back when the line leaves its cache level. -/
  | cacheLineWriteBack (unit line : Nat)
  /-- PORT_DOWN (R269): A League port goes down, so packets take the next plane whose port is up and requests to an unreachable peer get reason 7. -/
  | portDown (port : Nat)
  /-- LINK_RETRAINED (R273): A link trained again comes back up at the highest common version, or stays down.
  It carries the range of versions of the other end and the port index the switch reports. -/
  | linkRetrained (port : Nat) (versions : Nat × Nat) (index : Nat)
  /-- PORT_MESSAGE_ANSWER_RECEIPT (R288): The sender of a remote PSEND receives the target's answer, which suspends the timeout or completes the PSEND with its status. -/
  | portMessageAnswerReceipt (p : Packet)
  /-- MAILBOX_UNKNOWN_COMMAND (R299): A mailbox request with a command the device does not know answers status 3. -/
  | mailboxUnknownCommand
  deriving DecidableEq, Repr

end Sys2Proof
end

