-- ==== Sys2Proof/WellFormed.lean ====
section
/-!
DEFINITION. Well-formedness of instructions as syntax: the fields that the row of the opcode table fixes
(`Instr.encodable`), and the form rules of R100 step 3 (`Instr.formOk`), which the machine checks when it executes an
instruction and which do not depend on the machine's state.
-/

namespace Sys2Proof

/-- The fields that tell the rows of one MAJ apart hold what the row fixes (R98, R99); a row without an encoding has
no words. -/
def Instr.encodable : Instr → Bool
  | .popcReg f => f.b == 0
  | .clzReg f => f.b == 0
  | .ctzReg f => f.b == 0
  | .movReg f => f.b == 0
  | .frcpReg f => f.b == 0
  | .frsqReg f => f.b == 0
  | .fsqrtReg f => f.b == 0
  | .fex2Reg f => f.b == 0
  | .flg2Reg f => f.b == 0
  | .moviImm f => f.a == 0
  | .brc e => e.lit.isSome
  | .jmpi e => e.lit.isSome
  | .loop e => e.lit.isSome
  | .braDisp e => e.lit.isSome
  | .bruDisp e => e.lit.isSome
  | .callDisp e => e.lit.isSome
  | .electExt e => e.lit.isNone
  | .braAbs e => e.lit.isNone
  | .bruAbs e => e.lit.isNone
  | .callAbs e => e.lit.isNone
  | .tilemvLd e => !e.mod.getLsbD 3
  | .tilemvSt e => e.mod.getLsbD 3
  | .chputRes e => e.sub == 0
  | .chputDone e => e.sub == 1
  | .chgetWait e => e.sub == 0
  | .chgetDone e => e.sub == 1
  | .regroupKey e => e.sub == 0
  | .regroupHome e => e.sub == 1
  | .crd e => e.sub == 0
  | .cwr e => e.sub == 1 && e.mod != 4 && e.mod != 0
  | .rft e => e.sub == 2
  | .ctxsv e => e.sub == 3
  | .ctxld e => e.sub == 4
  | .tlbinv e => e.sub == 5
  | .idle e => e.sub == 6
  | .objrd e => e.sub == 7
  | .objwr e => e.sub == 8
  | .pwracq e => e.sub == 9
  | .pwrrel e => e.sub == 10
  | .mgsig e => e.sub == 11
  | .ktcodePop e => e.sub == 1 && e.mod == 4
  | .kmodeIntlkWrite e => e.sub == 1 && e.mod == 0
  | .nop | .addReg _ | .addImm _ | .addLit _ | .addExt _
  | .subReg _ | .subImm _ | .subLit _ | .subExt _ | .mulReg _
  | .mulImm _ | .mulLit _ | .mulExt _ | .mulhReg _ | .mulhImm _
  | .mulhLit _ | .mulhExt _ | .divReg _ | .divImm _ | .divLit _
  | .divExt _ | .minReg _ | .minImm _ | .minLit _ | .minExt _
  | .maxReg _ | .maxImm _ | .maxLit _ | .maxExt _ | .andReg _
  | .andImm _ | .andLit _ | .andExt _ | .orReg _ | .orImm _
  | .orLit _ | .orExt _ | .xorReg _ | .xorImm _ | .xorLit _
  | .xorExt _ | .andnReg _ | .andnImm _ | .andnLit _ | .andnExt _
  | .shlReg _ | .shlImm _ | .shlLit _ | .shlExt _ | .shrReg _
  | .shrImm _ | .shrLit _ | .shrExt _ | .sarReg _ | .sarImm _
  | .sarLit _ | .sarExt _ | .popcExt _ | .clzExt _ | .ctzExt _
  | .movExt _ | .moviLit _ | .moviExt _ | .faddReg _ | .faddImm _
  | .faddLit _ | .faddExt _ | .fsubReg _ | .fsubImm _ | .fsubLit _
  | .fsubExt _ | .fmulReg _ | .fmulImm _ | .fmulLit _ | .fmulExt _
  | .fminReg _ | .fminImm _ | .fminLit _ | .fminExt _ | .fmaxReg _
  | .fmaxImm _ | .fmaxLit _ | .fmaxExt _ | .frcpExt _ | .frsqExt _
  | .fsqrtExt _ | .fex2Ext _ | .flg2Ext _ | .ffma _ | .mad _
  | .bfx _ | .bfi _ | .cmp _ | .sel _ | .lea _
  | .plog _ | .pmov _ | .ballot _ | .vote _ | .mprefix _
  | .elect _ | .cvt _ | .bqnt _ | .vdot _ | .shfl _
  | .lscan _ | .lred _ | .bra _ | .bru _ _ _ | .call _
  | .ret | .loopx _ | .brkl _ | .region | .exit
  | .yield | .trap _ | .brk | .ldReg _ | .ldLit _
  | .ldExt _ | .stReg _ | .stLit _ | .stExt _ | .ldlReg _
  | .ldlLit _ | .ldlExt _ | .stlReg _ | .stlLit _ | .stlExt _
  | .cmpst _ | .expld _ | .atom _ | .atomn _ | .fence _
  | .fenceo _ | .fencer _ | .pref _ | .cflush _ | .cinv _
  | .rld _ | .rst _ | .ratom _ | .rmcst _ | .cpy _
  | .mma _ | .accrd _ | .accwr _ | .accz _ | .chinit _
  | .cwait _ | .coll _ | .gthr _ | .bar _ | .bara _
  | .barw _ | .vgrow _ | .vshrink _ | .wcreate _ | .psend _
  | .precv _ | .objnew _ | .objdel _ | .wsadd _ | .wswait _
  | .tarm _ | .tcancel _ | .nslookup _ | .srd _ => true
  | .agentRestart _ | .trapRecordDelivery _ | .translationFill _ _ _ | .atomnPerform _ _
  | .fbpop _ | .fbrespWalkAgain _ _ | .fbrespRaise _ _ | .vgrowGrant _
  | .vgrowDeadlockBreak _ | .blockDrainDone _ | .barrierPhaseComplete _ _ | .cwaitSatisfied _
  | .fullEmptyWake _ | .fencerComplete _ | .kernelObjectWake _ | .tokenGrant
  | .idleWake _ | .channelReservationGrant _ _ | .mmaExecute _ | .mmaComplete _
  | .acczExecute _ | .accwrExecute _ | .tilemvLdExecute _ | .tilemvStExecute _
  | .copyFire _ | .copyComplete _ _ | .followOnMmaEntry _ | .gatherFire _
  | .gatherComplete _ _ | .collComplete _ _ | .timerExpiry _ | .scPeriodRelease _
  | .scBudgetExhausted _ | .kernelDispatch _ | .waveRefill _ _ | .progressWindowSwap _
  | .preemptDrain _ | .drainLimitExpiry _ | .preemptSave _ | .preemptFlushRestart _
  | .blockRestore _ _ | .blockPlacement _ _ | .congestionLevelChange _ _ | .qbaseWrite _ _ _
  | .qsizeWrite _ _ _ | .queueEnable _ _ | .qtailWrite _ _ _ | .qstatClear _ _ _
  | .registerWrite _ _ _ | .noopPacket _ _ | .launchPacket _ _ | .waitPacket _ _
  | .waitPacketFinish _ _ | .reservedPacket _ _ | .launchCompletionRecord _ | .launchArrivalReceipt _
  | .launchReleaseReceipt _ | .launchRefusalReceipt _ | .launchArrivalTimeout _ | .launchAnswerTimeout _
  | .mailboxVersion | .qdestroy | .qdestroyAnswer | .pasiddown
  | .pasiddownAnswer | .regbind | .preempt | .bootclr
  | .windowEntryWrite _ _ _ | .windowEntryReadback _ _ | .lockInterface _ | .getDeviceInterfaceReport _
  | .startInterface _ | .stopInterface _ | .tdiConfigChange _ | .ideIntegrityFailure _
  | .getMeasurements | .powerOnReset | .tempHigh _ | .tempCoolTick _
  | .remoteReadRequest _ | .remoteWriteRequest _ | .remoteAtomicRequest _ | .remoteResponseReceipt _
  | .requestTimeout _ | .multicastWrite _ | .multicastCopyReceipt _ | .multicastMemberTimeout _ _ _
  | .aggregatedAckReceipt _ | .groupTableWrite _ | .invalidateReceipt _ | .invalidateAckReceipt _
  | .importerCloseTimeout _ _ | .portMessageReceipt _ | .nameLookupReceipt _ | .nameReplyReceipt _
  | .shuffleSegmentSwitch _ | .shufflePairTimeout _ _ | .uncodedSegmentReceipt _ | .codedSegmentReceipt _
  | .segmentNegativeReceipt _ | .shuffleDoneReceipt _ | .peerBarrierArrival _ | .peerBarrierRelease _
  | .linkVersionMismatch _ | .flitRetransmit _ | .reservedPacketDrop _ | .registerResultsWritten _ _ _
  | .cacheLineWriteBack _ _ | .portDown _ | .linkRetrained _ _ _ | .portMessageAnswerReceipt _
  | .mailboxUnknownCommand => false

/-! ### Form rules (R85 to R93, R100 step 3) -/

/-- What the literal of an extended form is for (R90): LEN 01 only; LEN 11 when a field names it; LEN 11 always; or as
the entry's own rule says. -/
inductive LitUse where
  | none
  | named
  | own
  | rule
  deriving DecidableEq, Repr

/-- What an entry allows of the fields of an extended form; every field it does not allow must hold 0 (R89, R309). -/
structure Lim where
  u : Option Bool := Option.none
  lit : LitUse := .none
  d : Bool := false
  a : Bool := false
  b : Bool := false
  c : Bool := false
  guard : Bool := true
  ch : Bool := false
  nw : Bool := false
  ty : List Nat := [0]
  sub : List Nat := [0]
  mod : BitVec 16 := 0

/-- Bits lo to lo + n - 1 of MOD. -/
def Ext.m (e : Ext) (lo n : Nat) : Nat := e.mod.toNat / 2 ^ lo % 2 ^ n

/-- The code 511 stands in a field (R90). -/
def Ext.namesLit (e : Ext) : Bool := e.d9 = 511 || e.a9 = 511 || e.b9 = 511 || e.c9 = 511

/-- The fields keep to what an entry allows. -/
def Ext.fits (e : Ext) (l : Lim) : Bool :=
  (match l.u with | some b => e.u == b | none => true) &&
    (match l.lit, e.lit with
      | .none, none => true
      | .none, some _ => false
      | .named, none => true
      | .named, some _ => e.namesLit
      | .own, x => x.isSome
      | .rule, _ => true) &&
    (l.d || e.d9 == 0) && (l.a || e.a9 == 0) && (l.b || e.b9 == 0) && (l.c || e.c9 == 0) &&
    (l.guard || e.pg == 0) && !(e.pg == 0 && e.pn) && e.sbs != 7 && (l.ch || !e.ch) && (l.nw || !e.nw) &&
    l.ty.contains e.ty.toNat && l.sub.contains e.sub.toNat && e.mod &&& ~~~l.mod == 0

/-- The integer mould (R314). -/
def limInt (ty : List Nat) : Lim := { lit := .named, d := true, a := true, b := true, ch := true, nw := true, ty := ty }
/-- The types of the wrapping operations (R316). -/
def tyWrap : List Nat := [0, 1, 2, 3, 9, 10, 11, 12]
/-- The types of the shifts (R418). -/
def tyShift : List Nat := [0, 1, 2, 3, 7, 8, 9, 10, 11, 12]
/-- CLZ, CTZ and POPC (R341, R404). -/
def limCount : Lim := { limInt [1, 3, 7, 8] with b := false }
/-- The float mould (R362): the random bits stand in C9 only under rs (R123). -/
def Ext.floatOk (e : Ext) (maxRnd : Nat) (unary ffma : Bool) : Bool :=
  e.fits { limInt [4, 5, 6] with b := !unary, c := true, mod := 7 } && e.m 0 3 ≤ maxRnd &&
    (ffma || e.m 0 3 == 4 || e.c9 == 0)

/-- A SCOPE that is not reserved (R93). -/
def Ext.scopeOk (e : Ext) : Bool := e.m 2 3 ≤ 5
/-- CMPL of the FIFO instructions: its literal and its counter field (R139, R388). -/
def Ext.cmplOk (e : Ext) (named : Bool) : Bool :=
  match e.m 14 2, e.lit with
  | 0, x => x.isNone || (named && e.namesLit)
  | 1, x => match x with | some v => v.toNat < 256 | none => false
  | 2, x => x.isNone || (named && e.namesLit)
  | _, _ => false
/-- D9 names the counter only with CMPL = 2 (R138). -/
def Ext.cmplD (e : Ext) : Bool := e.m 14 2 == 2 || e.d9 == 0

/-- A kernel-object instruction (R226). -/
def limKern : Lim := { u := some true, d := true, a := true }
/-- A SYS instruction. -/
def limSys (sub : Nat) : Lim := { u := some true, guard := false, sub := [sub] }

/-- The element types of a conversion (R353): 16 is e2m1x8. -/
def cvtTypes : List Nat := [0, 1, 2, 3, 4, 5, 6, 9, 10, 11, 12, 13, 14, 15, 16]
/-- The destination type of CVT. -/
def Ext.cvtD (e : Ext) : Nat := if e.m 9 1 = 1 then 16 else e.ty.toNat
/-- The source type of CVT. -/
def Ext.cvtS (e : Ext) : Nat := if e.sub.toNat / 16 % 2 = 1 then 16 else e.sub.toNat % 16
/-- Elements per lane of a conversion's type. -/
def cvtCount (ty : Nat) : Nat :=
  if ty = 16 then 8 else if ty = 11 ∨ 12 ≤ ty then 4 else if ty = 5 ∨ ty = 6 ∨ ty = 9 ∨ ty = 10 then 2 else 1
/-- The form rules of CVT (R353). -/
def Ext.cvtOk (e : Ext) : Bool :=
  let d := e.cvtD
  let s := e.cvtS
  let scl := e.m 10 1 == 1
  e.fits { d := true, a := true, b := true, c := true, ch := true, nw := true, ty := List.range 16,
           sub := List.range 256, mod := 0x7FF } &&
    !(e.m 9 1 == 1 && e.ty != 0) && !(s == 16 && e.sub.toNat % 16 != 0) &&
    cvtTypes.contains d && cvtTypes.contains s && d != s &&
    decide (e.sub.toNat / 32 < max (cvtCount d / cvtCount s) (cvtCount s / cvtCount d)) &&
    (if scl then 13 ≤ s && !(s == 16 && e.m 8 1 == 1) else e.m 4 5 == 0 && e.b9 == 0) &&
    !(e.m 3 1 == 1 && (d ≤ 3 || (9 ≤ d && d ≤ 12) || d == 15 || d == 16)) &&
    e.m 0 3 ≤ 4 && (e.m 0 3 == 4 || e.c9 == 0)

/-- The format of VDOT, MMA and TILEMV (R139): TY, or 16 with E2M1. -/
def mulFmt (ty e2m1 : Nat) : Option Nat :=
  if e2m1 = 1 then (if ty = 0 then some 16 else none)
  else if [5, 6, 11, 13, 14, 15].contains ty then some ty else none

/-- The form rules of VDOT (R431). -/
def Ext.vdotOk (e : Ext) : Bool :=
  e.fits { u := some false, d := true, a := true, b := true, c := true, ty := [0, 5, 6, 11, 13, 14, 15], mod := 0x1FF7 } &&
    match mulFmt e.ty.toNat (e.m 9 1) with
    | none => false
    | some f =>
      e.m 0 3 ≤ 3 && (f != 11 || e.m 0 3 == 0) && (e.m 11 1 == 0 || f == 13 || f == 14) &&
        (13 ≤ f || (e.m 10 1 == 0 && e.m 4 5 == 0)) && !(f == 16 && e.m 8 1 == 1) &&
        (e.m 10 1 == 1 || (e.m 4 5 == 0 && e.c9 == 0))

/-- The form rules of BQNT (R329). -/
def Ext.bqntOk (e : Ext) : Bool :=
  e.fits { u := some false, d := true, a := true, b := true, c := true, ty := [0, 13, 14, 15], mod := 0x3FF } &&
    (if e.m 9 1 = 1 then e.ty == 0 && e.m 8 1 == 0 else e.ty != 0) &&
    !(e.m 3 1 == 1 && (e.ty == 15 || e.m 9 1 == 1)) && e.m 0 3 ≤ 4 && (e.m 0 3 == 4 || e.c9 == 0)

/-- The combinations of operation and type of an atomic (R318, R277). -/
def atomTypeOk (f32ops : List Nat) (op ty : Nat) : Bool :=
  (!(3 ≤ op && op ≤ 5) || ty == 1 || ty == 3) && (ty != 4 || f32ops.contains op)

/-- B3 with registers: the types an entry lists. -/
def B3.in (f : B3) (ty : List Nat) : Bool := ty.contains f.ty3.toNat
/-- A unary B3. -/
def B3.unary (f : B3) (ty : List Nat) : Bool := ty.contains f.ty3.toNat && f.b == 0
/-- B3 with a literal: I = 1 and IMM9 = 0 (R85). -/
def B3L.ok (f : B3L) : Bool := f.i && f.f == 0
/-- BM with a literal: OFF6 = 0 (R86). -/
def BML.ok (f : BML) : Bool := f.off == 0

/-- The form rules of R100 step 3 that depend on the instruction's fields alone. ACCWR and ACCZ take the D9, literal and MOD
bits 15:14 that R312 and R313 give them, against R138 and R139.
DEDUCED, unsafe: notes/assumptions/34.md; DESIGN CHOICE, unsafe: notes/assumptions/84.md. -/
def Instr.formOk : Instr → Bool
  | .addReg f | .subReg f | .mulReg f | .mulhReg f | .divReg f | .minReg f | .maxReg f => f.in [0, 1, 2, 3]
  | .andReg f | .orReg f | .xorReg f | .andnReg f => f.in [7]
  | .shlReg f | .shrReg f | .sarReg f => f.in [0, 1, 2, 3, 7]
  | .popcReg f | .clzReg f | .ctzReg f => f.unary [1, 3, 7]
  | .movReg f => f.unary (List.range 8)
  | .faddReg f | .fsubReg f | .fmulReg f | .fminReg f | .fmaxReg f => f.in [4, 5, 6]
  | .frcpReg f | .frsqReg f | .fsqrtReg f | .fex2Reg f | .flg2Reg f => f.unary [4, 5, 6]
  | .addLit f | .subLit f | .mulLit f | .mulhLit f | .divLit f | .minLit f | .maxLit f | .andLit f | .orLit f
  | .xorLit f | .andnLit f | .shlLit f | .shrLit f | .sarLit f | .faddLit f | .fsubLit f | .fmulLit f | .fminLit f
  | .fmaxLit f => f.ok
  | .moviImm f => f.a == 0
  | .moviLit f => f.ok && f.a == 0
  | .addExt e | .subExt e | .mulExt e | .mulhExt e | .minExt e | .maxExt e => e.fits (limInt tyWrap)
  | .divExt e => e.fits { limInt [0, 1, 2, 3] with mod := 1 }
  | .andExt e | .orExt e | .xorExt e | .andnExt e => e.fits (limInt [7, 8])
  | .shlExt e | .shrExt e | .sarExt e => e.fits (limInt tyShift)
  | .popcExt e | .clzExt e | .ctzExt e => e.fits limCount
  | .movExt e =>
    e.fits { limInt (List.range 9) with b := false, mod := 0x201 } && (e.m 9 1 == 0 || (e.m 0 1 == 1 && e.ty == 0))
  | .moviExt e => e.fits { limInt (List.range 16) with b := false }
  | .faddExt e | .fsubExt e | .fmulExt e => e.floatOk 4 false false
  | .fminExt e | .fmaxExt e => e.floatOk 0 false false
  | .frcpExt e | .frsqExt e | .fsqrtExt e | .fex2Ext e | .flg2Ext e => e.floatOk 3 true false
  | .ffma e => e.floatOk 3 false true
  | .mad e =>
    e.fits { limInt [0, 1, 2, 3] with c := true, mod := 1 } && !(e.m 0 1 == 1 && (e.ty == 2 || e.ty == 3))
  | .bfx e => e.fits (limInt [0, 1, 2, 3])
  | .bfi e => e.fits { limInt [0, 1, 2, 3, 7, 8] with c := true }
  | .cmp e =>
    e.fits { limInt [0, 1, 2, 3, 4, 7, 8] with nw := false, mod := 0x3F } && e.m 0 4 ≤ 6 && e.m 4 2 ≤ 2 &&
      !(2 ≤ e.m 0 4 && (e.ty == 7 || e.ty == 8)) && !(e.m 0 4 == 6 && e.ty != 4)
  | .sel e => e.fits { limInt (List.range 9) with c := true, mod := 1 }
  | .lea e => e.fits { limInt [0, 1] with ch := false, mod := 7 }
  | .plog e => e.fits { u := some false, d := true, a := true, b := true, c := true, ch := true, mod := 0xFF }
  | .pmov e => e.fits { u := some false, lit := .named, d := true, a := true }
  | .ballot e => e.fits { u := some false, d := true, a := true, mod := 1 }
  | .vote e => e.fits { u := some false, d := true, a := true, mod := 7 } && e.m 0 2 ≤ 2
  | .mprefix e => e.fits { u := some false, d := true, a := true, ch := true, mod := 3 }
  | .electExt e => e.fits { u := some false, d := true }
  | .cvt e => e.cvtOk
  | .bqnt e => e.bqntOk
  | .vdot e => e.vdotOk
  | .shfl e =>
    e.fits { u := some false, lit := .named, d := true, a := true, b := true, ty := [7, 8], mod := 0x1F } && e.m 2 3 ≤ 5
  | .lscan e => e.fits { u := some false, d := true, a := true, ty := lredTy e, sub := List.range 6, mod := 1 }
  | .lred e => e.fits { u := some false, d := true, a := true, ty := lredTy e, sub := List.range 6 }
  | .braAbs e | .callAbs e => e.fits { u := some false, guard := false, a := true }
  | .braDisp e | .callDisp e => e.fits { u := some false, guard := false, lit := .own }
  | .brc e => e.fits { u := some false, guard := false, lit := .own, a := true, mod := 3 }
  | .bruAbs e => e.fits { u := some false, guard := false, a := true, b := true, mod := 1 }
  | .bruDisp e => e.fits { u := some false, guard := false, lit := .own, a := true, mod := 1 }
  | .jmpi e => e.fits { u := some false, guard := false, lit := .own, a := true }
  | .loop e =>
    e.fits { u := some false, guard := false, lit := .own, a := true, mod := 0x1F } &&
      !(e.m 3 1 == 0 && (e.m 0 3 != 0 || e.m 4 1 == 1)) &&
      (e.a9 == 511 || (e.lit.getD 0).toNat < 2 ^ 32)
  | .loopx e => e.fits { u := some false, guard := false, mod := 3 }
  | .brkl e => e.fits { u := some false, guard := false, a := true, mod := 1 }
  | .ldReg f | .ldlReg f => f.sz ≠ 7
  | .ldLit f | .ldlLit f => f.ok && f.sz != 7
  | .stReg f | .stlReg f => f.sz < 5
  | .stLit f | .stlLit f => f.ok && f.sz < 5
  | .ldExt e =>
    e.fits { lit := .named, d := true, a := true, b := true, mod := 0xE7F } && e.scopeOk && e.m 0 2 ≤ 1 && e.m 9 3 ≤ 6
  | .stExt e =>
    e.fits { lit := .named, a := true, b := true, c := true, mod := 0xE7F } && e.scopeOk && e.m 0 1 == 0 && e.m 9 3 ≤ 4
  | .ldlExt e => e.fits { lit := .named, d := true, a := true, b := true, mod := 0xF80 } && e.m 7 2 ≤ 2 && e.m 9 3 ≤ 6
  | .stlExt e =>
    e.fits { lit := .named, a := true, b := true, c := true, mod := 0xF80 } && (e.m 7 2 == 0 || e.m 7 2 == 3) && e.m 9 3 ≤ 4
  | .cmpst e =>
    e.fits { u := some false, d := true, a := true, b := true, c := true, mod := 0x1E7F } && e.scopeOk && e.m 0 1 == 0 &&
      e.m 9 3 ≤ 3
  | .expld e =>
    e.fits { u := some false, d := true, a := true, b := true, c := true, mod := 0x1E7F } && e.scopeOk && e.m 0 2 ≤ 1 &&
      e.m 9 3 != 4 && e.m 9 3 != 7
  | .atom e =>
    e.fits { lit := .named, d := true, a := true, b := true, c := true, ty := [0, 1, 2, 3, 4], sub := List.range 8,
             mod := 0x7F } && e.scopeOk && atomTypeOk [0, 6, 7] e.sub.toNat e.ty.toNat && (e.sub == 7 || e.c9 == 0)
  | .atomn e =>
    e.fits { lit := .named, a := true, b := true, ty := [0, 1, 2, 3, 4], sub := List.range 6, mod := 0x7F } && e.scopeOk &&
      atomTypeOk [0, 6, 7] e.sub.toNat e.ty.toNat && e.m 0 1 == 0
  | .fence e => e.fits { mod := 0x1F } && e.scopeOk && e.m 0 2 != 0
  | .fenceo s => s < 6
  | .fencer e => e.fits { mod := 0x1C } && 1 ≤ e.m 2 3 && e.m 2 3 ≤ 4
  | .pref e => e.fits { lit := .named, a := true, b := true, mod := 0x660 }
  | .cflush e | .cinv e =>
    e.fits { u := some true, lit := .named, a := true, b := true, mod := 0x1C } && 2 ≤ e.m 2 3 && e.scopeOk
  | .rld e =>
    e.fits { u := some false, d := true, a := true, b := true, mod := 0xE7F } && e.m 2 3 == 5 && e.m 0 2 ≤ 1 && e.m 9 3 ≤ 6
  | .rst e =>
    e.fits { u := some false, a := true, b := true, c := true, mod := 0xE7F } && e.m 2 3 == 5 && e.m 0 1 == 0 && e.m 9 3 ≤ 4
  | .ratom e =>
    e.fits { u := some false, d := true, a := true, b := true, c := true, ty := [0, 1, 2, 3, 4], sub := List.range 8,
             mod := 0x7F } && e.m 2 3 == 5 && atomTypeOk [0] e.sub.toNat e.ty.toNat
  | .rmcst e =>
    e.fits { u := some false, d := true, a := true, b := true, c := true, mod := 0x1E1F } && e.m 2 3 == 5 && e.m 0 1 == 0
  | .cpy e =>
    e.fits { u := some true, d := true, a := true, b := true, c := true, mod := 0x3FFF } && e.scopeOk &&
      (match e.m 7 2 with | 0 => e.m 9 4 == 0 | 1 => e.b9 == 0 | 2 => e.b9 == 0 && e.m 12 1 == 0 | _ => e.m 9 4 == 0)
  | .mma e =>
    e.fits { u := some false, lit := .rule, d := true, a := true, b := true, c := true, ty := [0, 5, 6, 11, 13, 14, 15],
             mod := 0xFFFF } && (mulFmt e.ty.toNat (e.m 12 1)).isSome && (e.m 11 1 == 0 || e.ty == 13 || e.ty == 14) &&
      (e.m 2 1 == 0 || e.m 3 3 == 0) && (e.m 6 1 == 0 || e.m 7 3 == 0) && e.cmplOk false && e.cmplD
  | .accrd e => e.fits { u := some false, lit := .named, d := true, a := true, mod := 3 }
  | .accwr e =>
    e.fits { u := some false, lit := .rule, d := true, a := true, b := true, mod := 0xC003 } && e.cmplOk true && e.cmplD
  | .accz e => e.fits { u := some false, lit := .rule, d := true, ty := [0, 4], mod := 0xC003 } && e.cmplOk false && e.cmplD
  | .tilemvLd e =>
    e.fits { u := some false, guard := false, lit := .rule, d := true, a := true, ty := [0, 5, 6, 11, 13, 14, 15], mod := 0xF007 } &&
      (mulFmt e.ty.toNat (e.m 12 1)).isSome && e.cmplOk false && e.cmplD
  | .tilemvSt e =>
    e.fits { u := some false, guard := false, lit := .rule, d := true, a := true, mod := 0xE00F } && e.cmplOk false && e.cmplD
  | .chinit e => e.fits { u := some true, a := true, b := true, c := true, mod := 0xF }
  | .chputRes e | .chgetWait e => e.fits { u := some true, d := true, mod := 0xF }
  | .chputDone e | .chgetDone e => e.fits { u := some true, a := true, sub := [1], mod := 0xF }
  | .cwait e => e.fits { u := some true, lit := .named, a := true, b := true, mod := 0x1F } && e.scopeOk && e.m 0 2 ≤ 1
  | .coll e =>
    e.fits { u := some true, d := true, a := true, sub := List.range 5, mod := 0xFF } && e.scopeOk && 2 ≤ e.m 5 3
  | .gthr e =>
    e.fits { u := some true, d := true, a := true, b := true, c := true, mod := 0x1FFF } && e.scopeOk && e.m 7 2 != 2 &&
      (e.m 7 2 == 1 || e.m 9 4 == 0)
  | .bar e => e.fits { u := some false, guard := false, mod := 0xFF }
  | .bara e => e.fits { u := some false, guard := false, d := true, mod := 0xFF }
  | .barw e => e.fits { u := some false, guard := false, a := true, mod := 0xFF }
  | .regroupKey e => e.fits { u := some false, guard := false, d := true, a := true, b := true, mod := 0x1FFF }
  | .regroupHome e => e.fits { u := some false, guard := false, d := true, b := true, sub := [1], mod := 0x1FFF }
  | .vgrow e => e.fits { u := some false, guard := false, d := true, mod := 7 } && 1 ≤ e.m 0 3 && e.m 0 3 ≤ 4
  | .vshrink e => e.fits { u := some false, guard := false, mod := 7 } && 1 ≤ e.m 0 3 && e.m 0 3 ≤ 4
  | .wcreate e | .objdel e | .tcancel e | .nslookup e => e.fits limKern
  | .psend e =>
    e.fits { limKern with b := true, c := true, mod := 0xF } && e.m 1 3 ≤ 4 && (e.m 1 3 == 0) == (e.c9 == 0)
  | .precv e => e.fits { limKern with b := true, c := true, mod := 1 }
  | .objnew e =>
    e.fits { limKern with b := true, mod := 0xF } && (e.m 0 4 == 3 || ((e.m 0 4 == 4 || e.m 0 4 == 5) && e.a9 == 0 && e.b9 == 0))
  | .wsadd e => e.fits { limKern with b := true, mod := 0x3F }
  | .wswait e => e.fits { limKern with mod := 1 }
  | .tarm e => e.fits { limKern with b := true, c := true }
  | .srd e => e.fits { d := true, mod := 0x3F } && e.m 0 6 < 18
  | .crd e => e.fits { limSys 0 with d := true, mod := 0xFFF } && e.m 0 12 < 0xD
  | .cwr e | .ktcodePop e | .kmodeIntlkWrite e => e.fits { limSys 1 with lit := .named, a := true, mod := 0xFFF } && e.m 0 12 < 0xD
  | .rft e => e.fits { limSys 2 with lit := .named, d := true, a := true, b := true, c := true, mod := 0xF }
  | .ctxsv e => e.fits { limSys 3 with d := true, a := true, b := true, c := true, mod := 3 } && (e.m 1 1 == 1 || e.c9 == 0)
  | .ctxld e => e.fits { limSys 4 with d := true, a := true, b := true, c := true, mod := 3 } && (e.m 1 1 == 1 || e.c9 == 0)
  | .tlbinv e =>
    e.fits { limSys 5 with d := true, a := true, b := true, mod := 0x3C } && 1 ≤ e.m 2 3 && e.scopeOk &&
      (e.m 5 1 == 0 || (e.a9 == 320 && e.b9 == 320))
  | .idle e => e.fits { limSys 6 with d := true, a := true }
  | .objrd e => e.fits { limSys 7 with d := true, a := true, b := true }
  | .objwr e => e.fits { limSys 8 with d := true, a := true, b := true }
  | .pwracq e => e.fits { limSys 9 with lit := .named, d := true, a := true }
  | .pwrrel e => e.fits { limSys 10 with lit := .named, d := true, a := true }
  | .mgsig e => e.fits { limSys 11 with d := true, a := true, b := true }
  | _ => true
where
  /-- The types of LRED and LSCAN by operation (R382). -/
  lredTy (e : Ext) : List Nat := if e.sub < 3 then [0, 1, 4] else [7]

end Sys2Proof
end

