-- ==== Sys2Proof/Decode.lean ====
section
/-!
DEFINITION. The decoder (R78 to R79, R85 to R90, R98, R99), total on any bytes and rejecting by name, and the encoder
written from the same tables. What R100 checks after LEN, MAJ and SUB (its steps 3 to 7) is no part of decoding: the
form rules are `Instr.formOk`, the rest is each meaning's.
-/

namespace Sys2Proof

/-- Why bytes are no instruction, by the step of R100 that fails. -/
inductive Reject where
  /-- The bytes end before the instruction does. -/
  | truncated
  /-- R100 step 1: a reserved MAJ, or a LEN the MAJ does not allow. -/
  | major
  /-- R100 step 3 for SYS (MAJ 0x7D): a reserved SUB; in user mode step 2 comes first. -/
  | sysSub
  /-- R100 step 3: a reserved SUB or a field that no row's fixed bits allow. -/
  | form
  deriving DecidableEq, Repr

/-- A word from its four bytes, least significant first (R7). -/
def wordOf (a b c d : Byte) : Word := d ++ c ++ b ++ a

/-- The B3 fields with two registers (R85). -/
def B3.ofWord (w : Word) : B3 :=
  ⟨w.getLsbD 2, w.extractLsb' 28 3, w.extractLsb' 22 6, w.extractLsb' 16 6, w.extractLsb' 10 6⟩
/-- The B3 fields with an immediate (R85). -/
def B3I.ofWord (w : Word) : B3I :=
  ⟨w.getLsbD 2, w.extractLsb' 22 9, w.extractLsb' 16 6, w.extractLsb' 10 6⟩
/-- The B3 fields with a literal (R85); the literal's low word comes first (R78). -/
def B3L.ofWords (w lo hi : Word) : B3L :=
  ⟨w.getLsbD 2, w.getLsbD 31, w.extractLsb' 22 9, w.extractLsb' 16 6, w.extractLsb' 10 6, hi ++ lo⟩
/-- The BM fields (R86). -/
def BM.ofWord (w : Word) : BM :=
  ⟨w.getLsbD 2, w.extractLsb' 28 3, w.extractLsb' 22 6, w.extractLsb' 16 6, w.extractLsb' 10 6⟩
/-- The BM fields with a literal (R86). -/
def BML.ofWords (w lo hi : Word) : BML :=
  ⟨w.getLsbD 2, w.extractLsb' 28 3, w.extractLsb' 22 6, w.extractLsb' 16 6, w.extractLsb' 10 6, hi ++ lo⟩
/-- The fields of the extended form (R89). -/
def Ext.ofWords (w0 w1 w2 : Word) (lit : Option (BitVec 64)) : Ext where
  u := w0.getLsbD 2
  d9 := w0.extractLsb' 10 9
  a9 := w0.extractLsb' 19 9
  pg := w0.extractLsb' 28 4
  b9 := w1.extractLsb' 0 9
  c9 := w1.extractLsb' 9 9
  pn := w1.getLsbD 18
  nw := w1.getLsbD 19
  ch := w1.getLsbD 20
  stall := w1.extractLsb' 21 4
  sbs := w1.extractLsb' 25 3
  ty := w1.extractLsb' 28 4
  wait := w2.extractLsb' 0 6
  sub := w2.extractLsb' 6 10
  mod := w2.extractLsb' 16 16
  lit := lit

/-- The binary operations of the B3 form with two registers (R85, R98). -/
def b3Reg (maj : Nat) (f : B3) : Option Instr :=
  match maj with
  | 0x01 => some (.addReg f)
  | 0x02 => some (.subReg f)
  | 0x03 => some (.mulReg f)
  | 0x04 => some (.mulhReg f)
  | 0x06 => some (.divReg f)
  | 0x07 => some (.minReg f)
  | 0x08 => some (.maxReg f)
  | 0x09 => some (.andReg f)
  | 0x0A => some (.orReg f)
  | 0x0B => some (.xorReg f)
  | 0x0C => some (.andnReg f)
  | 0x0D => some (.shlReg f)
  | 0x0E => some (.shrReg f)
  | 0x0F => some (.sarReg f)
  | 0x20 => some (.faddReg f)
  | 0x21 => some (.fsubReg f)
  | 0x22 => some (.fmulReg f)
  | 0x24 => some (.fminReg f)
  | 0x25 => some (.fmaxReg f)
  | _ => none

/-- The unary operations of the B3 form: I = 0 and B = 0 (R85, R98). -/
def b3Unary (maj : Nat) (f : B3) : Option Instr :=
  match maj with
  | 0x12 => some (.popcReg f)
  | 0x13 => some (.clzReg f)
  | 0x14 => some (.ctzReg f)
  | 0x17 => some (.movReg f)
  | 0x26 => some (.frcpReg f)
  | 0x27 => some (.frsqReg f)
  | 0x28 => some (.fsqrtReg f)
  | 0x29 => some (.fex2Reg f)
  | 0x2A => some (.flg2Reg f)
  | _ => none

/-- The B3 operations with an immediate (R85, R98). -/
def b3Imm (maj : Nat) (f : B3I) : Option Instr :=
  match maj with
  | 0x01 => some (.addImm f)
  | 0x02 => some (.subImm f)
  | 0x03 => some (.mulImm f)
  | 0x04 => some (.mulhImm f)
  | 0x06 => some (.divImm f)
  | 0x07 => some (.minImm f)
  | 0x08 => some (.maxImm f)
  | 0x09 => some (.andImm f)
  | 0x0A => some (.orImm f)
  | 0x0B => some (.xorImm f)
  | 0x0C => some (.andnImm f)
  | 0x0D => some (.shlImm f)
  | 0x0E => some (.shrImm f)
  | 0x0F => some (.sarImm f)
  | 0x20 => some (.faddImm f)
  | 0x21 => some (.fsubImm f)
  | 0x22 => some (.fmulImm f)
  | 0x24 => some (.fminImm f)
  | 0x25 => some (.fmaxImm f)
  | 0x18 => some (.moviImm f)
  | _ => none

/-- The B3 operations with a literal in place of the immediate (R85, R98). -/
def b3Lit (maj : Nat) (f : B3L) : Option Instr :=
  match maj with
  | 0x01 => some (.addLit f)
  | 0x02 => some (.subLit f)
  | 0x03 => some (.mulLit f)
  | 0x04 => some (.mulhLit f)
  | 0x06 => some (.divLit f)
  | 0x07 => some (.minLit f)
  | 0x08 => some (.maxLit f)
  | 0x09 => some (.andLit f)
  | 0x0A => some (.orLit f)
  | 0x0B => some (.xorLit f)
  | 0x0C => some (.andnLit f)
  | 0x0D => some (.shlLit f)
  | 0x0E => some (.shrLit f)
  | 0x0F => some (.sarLit f)
  | 0x20 => some (.faddLit f)
  | 0x21 => some (.fsubLit f)
  | 0x22 => some (.fmulLit f)
  | 0x24 => some (.fminLit f)
  | 0x25 => some (.fmaxLit f)
  | 0x18 => some (.moviLit f)
  | _ => none

/-- The BM operations with OFF6 (R86, R98). -/
def bmReg (maj : Nat) (f : BM) : Option Instr :=
  match maj with
  | 0x48 => some (.ldReg f)
  | 0x49 => some (.stReg f)
  | 0x4A => some (.ldlReg f)
  | 0x4B => some (.stlReg f)
  | _ => none

/-- The BM operations with a literal offset (R86, R98). -/
def bmLit (maj : Nat) (f : BML) : Option Instr :=
  match maj with
  | 0x48 => some (.ldLit f)
  | 0x49 => some (.stLit f)
  | 0x4A => some (.ldlLit f)
  | 0x4B => some (.stlLit f)
  | _ => none

/-- SYS by SUB (R98); a CWR of control register 4 or 0 is a row of its own (R94, R254). -/
def sysRow (e : Ext) : Option Instr :=
  match e.sub.toNat with
  | 0x000 => some (.crd e)
  | 0x001 => if e.mod = 4 then some (.ktcodePop e) else if e.mod = 0 then some (.kmodeIntlkWrite e)
    else some (.cwr e)
  | 0x002 => some (.rft e)
  | 0x003 => some (.ctxsv e)
  | 0x004 => some (.ctxld e)
  | 0x005 => some (.tlbinv e)
  | 0x006 => some (.idle e)
  | 0x007 => some (.objrd e)
  | 0x008 => some (.objwr e)
  | 0x009 => some (.pwracq e)
  | 0x00A => some (.pwrrel e)
  | 0x00B => some (.mgsig e)
  | _ => none

/-- The extended forms (R89, R98, R99): BRA, BRU and CALL take their target from a scalar without a literal and from
the literal with one; TILEMV is told apart by MOD bit 3 (R427), CHPUT, CHGET, REGROUP and SYS by SUB. -/
def extRow (maj : Nat) (e : Ext) : Option Instr :=
  match maj with
  | 0x01 => some (.addExt e)
  | 0x02 => some (.subExt e)
  | 0x03 => some (.mulExt e)
  | 0x04 => some (.mulhExt e)
  | 0x05 => some (.mad e)
  | 0x06 => some (.divExt e)
  | 0x07 => some (.minExt e)
  | 0x08 => some (.maxExt e)
  | 0x09 => some (.andExt e)
  | 0x0A => some (.orExt e)
  | 0x0B => some (.xorExt e)
  | 0x0C => some (.andnExt e)
  | 0x0D => some (.shlExt e)
  | 0x0E => some (.shrExt e)
  | 0x0F => some (.sarExt e)
  | 0x10 => some (.bfx e)
  | 0x11 => some (.bfi e)
  | 0x12 => some (.popcExt e)
  | 0x13 => some (.clzExt e)
  | 0x14 => some (.ctzExt e)
  | 0x15 => some (.cmp e)
  | 0x16 => some (.sel e)
  | 0x17 => some (.movExt e)
  | 0x18 => some (.moviExt e)
  | 0x19 => some (.lea e)
  | 0x1A => some (.plog e)
  | 0x1B => some (.pmov e)
  | 0x1C => some (.ballot e)
  | 0x1D => some (.vote e)
  | 0x1E => some (.mprefix e)
  | 0x1F => if e.lit.isSome then none else some (.electExt e)
  | 0x20 => some (.faddExt e)
  | 0x21 => some (.fsubExt e)
  | 0x22 => some (.fmulExt e)
  | 0x23 => some (.ffma e)
  | 0x24 => some (.fminExt e)
  | 0x25 => some (.fmaxExt e)
  | 0x26 => some (.frcpExt e)
  | 0x27 => some (.frsqExt e)
  | 0x28 => some (.fsqrtExt e)
  | 0x29 => some (.fex2Ext e)
  | 0x2A => some (.flg2Ext e)
  | 0x2B => some (.cvt e)
  | 0x2C => some (.bqnt e)
  | 0x2D => some (.vdot e)
  | 0x2E => some (.shfl e)
  | 0x2F => some (.lscan e)
  | 0x30 => some (.lred e)
  | 0x38 => if e.lit.isSome then some (.braDisp e) else some (.braAbs e)
  | 0x39 => if e.lit.isSome then some (.brc e) else none
  | 0x3A => if e.lit.isSome then some (.bruDisp e) else some (.bruAbs e)
  | 0x3B => if e.lit.isSome then some (.callDisp e) else some (.callAbs e)
  | 0x3D => if e.lit.isSome then some (.jmpi e) else none
  | 0x3E => if e.lit.isSome then some (.loop e) else none
  | 0x3F => some (.loopx e)
  | 0x40 => some (.brkl e)
  | 0x48 => some (.ldExt e)
  | 0x49 => some (.stExt e)
  | 0x4A => some (.ldlExt e)
  | 0x4B => some (.stlExt e)
  | 0x4C => some (.cmpst e)
  | 0x4D => some (.expld e)
  | 0x4E => some (.atom e)
  | 0x4F => some (.atomn e)
  | 0x50 => some (.fence e)
  | 0x52 => some (.fencer e)
  | 0x53 => some (.pref e)
  | 0x54 => some (.cflush e)
  | 0x55 => some (.cinv e)
  | 0x56 => some (.rld e)
  | 0x57 => some (.rst e)
  | 0x58 => some (.ratom e)
  | 0x59 => some (.rmcst e)
  | 0x60 => some (.cpy e)
  | 0x61 => some (.mma e)
  | 0x62 => some (.accrd e)
  | 0x63 => some (.accwr e)
  | 0x64 => some (.accz e)
  | 0x65 => if e.mod.getLsbD 3 then some (.tilemvSt e) else some (.tilemvLd e)
  | 0x66 => some (.chinit e)
  | 0x67 => (match e.sub.toNat with | 0 => some (.chputRes e) | 1 => some (.chputDone e) | _ => none)
  | 0x68 => (match e.sub.toNat with | 0 => some (.chgetWait e) | 1 => some (.chgetDone e) | _ => none)
  | 0x69 => some (.cwait e)
  | 0x6A => some (.coll e)
  | 0x6B => some (.gthr e)
  | 0x6C => some (.bar e)
  | 0x6D => some (.bara e)
  | 0x6E => some (.barw e)
  | 0x6F => (match e.sub.toNat with | 0 => some (.regroupKey e) | 1 => some (.regroupHome e) | _ => none)
  | 0x70 => some (.vgrow e)
  | 0x71 => some (.vshrink e)
  | 0x72 => some (.wcreate e)
  | 0x73 => some (.psend e)
  | 0x74 => some (.precv e)
  | 0x75 => some (.objnew e)
  | 0x76 => some (.objdel e)
  | 0x77 => some (.wsadd e)
  | 0x78 => some (.wswait e)
  | 0x79 => some (.tarm e)
  | 0x7A => some (.tcancel e)
  | 0x7B => some (.nslookup e)
  | 0x7C => some (.srd e)
  | 0x7D => sysRow e
  | _ => none

/-- The BJ and B0 words (R87, R88): U is 0 and the unused bits are 0. -/
def b0Row (maj : Nat) (w : Word) : Except Reject Instr :=
  let bare (i : Instr) : Except Reject Instr := if w.extractLsb' 10 22 = 0 then .ok i else .error .form
  if w.getLsbD 2 then
    (if maj ∈ [0x00, 0x1F, 0x38, 0x3A, 0x3B, 0x3C, 0x41, 0x42, 0x43, 0x44, 0x45, 0x51] then .error .form
     else .error .major)
  else match maj with
  | 0x00 => bare .nop
  | 0x1F => if w.extractLsb' 14 18 = 0 then .ok (.elect (w.extractLsb' 10 4)) else .error .form
  | 0x38 => .ok (.bra (w.extractLsb' 10 22))
  | 0x3A => .ok (.bru (w.extractLsb' 15 17) (w.getLsbD 14) (w.extractLsb' 10 4))
  | 0x3B => .ok (.call (w.extractLsb' 10 22))
  | 0x3C => bare .ret
  | 0x41 => bare .region
  | 0x42 => bare .exit
  | 0x43 => bare .yield
  | 0x44 => if w.extractLsb' 18 14 = 0 then .ok (.trap (w.extractLsb' 10 8)) else .error .form
  | 0x45 => bare .brk
  | 0x51 => if w.extractLsb' 13 19 = 0 then .ok (.fenceo (w.extractLsb' 10 3)) else .error .form
  | _ => .error .major

/-- LEN 0b00: one word (R99). -/
def decodeOne (maj : Nat) (w : Word) : Except Reject Instr :=
  match b3Reg maj (.ofWord w), b3Unary maj (.ofWord w), b3Imm maj (.ofWord w), bmReg maj (.ofWord w) with
  | some r, _, i, _ => if w.getLsbD 31 then i.elim (.error .form) .ok else .ok r
  | none, some r, _, _ =>
    if w.getLsbD 31 || w.extractLsb' 22 6 != 0 then .error .form else .ok r
  | none, none, some i, _ =>
    if w.getLsbD 31 && w.extractLsb' 16 6 == 0 then .ok i else .error .form
  | none, none, none, some m => if w.getLsbD 31 then .error .form else .ok m
  | none, none, none, none => b0Row maj w

/-- LEN 0b10: one word and a literal (R99); a NOP word is refused as a form (R99). -/
def decodeLit (maj : Nat) (w lo hi : Word) : Except Reject Instr :=
  match b3Lit maj (.ofWords w lo hi), b3Unary maj (.ofWord w), bmLit maj (.ofWords w lo hi) with
  | some r, _, _ => .ok r
  | none, some _, _ => .error .form
  | none, none, some m => if w.getLsbD 31 then .error .form else .ok m
  | none, none, none => .error .major

/-- LEN 0b01 and 0b11: the extended form (R99). -/
def decodeExt (maj : Nat) (e : Ext) : Except Reject Instr :=
  match extRow maj e with
  | some i => .ok i
  | none =>
    if maj = 0x7D then .error .sysSub
    else if maj = 0x67 || maj = 0x68 || maj = 0x6F then .error .form
    else .error .major

/-- The number of words an instruction has, by the LEN of its word 0 (R78). -/
def wordsOf (w0 : Word) : Nat :=
  match (w0.extractLsb' 0 2).toNat with
  | 0 => 1
  | 3 => 5
  | _ => 3

/-- One instruction from its words, the first given apart. -/
def decodeWords (w0 : Word) (rest : List Word) : Except Reject Instr :=
  let maj := (w0.extractLsb' 3 7).toNat
  match (w0.extractLsb' 0 2).toNat, rest with
  | 0, _ => decodeOne maj w0
  | 1, w1 :: w2 :: _ => decodeExt maj (.ofWords w0 w1 w2 none)
  | 2, lo :: hi :: _ => decodeLit maj w0 lo hi
  | 3, w1 :: w2 :: lo :: hi :: _ => decodeExt maj (.ofWords w0 w1 w2 (some (hi ++ lo)))
  | _, _ => .error .truncated

/-- The whole words of a list of bytes (R7). -/
def wordsOfBytes : List Byte → List Word
  | a :: b :: c :: d :: bs => wordOf a b c d :: wordsOfBytes bs
  | _ => []

/-- One instruction and the bytes that follow it, or the reason the bytes are none.
DEDUCED, unsafe: notes/assumptions/76.md. -/
def decode (bs : List Byte) : Except Reject (Instr × List Byte) :=
  match wordsOfBytes bs with
  | [] => .error .truncated
  | w0 :: rest =>
    match decodeWords w0 rest with
    | .ok i => .ok (i, bs.drop (4 * wordsOf w0))
    | .error r => .error r

/-- The words of a B3 instruction with two registers (R85). -/
def B3.word (f : B3) (maj : BitVec 7) : Word :=
  BitVec.ofBool false ++ f.ty3 ++ f.b ++ f.a ++ f.d ++ maj ++ BitVec.ofBool f.u ++ (0 : BitVec 2)
/-- The word of a B3 instruction with an immediate (R85). -/
def B3I.word (f : B3I) (maj : BitVec 7) : Word :=
  BitVec.ofBool true ++ f.imm ++ f.a ++ f.d ++ maj ++ BitVec.ofBool f.u ++ (0 : BitVec 2)
/-- The three words of a B3 instruction with a literal (R85). -/
def B3L.words (f : B3L) (maj : BitVec 7) : List Word :=
  [BitVec.ofBool f.i ++ f.f ++ f.a ++ f.d ++ maj ++ BitVec.ofBool f.u ++ (2 : BitVec 2),
   f.lit.extractLsb' 0 32, f.lit.extractLsb' 32 32]
/-- The word of a BM instruction (R86). -/
def BM.word (f : BM) (maj : BitVec 7) : Word :=
  BitVec.ofBool false ++ f.sz ++ f.off ++ f.a ++ f.d ++ maj ++ BitVec.ofBool f.u ++ (0 : BitVec 2)
/-- The three words of a BM instruction with a literal (R86). -/
def BML.words (f : BML) (maj : BitVec 7) : List Word :=
  [BitVec.ofBool false ++ f.sz ++ f.off ++ f.a ++ f.d ++ maj ++ BitVec.ofBool f.u ++ (2 : BitVec 2),
   f.lit.extractLsb' 0 32, f.lit.extractLsb' 32 32]
/-- Word 0 of an extended instruction (R89). -/
def Ext.word0 (e : Ext) (maj : BitVec 7) : Word :=
  e.pg ++ e.a9 ++ e.d9 ++ maj ++ BitVec.ofBool e.u ++ BitVec.ofBool e.lit.isSome ++ (1 : BitVec 1)
/-- Word 1 of an extended instruction (R89). -/
def Ext.word1 (e : Ext) : Word :=
  e.ty ++ e.sbs ++ e.stall ++ BitVec.ofBool e.ch ++ BitVec.ofBool e.nw ++ BitVec.ofBool e.pn ++ e.c9 ++ e.b9
/-- Word 2 of an extended instruction (R89). -/
def Ext.word2 (e : Ext) : Word := e.mod ++ e.sub ++ e.wait
/-- The three or five words of an extended instruction (R89). -/
def Ext.words (e : Ext) (maj : BitVec 7) : List Word :=
  [e.word0 maj, e.word1, e.word2] ++
    match e.lit with
    | none => []
    | some l => [l.extractLsb' 0 32, l.extractLsb' 32 32]
/-- A B0 word (R88). -/
def b0Word (maj : BitVec 7) (imm : BitVec 8) : Word :=
  (0 : BitVec 14) ++ imm ++ maj ++ (0 : BitVec 3)

/-- The words of an instruction; a row without an encoding has none.
DEDUCED, unsafe: notes/assumptions/76.md. -/
def encode : Instr → List Word
  | .nop => [0]
  | .addReg f => [f.word 0x01]
  | .addImm f => [f.word 0x01]
  | .addLit f => f.words 0x01
  | .addExt e => e.words 0x01
  | .subReg f => [f.word 0x02]
  | .subImm f => [f.word 0x02]
  | .subLit f => f.words 0x02
  | .subExt e => e.words 0x02
  | .mulReg f => [f.word 0x03]
  | .mulImm f => [f.word 0x03]
  | .mulLit f => f.words 0x03
  | .mulExt e => e.words 0x03
  | .mulhReg f => [f.word 0x04]
  | .mulhImm f => [f.word 0x04]
  | .mulhLit f => f.words 0x04
  | .mulhExt e => e.words 0x04
  | .divReg f => [f.word 0x06]
  | .divImm f => [f.word 0x06]
  | .divLit f => f.words 0x06
  | .divExt e => e.words 0x06
  | .minReg f => [f.word 0x07]
  | .minImm f => [f.word 0x07]
  | .minLit f => f.words 0x07
  | .minExt e => e.words 0x07
  | .maxReg f => [f.word 0x08]
  | .maxImm f => [f.word 0x08]
  | .maxLit f => f.words 0x08
  | .maxExt e => e.words 0x08
  | .andReg f => [f.word 0x09]
  | .andImm f => [f.word 0x09]
  | .andLit f => f.words 0x09
  | .andExt e => e.words 0x09
  | .orReg f => [f.word 0x0A]
  | .orImm f => [f.word 0x0A]
  | .orLit f => f.words 0x0A
  | .orExt e => e.words 0x0A
  | .xorReg f => [f.word 0x0B]
  | .xorImm f => [f.word 0x0B]
  | .xorLit f => f.words 0x0B
  | .xorExt e => e.words 0x0B
  | .andnReg f => [f.word 0x0C]
  | .andnImm f => [f.word 0x0C]
  | .andnLit f => f.words 0x0C
  | .andnExt e => e.words 0x0C
  | .shlReg f => [f.word 0x0D]
  | .shlImm f => [f.word 0x0D]
  | .shlLit f => f.words 0x0D
  | .shlExt e => e.words 0x0D
  | .shrReg f => [f.word 0x0E]
  | .shrImm f => [f.word 0x0E]
  | .shrLit f => f.words 0x0E
  | .shrExt e => e.words 0x0E
  | .sarReg f => [f.word 0x0F]
  | .sarImm f => [f.word 0x0F]
  | .sarLit f => f.words 0x0F
  | .sarExt e => e.words 0x0F
  | .popcReg f => [f.word 0x12]
  | .popcExt e => e.words 0x12
  | .clzReg f => [f.word 0x13]
  | .clzExt e => e.words 0x13
  | .ctzReg f => [f.word 0x14]
  | .ctzExt e => e.words 0x14
  | .movReg f => [f.word 0x17]
  | .movExt e => e.words 0x17
  | .moviImm f => [f.word 0x18]
  | .moviLit f => f.words 0x18
  | .moviExt e => e.words 0x18
  | .faddReg f => [f.word 0x20]
  | .faddImm f => [f.word 0x20]
  | .faddLit f => f.words 0x20
  | .faddExt e => e.words 0x20
  | .fsubReg f => [f.word 0x21]
  | .fsubImm f => [f.word 0x21]
  | .fsubLit f => f.words 0x21
  | .fsubExt e => e.words 0x21
  | .fmulReg f => [f.word 0x22]
  | .fmulImm f => [f.word 0x22]
  | .fmulLit f => f.words 0x22
  | .fmulExt e => e.words 0x22
  | .fminReg f => [f.word 0x24]
  | .fminImm f => [f.word 0x24]
  | .fminLit f => f.words 0x24
  | .fminExt e => e.words 0x24
  | .fmaxReg f => [f.word 0x25]
  | .fmaxImm f => [f.word 0x25]
  | .fmaxLit f => f.words 0x25
  | .fmaxExt e => e.words 0x25
  | .frcpReg f => [f.word 0x26]
  | .frcpExt e => e.words 0x26
  | .frsqReg f => [f.word 0x27]
  | .frsqExt e => e.words 0x27
  | .fsqrtReg f => [f.word 0x28]
  | .fsqrtExt e => e.words 0x28
  | .fex2Reg f => [f.word 0x29]
  | .fex2Ext e => e.words 0x29
  | .flg2Reg f => [f.word 0x2A]
  | .flg2Ext e => e.words 0x2A
  | .ffma e => e.words 0x23
  | .mad e => e.words 0x05
  | .bfx e => e.words 0x10
  | .bfi e => e.words 0x11
  | .cmp e => e.words 0x15
  | .sel e => e.words 0x16
  | .lea e => e.words 0x19
  | .plog e => e.words 0x1A
  | .pmov e => e.words 0x1B
  | .ballot e => e.words 0x1C
  | .vote e => e.words 0x1D
  | .mprefix e => e.words 0x1E
  | .elect p => [b0Word 0x1F (p.setWidth 8)]
  | .electExt e => e.words 0x1F
  | .cvt e => e.words 0x2B
  | .bqnt e => e.words 0x2C
  | .vdot e => e.words 0x2D
  | .shfl e => e.words 0x2E
  | .lscan e => e.words 0x2F
  | .lred e => e.words 0x30
  | .bra d => [d ++ (0x38 : BitVec 7) ++ (0 : BitVec 3)]
  | .braAbs e => e.words 0x38
  | .braDisp e => e.words 0x38
  | .brc e => e.words 0x39
  | .bru d neg p => [d ++ BitVec.ofBool neg ++ p ++ (0x3A : BitVec 7) ++ (0 : BitVec 3)]
  | .bruAbs e => e.words 0x3A
  | .bruDisp e => e.words 0x3A
  | .call d => [d ++ (0x3B : BitVec 7) ++ (0 : BitVec 3)]
  | .callAbs e => e.words 0x3B
  | .callDisp e => e.words 0x3B
  | .ret => [b0Word 0x3C 0]
  | .jmpi e => e.words 0x3D
  | .loop e => e.words 0x3E
  | .loopx e => e.words 0x3F
  | .brkl e => e.words 0x40
  | .region => [b0Word 0x41 0]
  | .exit => [b0Word 0x42 0]
  | .yield => [b0Word 0x43 0]
  | .trap n => [b0Word 0x44 n]
  | .brk => [b0Word 0x45 0]
  | .ldReg f => [f.word 0x48]
  | .ldLit f => f.words 0x48
  | .ldExt e => e.words 0x48
  | .stReg f => [f.word 0x49]
  | .stLit f => f.words 0x49
  | .stExt e => e.words 0x49
  | .ldlReg f => [f.word 0x4A]
  | .ldlLit f => f.words 0x4A
  | .ldlExt e => e.words 0x4A
  | .stlReg f => [f.word 0x4B]
  | .stlLit f => f.words 0x4B
  | .stlExt e => e.words 0x4B
  | .cmpst e => e.words 0x4C
  | .expld e => e.words 0x4D
  | .atom e => e.words 0x4E
  | .atomn e => e.words 0x4F
  | .fence e => e.words 0x50
  | .fenceo s => [b0Word 0x51 (s.setWidth 8)]
  | .fencer e => e.words 0x52
  | .pref e => e.words 0x53
  | .cflush e => e.words 0x54
  | .cinv e => e.words 0x55
  | .rld e => e.words 0x56
  | .rst e => e.words 0x57
  | .ratom e => e.words 0x58
  | .rmcst e => e.words 0x59
  | .cpy e => e.words 0x60
  | .mma e => e.words 0x61
  | .accrd e => e.words 0x62
  | .accwr e => e.words 0x63
  | .accz e => e.words 0x64
  | .tilemvLd e => e.words 0x65
  | .tilemvSt e => e.words 0x65
  | .chinit e => e.words 0x66
  | .chputRes e => e.words 0x67
  | .chputDone e => e.words 0x67
  | .chgetWait e => e.words 0x68
  | .chgetDone e => e.words 0x68
  | .cwait e => e.words 0x69
  | .coll e => e.words 0x6A
  | .gthr e => e.words 0x6B
  | .bar e => e.words 0x6C
  | .bara e => e.words 0x6D
  | .barw e => e.words 0x6E
  | .regroupKey e => e.words 0x6F
  | .regroupHome e => e.words 0x6F
  | .vgrow e => e.words 0x70
  | .vshrink e => e.words 0x71
  | .wcreate e => e.words 0x72
  | .psend e => e.words 0x73
  | .precv e => e.words 0x74
  | .objnew e => e.words 0x75
  | .objdel e => e.words 0x76
  | .wsadd e => e.words 0x77
  | .wswait e => e.words 0x78
  | .tarm e => e.words 0x79
  | .tcancel e => e.words 0x7A
  | .nslookup e => e.words 0x7B
  | .srd e => e.words 0x7C
  | .crd e => e.words 0x7D
  | .cwr e => e.words 0x7D
  | .ktcodePop e => e.words 0x7D
  | .kmodeIntlkWrite e => e.words 0x7D
  | .rft e => e.words 0x7D
  | .ctxsv e => e.words 0x7D
  | .ctxld e => e.words 0x7D
  | .tlbinv e => e.words 0x7D
  | .idle e => e.words 0x7D
  | .objrd e => e.words 0x7D
  | .objwr e => e.words 0x7D
  | .pwracq e => e.words 0x7D
  | .pwrrel e => e.words 0x7D
  | .mgsig e => e.words 0x7D
  | .agentRestart _ | .trapRecordDelivery _ | .translationFill _ _ _ | .atomnPerform _ _
  | .fbpop _ | .fbrespWalkAgain _ _ | .fbrespRaise _ _ | .vgrowGrant _
  | .vgrowDeadlockBreak _ | .blockDrainDone _ | .barrierPhaseComplete _ _ | .cwaitSatisfied _
  | .fullEmptyWake _ | .fencerComplete _ | .kernelObjectWake _ | .tokenGrant
  | .idleWake _ | .channelReservationGrant _ _ | .mmaExecute _ | .mmaComplete _
  | .acczExecute _ | .accwrExecute _ | .tilemvLdExecute _ | .tilemvStExecute _
  | .copyFire _ | .copyComplete _ _ | .followOnMmaEntry _ | .gatherFire _
  | .gatherComplete _ _ | .collComplete _ _ | .timerExpiry _ | .scPeriodRelease _
  | .scBudgetExhausted _ | .kernelDispatch _ | .waveRefill _ _ | .progressWindowSwap _
  | .preemptDrain _ | .drainLimitExpiry _ | .preemptSave _ | .preemptFlushRestart _
  | .blockRestore _ _ | .blockPlacement _ _ | .congestionLevelChange _ _ | .qbaseWrite _ _ _
  | .qsizeWrite _ _ _ | .queueEnable _ _ | .qtailWrite _ _ _ | .qstatClear _ _ _
  | .registerWrite _ _ _ | .noopPacket _ _ | .launchPacket _ _ | .waitPacket _ _
  | .waitPacketFinish _ _ | .reservedPacket _ _ | .launchCompletionRecord _ | .launchArrivalReceipt _
  | .launchReleaseReceipt _ | .launchRefusalReceipt _ | .launchArrivalTimeout _ | .launchAnswerTimeout _
  | .mailboxVersion | .qdestroy | .qdestroyAnswer | .pasiddown
  | .pasiddownAnswer | .regbind | .preempt | .bootclr
  | .windowEntryWrite _ _ _ | .windowEntryReadback _ _ | .lockInterface _ | .getDeviceInterfaceReport _
  | .startInterface _ | .stopInterface _ | .tdiConfigChange _ | .ideIntegrityFailure _
  | .getMeasurements | .powerOnReset | .tempHigh _ | .tempCoolTick _
  | .remoteReadRequest _ | .remoteWriteRequest _ | .remoteAtomicRequest _ | .remoteResponseReceipt _
  | .requestTimeout _ | .multicastWrite _ | .multicastCopyReceipt _ | .multicastMemberTimeout _ _ _
  | .aggregatedAckReceipt _ | .groupTableWrite _ | .invalidateReceipt _ | .invalidateAckReceipt _
  | .importerCloseTimeout _ _ | .portMessageReceipt _ | .nameLookupReceipt _ | .nameReplyReceipt _
  | .shuffleSegmentSwitch _ | .shufflePairTimeout _ _ | .uncodedSegmentReceipt _ | .codedSegmentReceipt _
  | .segmentNegativeReceipt _ | .shuffleDoneReceipt _ | .peerBarrierArrival _ | .peerBarrierRelease _
  | .linkVersionMismatch _ | .flitRetransmit _ | .reservedPacketDrop _ | .registerResultsWritten _ _ _
  | .cacheLineWriteBack _ _ | .portDown _ | .linkRetrained _ _ _ | .portMessageAnswerReceipt _
  | .mailboxUnknownCommand => []

/-- The bytes of a word, least significant first (R7). -/
def bytesOfWord (w : Word) : List Byte :=
  [w.extractLsb' 0 8, w.extractLsb' 8 8, w.extractLsb' 16 8, w.extractLsb' 24 8]

/-- The bytes of an instruction. -/
def encodeBytes (i : Instr) : List Byte := (encode i).flatMap bytesOfWord

/-- The instruction the decoder reads from a word numbered as the opcode table numbers its bits: words little-endian,
the first at the lowest address, the bits above nbits zero up to the longest instruction, 20 bytes. -/
def decodeTableWord (nbits w : Nat) : Option Instr :=
  match decode (leBytes 20 (w % 2 ^ nbits)) with
  | .ok (i, _) => some i
  | .error _ => none

/-- The instructions of MAJ 0x7D (R98). -/
def Instr.isSys : Instr → Bool
  | .crd _ | .cwr _ | .ktcodePop _ | .kmodeIntlkWrite _ | .rft _ | .ctxsv _ | .ctxld _ | .tlbinv _ | .idle _ | .objrd _
  | .objwr _ | .pwracq _ | .pwrrel _ | .mgsig _ => true
  | _ => false

/-- The MAJ and U of an instruction, from its word 0 (R78). -/
def Instr.majU (i : Instr) : Nat × Bool :=
  match encode i with
  | w :: _ => ((w.extractLsb' 3 7).toNat, w.getLsbD 2)
  | [] => (128, false)

end Sys2Proof
end

