-- ==== Sys2Proof/Machine/Num.lean ====
section
/-!
DEFINITION. Number formats and arithmetic (06_numbers.md, R115 to R136): exact values, one rounding, saturation, PS8,
stochastic rounding, and the float functions. A value is a dyadic number; a result that is no dyadic number is held as
its floor at a fine grid and the mark `sticky`, which says that the exact result lies strictly above the floor.
-/

namespace Sys2Proof

/-- What a bit pattern denotes (R102, Value): NaN, an infinity, or (-1)^neg · m · 2^e; m = 0 is a signed zero. -/
inductive FV where
  | nan
  | inf (neg : Bool)
  | num (neg : Bool) (m : Nat) (e : Int)
  deriving DecidableEq, Repr

/-- The float formats of R115. -/
inductive Fmt where
  | f32 | f16 | bf16 | e4m3 | e5m2 | e2m1 | ps8
  deriving DecidableEq, Repr

/-- The rounding modes of R121. -/
inductive Rnd where
  | rne | rz | ru | rd | rs
  deriving DecidableEq, Repr

/-- MOD RND (R93); the reserved codes 5 to 7 are refused as a form before they are read. -/
def Rnd.ofCode : Nat → Rnd
  | 0 => .rne | 1 => .rz | 2 => .ru | 3 => .rd | _ => .rs

/-- Exponent bits (R115). -/
def Fmt.ebits : Fmt → Nat
  | .f32 => 8 | .f16 => 5 | .bf16 => 8 | .e4m3 => 4 | .e5m2 => 5 | .e2m1 => 2 | .ps8 => 3
/-- Mantissa bits (R115). -/
def Fmt.mbits : Fmt → Nat
  | .f32 => 23 | .f16 => 10 | .bf16 => 7 | .e4m3 => 3 | .e5m2 => 2 | .e2m1 => 1 | .ps8 => 0
/-- Bias (R115). -/
def Fmt.bias : Fmt → Nat
  | .f32 => 127 | .f16 => 15 | .bf16 => 127 | .e4m3 => 7 | .e5m2 => 15 | .e2m1 => 1 | .ps8 => 0
/-- Element bits (R115). -/
def Fmt.width : Fmt → Nat
  | .f32 => 32 | .f16 => 16 | .bf16 => 16 | .e2m1 => 4 | _ => 8
/-- The canonical NaN (R117); a format without one holds its zero there. -/
def Fmt.nan : Fmt → Nat
  | .f32 => 0x7FC00000 | .f16 => 0x7E00 | .bf16 => 0x7FC0 | .e4m3 => 0x7F | .e5m2 => 0x7E
  | .e2m1 => 0 | .ps8 => 0x77
/-- The formats with infinities (R115). -/
def Fmt.hasInf : Fmt → Bool
  | .f32 | .f16 | .bf16 | .e5m2 => true
  | _ => false
/-- The pattern of the largest finite magnitude (R115). -/
def Fmt.maxBits : Fmt → Nat
  | .f32 => 0x7F7FFFFF | .f16 => 0x7BFF | .bf16 => 0x7F7F | .e4m3 => 0x7E | .e5m2 => 0x7B
  | .e2m1 => 0x7 | .ps8 => 0x00
/-- The least normal exponent, 1 - bias (R115). -/
def Fmt.emin (F : Fmt) : Int := 1 - (F.bias : Int)

/-- A PS8 term (R118), in sixty-fourths. -/
def ps8Term (n : Nat) : Int :=
  if n % 8 = 7 then 0 else (if n / 8 % 2 = 1 then -1 else 1) * (2 ^ (6 - n % 8) : Nat)

/-- What a pattern of a format denotes (R115, R118). -/
def Fmt.value (F : Fmt) (b : Nat) : FV :=
  if F = .ps8 then
    let v := ps8Term (b / 16) + ps8Term (b % 16)
    .num (v < 0) v.natAbs (-6)
  else
    let mb := F.mbits
    let m := b % 2 ^ mb
    let e := b / 2 ^ mb % 2 ^ F.ebits
    let s := b / 2 ^ (F.width - 1) % 2 == 1
    if F.hasInf && e == 2 ^ F.ebits - 1 then (if m = 0 then .inf s else .nan)
    else if F = .e4m3 ∧ b % 128 = 127 then .nan
    else if e = 0 then .num s m (F.emin - mb)
    else .num s (2 ^ mb + m) ((e : Int) - F.bias - mb)

/-- Rounds the magnitude (m + δ)·2^e, 0 < δ < 1 exactly when sticky, to a multiple of 2^q (R121, R122): the number of
quanta. The k random bits rb are used by rs only. -/
def roundQuanta (mode : Rnd) (neg : Bool) (m : Nat) (e : Int) (sticky : Bool) (q : Int) (rb k : Nat) : Nat :=
  if q ≤ e then m * 2 ^ (e - q).toNat + (if sticky && (mode == .ru && !neg || mode == .rd && neg) then 1 else 0)
  else
    let sh := (q - e).toNat
    let n := m / 2 ^ sh
    let r := m % 2 ^ sh
    let up : Bool := match mode with
      | .rne => decide (2 * r > 2 ^ sh) || (2 * r == 2 ^ sh && (sticky || n % 2 == 1))
      | .rz => false
      | .ru => !neg && (r != 0 || sticky)
      | .rd => neg && (r != 0 || sticky)
      | .rs => decide (r * 2 ^ k + rb * 2 ^ sh ≥ 2 ^ (sh + k))
    if up then n + 1 else n

/-- The pattern of the magnitude n·2^q, which the format holds exactly (R115). -/
def Fmt.magBits (F : Fmt) (n : Nat) (q : Int) : Nat :=
  if n = 0 then 0
  else
    let p : Int := (n.log2 : Int) + q
    let mb := F.mbits
    let lsb : Int := (if p < F.emin then F.emin else p) - mb
    let m := if lsb ≤ q then n * 2 ^ (q - lsb).toNat else n / 2 ^ (lsb - q).toNat
    if p < F.emin then m else m - 2 ^ mb + (p + F.bias).toNat * 2 ^ mb

/-- The sign bit added to a magnitude's pattern. -/
def Fmt.withSign (F : Fmt) (neg : Bool) (b : Nat) : Nat := if neg then b + 2 ^ (F.width - 1) else b

/-- The PS8 magnitudes in sixty-fourths, ascending (R118). -/
def ps8Mags : List Nat :=
  [0, 1, 2, 3, 4, 5, 6, 7, 8, 9, 10, 12, 14, 15, 16, 17, 18, 20, 24, 28, 30, 31, 32, 33, 34, 36, 40, 48,
   56, 60, 62, 63, 64, 65, 66, 68, 72, 80, 96, 128]

/-- Whether two different powers 2^-a, 2^-b, a < b, add (or subtract) to v sixty-fourths; the first such pair. -/
def ps8Pair (sub : Bool) (v : Nat) : Option (Nat × Nat) :=
  ((List.range 7).flatMap fun a => (List.range 7).map fun b => (a, b)).find? fun (a, b) =>
    decide (a < b) && (if sub then 2 ^ (6 - a) - 2 ^ (6 - b) == v else 2 ^ (6 - a) + 2 ^ (6 - b) == v)

/-- The canonical PS8 encoding of a magnitude with a sign (R119). -/
def ps8Canon (neg : Bool) (v : Nat) : Nat :=
  let s := if neg then 8 else 0
  if v = 0 then 0x77
  else if v = 128 then 16 * s + s
  else match (List.range 7).find? (fun a => 2 ^ (6 - a) == v) with
    | some a => 16 * (s + a) + 7
    | none => match ps8Pair false v with
      | some (a, b) => 16 * (s + a) + (s + b)
      | none => match ps8Pair true v with
        | some (a, b) => 16 * (s + a) + ((8 - s) + b)
        | none => 0x77

/-- Rounds a magnitude m·2^e into PS8 (R120, R122). -/
def ps8Round (mode : Rnd) (neg : Bool) (m : Nat) (e : Int) (rb k : Nat) : Nat :=
  -- the magnitude is num/den sixty-fourths
  let num := if e + 6 < 0 then m else m * 2 ^ (e + 6).toNat
  let den := if e + 6 < 0 then 2 ^ (-(e + 6)).toNat else 1
  let lo := (ps8Mags.filter fun v => v * den ≤ num).getLastD 0
  let hi := (ps8Mags.find? fun v => v * den ≥ num).getD 128
  if lo ≥ hi then ps8Canon neg lo
  else
    let d := num - lo * den          -- distance to lo, of (hi - lo)·den
    let w := (hi - lo) * den
    let up : Bool := match mode with
      | .rne => decide (2 * d > w)
      | .rz => false
      | .ru => !neg
      | .rd => neg
      | .rs => decide (d * 2 ^ k + rb * w ≥ w * 2 ^ k)
    ps8Canon neg (if up then hi else lo)

/-- Round of R102: an exact value into a format under a mode, with saturation (R121 to R124). -/
def Fmt.round (F : Fmt) (mode : Rnd) (sat : Bool) (rb k : Nat) (x : FV) (sticky : Bool := false) : Nat :=
  match x with
  | .nan => F.nan
  | .inf s =>
    if F = .ps8 then 0x77
    else if sat || F = .e2m1 then F.withSign s F.maxBits
    else if F.hasInf then F.withSign s ((2 ^ F.ebits - 1) * 2 ^ F.mbits)
    else F.nan
  | .num s m e =>
    if F = .ps8 then ps8Round mode s m e rb k
    else if m = 0 && !sticky then F.withSign s 0
    else
      let p : Int := (m.log2 : Int) + e
      let q : Int := (if p < F.emin then F.emin else p) - F.mbits
      let n := roundQuanta mode s m e sticky q rb k
      -- does the rounded magnitude exceed the largest finite one?
      let past : Bool := match F.value F.maxBits with
        | .num _ mm me =>
          if q ≤ me then decide (n > mm * 2 ^ (me - q).toNat) else decide (n * 2 ^ (q - me).toNat > mm)
        | _ => false
      if past then
        if sat || F = .e2m1 then F.withSign s F.maxBits
        else if !F.hasInf then F.nan
        else if mode == .rne || mode == .rs || (mode == .ru && !s) || (mode == .rd && s)
          then F.withSign s ((2 ^ F.ebits - 1) * 2 ^ F.mbits)
        else F.withSign s F.maxBits
      else F.withSign s (F.magBits n q)

/-- An exact integer as a value. -/
def FV.ofInt (i : Int) : FV := .num (i < 0) i.natAbs 0

/-- A conversion to an integer of the range lo to hi: round, then clamp; NaN gives 0 (R124). -/
def FV.toInt (x : FV) (mode : Rnd) (rb k : Nat) (lo hi : Int) : Int :=
  match x with
  | .nan => 0
  | .inf s => if s then lo else hi
  | .num s m e =>
    let n : Int := roundQuanta mode s m e false 0 rb k
    let v := if s then -n else n
    if v < lo then lo else if v > hi then hi else v

/-- Negation. -/
def FV.neg : FV → FV
  | .nan => .nan
  | .inf s => .inf !s
  | .num s m e => .num (!s) m e

/-- The exact sum (R117, R126): the sign of an exact zero is + but under rd, or the common sign of two zeros. -/
def FV.add (mode : Rnd) : FV → FV → FV
  | .nan, _ => .nan
  | _, .nan => .nan
  | .inf s, .inf t => if s = t then .inf s else .nan
  | .inf s, .num .. => .inf s
  | .num .., .inf t => .inf t
  | .num s m e, .num t n f =>
    let g := min e f
    let a : Int := (m * 2 ^ (e - g).toNat : Nat)
    let b : Int := (n * 2 ^ (f - g).toNat : Nat)
    let v := (if s then -a else a) + (if t then -b else b)
    if v = 0 then .num (if m = 0 ∧ n = 0 ∧ s = t then s else mode == .rd) 0 g
    else .num (v < 0) v.natAbs g

/-- The exact product (R117). -/
def FV.mul : FV → FV → FV
  | .nan, _ => .nan
  | _, .nan => .nan
  | .inf s, .inf t => .inf (s != t)
  | .inf s, .num t n _ => if n = 0 then .nan else .inf (s != t)
  | .num s m _, .inf t => if m = 0 then .nan else .inf (s != t)
  | .num s m e, .num t n f => .num (s != t) (m * n) (e + f)

/-- The product with 2^k. -/
def FV.scale (k : Int) : FV → FV
  | .num s m e => .num s m (e + k)
  | x => x

/-- The order of two values that are not NaN, with -0 below +0 when `zeros` (R126). -/
def FV.lt (zeros : Bool) : FV → FV → Bool
  | .nan, _ => false
  | _, .nan => false
  | .inf s, .inf t => s && !t
  | .inf s, .num .. => s
  | .num .., .inf t => !t
  | .num s m e, .num t n f =>
    let g := min e f
    let a : Int := (m * 2 ^ (e - g).toNat : Nat)
    let b : Int := (n * 2 ^ (f - g).toNat : Nat)
    let x := if s then -a else a
    let y := if t then -b else b
    if m = 0 ∧ n = 0 then zeros && s && !t else x < y

/-- Equality as a comparison: the two zeros are equal, NaN equals nothing. -/
def FV.eqv (a b : FV) : Bool :=
  a != .nan && b != .nan && !FV.lt false a b && !FV.lt false b a

/-- FMIN and FMAX (R126, R368): one NaN gives the other operand. -/
def FV.minmax (isMax : Bool) (a b : FV) : FV :=
  if a = .nan then b else if b = .nan then a
  else if isMax then (if FV.lt true a b then b else a) else (if FV.lt true b a then b else a)

/-- A value with the mark that the exact result lies strictly above it in magnitude. -/
structure Approx where
  v : FV
  sticky : Bool
  deriving DecidableEq, Repr

/-- The integer square root, bit by bit from 2^(k-1). -/
def isqrtFrom (n : Nat) : Nat → Nat → Nat
  | 0, r => r
  | k + 1, r => let t := r + 2 ^ k; isqrtFrom n k (if t * t ≤ n then t else r)
/-- The floor of the square root. -/
def isqrt (n : Nat) : Nat := isqrtFrom n (n.log2 / 2 + 1) 0

/-- The precision, in bits, of the fine grid.
UNVERIFIED, unsafe: notes/assumptions/13.md. -/
def fine : Nat := 320

/-- FRCP (R126). -/
def FV.rcp : FV → Approx
  | .nan => ⟨.nan, false⟩
  | .inf s => ⟨.num s 0 0, false⟩
  | .num s m e =>
    if m = 0 then ⟨.inf s, false⟩
    else
      let k := fine + m.log2
      ⟨.num s (2 ^ k / m) (-e - k), 2 ^ k % m != 0⟩

/-- FSQRT (R126). -/
def FV.sqrt : FV → Approx
  | .nan => ⟨.nan, false⟩
  | .inf s => ⟨if s then .nan else .inf false, false⟩
  | .num s m e =>
    if m = 0 then ⟨.num s 0 0, false⟩
    else if s then ⟨.nan, false⟩
    else
      let odd := e % 2 == 1
      let m1 := if odd then 2 * m else m
      let e1 := if odd then e - 1 else e
      let n := m1 * 2 ^ (2 * 64)
      let r := isqrt n
      ⟨.num false r (e1 / 2 - 64), r * r != n⟩

/-- FRSQ (R126). -/
def FV.rsqrt : FV → Approx
  | .nan => ⟨.nan, false⟩
  | .inf s => ⟨if s then .nan else .num false 0 0, false⟩
  | .num s m e =>
    if m = 0 then ⟨.inf s, false⟩
    else if s then ⟨.nan, false⟩
    else
      let odd := e % 2 == 1
      let m1 := if odd then 2 * m else m
      let e1 := if odd then e - 1 else e
      let k := 2 * (64 + m1.log2)
      let r := isqrt (2 ^ k / m1)
      ⟨.num false r (-(e1 / 2) - (k / 2 : Nat)), r * r * m1 != 2 ^ k⟩

/-- 2·atanh(a/b) on the fine grid, rounded down term by term: t is 2·(a/b)^(2i+1), a2/b2 the squared ratio. -/
def atanhSum (a2 b2 : Nat) : Nat → Nat → Nat → Nat
  | 0, _, _ => 0
  | k + 1, i, t => t / (2 * i + 1) + atanhSum a2 b2 k (i + 1) (t * a2 / b2)
/-- 2·atanh(a/b)·2^fine for a/b at most 1/3.
UNVERIFIED, unsafe: notes/assumptions/13.md. -/
def atanh2 (a b : Nat) : Nat := atanhSum (a * a) (b * b) 110 0 (2 * a * 2 ^ fine / b)
/-- ln 2 on the fine grid. -/
def ln2 : Nat := atanh2 1 3

/-- e^y on the fine grid for 0 ≤ y < 1.
UNVERIFIED, unsafe: notes/assumptions/13.md. -/
def expSum (y : Nat) : Nat → Nat → Nat → Nat
  | 0, _, _ => 0
  | k + 1, i, t => t + expSum y k (i + 1) (t * y / 2 ^ fine / (i + 1))

/-- The magnitude above which 2^x is beyond every format. -/
def exLimit : Int := 512

/-- FEX2 (R126): 2^x is exact when x is an integer and no dyadic number otherwise.
UNVERIFIED, unsafe: notes/assumptions/13.md. -/
def FV.ex2 : FV → Approx
  | .nan => ⟨.nan, false⟩
  | .inf s => ⟨if s then .num false 0 0 else .inf false, false⟩
  | .num s m e =>
    if m = 0 then ⟨.num false 1 0, false⟩
    else if (m.log2 : Int) + e ≥ 10 then ⟨.num false 1 (if s then -exLimit else exLimit), true⟩
    else
      -- x·2^fine, exact: every format's least exponent is above -fine
      let a : Nat := m * 2 ^ (e + fine).toNat
      let x : Int := if s then -(a : Int) else a
      let k : Int := x / (2 ^ fine : Nat)
      let f : Nat := (x % (2 ^ fine : Nat)).toNat
      if f = 0 then ⟨.num false 1 k, false⟩
      else ⟨.num false (expSum (f * ln2 / 2 ^ fine) 90 0 (2 ^ fine)) (k - fine), true⟩

/-- FLG2 (R126): log2 x is exact when x is a power of two and no dyadic number otherwise.
UNVERIFIED, unsafe: notes/assumptions/13.md. -/
def FV.lg2 : FV → Approx
  | .nan => ⟨.nan, false⟩
  | .inf s => ⟨if s then .nan else .inf false, false⟩
  | .num s m e =>
    if m = 0 then ⟨.inf true, false⟩
    else if s then ⟨.nan, false⟩
    else
      let p : Int := (m.log2 : Int) + e
      let one := 2 ^ m.log2
      if m = one then ⟨.num (p < 0) p.natAbs 0, false⟩
      else
        let l := atanh2 (m - one) (m + one) * 2 ^ fine / ln2
        let v : Int := p * (2 ^ fine : Nat) + l
        if v < 0 then ⟨.num true (v.natAbs - 2 ^ 12) (-fine), true⟩ else ⟨.num false v.toNat (-fine), true⟩

/-- The E8M0 scale 2^(E - 127), or none for the NaN scale 0xFF (R127). -/
def e8m0 (b : Nat) : Option Int := if b = 255 then none else some ((b : Int) - 127)

/-- A value times an E8M0 scale; the NaN scale makes it NaN (R127). -/
def FV.scaled (x : FV) (b : Nat) : FV :=
  match e8m0 b with
  | none => .nan
  | some k => x.scale k

/-- emax(F) of block quantisation (R135). -/
def Fmt.emax : Fmt → Int
  | .e4m3 => 8 | .e5m2 => 15 | .e2m1 => 2 | .ps8 => 1 | _ => 0

/-- Element i, of width w, of a packed number (R116). -/
def elem (w i x : Nat) : Nat := x / 2 ^ (w * i) % 2 ^ w

/-- The elements of width w packed, element 0 lowest (R116). -/
def pack (w : Nat) : List Nat → Nat
  | [] => 0
  | x :: xs => x % 2 ^ w + 2 ^ w * pack w xs

/-- A pattern of width w read as two's complement. -/
def asInt (w x : Nat) : Int := if x % 2 ^ w < 2 ^ (w - 1) then (x % 2 ^ w : Nat) else ((x % 2 ^ w : Nat) : Int) - (2 ^ w : Nat)

/-- An integer's pattern of width w. -/
def ofInt (w : Nat) (i : Int) : Nat := (i % (2 ^ w : Nat)).toNat

end Sys2Proof
end

