-- ==== Sys2Proof/Config.lean ====
section
/-!
DEFINITION. What an implementation fixes and the manual leaves open: opaque constants, of which Lean can evaluate
nothing and prove no value. Each is applied to a counter of the state (`State.free`), which every use advances, or to
the data it may depend on. notes/assumptions names each.
-/

namespace Sys2Proof.Config

/-- A free yes or no: which of two contents a read, a write order or a fetch takes where the manual allows either
(R97, R181, R189, R191, R207, R214).
DESIGN CHOICE, safe: notes/assumptions/5.md. -/
opaque choice : Nat → Bool
/-- A free index: which of several the device takes, told apart by a key (R181, R189).
DESIGN CHOICE, safe: notes/assumptions/8.md. -/
opaque which : Nat → Nat → Nat
/-- The device time, in nanoseconds, that passes with a step (R3, R20).
DESIGN CHOICE, safe: notes/assumptions/4.md. -/
opaque elapsed : Nat → Nat
/-- The line of code that a peer answers a fetch with (R182).
DESIGN CHOICE, safe: notes/assumptions/80.md. -/
opaque peerLine : Nat → BitVec 512
/-- An uncorrectable error: in a 32-byte sector of HBM, in a granule's copy in a cache, in a granule of a core's
scratchpad, in a register of a wave (0 to 319 vectors, 320 on scalars), or in a tile or accumulator of a core's matrix
state set (t0 to t7, then a0 to a3) (R195, R196). -/
inductive Strike where
  | sector (x : Nat)
  | copy (unit gran : Nat)
  | spad (core gran : Nat)
  | reg (core slot key : Nat)
  | matrix (core set i : Nat)
  deriving DecidableEq, Repr
/-- The errors that come with a step (R195, R196).
DESIGN CHOICE, safe: notes/assumptions/94.md. -/
opaque strike : Nat → Option Strike
/-- What the sensors report with a step: a core's junction temperature and its supply's droop level (R298).
DESIGN CHOICE, safe: notes/assumptions/69.md. -/
opaque sensor : Nat → Option (Nat × BitVec 12 × BitVec 4)
/-- The pattern that HBM4 training writes to a channel (R305).
DESIGN CHOICE, safe: notes/assumptions/91.md. -/
opaque trainPattern : Nat → BitVec 64
/-- A key drawn from the device's random generator (R303).
DESIGN CHOICE, safe: notes/assumptions/11.md. -/
opaque key : Nat → BitVec 512
/-- SHA-512 of a memory of some bytes, given by those that are not zero (R304, R307).
DESIGN CHOICE, safe: notes/assumptions/11.md. -/
opaque sha512 : Nat → List (Nat × Byte) → BitVec 512
/-- SHA-512 of the EEPROM image and of the strap bytes (R304, R307).
DESIGN CHOICE, safe: notes/assumptions/11.md. -/
opaque measurement : Nat → BitVec 512
/-- SHA-512 of a measurement log (R302).
DESIGN CHOICE, safe: notes/assumptions/11.md. -/
opaque logHash : List (BitVec 512) → BitVec 512
/-- The signature of a measurement log under the identity key (R307).
DESIGN CHOICE, safe: notes/assumptions/11.md. -/
opaque signature : List (BitVec 512) → BitVec 512

/-- The stepping code of the part as shipped (R94).
DESIGN CHOICE, unsafe: notes/assumptions/74.md. -/
def stepping : Nat := 1

end Sys2Proof.Config
end

