-- ==== Sys2Proof/Machine/Sparse.lean ====
section
/-!
DEFINITION. Sparse tables: lists of (key, value) pairs in one canonical form, keys strictly rising. Memory, register
files and every table of records are such lists; equal tables are equal lists.
-/

namespace Sys2Proof

/-- The value listed at a key. -/
def Sparse.get? {α : Type} (k : Nat) : List (Nat × α) → Option α
  | [] => none
  | (j, a) :: m => if j = k then some a else Sparse.get? k m

/-- The value at a key, d where none is listed. -/
def Sparse.get {α : Type} (d : α) (m : List (Nat × α)) (k : Nat) : α := (Sparse.get? k m).getD d

/-- The table with a value listed at a key. -/
def Sparse.put {α : Type} (k : Nat) (a : α) : List (Nat × α) → List (Nat × α)
  | [] => [(k, a)]
  | (j, b) :: m => if k < j then (k, a) :: (j, b) :: m else if k = j then (k, a) :: m else (j, b) :: Sparse.put k a m

/-- The table with nothing listed at a key. -/
def Sparse.del {α : Type} (k : Nat) : List (Nat × α) → List (Nat × α)
  | [] => []
  | (j, b) :: m => if k = j then m else (j, b) :: Sparse.del k m

/-- The table with a value at a key, an unlisted key reading d. -/
def Sparse.set {α : Type} [DecidableEq α] (d : α) (m : List (Nat × α)) (k : Nat) (a : α) : List (Nat × α) :=
  if a = d then Sparse.del k m else Sparse.put k a m

/-- A listed value changed by f. -/
def Sparse.upd {α : Type} (k : Nat) (f : α → α) (m : List (Nat × α)) : List (Nat × α) :=
  match Sparse.get? k m with
  | some a => Sparse.put k (f a) m
  | none => m

/-- Keys strictly rising from a bound. -/
def Sparse.sortedFrom {α : Type} : Nat → List (Nat × α) → Bool
  | _, [] => true
  | b, (k, _) :: m => decide (b ≤ k) && Sparse.sortedFrom (k + 1) m

/-- The canonical form of a table whose unlisted keys read d. -/
def Sparse.wf {α : Type} [DecidableEq α] (d : α) (m : List (Nat × α)) : Bool :=
  Sparse.sortedFrom 0 m && m.all fun c => decide (c.2 ≠ d)

/-- The n values from a key on. -/
def Sparse.range {α : Type} (d : α) (m : List (Nat × α)) (k : Nat) : Nat → List α
  | 0 => []
  | n + 1 => Sparse.get d m k :: Sparse.range d m (k + 1) n

/-- Values written from a key on. -/
def Sparse.setRange {α : Type} [DecidableEq α] (d : α) (m : List (Nat × α)) (k : Nat) : List α → List (Nat × α)
  | [] => m
  | a :: as => Sparse.setRange d (Sparse.set d m k a) (k + 1) as

/-- The k-th of a list of anything, changed. -/
def updAt {α : Type} (f : α → α) : Nat → List α → List α
  | _, [] => []
  | 0, a :: as => f a :: as
  | n + 1, a :: as => a :: updAt f n as

end Sys2Proof
end

