-- ==== Sys2Proof/Machine/State.lean ====
section
/-!
DEFINITION. The state of the package as plain data: every piece of state the manual names (INVENTORY.md lists each
with its rule and reset value), the reasons a step stops, and the state after power-on reset.
-/

namespace Sys2Proof.Machine

/-- Why the machine stops. -/
inductive Fault where
  /-- Raised by every wave instruction when the split named by `State.cur` does not exist or is not ready to issue:
  a state in which the hardware issues nothing there. Safe: no claim about hardware follows from it. -/
  | noIssuingSplit
  deriving DecidableEq, Repr

/-- Why an instruction has no meaning. -/
inductive Refusal where
  /-- Raised by an arm of the dispatch whose instruction has no meaning yet. Safe. -/
  | notModelled (mnemonic : String)
  deriving DecidableEq, Repr

/-- A vector register: lane l in bits 32l+31:32l, and the format tag of the whole register (R48, R62, R64). -/
structure VReg where
  data : BitVec 2048
  tag : BitVec 4
  deriving DecidableEq, Repr

/-- Zero with tag 0 (R55). -/
def VReg.zero : VReg := ⟨0, 0⟩

/-- What a split waits in. -/
inductive Wait where
  /-- It may issue. -/
  | ready
  /-- In the instruction i; n numbers the waits in the order they began (R58, R148, R185, R211, R229, R325). -/
  | on (i : Instr) (n : Nat)
  /-- Parked on fault records: their sequence numbers, each with the lowest faulting address (R186, R188). -/
  | parked (seqs : List (BitVec 16 × Nat))
  /-- In the translation unit: the access walks when its fill is served (R81, R186). -/
  | filling
  /-- Before a release or a fence: the wave's requests to peers are to be answered first (R206, R209). -/
  | quiet
  deriving DecidableEq, Repr

/-- How far a partly performed instruction has come (R189, R190, R278).
DESIGN CHOICE, safe: notes/assumptions/8.md. -/
structure Progress where
  pc : Dword
  /-- The lanes whose accesses have performed. -/
  done : Mask
  /-- The next element of CMPST or EXPLD. -/
  k : Nat
  /-- The fault records, not answered, that still hold accesses of it while others go on, each with the lowest faulting
  address (R188). -/
  held : List (BitVec 16 × Nat)
  deriving DecidableEq, Repr

/-- A path of a wave: its PC, mask and standing (R27, R75), and the iteration number of each active level as the path
has counted its own back edges (R29, R162).
DEDUCED, safe: notes/assumptions/77.md. -/
structure Path where
  pc : Dword
  mask : Mask
  running : Bool
  arrived : Bool
  /-- Stopped by the LOOP of the level of this number, plus one; 0 otherwise (R164, R166). -/
  held : Nat
  wait : Wait
  prog : Option Progress
  iters : List (Option Nat)
  deriving DecidableEq, Repr

/-- A divergence stack entry (R27, R75, R76): the join PC, the address of the JMPI that pushed it, the paths, the
pending lanes, the iteration number of each level active at the push, and the number of the path of the entry below
that pushed it. -/
structure Entry where
  join : Dword
  jmpi : Option Dword
  paths : List Path
  pending : Mask
  iters : List (Option Nat)
  parent : Nat
  deriving DecidableEq, Repr

/-- A loop level record (R75, R164), with the address of the instruction after its end. -/
structure Level where
  start : Dword
  stop : Dword
  after : Dword
  remaining : Nat
  index : Nat
  stages : Nat
  rot : Bool
  deriving DecidableEq, Repr

/-- What each half of a ganged wave, or a native wave, holds once (R33, R73).
DEDUCED, unsafe: notes/assumptions/36.md. -/
structure Half where
  base : Path
  ended : Bool
  /-- The divergence stack, top first. -/
  stack : List Entry
  /-- lc0 to lc3. -/
  levels : List (Option Level)
  region : Dword
  snap : List (Option Level)
  /-- Fault records on which a re-read of pending JMPI targets is parked (R76, R186). -/
  reread : List (BitVec 16 × Nat)
  deriving DecidableEq, Repr

/-- A chain in progress (R65 to R68). -/
structure Chain where
  half : Nat
  path : Nat
  pos : Nat
  u : Bool
  /-- bl0 to bl3. -/
  latches : List VReg
  deriving DecidableEq, Repr

/-- A register with an outstanding write (R95, R97): an earlier value of it, and the numbers of the other outstanding
instructions whose writes must not have landed either where that value is to be read. -/
inductive OldReg where
  /-- A vector register, the value it held before, and the lanes in which that value may still be read. -/
  | v (n : Nat) (old : VReg) (m : Mask) (deps : List Nat)
  | s (n : Nat) (old : BitVec 64) (deps : List Nat)
  | p (n : Nat) (old : BitVec 64) (m : Mask) (deps : List Nat)
  /-- A register, by its key, whose earlier value in some lanes stands with a later write. -/
  | over (key : Nat) (m : Mask)
  /-- A register of a block that the wave has given back and that drains (R58). -/
  | gone (blk : Nat)
  deriving DecidableEq, Repr

/-- An outstanding instruction: its number among the wave's, its register writes, its scoreboard, its issuing mask and,
for a fixed latency, the cycles left for the splits of that mask (R31, R95, R96). -/
structure Pend where
  n : Nat
  regs : List OldReg
  sbs : Nat
  half : Nat
  mask : Mask
  left : Option Nat
  deriving DecidableEq, Repr

/-- A pending atomic of an ATOMN (R321): its virtual address, the leaf that translated it and the leaf's level, its
operand, operation, type and scope, whether it is the first of its instruction to perform, which opens an SFR (R215), and
the half and the PC of its instruction, at which its exceptions are precise. -/
structure AtomnOp where
  va : Nat
  pte : BitVec 64
  lvl : Nat
  x : Nat
  op : Nat
  ty : Nat
  scope : Nat
  opens : Bool
  half : Nat
  pc : Dword
  deriving DecidableEq, Repr

/-- The fault records a part of an instruction is parked on, each with the lowest faulting address (R188). -/
abbrev Parked : Type := List (BitVec 16 × Nat)

/-- What a wave is (R44, R45, R230, R256, R296). -/
inductive Kind where
  | block
  | single
  | handler
  | agent
  | mgmt
  deriving DecidableEq, Repr

/-- A trap-queue record (R251 to R254), with the handle of the wave it concerns (R256, R460). -/
structure TrapRec where
  code : BitVec 64
  pc : BitVec 64
  addr : BitVec 64
  wave : BitVec 32
  blk : Option Nat
  proc : BitVec 32
  sc : BitVec 32
  core : Nat
  /-- The number of the path that faulted. -/
  path : Nat
  /-- The region entry of the faulting half when the exception was raised (R256). -/
  region : Dword
  /-- An ENGINE_COMMAND raised at posting: the split still stands at the posting instruction. -/
  posting : Bool
  /-- For a record of a handler wave: the handle and block of the wave it handles, which its fault ends (R258). -/
  ofW : Option (BitVec 32 × Option Nat)
  deriving DecidableEq, Repr

/-- A verdict given on a trapped wave and not applied yet (R257, R268): the verdict, the half and the path that faulted,
KTPC, whether the fault arose at a re-read, and the fault records on which the check of its target is parked (R80). It
waits for those, or for the wave's return to a core. -/
structure Due where
  v : Nat
  half : Nat
  path : Nat
  pc : Dword
  reread : Bool
  parked : Parked
  deriving DecidableEq, Repr

/-- What is fixed when a wave is made (R26, R37, R45, R72, R230, R256). -/
structure WaveId where
  handle : BitVec 32
  proc : BitVec 32
  sc : BitVec 32
  kind : Kind
  blk : Option Nat
  lvls : List Nat
  gang : Bool
  codeBase : Dword
  placement : BitVec 2
  home : Nat
  pinned : Bool
  /-- The order in which wave objects were made (R59). -/
  made : Nat
  /-- For a handler wave, the record it handles. -/
  handles : Option TrapRec
  deriving DecidableEq, Repr

/-- The registers of a wave: s1 to s63, v0 to v319 by physical number, p1 to p15; an unlisted one is zero (R48). -/
structure Regs where
  s : List (Nat × BitVec 64)
  v : List (Nat × VReg)
  p : List (Nat × BitVec 64)
  deriving DecidableEq, Repr

/-- A wave (R48, R71 to R76). -/
structure Wave where
  id : WaveId
  regs : Regs
  hold : BitVec 4
  rrb : BitVec 6
  srrb : BitVec 6
  regcnt : BitVec 20
  tids : BitVec 2048
  exited : Mask
  removed : List Mask
  halves : List Half
  chain : Option Chain
  pend : List Pend
  atomn : List AtomnOp
  /-- Exceptions whose verdict has not been applied (R248, R268). -/
  traps : Nat
  /-- The latest exception's record, for its verdict (R257). -/
  trap : Option TrapRec
  /-- Exceptions of its splits met while it was trapped: a trapped wave raises nothing more until its verdict is applied,
  and then the first of them (R254).
  DEDUCED, safe: notes/assumptions/96.md. -/
  later : List TrapRec
  /-- The verdicts given and not applied yet (R268). -/
  due : List Due
  /-- Number of the synchronisation-free region (R215). -/
  sfr : Nat
  /-- Cycles counted before the current residency, and the device time it began (R54). -/
  cycles : Nat
  since : Nat
  lastIssue : Nat
  /-- The place of the split that issued last (R32), and the last device time at which no split was ready (R46). -/
  turn : Nat
  idleAt : Nat
  /-- No split of it was ready when that was last looked at (R224). -/
  idle : Bool
  /-- The device time at which its STATE became 2, waiting (R224, R232). -/
  waitAt : Option Nat
  /-- A YIELD's pass (R437): the device time at which it ends, and the slots of the other waves that have still to issue. -/
  yielded : Option (Nat × List Nat)
  /-- The registers that hold an uncorrectable error (R196): vectors by physical number, scalars from 320. -/
  badRegs : List Nat
  /-- It is to be saved at its next chain boundary and issues nothing beyond it (R232, R241, R262). -/
  stopping : Bool
  deriving DecidableEq, Repr

/-- A matrix state set (R48, R53, R137, R143): the block that owns it, tile bytes at 16384·t + 128·row + byte,
accumulator elements at 16384·a + 128·i + j, tags and posted tags of t0–t7 and a0–a3. -/
structure MSet where
  owner : Option Nat
  tiles : List (Nat × Byte)
  accs : List (Nat × Word)
  tags : List (BitVec 4)
  posted : List (BitVec 4)
  /-- The tiles (0 to 7) and accumulators (8 to 11) that hold an uncorrectable error (R196). -/
  bad : List Nat
  deriving DecidableEq, Repr

/-- One slot of a channel (R148). -/
structure ChSlot where
  fills : Nat
  empties : Nat
  pc : Nat
  gc : Nat
  deriving DecidableEq, Repr

/-- A reservation of a channel that is not done (R147, R148): its kind, its number, whether granted, and its holder:
a level-1 index, or none for an engine command. -/
structure Resv where
  put : Bool
  num : Nat
  granted : Bool
  wave : Option Nat
  deriving DecidableEq, Repr

/-- A channel held by a block (R147). -/
structure Chan where
  holder : Nat
  base : Nat
  size : Nat
  n : Nat
  p : Nat
  c : Nat
  pr : Nat
  gr : Nat
  slots : List ChSlot
  resv : List Resv
  deriving DecidableEq, Repr

/-- The wave that posted an engine command (R460). -/
structure Poster where
  handle : BitVec 32
  slot : Nat
  lvl1 : Nat
  proc : BitVec 32
  sc : BitVec 32
  blk : Option Nat
  gang : Bool
  /-- The posting half of a ganged wave, and the core it posted from. -/
  half : Nat
  core : Nat
  /-- The KPASID of an agent's posting, under which its command accesses memory (R249). -/
  kpasid : Option (BitVec 20)
  deriving DecidableEq, Repr

/-- Where an engine command stands: not fired; fired, its data being read; its data at hand; its data written, its League
writes unanswered; released, its counter to come; or parked on fault records, to go on from a stage by that order. -/
inductive CmdSt where
  | queued
  | fired
  | landed
  | written
  | counting
  | parked (seqs : List (BitVec 16 × Nat)) (stage : Nat)
  deriving DecidableEq, Repr

/-- An engine command as posted (R142, R152, R266): the posting instruction, its PC, its poster, the scalars and the
registers read at posting, a copy's shape record, its channel reservations, its place in the posting order, and the
number it was posted under. -/
structure Cmd where
  n : Nat
  id : Nat
  ins : Instr
  pc : Dword
  poster : Poster
  act : Mask
  scal : List (BitVec 64)
  regs : List VReg
  record : List Byte
  resv : List (Nat × Resv)
  st : CmdSt
  /-- The data a fired command has read, to be written when it lands. -/
  buf : List Byte
  /-- A follow-on MMA, by its description in scalar 1 (R153). -/
  follow : Bool
  sfr : Nat
  deriving DecidableEq, Repr

/-- A waiting VGROW request (R57). -/
structure PoolReq where
  slot : Nat
  blk : Nat
  deriving DecidableEq, Repr

/-- A block of a slot that drains (R58, R60): 0 the base block, k an extended block ek. -/
structure Drain where
  slot : Nat
  blk : Nat
  deriving DecidableEq, Repr

/-- The control registers of a core (R249 to R253, R298). -/
structure Ctl where
  intlk : Bool
  kproc : BitVec 32
  kpasid : BitVec 20
  ktvec : BitVec 46
  ksc : BitVec 32
  drain : BitVec 16
  window : BitVec 32
  thr : BitVec 3
  temp : BitVec 12
  droop : BitVec 4
  held : Nat
  deriving DecidableEq, Repr

/-- A core, or the management core. -/
structure Core where
  ctl : Ctl
  trapQ : List TrapRec
  agentHalted : Bool
  latched : BitVec 6
  sigQ : List (BitVec 64 × BitVec 8)
  pool : Nat
  poolQ : List PoolReq
  draining : List Drain
  scratch : List Host.Cell
  /-- The scratchpad granules that hold an uncorrectable error (R196). -/
  badSpad : List Nat
  fe : List (Nat × Bool)
  /-- The order numbers of the latest change of a granule's full-empty bit that wakes waiting splits, and of the latest by a
  window store, which wakes none (R185). -/
  feWoke : List (Nat × Nat)
  feQuiet : List (Nat × Nat)
  msets : List MSet
  chans : List (Nat × Chan)
  fifo : List Cmd
  copyq : List Cmd
  waves : List (Nat × Wave)
  tlb : List (Nat × Nat × BitVec 64)
  icache : List (Nat × BitVec 512)
  lastIssue : Nat
  /-- The length of the progress window in progress, in nanoseconds, and the device time at which it ends (R47, R252). -/
  winNs : Nat
  winEnd : Nat
  /-- There was work for the core to claim or to restore when that was last looked at (R374). -/
  work : Bool
  /-- The block a swap takes from the core: once it has left, the oldest waiting block that fits takes its place (R246). -/
  swapping : Option Nat
  deriving DecidableEq, Repr

/-- A cached copy of a 16-byte granule (R177, R205 to R207): its bytes, which of them are dirty, and whether it holds an
uncorrectable error (R196). -/
structure Copy where
  data : BitVec 128
  dirty : BitVec 16
  bad : Bool
  deriving DecidableEq, Repr

/-- A party (R198). -/
inductive Party where
  | wave (handle : BitVec 32)
  | engine (core n : Nat)
  | peer (n : Nat)
  | host
  deriving DecidableEq, Repr

/-- One access kept for a checked granule (R216). -/
structure Access where
  party : Party
  sfr : Nat
  write : Bool
  data : Bool
  deriving DecidableEq, Repr

/-- The unit a scope contains (R199): the scope, the core it was taken at, and the party with its block. -/
structure Reach where
  scope : Nat
  core : Nat
  blk : Option Nat
  party : Party
  deriving DecidableEq, Repr

/-- The record of a checked granule (R216, R217). -/
structure Checked where
  accs : List Access
  sync : Option Reach
  deriving DecidableEq, Repr

/-- A fault record (R187). -/
structure FaultRec where
  vpage : BitVec 40
  kind : Nat
  wlvl : Nat
  core : Nat
  pasid : BitVec 20
  seq : BitVec 16
  eng : Bool
  wslot : Nat
  popped : Bool
  answered : Bool
  deriving DecidableEq, Repr

/-- The fault buffer of a die (R186 to R188). -/
structure FaultBuf where
  seq : BitVec 16
  recs : List FaultRec
  deriving DecidableEq, Repr

/-- A message queued at a port (R234): the tick it was enqueued, the 128-byte slot contents. -/
structure Msg where
  at' : Nat
  bytes : List Byte
  deriving DecidableEq, Repr

/-- A remote sender held at a full port (R288). -/
structure RemoteSender where
  /-- Its place among the waiters of the port (R229). -/
  n : Nat
  src : Nat
  tag : Nat
  bytes : List Byte
  deriving DecidableEq, Repr

/-- What each type of object holds after its header (R224). -/
inductive Body where
  | free
  | process (pasid : BitVec 20) (root : BitVec 64) (trap : BitVec 64) (sc : BitVec 32)
  | wave (image : BitVec 64) (readyAt : Nat) (at' : Option (Nat × Nat)) (saved : Option Wave) (id : Option WaveId)
      (endedAt : Option Nat) (trap : Option TrapRec)
  | port (cap : Nat) (storage : BitVec 64) (name : BitVec 64) (msgs : List Msg) (senders : List RemoteSender)
  | wset (array : BitVec 64) (members : List (BitVec 32))
  | timer (deadline period : Nat) (pending : Nat) (ready : Nat)
  /-- `release` is the device time of the next release, `k` the number of releases so far. -/
  | sctx (p b d deadline left : Nat) (idx : Nat) (release : Nat) (k : Nat) (suspended : Bool)
  | rport (peer : Nat) (handle : BitVec 32) (epoch : Nat)
  deriving DecidableEq, Repr

/-- An object-table entry (R222, R223). -/
structure Obj where
  gen : BitVec 8
  owner : BitVec 20
  state : BitVec 8
  tdi : BitVec 8
  body : Body
  deriving DecidableEq, Repr

/-- A barrier instance of a launch level (R39, R324): how many phases have completed, the arrival counts of its members
by 2·handle + half (the flag A is set exactly when the count is not 0), and the credits outstanding: core, order number
of the FIFO entry, and the phase before whose arrival it was posted (R145).
DEDUCED, safe: notes/assumptions/41.md. -/
structure Bar where
  phase : Nat
  counts : List (Nat × Nat)
  credits : List (Nat × Nat × Nat)
  /-- Its device has sent its arrival of a peer-set phase (R289), and one that counts for every phase, since its members
  have all ended (R324). -/
  sent : Bool
  allOver : Bool
  deriving DecidableEq, Repr

/-- Where a block stands: its ticket claimed, its power tokens still to come (R296); placed; saved; flushed; ended. -/
inductive BlkSt where
  | claimed
  | placed
  | saved
  | flushed
  | ended
  deriving DecidableEq, Repr

/-- What a matrix state image holds (R266, R267): a block's set, its channels and its unfired commands; kept beside the
image for what its layout has no place for.
DESIGN CHOICE, unsafe: notes/assumptions/26.md. -/
structure BlkImage where
  mset : Option MSet
  chans : List (Nat × Chan)
  fifo : List Cmd
  copyq : List Cmd
  deriving DecidableEq, Repr

/-- A block (R263 to R267, R294, R296, R459). -/
structure Block where
  launch : Nat
  ticket : Nat
  core : Nat
  st : BlkSt
  waves : List (BitVec 32)
  spadBase : Nat
  spadLen : Nat
  mset : Option Nat
  tokens : Nat
  idem : Bool
  placedAt : Nat
  enq : Nat
  /-- It drains, until this device time (R265). -/
  drainUntil : Option Nat
  /-- It must leave its core (R262); true where the DRAIN line does not apply (R264, R265). -/
  leaving : Option Bool
  /-- The wave slots it was placed in, by level-1 index. -/
  slots : List Nat
  /-- An ENGINE_COMMAND record queued or its verdict pending (R254). -/
  engErr : Bool
  /-- CONTINUE verdicts on engine commands that wait for the precise verdict of a wave of the block (R268). -/
  engHeld : Nat
  faulted : Bool
  /-- What a SAVE wrote. -/
  image : Option BlkImage
  deriving DecidableEq, Repr

/-- Where a launch stands (R41, R43, R293): its routing table is being read; it waits for the exchange; its blocks run;
its completion record is to be written; it is over. The reads and the write may be parked on fault records. -/
inductive LaunchSt where
  | checking (parked : List (BitVec 16 × Nat))
  | arriving
  | running
  | ending (parked : List (BitVec 16 × Nat))
  | closed
  deriving DecidableEq, Repr

/-- The thermal weight of an agent before it claims (R296): its core, the claims of other agents on the counter still to
come, and since when it waits. -/
structure ClaimWait where
  core : Nat
  left : Nat
  since : Nat
  deriving DecidableEq, Repr

/-- A launch (R294 to R296). -/
structure Launch where
  fn : Nat
  q : Nat
  /-- The number of its packet. -/
  pkt : Nat
  record : List Byte
  st : LaunchSt
  /-- A fault record on which it was parked has been answered with ACT = 1 (R188). -/
  raised : Bool
  /-- The agents that wait before they claim, and the cores whose agents have found no ticket left (R296). -/
  waits : List ClaimWait
  stopped : List Nat
  ended : Nat
  status : Nat
  since : Nat
  /-- Barrier instances by 2^40·level + instance number. -/
  bars : List (Nat × Bar)
  deriving DecidableEq, Repr

/-- The launch exchange at the lowest peer (R41). -/
structure PeerSet where
  key : Nat
  base : Nat
  count : Nat
  levels : List Byte
  members : List Nat
  failed : Bool
  since : Nat
  deriving DecidableEq, Repr

/-- A packet of a queue's on-chip buffer (R292, R293): its number, whether it holds a ring slot, and, for a wait packet,
the fault records its read is parked on. -/
structure QPkt where
  n : Nat
  ring : Bool
  bytes : List Byte
  started : Bool
  finished : Bool
  parked : List (BitVec 16 × Nat)
  deriving DecidableEq, Repr

/-- A queue (R291, R292). -/
structure Queue where
  base : BitVec 64
  size : Nat
  tail : Nat
  devTail : Nat
  head : Nat
  en : Bool
  stat : BitVec 3
  pkts : List QPkt
  deriving DecidableEq, Repr

/-- A League port (R269, R273). -/
structure Port where
  up : Bool
  ver : Nat
  deriving DecidableEq, Repr

/-- An outstanding request of this device on the League (R270, R272, R278): its tag, the split or object it serves,
the lane, the destination, the packet as sent, when, and the answer once it has come. -/
structure Req where
  tag : Nat
  handle : BitVec 32
  half : Nat
  lane : Nat
  pkt : Packet
  at' : Nat
  /-- A first answer has suspended the timeout (R288). -/
  suspended : Bool
  /-- The line must not be installed (R281). -/
  marked : Bool
  /-- The core in whose caches a G line may be installed (R279). -/
  inst : Option Nat
  answer : Option Packet
  /-- The virtual address it serves, or what stands for one: KTADDR of a negative answer (R253, R278). -/
  va : Nat
  /-- Nothing waits for its answer any more; a marked one still owes its acknowledgement (R281). -/
  orphan : Bool
  deriving DecidableEq, Repr

/-- A multicast in progress at a switch (R283). -/
structure Mcast where
  plane : Nat
  tag : Nat
  src : Nat
  waiting : List Nat
  pos : Nat
  neg : List (Nat × Nat)
  at' : Nat
  deriving DecidableEq, Repr

/-- The switches (R284, R286). -/
structure Switch where
  groups : List (Nat × BitVec 512)
  managers : List Nat
  segs : List (Nat × Packet)
  mcasts : List Mcast
  deriving DecidableEq, Repr

/-- An invalidate that waits for importers (R281): the page, the importers left, when it was sent, the waiter. -/
structure Inval where
  page : BitVec 40
  left : List Nat
  at' : Nat
  handle : BitVec 32
  deriving DecidableEq, Repr

/-- A collective or shuffle in progress (R156, R285 to R287). -/
structure Coll where
  cmds : List (Nat × Nat)
  ident : Nat
  /-- The segments sent and not acknowledged: receiving peer, block tag, segment number (R287). -/
  unacked : List (Nat × Nat × Nat)
  doneFrom : List Nat
  coded : List (BitVec 32)
  fallback : List (BitVec 32)
  received : List (BitVec 32)
  doneSent : Bool
  deriving DecidableEq, Repr

/-- A side-cache entry (R285): collective identifier, tag, length, local address, registration order, process. -/
structure Side where
  ident : Nat
  tag : BitVec 32
  len : Nat
  addr : BitVec 64
  ord : Nat
  proc : BitVec 32
  deriving DecidableEq, Repr

/-- A peer-set barrier at the lowest peer (R289): its launch's key and set, the phase in progress, the devices that have
arrived at it, and those whose members have all ended, which count for every phase (R324). -/
structure PeerBar where
  key : Nat
  base : Nat
  count : Nat
  phase : Nat
  from' : List Nat
  allOver : List Nat
  deriving DecidableEq, Repr

/-- The League side of the device. -/
structure League where
  ports : List Port
  windows : List (Nat × BitVec 256)
  closed : List (Nat × Nat)
  reqs : List Req
  nextTag : Nat
  netOut : List Packet
  sw : Switch
  invs : List Inval
  /-- Invalidate acknowledgements owed until marked reads have been answered (R281). -/
  acks : List Packet
  colls : List Coll
  /-- Segments received and not yet written: their receiver has not fired, or their data waits for memory (R287). -/
  held : List Packet
  side : List Side
  /-- Shuffle dones heard for a participant whose command has not fired: identifier, its ticket, the sender's (R287). -/
  dones : List (Nat × Nat × Nat)
  peerBars : List PeerBar
  deriving DecidableEq, Repr

/-- The TDISP state of a TDI (R302). -/
inductive Tdisp where
  | unlocked
  | locked
  | run
  | error
  deriving DecidableEq, Repr

/-- A TDI (R302, R303). -/
structure Tdi where
  st : Tdisp
  /-- The key slots its runs of granules are bound to (R303). -/
  slots : List Nat
  report : List Byte
  deriving DecidableEq, Repr

/-- What a port's training finds (R273, R306): the equaliser's success, the link versions of the other end, and the switch
port index it reports. -/
structure Link where
  good : Bool
  lo : Nat
  hi : Nat
  index : Nat
  deriving DecidableEq, Repr

/-- The steps of HBM4 training (R305). -/
inductive TrainStep where
  | impedance
  | commandBus
  | writeLevel
  | readEye
  | pattern
  deriving DecidableEq, Repr

/-- The board (R23, R304): straps, EEPROM, and how its parts behave at boot.
DESIGN CHOICE, unsafe: notes/assumptions/10.md. -/
structure Board where
  watts : Nat
  peer : BitVec 9
  eeReadable : Bool
  eeWritable : Bool
  eeCount : Nat
  eeReason : Nat
  pufStable : Bool
  /-- By 32·stack + channel, the bits of a pattern that read back wrong. -/
  chanErr : List (Nat × BitVec 64)
  links : List Link
  coresGood : List Bool
  deriving DecidableEq, Repr

/-- A memory of its own of a given number of bytes (R14): an unlisted address below its size reads zero. -/
structure Bank where
  size : Nat
  cells : List Host.Cell
  deriving DecidableEq, Repr

/-- Its cells lie within its size and are in the canonical form. -/
def Bank.wf (b : Bank) : Bool := Sparse.wf 0 b.cells && b.cells.all fun c => c.1 < b.size

/-- The management core's boot and mailbox state (R299, R304, R308).
DEDUCED, unsafe: notes/assumptions/9.md. -/
structure Boot where
  ldown : BitVec 32
  attempt : BitVec 8
  step : BitVec 8
  reason : BitVec 8
  min : Bool
  req : List (Nat × Byte)
  doorbell : Bool
  resp : List (Nat × Byte)
  /-- The queues being destroyed (R300, R301), as 64·function + queue, and whether the mailbox waits for one. -/
  destroying : List (Nat × Bool)
  pasidDown : Option (BitVec 20)
  log : List (BitVec 512)
  signed : List (BitVec 512)
  version : Nat
  /-- The controller registers written by training, in order: the stack and the step (R305). -/
  trained : List (Nat × TrainStep)
  /-- The restarts so far: remote handles name the one they come from (R288). -/
  epoch : Nat
  /-- The management core's mask ROM and its SRAM (R14). -/
  rom : Bank
  sram : Bank
  deriving DecidableEq, Repr

/-- Who waits for power tokens (R296, R297, R408): an agent in PWRACQ, or a claimed block. -/
inductive TokWaiter where
  | agent (core : Nat)
  | block (b : Nat)
  deriving DecidableEq, Repr

/-- One turn of the machine. -/
inductive Turn where
  | issue (w : Who)
  | event (i : Instr)
  deriving DecidableEq, Repr

/-- A pending atomic of a wave that has ended (R213, R461): its core, its party, block and SFR, and the record that an
uncorrectable error among its data would make (R196). -/
structure Orphan where
  core : Nat
  party : Party
  blk : Option Nat
  sfr : Nat
  op : AtomnOp
  rec' : TrapRec
  deriving DecidableEq, Repr

/-- Memory, its copies and its protection. -/
structure Mem where
  hbm : List Host.Cell
  host : List Host.Cell
  copies : List (Nat × List (Nat × Copy))
  fbuf : List FaultBuf
  checked : List (Nat × Checked)
  ecc : List Nat
  retired : List Nat
  granKey : List (Nat × Nat)
  keyHeld : BitVec 64
  keys : List (Nat × BitVec 512)
  congest : List (BitVec 2)
  /-- Pending atomics of waves that have ended, in order. -/
  orphans : List Orphan
  /-- The granules of the local tier whose copies in the caches are G lines (R206). -/
  gLines : List Nat
  deriving DecidableEq, Repr

/-- The kernel units' state. -/
structure Kern where
  objs : List (Nat × Obj)
  entryBase : BitVec 64
  names : List (BitVec 64 × BitVec 32)
  /-- Ready lists by 256·cluster + context index: wave handles and blocks, with their ready time (R231). -/
  runq : List (Nat × List ((BitVec 32 ⊕ Nat) × Nat))
  made : Nat
  overruns : List Nat
  deriving DecidableEq, Repr

/-- A code object as the loader left it (R94, R111): its process, its place, and its STEPPING and GANG notes.
DEDUCED, unsafe: notes/assumptions/54.md. -/
structure CodeObj where
  proc : BitVec 32
  base : Nat
  len : Nat
  stepping : Option Nat
  gang : Bool
  deriving DecidableEq, Repr

/-- The host side. -/
structure HostSide where
  /-- The code objects loaded. -/
  code : List CodeObj
  queues : List (Nat × Queue)
  launches : List (Nat × Launch)
  blocks : List (Nat × Block)
  peerSets : List PeerSet
  msix : List (Nat × Nat)
  nextLaunch : Nat
  nextBlock : Nat
  tdis : List Tdi
  deriving DecidableEq, Repr

/-- The state of the package. -/
structure State where
  dtime : BitVec 64
  peer : BitVec 9
  poolFree : Nat
  tokWait : List TokWaiter
  mem : Mem
  cores : List (Nat × Core)
  kern : Kern
  host : HostSide
  league : League
  board : Board
  boot : Boot
  /-- The order numbers of waits, posts and registrations. -/
  next : Nat
  /-- The model's own: the turns to come, the split that issues, the counter of free values. -/
  agenda : List Turn
  cur : Who
  free : Nat
  deriving DecidableEq, Repr

/-- A matrix state set as a block receives it (R53). -/
def MSet.fresh (owner : Option Nat) : MSet := ⟨owner, [], [], List.replicate 12 0, List.replicate 12 0, []⟩

/-- A core after reset.
DESIGN CHOICE, unsafe: notes/assumptions/16.md. -/
def Core.reset : Core where
  ctl := ⟨false, 0, 0, 0, 0, 0x32, 0x10000, 0, 0, 0, 0⟩
  trapQ := []
  agentHalted := false
  latched := 0
  sigQ := []
  pool := 32
  poolQ := []
  draining := []
  scratch := []
  badSpad := []
  fe := []
  feWoke := []
  feQuiet := []
  msets := [MSet.fresh none, MSet.fresh none]
  chans := []
  fifo := []
  copyq := []
  waves := []
  tlb := []
  icache := []
  lastIssue := 0
  winNs := 65536 * 10 / 13
  winEnd := 65536 * 10 / 13
  work := false
  swapping := none

/-- A queue after reset (R291).
DESIGN CHOICE, unsafe: notes/assumptions/16.md. -/
def Queue.reset : Queue := ⟨0, 0, 0, 0, 0, false, 0, []⟩

/-- The size of the power-token pool under a board power limit of w watts (R297). -/
def poolSize (w : Nat) : Nat := min 128 (128 * (w - 900) / 2300)

/-- The package right after power-on reset.
DESIGN CHOICE, unsafe: notes/assumptions/10.md; DESIGN CHOICE, unsafe: notes/assumptions/16.md. -/
def State.reset : State where
  dtime := 0
  peer := 0
  poolFree := poolSize 3200
  tokWait := []
  mem := { hbm := [], host := [], copies := [], fbuf := List.replicate 4 ⟨0, []⟩, checked := [], ecc := [],
           retired := [], granKey := [], keyHeld := 1, keys := [], congest := List.replicate 8 0, orphans := [], gLines := [] }
  cores := []
  kern := { objs := [], entryBase := 0x4000000000, names := [], runq := [], made := 0, overruns := [] }
  host := { code := [], queues := [], launches := [], blocks := [], peerSets := [], msix := [], nextLaunch := 0, nextBlock := 0,
            tdis := List.replicate 16 ⟨.unlocked, [], []⟩ }
  league := { ports := List.replicate 32 ⟨false, 0⟩, windows := [], closed := [], reqs := [],
              nextTag := 0, netOut := [], sw := ⟨[], [], [], []⟩, invs := [], acks := [], colls := [], held := [], side := [], dones := [],
              peerBars := [] }
  board := { watts := 3200, peer := 0, eeReadable := true, eeWritable := true, eeCount := 0, eeReason := 0,
             pufStable := true, chanErr := [], links := List.replicate 32 ⟨true, 1, 1, 0⟩,
             coresGood := List.replicate 128 true }
  boot := { ldown := 0, attempt := 0, step := 0, reason := 0, min := false, req := [], doorbell := false, resp := [],
            destroying := [], pasidDown := none, log := [], signed := [], version := 0, trained := [], epoch := 0,
            rom := ⟨4 * 2 ^ 20, []⟩, sram := ⟨2 ^ 20, []⟩ }
  next := 0
  agenda := []
  cur := ⟨0, 1, 0, 0⟩
  free := 0

end Sys2Proof.Machine
end

