-- ==== Sys2Proof/Machine/Ops.lean ====
section
/-!
DEFINITION. The named operations every meaning is written over: cores, waves, splits and masks; registers and
predicates; bytes of memory; the exceptions; the divergence stack and the loop levels; the ends of waves and blocks.
-/

namespace Sys2Proof.Machine

/-! ### Numbers of the device (R16, R17) -/

/-- The core index of the management core, as MGSIG names it (R386). -/
def mgmtCore : Nat := 255
/-- The cluster of a core (R16, R17). -/
def clusterOf (core : Nat) : Nat := core / 16 / 2 * 8 + core % 16 / 2
/-- The compute die of a core (R16). -/
def dieOf (core : Nat) : Nat := core / 16 / 4 * 2 + core % 16 / 8
/-- The position of a core in its cluster (R17). -/
def posOf (core : Nat) : Nat := core / 16 % 2 * 2 + core % 2
/-- The core at a position of a cluster (R17). -/
def coreAt (cluster pos : Nat) : Nat := (cluster / 8 * 2 + pos / 2) * 16 + cluster % 8 * 2 + pos % 2
/-- The die of a cluster. -/
def dieOfCluster (cl : Nat) : Nat := dieOf (coreAt cl 0)

/-! ### Cores, waves, splits -/

/-- A core of the package. -/
def State.core (s : State) (c : Nat) : Core := Sparse.get Core.reset s.cores c
/-- The state with a core replaced. -/
def State.setCore (s : State) (c : Nat) (k : Core) : State := { s with cores := Sparse.put c k s.cores }
/-- The state with a core changed. -/
def State.updCore (s : State) (c : Nat) (f : Core → Core) : State := s.setCore c (f (s.core c))
/-- The wave in a slot of a core. -/
def State.wave? (s : State) (c k : Nat) : Option Wave := Sparse.get? k (s.core c).waves
/-- The state with a wave placed in a slot. -/
def State.setWave (s : State) (c k : Nat) (w : Wave) : State :=
  s.updCore c fun r => { r with waves := Sparse.put k w r.waves }
/-- The state with the wave of a slot, if any, changed. -/
def State.updWave (s : State) (c k : Nat) (f : Wave → Wave) : State :=
  match s.wave? c k with
  | some w => s.setWave c k (f w)
  | none => s

/-- The top of a half's divergence stack, or the single split of depth 0 as an entry of one path (R27). -/
def Half.paths (h : Half) : List Path :=
  match h.stack with
  | [] => if h.ended then [] else [h.base]
  | e :: _ => e.paths

/-- A path of the top of a half changed. -/
def Half.updPath (h : Half) (k : Nat) (f : Path → Path) : Half :=
  match h.stack with
  | [] => if k = 0 then { h with base := f h.base } else h
  | e :: es => { h with stack := { e with paths := updAt f k e.paths } :: es }

/-- A half of a wave changed. -/
def Wave.updHalf (w : Wave) (h : Nat) (f : Half → Half) : Wave := { w with halves := updAt f h w.halves }
/-- A split's path changed. -/
def Wave.updPath (w : Wave) (h k : Nat) (f : Path → Path) : Wave := w.updHalf h fun x => x.updPath k f

/-- What an issuing split is: its place, its wave, half and path. -/
structure Ctx where
  who : Who
  w : Wave
  half : Half
  path : Path
  deriving DecidableEq, Repr

/-- A split of a resident wave (R27). -/
def State.ctx? (s : State) (a : Who) : Option Ctx :=
  match s.wave? a.core a.slot with
  | none => none
  | some w =>
    match w.halves[a.half]? with
    | none => none
    | some h =>
      match h.paths[a.path]? with
      | none => none
      | some p => some ⟨a, w, h, p⟩

/-- Parked on fault records, or waiting in the translation unit (R186). -/
def Wait.isParked : Wait → Bool
  | .parked _ | .filling => true
  | _ => false

/-- The wave is parked on a translation fault: none of its splits is ready (R186). -/
def Wave.isParked (w : Wave) : Bool :=
  w.halves.any fun h => !h.reread.isEmpty || h.paths.any fun p => p.wait.isParked

/-- The split stands within a chain of its own (R65, R68). -/
def Ctx.inChain (c : Ctx) : Bool :=
  match c.w.chain with
  | some k => k.half == c.who.half && k.path == c.who.path
  | none => false

/-- A wave has unanswered requests on the League, of an instruction or of a posting (R278): a message held at a full port
is not one (R288). -/
def State.hasReqs (s : State) (h : BitVec 32) : Bool := s.league.reqs.any fun r => r.handle == h && r.answer.isNone && !r.suspended

/-- The request serves a split: one of its lanes. -/
def Req.of (r : Req) (h : BitVec 32) (half : Nat) (m : Mask) : Bool :=
  !r.orphan && r.handle == h && r.half == half && m.getLsbD r.lane

/-- The target has taken back the message of an abandoned PSEND: its instruction has had no effect (R229, R288). -/
def Req.withdrawn (r : Req) : Bool :=
  match r.answer with
  | some a => r.pkt.type == 0x0B && bits a.ext.toNat 51 48 == 14
  | none => false

/-- The split's instruction has answers to take and then goes on: it is not at an instruction boundary (R248, R278). -/
def Ctx.midway (c : Ctx) (s : State) : Bool :=
  s.league.reqs.any fun r => (r.of c.w.id.handle c.who.half c.path.mask || r.of c.w.id.handle (c.who.half + 4) c.path.mask) && !r.withdrawn

/-- A wave has a split in the middle of an instruction that the League still has to answer, or has answered; with one held at
a full port among them (R248, R278, R288). A name looked up is none: a save abandons that wait (R396). -/
def State.midWave (s : State) (h : BitVec 32) (held : Bool) : Bool :=
  s.league.reqs.any fun r =>
    !r.orphan && r.handle == h && (r.half < 2 || 4 ≤ r.half) && r.pkt.type != 0x0C && !r.withdrawn &&
      (held || !r.suspended || r.answer.isSome)

/-- A split that may issue: it runs, waits for nothing, and its wave is neither parked, nor trapped, nor about to be saved,
but for a chain or an instruction that it goes through to its end, a fence or a release that its requests held up among them
(R28, R186, R241, R248, R365); a halted agent issues nothing (R254). -/
def Ctx.ready (c : Ctx) (s : State) : Bool :=
  c.path.running && !c.path.arrived && (c.path.wait == .ready || c.path.wait == .quiet && !s.hasReqs c.w.id.handle) &&
    ((c.w.traps == 0 && !c.w.stopping || c.inChain) && !c.w.isParked || c.path.wait == .quiet || c.midway s) &&
    !(c.who.slot == 0 && (s.core c.who.core).agentHalted)

/-- A wave that runs in privileged mode (R101). -/
def Wave.priv (w : Wave) : Bool := w.id.kind == .agent || w.id.kind == .mgmt

/-- The state with the issuing wave replaced. -/
def State.put (s : State) (c : Ctx) (w : Wave) : State := s.setWave c.who.core c.who.slot w
/-- The state with the issuing split's path changed. -/
def State.updPath (s : State) (c : Ctx) (f : Path → Path) : State :=
  s.updWave c.who.core c.who.slot fun w => w.updPath c.who.half c.who.path f

/-! ### Lanes -/

/-- The lanes of a mask, ascending. -/
def lanesOf (m : Mask) : List Nat := (List.range 64).filter fun l => m.getLsbD l
/-- The lowest lane of a mask (R102). -/
def lowest (m : Mask) : Option Nat := (List.range 64).find? fun l => m.getLsbD l
/-- The mask of the lanes that satisfy a test. -/
def maskOf (f : Nat → Bool) : Mask := BitVec.ofNat 64 (pack 1 ((List.range 64).map fun l => b2n (f l)))
/-- One lane. -/
def oneLane (l : Nat) : Mask := BitVec.ofNat 64 (2 ^ l)
/-- All lanes. -/
def allLanes : Mask := BitVec.allOnes 64
/-- The lanes of a half of a ganged wave (R33), or of a native wave. -/
def halfLanes (gang : Bool) (h : Nat) : Mask :=
  if gang then BitVec.ofNat 64 (if h = 0 then 2 ^ 32 - 1 else 2 ^ 64 - 2 ^ 32) else allLanes
/-- The lanes of a slot-0 wave: one on the management core (R101). -/
def slotZeroLanes (core : Nat) : Mask := if core = mgmtCore then oneLane 0 else allLanes
/-- The number of lanes in a mask. -/
def countLanes (m : Mask) : Nat := (lanesOf m).length

/-- The lanes whose lane state is live (R73). -/
def Wave.live (w : Wave) : Mask := w.removed.foldl (fun m r => m &&& ~~~r) (~~~w.exited)

/-- The value of lane l of a register. -/
def lane (d : BitVec 2048) (l : Nat) : Nat := elem 32 l d.toNat
/-- A register from its lanes. -/
def ofLanes (g : Nat → Nat) : BitVec 2048 := BitVec.ofNat 2048 (pack 32 ((List.range 64).map g))
/-- A register with the lanes of a mask replaced. -/
def blend (m : Mask) (old : BitVec 2048) (g : Nat → Nat) : BitVec 2048 :=
  ofLanes fun l => if m.getLsbD l then g l else lane old l

/-! ### Registers (R48 to R52) -/

/-- The innermost active loop level: levels are claimed lowest first and end innermost first (R164, R168). -/
def Half.innermost (h : Half) : Option (Nat × Level) :=
  ((List.range 4).filterMap fun n => (h.levels[n]?.join).map fun l => (n, l)).getLast?

/-- The innermost active level with rotation (R51, R167). -/
def Half.rotating (h : Half) : Option Level :=
  ((List.range 4).filterMap fun n => (h.levels[n]?.join).bind fun l => if l.rot then some l else none).getLast?

/-- The physical register a vector name maps to (R52). -/
def Wave.phys (w : Wave) (n : Nat) : Nat := if n < 256 then n else 256 + (n - 256 + w.rrb.toNat) % 64

/-- A vector register by name. -/
def Wave.v (w : Wave) (n : Nat) : VReg := Sparse.get VReg.zero w.regs.v (w.phys n)
/-- A vector register by name, replaced; an error it held goes with the write (R196).
DESIGN CHOICE, unsafe: notes/assumptions/87.md. -/
def Wave.setV (w : Wave) (n : Nat) (r : VReg) : Wave :=
  { w with
    regs := { w.regs with v := Sparse.set VReg.zero w.regs.v (w.phys n) r }
    badRegs := w.badRegs.filter (· ≠ w.phys n) }

/-- The physical scalar of a name in a half (R33): s0 is never stored. -/
def Wave.physS (w : Wave) (half n : Nat) : Nat := if w.id.gang && n != 0 then 32 * half + n else n
/-- A scalar by name; s0 reads zero, and so does physical s32 in gang mode (R33, R48). -/
def Wave.s (w : Wave) (half n : Nat) : BitVec 64 :=
  if n = 0 then 0 else Sparse.get 0 w.regs.s (w.physS half n)
/-- A scalar by name, replaced; a write to s0 is ignored (R48).
DESIGN CHOICE, unsafe: notes/assumptions/87.md. -/
def Wave.setS (w : Wave) (half n : Nat) (v : BitVec 64) : Wave :=
  if n = 0 then w
  else { w with
    regs := { w.regs with s := Sparse.set 0 w.regs.s (w.physS half n) v }
    badRegs := w.badRegs.filter (· ≠ 320 + w.physS half n) }

/-- The value of stage predicate p(8 + j) while the level l is the innermost one with rotation (R51, R167). -/
def stagePred (l : Level) (j : Nat) : Mask :=
  if j < l.stages ∧ j ≤ l.index ∧ (l.index - j : Int) < l.index + l.remaining - l.stages + 1 then allLanes else 0

/-- A predicate by name, as the half h reads it: p0 all ones, the stage predicates while a rotating level is active
(R48, R51). -/
def Wave.p (w : Wave) (half n : Nat) : Mask :=
  if n = 0 then allLanes
  else match (w.halves[half]?).bind Half.rotating with
    | some l => if 8 ≤ n then stagePred l (n - 8) else Sparse.get 0 w.regs.p n
    | none => Sparse.get 0 w.regs.p n

/-- A predicate with the lanes of a mask replaced; a write to p0 is ignored (R48). -/
def Wave.setP (w : Wave) (n : Nat) (m v : Mask) : Wave :=
  if n = 0 then w
  else { w with regs := { w.regs with p := Sparse.set 0 w.regs.p n ((Sparse.get 0 w.regs.p n &&& ~~~m) ||| (v &&& m)) } }

/-- Block ek of the wave is held (R50); block 0 is the base block. -/
def Wave.heldBlk (w : Wave) (k : Nat) : Bool := k = 0 || w.hold.getLsbD (k - 1)

/-- Thread tag of a lane (R26). -/
def Wave.tid (w : Wave) (l : Nat) : Nat := lane w.tids l

/-! ### Bytes -/

/-- The byte an unlisted address reads as.
DESIGN CHOICE, unsafe: notes/assumptions/2.md. -/
def memDefault : Byte := 0
/-- A byte of HBM by physical address. -/
def State.byte (s : State) (a : Nat) : Byte := Sparse.get memDefault s.mem.hbm a
/-- Bytes of HBM.
DESIGN CHOICE, unsafe: notes/assumptions/2.md. -/
def State.bytes (s : State) (a n : Nat) : List Byte := Sparse.range memDefault s.mem.hbm a n
/-- Bytes of HBM written.
DESIGN CHOICE, unsafe: notes/assumptions/2.md. -/
def State.setBytes (s : State) (a : Nat) (bs : List Byte) : State :=
  { s with mem := { s.mem with hbm := Sparse.setRange memDefault s.mem.hbm a bs } }
/-- A little-endian number in HBM.
DESIGN CHOICE, unsafe: notes/assumptions/2.md. -/
def State.num (s : State) (a n : Nat) : Nat := leNat (s.bytes a n)
/-- A little-endian number written to HBM. -/
def State.setNum (s : State) (a n v : Nat) : State := s.setBytes a (leBytes n v)
/-- Bytes of a core's scratchpad. -/
def State.spad (s : State) (c a n : Nat) : List Byte := Sparse.range memDefault (s.core c).scratch a n
/-- Bytes of a core's scratchpad written; an error their granules held goes with the write (R196).
DESIGN CHOICE, unsafe: notes/assumptions/87.md. -/
def State.setSpad (s : State) (c a : Nat) (bs : List Byte) : State :=
  s.updCore c fun r =>
    { r with
      scratch := Sparse.setRange memDefault r.scratch a bs
      badSpad := r.badSpad.filter fun g => g < a / 16 || (a + bs.length - 1) / 16 < g }
/-- Reading n bytes of a core's scratchpad meets an uncorrectable error (R196). -/
def State.spadBad (s : State) (c a n : Nat) : Bool := (s.core c).badSpad.any fun g => a / 16 ≤ g && g ≤ (a + n - 1) / 16

/-- Full-empty bits of a core's granules changed (R185); `wake` where the change lets waiting splits go on. Only a bit that
changes counts.
DEDUCED, safe: notes/assumptions/88.md. -/
def State.setFe (s : State) (c : Nat) (wake : Bool) (gs : List (Nat × Bool)) : State :=
  let n := s.next
  let k := s.core c
  let new := gs.filter fun (g : Nat × Bool) => Sparse.get false k.fe g.1 != g.2
  let k := { k with fe := gs.foldl (fun f (g : Nat × Bool) => Sparse.set false f g.1 g.2) k.fe }
  let k := if wake then { k with feWoke := new.foldl (fun f (g : Nat × Bool) => Sparse.set 0 f g.1 (n + 1)) k.feWoke }
    else { k with feQuiet := new.foldl (fun f (g : Nat × Bool) => Sparse.set 0 f g.1 (n + 1)) k.feQuiet }
  { s.setCore c k with next := n + 1 }
/-- A part of a list of bytes as a number. -/
def field (bs : List Byte) (a n : Nat) : Nat := leNat ((bs.drop a).take n)

/-! ### Free values -/

/-- A free yes or no, and the state that has used it. -/
def State.choose (s : State) : Bool × State := (Config.choice s.free, { s with free := s.free + 1 })
/-- A free choice between two values, used only where they differ. -/
def State.pick {α : Type} [DecidableEq α] (s : State) (a b : α) : α × State :=
  if a = b then (a, s) else (if Config.choice s.free then a else b, { s with free := s.free + 1 })
/-- A fresh order number. -/
def State.tick (s : State) : Nat × State := (s.next, { s with next := s.next + 1 })
/-- Device time as a number. -/
def State.now (s : State) : Nat := s.dtime.toNat

/-! ### Objects (R220 to R224) -/

/-- The entry at an index of the object table. -/
def State.obj? (s : State) (i : Nat) : Option Obj := Sparse.get? i s.kern.objs
/-- The state with an entry of the object table replaced. -/
def State.setObj (s : State) (i : Nat) (o : Obj) : State :=
  { s with kern := { s.kern with objs := Sparse.put i o s.kern.objs } }
/-- The state with an entry changed. -/
def State.updObj (s : State) (i : Nat) (f : Obj → Obj) : State :=
  { s with kern := { s.kern with objs := Sparse.upd i f s.kern.objs } }
/-- The type code of an object (R221). -/
def Body.type : Body → Nat
  | .free => 0 | .process .. => 1 | .wave .. => 2 | .port .. => 3 | .wset .. => 4 | .timer .. => 5
  | .sctx .. => 6 | .rport .. => 7
/-- The index field of a handle (R220). -/
def hIndex (h : BitVec 32) : Nat := (h.extractLsb' 0 20).toNat
/-- A handle from its fields (R220). -/
def mkHandle (type : Nat) (gen : BitVec 8) (i : Nat) : BitVec 32 :=
  BitVec.ofNat 4 type ++ gen ++ BitVec.ofNat 20 i
/-- The live object a handle names: TYPE and GEN match the entry at INDEX (R222). -/
def State.named (s : State) (h : BitVec 32) : Option Obj :=
  match s.obj? (hIndex h) with
  | none => none
  | some o =>
    if hIndex h ≠ 0 ∧ o.body.type ≠ 0 ∧ h = mkHandle o.body.type o.gen (hIndex h) then some o else none
/-- An entry freed: its generation rises by 1 modulo 256 (R222). -/
def State.freeObj (s : State) (i : Nat) : State :=
  s.updObj i fun o => { o with gen := o.gen + 1, owner := 0, state := 0, tdi := 0, body := .free }
/-- The process a handle names: PASID, page-table root, trap entry, default context. -/
def State.process? (s : State) (h : BitVec 32) : Option (BitVec 20 × BitVec 64 × BitVec 64 × BitVec 32) :=
  match s.named h with
  | some ⟨_, _, _, _, .process a b c d⟩ => some (a, b, c, d)
  | _ => none
/-- The name of a core's slot-0 wave: it is no object, and its handle names none (R44, R101). -/
def agentHandle (core : Nat) : BitVec 32 := BitVec.ofNat 32 (0xE0000000 + core)
/-- The core and slot of a resident wave, by its handle. -/
def State.resident (s : State) (h : BitVec 32) : Option (Nat × Nat) :=
  if h.toNat / 2 ^ 28 = 14 then (s.wave? (h.toNat % 256) 0).map fun _ => (h.toNat % 256, 0)
  else match s.named h with
  | some ⟨_, _, _, _, .wave _ _ at' _ _ _ _⟩ => at'
  | _ => none
/-- The indexes of free entries: the lowest one (R222: entry 0 is never used). -/
def State.freeIndex (s : State) : Option Nat :=
  let used := s.kern.objs.filterMap fun (i, o) => if o.body = .free then none else some i
  if used.length ≥ 2 ^ 20 - 1 then none
  else (List.range (used.length + 1)).map (· + 1) |>.find? fun i => !used.contains i

/-! ### Exceptions (R247 to R258) -/

namespace Exc
/-- Exception codes (R247). -/
def illegal : Nat := 0x01
def privileged : Nat := 0x02
def misalignedTarget : Nat := 0x03
def fetchFault : Nat := 0x04
def pcOverflow : Nat := 0x05
def formatMismatch : Nat := 0x10
def invalidOperand : Nat := 0x11
def blockNotHeld : Nat := 0x12
def translation : Nat := 0x20
def permission : Nat := 0x21
def misalignedAccess : Nat := 0x22
def dataIntegrity : Nat := 0x23
def memoryRace : Nat := 0x24
def remoteAccess : Nat := 0x25
def writeToGlobalRo : Nat := 0x26
def divstackOverflow : Nat := 0x30
def loopNest : Nat := 0x31
def regroupFault : Nat := 0x32
def engineCommand : Nat := 0x33
def channel : Nat := 0x34
def object : Nat := 0x40
def breakpoint : Nat := 0x60
def overrun : Nat := 0x70
def trap (n : Nat) : Nat := 0x100 + n
end Exc

/-- KTCODE (R251). -/
def mkCode (regcnt : BitVec 20) (reread priv inchain async : Bool) (half slot code : Nat) : BitVec 64 :=
  (0 : BitVec 12) ++ regcnt ++ (0 : BitVec 5) ++ BitVec.ofBool reread ++ BitVec.ofBool priv ++
    BitVec.ofBool inchain ++ (1 : BitVec 1) ++ BitVec.ofBool async ++ BitVec.ofNat 1 half ++
    BitVec.ofNat 5 slot ++ BitVec.ofNat 16 code

/-- A signal queued at a core (R386); at most 16 are kept. -/
def State.signal (s : State) (dst : Nat) (payload : BitVec 64) (src : Nat) : State :=
  s.updCore dst fun k => if k.sigQ.length < 16 then { k with sigQ := k.sigQ ++ [(payload, BitVec.ofNat 8 src)] } else k

/-- For a handler wave, the wave it handles and its block (R256, R258). -/
def Wave.ofW (w : Wave) : Option (BitVec 32 × Option Nat) := w.id.handles.map fun r => (r.wave, r.blk)

/-- An exception's record (R251 to R253, R460). -/
def Ctx.record (c : Ctx) (reread : Bool) (code : Nat) (pc : Dword) (addr : Nat) : TrapRec where
  code := mkCode c.w.regcnt reread c.w.priv
    (!reread && c.inChain && (c.w.chain.map (·.pos)) != some 0) (code == Exc.engineCommand)
    (if c.w.id.gang then c.who.half else 0) c.who.slot code
  pc := pc
  addr := BitVec.ofNat 64 addr
  wave := c.w.id.handle
  blk := c.w.id.blk
  proc := c.w.id.proc
  sc := c.w.id.sc
  core := c.who.core
  path := c.who.path
  region := c.half.region
  posting := code == Exc.engineCommand
  ofW := c.w.ofW

/-- A record enters the tail of a core's trap queue (R254), an event that the core latches (R374). -/
def Core.queueTrap (k : Core) (r : TrapRec) : Core := { k with trapQ := k.trapQ ++ [r], latched := k.latched ||| 1 }
/-- A record enters the head of a core's trap queue (R254), an event that the core latches (R374). -/
def Core.headTrap (k : Core) (r : TrapRec) : Core := { k with trapQ := r :: k.trapQ, latched := k.latched ||| 1 }

/-- A record of a privileged fault (R254, R255): it enters the head of the core's trap queue and the faulting half's path goes
to the privileged trap entry KTVEC; where the agent's own record is still queued, nothing is queued, the agent halts and
the management core is signalled. -/
def State.privTrap (s : State) (core slot half path : Nat) (r : TrapRec) : State :=
  let k := s.core core
  if k.trapQ.any fun q => q.code.getLsbD 25 then
    (s.updCore core fun k => { k with agentHalted := true }).signal mgmtCore
      (BitVec.allOnes 48 ++ BitVec.ofNat 16 (r.code.toNat % 2 ^ 16)) core
  else
    let tv : Dword := (0 : BitVec 12) ++ k.ctl.ktvec ++ (0 : BitVec 6)
    (s.updCore core fun k => k.headTrap r).updWave core slot fun w =>
      { w with chain := none }.updPath half path fun p => { p with pc := tv, wait := .ready, prog := none }

/-- A path whose instruction has raised an exception: no fault record holds a part of it any more (R188). -/
def Path.faulted (p : Path) : Path := { p with wait := .ready, prog := p.prog.map fun q => { q with held := [] } }

/-- A wave whose split has raised an exception; a chain of the split is over (R68). A re-read leaves every path as it is (R76). -/
def Wave.faulted (w : Wave) (c : Ctx) (reread : Bool) : Wave :=
  { (if reread then w else w.updPath c.who.half c.who.path Path.faulted) with chain := if c.inChain then none else w.chain }

/-- TAKING AN EXCEPTION at the issuing split (R248, R254, R255). In user mode the record enters the tail of the core's
trap queue and the wave is trapped; an exception of a wave that is trapped already waits until its verdict is applied. In
privileged mode the agent goes to its own trap entry.
DEDUCED, safe: notes/assumptions/72.md; DEDUCED, safe: notes/assumptions/96.md. -/
def State.takeException (s : State) (c : Ctx) (reread : Bool) (code : Nat) (pc : Dword) (addr : Nat) : State :=
  let r := c.record reread code pc addr
  if c.w.priv then s.privTrap c.who.core c.who.slot c.who.half c.who.path r
  else if c.w.traps ≠ 0 then
    s.updWave c.who.core c.who.slot fun w => { w.faulted c reread with later := w.later ++ [r] }
  else
    (s.updCore c.who.core fun k => k.queueTrap r).updWave c.who.core c.who.slot fun w =>
      { w.faulted c reread with traps := w.traps + 1, trap := some r }

/-! ### The divergence stack (R27 to R30, R161) and the loop levels (R163 to R169) -/

/-- The iteration numbers of a split where levels stand at their indexes (R27). -/
def levelIters (ls : List (Option Level)) : List (Option Nat) :=
  (List.range 4).map fun n => (ls.getD n none).map fun l => l.index

/-- Which paths of an entry run: all that have not arrived in the bottom entry, the first that has not in an entry
above it, whose paths run one at a time (R28); a path a LOOP stopped waits for its level to end (R164), and one that is
stalled at the join for the others (R29). -/
def runPaths (serial : Bool) (stalled : Path → Bool) (ps : List Path) : List Path :=
  let first := ps.findIdx? fun p => !p.arrived && !stalled p
  ps.zipIdx.map fun (p, k) =>
    { p with running := !p.arrived && !stalled p && p.held == 0 && (!serial || first == some k) }

/-- The arrivals at an entry's join (R28, R29, R161): a path without lanes has arrived; a running path whose PC is the
join stops, and has arrived when its iteration numbers are those recorded.
DEDUCED, safe: notes/assumptions/77.md. -/
def Entry.arrive (e : Entry) : Entry :=
  { e with paths := e.paths.map fun p =>
      if p.mask = 0 then { p with arrived := true, running := false, wait := .ready }
      else if p.running && p.pc == e.join && p.wait == .ready && e.iters == p.iters then { p with arrived := true, running := false }
      else p }

/-- A path waits at the join with other iteration numbers than those recorded (R29).
DEDUCED, safe: notes/assumptions/77.md. -/
def Entry.stalled (e : Entry) (p : Path) : Bool := p.pc == e.join && e.iters != p.iters

/-- The lanes of an entry's paths. -/
def Entry.mask (e : Entry) : Mask := e.paths.foldl (fun m p => m ||| p.mask) 0

/-- The merge and pop of an entry all of whose paths have arrived, none pending (R28, R161): the path it was pushed
from continues at the join with the union of their masks. -/
def Half.pop (h : Half) (e : Entry) (below : List Entry) : Half :=
  let m := e.mask
  match below with
  | [] => { h with stack := [], base := { h.base with pc := e.join, mask := m, running := true, wait := .ready, prog := none } }
  | b :: bs =>
    let ps := updAt (fun p : Path => { p with pc := e.join, mask := m, running := true, arrived := false, wait := .ready, prog := none })
      e.parent b.paths
    { h with stack := { b with paths := runPaths (!bs.isEmpty) b.stalled ps } :: bs }

/-- Arrivals, merges and pops until nothing changes, or until a pop leaves the path below without lanes: that path is
the second answer. Fuel bounds them. -/
def Half.settle : Nat → Half → Half × Option Nat
  | 0, h => (h, none)
  | fuel + 1, h =>
    match h.stack with
    | [] => (h, none)
    | e0 :: es =>
      let e := e0.arrive
      if e.paths.all (·.arrived) && e.pending == 0 then
        let h1 := Half.pop { h with stack := e :: es } e es
        if e.mask = 0 then (h1, some e.parent) else h1.settle fuel
      else
        let ps := if es.isEmpty then e.paths.map fun p => if e.stalled p then { p with running := false } else p
          else runPaths true e.stalled e.paths
        let h1 : Half := { h with stack := { e with paths := ps } :: es }
        if h1 = h then (h, none) else h1.settle fuel

/-- The path each entry of a stack was pushed from, down to the base, changed. -/
def lineage (f : Path → Path) : Entry → List Entry → List Entry
  | _, [] => []
  | e, b :: bs => { b with paths := updAt f e.parent b.paths } :: lineage f b bs

/-- A path that ends level n, or from which the split that ends it was divided: the lanes the level gives back join it, and
it has no number on that level any more (R27, R166). -/
def Path.leave (n : Nat) (back : Mask) (p : Path) : Path :=
  { p with mask := p.mask ||| back, iters := updAt (fun _ => none) n p.iters }
/-- A path goes on where the LOOP of level n had stopped it (R166). -/
def Path.unhold (n : Nat) (p : Path) : Path := { p with held := if p.held = n + 1 then 0 else p.held }

/-- EndLevel (R166): the level's record is freed, its removed lanes become live and join the split that ends it (and
the paths below from which that split was divided), and the paths its LOOP stopped resume, in whatever entry they stand.
Another path keeps the number it has counted, and may reach its join with it (R162). -/
def Wave.endLevel (w : Wave) (half path n : Nat) : Wave :=
  let back := (w.removed.getD n 0) &&& halfLanes w.id.gang half
  Wave.updHalf { w with removed := updAt (fun m => m &&& ~~~back) n w.removed } half fun h =>
    let base := Path.unhold n (Path.leave n back h.base)
    let h : Half := { h with base := base, levels := updAt (fun _ => none) n h.levels }
    match h.stack.map fun e => { e with paths := e.paths.map (Path.unhold n) } with
    | [] => h
    | e :: es =>
      let ps := updAt (Path.leave n back) path e.paths
      { h with
        stack := { e with paths := runPaths (!es.isEmpty) e.stalled ps } :: lineage (Path.leave n back) e es }

/-- Lanes removed from every path of a half (R161, R169). -/
def Half.without (h : Half) (m : Mask) : Half :=
  { h with
    base := { h.base with mask := h.base.mask &&& ~~~m }
    stack := h.stack.map fun e => { e with paths := e.paths.map fun p => { p with mask := p.mask &&& ~~~m } } }

/-- A split left with no lane (R169, R358): unless it is a path of an entry whose join lies in the innermost level's
body, the level ends early, and the lanes it gives back go on after the level's end; with none, the next level out is
looked at. -/
def Wave.emptied : Nat → Wave → Nat → Nat → Wave
  | 0, w, _, _ => w
  | fuel + 1, w, half, path =>
    match w.halves[half]? with
    | none => w
    | some h =>
      match h.innermost with
      | none => w
      | some (n, l) =>
        let inside := match h.stack with
          | e :: _ => decide (l.start ≤ e.join) && decide (e.join ≤ l.stop)
          | [] => false
        if inside then w
        else
          let back := w.removed.getD n 0 &&& halfLanes w.id.gang half
          let w := w.endLevel half path n
          if back ≠ 0 then w.updPath half path fun p => { p with pc := l.after, wait := .ready, prog := none }
          else Wave.emptied fuel w half path

/-- The merges and pops of a half; a split that a pop leaves without lanes may end its loop level early (R169). -/
def Wave.settle : Nat → Wave → Nat → Wave
  | 0, w, _ => w
  | fuel + 1, w, half =>
    match w.halves[half]? with
    | none => w
    | some h =>
      let (h1, o) := h.settle 100
      let w := w.updHalf half fun _ => h1
      match o with
      | none => w
      | some path => Wave.settle fuel (w.emptied 4 half path) half

/-- A new entry pushed by a path of the top (R28). -/
def Half.push (h : Half) (path : Nat) (e : Entry) : Half :=
  let stack := match h.stack with
    | t :: ts => { t with paths := t.paths.map fun p => { p with running := false } } :: ts
    | [] => []
  { h with base := { h.base with running := h.base.running && !h.stack.isEmpty }, stack := { e with parent := path } :: stack }

/-- The back edge after the instruction at pc has completed by falling through (R165): the PC that follows, or none
where LOOP_NEST is raised (R76).
DEDUCED, safe: notes/assumptions/77.md. -/
def Wave.backEdge : Nat → Wave → Nat → Nat → Dword → Dword → Option (Wave × Dword)
  | 0, w, _, _, _, nxt => some (w, nxt)
  | fuel + 1, w, half, path, pc, nxt =>
    match w.halves[half]? with
    | none => some (w, nxt)
    | some h =>
      match h.innermost with
      | none => some (w, nxt)
      | some (n, l) =>
        if l.stop ≠ pc then some (w, nxt)
        else if l.remaining - 1 > 0 then
          let k := (((h.paths[path]?).bind fun p => p.iters.getD n none).getD l.index) + 1
          if h.stack.any fun e => match e.iters.getD n none with
              | some r => 65536 ≤ (k - r) + (r - k)
              | none => false then none
          else
            let w := w.updHalf half fun h =>
              { h with levels := updAt (fun _ => some { l with index := l.index + 1, remaining := l.remaining - 1 }) n h.levels }
            let w := w.updPath half path fun p => { p with iters := updAt (fun _ => some k) n p.iters }
            some ({ w with rrb := if l.rot then w.rrb - 1 else w.rrb }, l.start)
        else Wave.backEdge fuel (w.endLevel half path n) half path pc nxt

/-! ### A wave as it is made -/

/-- A half of a wave as it starts (R45, R171): one split, no level, its region open at the entry. -/
def Half.fresh (pc : Dword) (m : Mask) (ended : Bool) : Half where
  base := ⟨pc, m, true, false, 0, .ready, none, List.replicate 4 none⟩
  ended := ended
  stack := []
  levels := List.replicate 4 none
  region := pc
  snap := List.replicate 4 none
  reread := []

/-- A wave as it is made (R45, R55, R171): blocks of zeros, p1 to p15 zero, every scalar zero but the arguments. -/
def Wave.fresh (id : WaveId) (hold : BitVec 4) (args : List (BitVec 64)) (tid : Nat → Nat) (halves : List Half)
    (now : Nat) : Wave where
  id := id
  regs := { s := args.zipIdx.foldl (fun m x => Sparse.set 0 m (x.2 + 1) x.1) [], v := [], p := [] }
  hold := hold
  rrb := 0
  srrb := 0
  regcnt := 0
  tids := ofLanes tid
  exited := 0
  removed := [0, 0, 0, 0]
  halves := halves
  chain := none
  pend := []
  atomn := []
  traps := 0
  trap := none
  later := []
  due := []
  sfr := 0
  cycles := 0
  since := now
  lastIssue := now
  turn := 0
  idleAt := now
  idle := false
  waitAt := none
  yielded := none
  badRegs := []
  stopping := false

/-! ### Ends of waves and blocks (R45, R60, R236, R359) -/

/-- A block of the device. -/
def State.block? (s : State) (b : Nat) : Option Block := Sparse.get? b s.host.blocks
/-- A block changed. -/
def State.updBlock (s : State) (b : Nat) (f : Block → Block) : State :=
  { s with host := { s.host with blocks := Sparse.upd b f s.host.blocks } }
/-- A launch of the device. -/
def State.launch? (s : State) (l : Nat) : Option Launch := Sparse.get? l s.host.launches
/-- A launch changed. -/
def State.updLaunch (s : State) (l : Nat) (f : Launch → Launch) : State :=
  { s with host := { s.host with launches := Sparse.upd l f s.host.launches } }

/-- Some wait set holds the handle. -/
def State.inWset (s : State) (h : BitVec 32) : Bool :=
  s.kern.objs.any fun (_, o) => match o.body with | .wset _ ms => ms.contains h | _ => false

/-- Writes into block k of a wave are outstanding. -/
def Wave.busyBlk (w : Wave) (k : Nat) : Bool :=
  w.pend.any fun p => p.regs.any fun r => match r with
    | .v n .. | .over n _ => n < 320 && n / 64 == k
    | _ => false

/-- The record of an uncorrectable error that a pending atomic of a wave meets: precise at its ATOMN (R196, R321). -/
def Wave.errorRecord (w : Wave) (core slot : Nat) (x : AtomnOp) : TrapRec :=
  let h := w.halves.getD x.half (Half.fresh x.pc 0 true)
  Ctx.record ⟨⟨core, slot, x.half, 0⟩, { w with chain := none }, h, h.base⟩ false Exc.dataIntegrity x.pc x.va

/-- The slot of a wave given up (R58, R60): each block it holds returns to the pool, or drains while writes into it are
outstanding. Its pending atomics stand on: they have been issued (R213, R461). -/
def State.vacate (s : State) (c k : Nat) : State :=
  match s.wave? c k with
  | none => s
  | some w =>
    let held := (List.range 5).filter w.heldBlk
    let left : List Orphan := w.atomn.map fun x => ⟨c, .wave w.id.handle, w.id.blk, w.sfr, x, w.errorRecord c k x⟩
    let s : State := { s with mem := { s.mem with orphans := s.mem.orphans ++ left } }
    s.updCore c fun r =>
      { r with
        waves := Sparse.del k r.waves
        poolQ := r.poolQ.filter fun q => q.slot ≠ k
        pool := r.pool + held.countP fun b => b != 0 && !w.busyBlk b
        draining := r.draining ++ (held.filter w.busyBlk).map fun b => ⟨k, b⟩ }

/-- A wave object's fields changed. -/
def State.updWaveObj (s : State) (h : BitVec 32)
    (f : BitVec 64 → Nat → Option (Nat × Nat) → Option Wave → Option WaveId → Option Nat → Option TrapRec → Body)
    (st : Option (BitVec 8)) : State :=
  s.updObj (hIndex h) fun o =>
    match o.body with
    | .wave a b c d e g t => { o with body := f a b c d e g t, state := st.getD o.state }
    | _ => o

/-- Work of the block is still posted: commands that have not completed (R359). -/
def State.busyCmds (s : State) (b : Nat) : Bool :=
  s.cores.any fun (_, k) => (k.fifo ++ k.copyq).any fun x => x.poster.blk == some b

/-- A block's resources return and it counts as ended (R53, R147, R236, R297, R359), an event of its core (R374), once its waves have ended, its
commands are done and no engine verdict is pending (R460). -/
def State.tryEndBlock (s : State) (b : Nat) : State :=
  match s.block? b with
  | none => s
  | some k =>
    let waits := (k.st == .claimed || k.st == .flushed) && !k.faulted
    if k.st = .ended || waits || !k.waves.isEmpty || k.engErr || s.busyCmds b then s
    else
      let s := s.updCore k.core fun r =>
        { r with
          msets := r.msets.map fun m => if m.owner = some b then MSet.fresh none else m
          chans := r.chans.filter fun (_, ch) => ch.holder ≠ b
          latched := r.latched ||| 2
          ctl := { r.ctl with held := r.ctl.held - k.tokens } }
      let s := { s with poolFree := s.poolFree + k.tokens }
      let s := s.updBlock b fun k => { k with st := .ended, mset := none, tokens := 0, spadLen := 0 }
      let s := s.updLaunch k.launch fun l =>
        { l with ended := l.ended + 1, status := if k.faulted then 6 else l.status }
      -- the objects of the block's waves are freed with it, but for those that a wait set holds (R236, R435)
      let out (id : WaveId) : Bool := id.blk == some b && !s.inWset id.handle
      { s with kern := { s.kern with objs := s.kern.objs.map fun (i, o) =>
          match o.body with
          | .wave _ _ _ _ (some id) (some _) _ =>
            if out id then (i, { o with gen := o.gen + 1, owner := 0, state := 0, tdi := 0, body := .free }) else (i, o)
          | _ => (i, o) } }

/-- A wave belongs to no block, or to one that has ended: its object stands for itself alone (R236). -/
def State.blockOver (s : State) (blk : Option Nat) : Bool :=
  match blk with
  | some b => ((s.block? b).map (·.st)).getD .ended == .ended
  | none => true

/-- A wave has ended (R45, R60, R236): its object says so, and is freed when no wait set holds it. -/
def State.endWave (s : State) (c k : Nat) : State :=
  match s.wave? c k with
  | none => s
  | some w =>
    let s := s.vacate c k
    let s := s.updWaveObj w.id.handle (fun a b _ _ _ _ _ => .wave a b none none (some w.id) (some s.now) none) (some 3)
    match w.id.blk with
    | some b => (s.updBlock b fun k => { k with waves := k.waves.filter (· ≠ w.id.handle) }).tryEndBlock b
    | none => if s.inWset w.id.handle then s else s.freeObj (hIndex w.id.handle)

/-- An entry leaves every run queue. -/
def State.unqueue (s : State) (x : BitVec 32 ⊕ Nat) : State :=
  let keep : Nat × List ((BitVec 32 ⊕ Nat) × Nat) → Nat × List ((BitVec 32 ⊕ Nat) × Nat) :=
    fun r => (r.1, r.2.filter fun y => y.1 ≠ x)
  { s with kern := { s.kern with runq := s.kern.runq.map keep } }

/-- A non-resident wave ends: it leaves its list, and its object says so. -/
def State.endSaved (s : State) (h : BitVec 32) : State :=
  let s := s.unqueue (.inl h)
  match s.named h with
  | some ⟨_, _, _, _, .wave _ _ none _ id _ _⟩ =>
    let s := s.updWaveObj h (fun a b _ _ e _ _ => .wave a b none none e (some s.now) none) (some 3)
    match id.bind (·.blk) with
    | some b => (s.updBlock b fun k => { k with waves := k.waves.filter (· ≠ h) }).tryEndBlock b
    | none => if s.inWset h then s else s.freeObj (hIndex h)
  | _ => s

/-- A wave ends wherever it is. -/
def State.endHandle (s : State) (h : BitVec 32) : State :=
  match s.resident h with
  | some (c, k) => s.endWave c k
  | none => s.endSaved h

/-- A block ends at once (R196, R257): its waves end without drain or save, its unfired commands are discarded, and
its launch reports FAULT. -/
def State.killBlock (s : State) (b : Nat) : State :=
  match s.block? b with
  | none => s
  | some k =>
    let s := s.updBlock b fun k => { k with faulted := true, engErr := false, engHeld := 0, image := none }
    let s := s.updCore k.core fun r =>
      { r with
        fifo := r.fifo.filter fun x => x.poster.blk ≠ some b || x.st != .queued
        copyq := r.copyq.filter fun x => x.poster.blk ≠ some b || x.st != .queued }
    let s := s.unqueue (.inr b)
    (k.waves.foldl State.endHandle s).tryEndBlock b

/-- A trap added to a wave by an engine's error (R154). -/
def State.trapBy (s : State) (r : TrapRec) (h : BitVec 32) : State :=
  match s.resident h with
  | some (c, k) => s.updWave c k fun w => { w with traps := w.traps + 1, trap := some (w.trap.getD r) }
  | none => s.updWaveObj h (fun a b c d e g t =>
      .wave a b c (d.map fun w => { w with traps := w.traps + 1, trap := some (w.trap.getD r) }) e g t) none

/-- The waves of a block trapped by an ENGINE_COMMAND (R154, R256), but for one that is trapped already by taking it. -/
def State.trapBlock (s : State) (b : Nat) (r : TrapRec) (but : Option (BitVec 32)) : State :=
  let ws : List (BitVec 32) := ((s.block? b).map fun (k : Block) => k.waves).getD []
  (ws.filter fun h => but != some h).foldl (fun (s : State) h => s.trapBy r h) (s.updBlock b fun k => { k with engErr := true })

/-- What follows a record of a user wave in a slot (R196, R256): DATA_INTEGRITY also terminates the context, and
ENGINE_COMMAND traps every wave of the block. -/
def State.sequel (s : State) (r : TrapRec) (slot : Nat) : State :=
  let code := r.code.toNat % 2 ^ 16
  match r.blk with
  | some b =>
    if code = Exc.dataIntegrity then s.killBlock b
    else if code = Exc.engineCommand then s.trapBlock b r (some r.wave)
    else s
  | none => if code = Exc.dataIntegrity then s.endWave r.core slot else s

/-- Every exception of the issuing split (R196, R248, R254, R256). -/
def State.raise (s : State) (c : Ctx) (reread : Bool) (code : Nat) (pc : Dword) (addr : Nat) : State :=
  let t := s.takeException c reread code pc addr
  if c.w.priv || c.w.traps != 0 then t else t.sequel (c.record reread code pc addr) c.who.slot

/-- A record as a core and a slot raise it (R251). -/
def TrapRec.raisedAt (r : TrapRec) (core slot : Nat) : TrapRec :=
  { r with core := core, code := (r.code &&& ~~~0x1F0000#64) ||| BitVec.ofNat 64 (slot % 32 * 2 ^ 16) }

/-- A resident wave on which no verdict is pending raises the first exception that its splits met while it was trapped
(R254).
DEDUCED, safe: notes/assumptions/96.md. -/
def State.raiseLater (s : State) (core slot : Nat) : State :=
  match s.wave? core slot with
  | none => s
  | some w =>
    match w.later with
    | [] => s
    | r :: rs =>
      if w.traps ≠ 0 then s
      else if w.priv then (s.setWave core slot { w with later := rs }).privTrap core slot (r.code.toNat / 2 ^ 21 % 2) 0 (r.raisedAt core slot)
      else
        let r := r.raisedAt core slot
        ((s.updCore core fun k => k.queueTrap r).setWave core slot
          { w with traps := 1, trap := some r, later := rs }).sequel r slot

end Sys2Proof.Machine
end

