-- ==== Sys2Proof/Machine/Flags.lean ====
section
/-!
DEFINITION. Format tags and comparison flags: the TY codes of R92 (16 stands for e2m1x8, which instructions name
through MOD), the tag each requires and gives (R62), and the conditions of CMP (R342).
-/

namespace Sys2Proof.Machine

/-- Bits of a value of a type: a register, or a register pair (R92). -/
def tyBits (ty : Nat) : Nat := if ty = 2 ∨ ty = 3 ∨ ty = 8 then 64 else 32
/-- Registers a value of a type occupies on the vector path (R8, R92). -/
def tyRegs (ty : Nat) : Nat := tyBits ty / 32
/-- Bits of an element of a type (R116). -/
def elBits (ty : Nat) : Nat :=
  match ty with
  | 2 | 3 | 8 => 64
  | 5 | 6 | 9 | 10 => 16
  | 11 | 12 | 13 | 14 | 15 => 8
  | 16 => 4
  | _ => 32
/-- Elements in a value of a type. -/
def elCount (ty : Nat) : Nat := tyBits ty / elBits ty
/-- A type of signed integers. -/
def tySigned (ty : Nat) : Bool := ty = 0 || ty = 2 || ty = 9 || ty = 11
/-- A type of integers. -/
def tyInt (ty : Nat) : Bool := ty ≤ 3 || (9 ≤ ty && ty ≤ 12)
/-- The float format of a type's elements. -/
def tyFmt (ty : Nat) : Option Fmt :=
  match ty with
  | 4 => some .f32 | 5 => some .f16 | 6 => some .bf16 | 13 => some .e4m3 | 14 => some .e5m2 | 15 => some .ps8
  | 16 => some .e2m1
  | _ => none

/-- The tag of a result of a type (R62). -/
def tagOf (ty : Nat) : BitVec 4 :=
  match ty with
  | 0 | 1 => 1
  | 2 | 3 => 11
  | 4 => 2
  | 5 => 3
  | 6 => 4
  | 9 | 10 => 10
  | 11 | 12 => 9
  | 13 => 5
  | 14 => 6
  | 15 => 8
  | 16 => 7
  | _ => 0
/-- A source's tag satisfies a type (R62): integer types accept 0 as well, bit types anything. -/
def tagOk (ty : Nat) (t : BitVec 4) : Bool :=
  ty = 7 || ty = 8 || t == tagOf ty || (tyInt ty && t == 0)

/-- A scale operand's tag (R62, R127). -/
def tagScale : BitVec 4 := 12

/-- The conditions of CMP (R342): 0 eq, 1 ne, 2 lt, 3 le, 4 gt, 5 ge on an order and an equality. -/
def cmpCond (k : Nat) (lt gt eq : Bool) : Bool :=
  match k with
  | 0 => eq
  | 1 => !eq
  | 2 => lt
  | 3 => lt || eq
  | 4 => gt
  | _ => gt || eq

/-- The widening of a 32-bit result written to a scalar (R83): s32 and s16x2 by sign, every other type by zeros. -/
def widen (ty v : Nat) : BitVec 64 :=
  if tyBits ty = 64 then BitVec.ofNat 64 v
  else if ty = 0 ∨ ty = 9 then (BitVec.ofNat 32 v).signExtend 64
  else (BitVec.ofNat 32 v).setWidth 64

end Sys2Proof.Machine
end

