-- ==== Sys2Proof/Machine/Operands.lean ====
section
/-!
DEFINITION. Operands: the 9-bit codes of R90, the inline constants of R91, the checks of R100 steps 4 to 6, the value
of a source in a lane and the write of a result (R83, R102).
-/

namespace Sys2Proof.Machine

/-- The fields of an arithmetic instruction, base or extended: operand codes as R90, an immediate standing as the
literal, code 511 (R85). -/
structure Op3 where
  u : Bool
  ty : Nat
  d : Nat
  a : Nat
  b : Nat
  c : Nat
  lit : Option (BitVec 64)
  pg : BitVec 4
  pn : Bool
  nw : Bool
  ch : Bool
  mod : Nat
  deriving DecidableEq, Repr

/-- A base-form register field as an operand code (R83). -/
def regCode (u : Bool) (r : BitVec 6) : Nat := if u then 320 + r.toNat else r.toNat

/-- The f32 pattern of a small integer, exact (R85). -/
def immF32 (i : Int) : Nat := Fmt.f32.round .rne false 0 32 (FV.ofInt i)

/-- B3 with two registers. -/
def B3.op3 (f : B3) : Op3 :=
  ⟨f.u, f.ty3.toNat, regCode f.u f.d, regCode f.u f.a, regCode f.u f.b, 0, none, 0, false, false, false, 0⟩
/-- The type implied by I = 1 (R85). -/
def immTy (flt u : Bool) : Nat := if flt then 4 else if u then 2 else 0
/-- B3 with an immediate; `flt` for MAJ 0x20 to 0x30. -/
def B3I.op3 (flt : Bool) (f : B3I) : Op3 :=
  ⟨f.u, immTy flt f.u, regCode f.u f.d, regCode f.u f.a, 511, 0,
   some (if flt then BitVec.ofNat 64 (immF32 f.imm.toInt) else f.imm.signExtend 64), 0, false, false, false, 0⟩
/-- B3 with a literal. -/
def B3L.op3 (flt : Bool) (f : B3L) : Op3 :=
  ⟨f.u, immTy flt f.u, regCode f.u f.d, regCode f.u f.a, 511, 0, some f.lit, 0, false, false, false, 0⟩
/-- The extended form. -/
def Ext.op3 (e : Ext) : Op3 :=
  ⟨e.u, e.ty.toNat, e.d9.toNat, e.a9.toNat, e.b9.toNat, e.c9.toNat, e.lit, e.pg, e.pn, e.nw, e.ch, e.mod.toNat⟩

/-! ### Inline constants (R91) -/

/-- Twice the value of an inline constant. -/
def const2 (code : Nat) : Option Int :=
  if 388 ≤ code ∧ code ≤ 404 then some (2 * ((code : Int) - 388))
  else [(405, -2), (406, -4), (407, -8), (408, -16), (409, 1), (410, -1), (411, 2), (412, -2), (413, 4), (414, -4),
        (415, 8)].lookup code

/-- An element of a type that holds an inline constant exactly. -/
def constElem (ty code : Nat) : Option Nat :=
  (const2 code).bind fun v =>
    match tyFmt ty with
    | some F =>
      let x : FV := .num (v < 0) v.natAbs (-1)
      let b := F.round .rne false 0 32 x
      if FV.eqv (F.value b) x then some b else none
    | none =>
      if v % 2 ≠ 0 ∨ ((ty = 7 ∨ ty = 8) ∧ 409 ≤ code) then none else some (ofInt (elBits ty) (v / 2))

/-- The pattern of an inline constant in a type, repeated in every element. -/
def constBits (ty code : Nat) : Option Nat :=
  (constElem ty code).map fun b => pack (elBits ty) (List.replicate (elCount ty) b)

/-! ### Checks (R100 steps 4 to 6) -/

/-- What the checks of steps 4, 5 and 6 say of one operand, and whether it is consumed without an uncorrectable error
(R196). -/
structure OpOk where
  valid : Bool
  held : Bool
  tagged : Bool
  sound : Bool
  deriving DecidableEq, Repr

/-- No objection. -/
def OpOk.yes : OpOk := ⟨true, true, true, true⟩
/-- INVALID_OPERAND unless b. -/
def OpOk.when (b : Bool) : OpOk := ⟨b, true, true, true⟩
/-- An operand that is written and not read. -/
def OpOk.dst (o : OpOk) : OpOk := { o with sound := true }

/-- Steps 4, 5 and 6 over an instruction's operands, then the error of a register source (R196): the exception of the first
step that fails.
DESIGN CHOICE, unsafe: notes/assumptions/87.md. -/
def checkOps (ops : List OpOk) : Option Nat :=
  if !ops.all (·.valid) then some Exc.invalidOperand
  else if !ops.all (·.held) then some Exc.blockNotHeld
  else if !ops.all (·.tagged) then some Exc.formatMismatch
  else if !ops.all (·.sound) then some Exc.dataIntegrity
  else none

/-- n vector registers from a name, the first a multiple of `align`, each held (R50) and with an accepted tag (R64). -/
def vRun (w : Wave) (code n align : Nat) (tags : BitVec 4 → Bool) : OpOk where
  valid := decide (code + n ≤ 320) && code % align == 0
  held := (List.range n).all fun k => w.heldBlk ((code + k) / 64)
  tagged := (List.range n).all fun k => tags (w.v (code + k)).tag
  sound := (List.range n).all fun k => !w.badRegs.contains (w.phys (code + k))

/-- A scalar's name exists in the wave's mode (R33). -/
def scalarOk (w : Wave) (code : Nat) : Bool := 320 ≤ code && code < 384 && (!w.id.gang || code < 352)
/-- A scalar operand. -/
def sRun (c : Ctx) (code : Nat) : OpOk :=
  { OpOk.when (scalarOk c.w code) with sound := !c.w.badRegs.contains (320 + c.w.physS c.who.half (code - 320)) }
/-- A scalar destination. -/
def sDst (c : Ctx) (code : Nat) : OpOk := (sRun c code).dst

/-- Members of the issuing split's chain before this one (R65). -/
def Ctx.chainPos (c : Ctx) : Nat :=
  match c.w.chain with
  | some k => if k.half = c.who.half ∧ k.path = c.who.path then k.pos else 0
  | none => 0
/-- A bypass latch (R65). -/
def Ctx.latch (c : Ctx) (n : Nat) : VReg :=
  match c.w.chain with
  | some k => k.latches.getD n VReg.zero
  | none => VReg.zero

/-- A data source of a type (R49, R50, R62, R90, R91). -/
def srcOk (c : Ctx) (lit : Option (BitVec 64)) (ty code : Nat) : OpOk :=
  if code < 320 then vRun c.w code (tyRegs ty) (tyRegs ty) (tagOk ty)
  else if code < 384 then sRun c code
  else if code < 388 then ⟨decide (code - 384 < c.chainPos), true, tagOk ty (c.latch (code - 384)).tag, true⟩
  else if code < 416 then OpOk.when (constBits ty code).isSome
  else if code < 432 then ⟨true, true, tagOk ty 1, true⟩
  else if code < 436 then OpOk.yes
  else OpOk.when (code == 511 && lit.isSome)

/-- A source read as bits: every tag is accepted. -/
def bitsOk (c : Ctx) (lit : Option (BitVec 64)) (ty code : Nat) : OpOk :=
  { srcOk c lit ty code with tagged := true }

/-- A predicate operand, codes 416 to 431 (R49). -/
def predOk (code : Nat) : OpOk := OpOk.when (416 ≤ code && code < 432)
/-- A predicate destination: p8 to p15 cannot be written while a rotating level is active (R51). -/
def predDstOk (c : Ctx) (code : Nat) : OpOk :=
  OpOk.when (416 ≤ code && code < 432 && !(424 ≤ code && c.half.rotating.isSome))

/-- A destination of n registers on the vector path (R49, R50, R83). -/
def dstOk (c : Ctx) (u : Bool) (n code : Nat) : OpOk :=
  if code < 320 then
    { (vRun c.w code n n fun _ => true).dst with valid := !u && decide (code + n ≤ 320) && code % n == 0 }
  else if code < 384 then sDst c code
  else predDstOk c code

/-! ### Values (R102) -/

/-- Lanes the instruction acts on, U = 0 (R102, Active). -/
def Ctx.active (c : Ctx) (pg : BitVec 4) (pn : Bool) : Mask :=
  let g := if pg = 0 then allLanes else c.w.p c.who.half pg.toNat
  c.path.mask &&& c.w.live &&& (if pn && pg != 0 then ~~~g else g)
/-- Lanes an instruction acts on: with U = 1 the guard is evaluated in LowestLive() (R83). -/
def Ctx.act (c : Ctx) (u : Bool) (pg : BitVec 4) (pn : Bool) : Mask :=
  if u then
    match lowest (c.path.mask &&& c.w.live) with
    | none => 0
    | some l => c.active pg pn &&& oneLane l
  else c.active pg pn
/-- The lanes of an arithmetic instruction. -/
def Ctx.lanes (c : Ctx) (o : Op3) : Mask := c.act o.u o.pg o.pn

/-- The value of a source in a lane, as a pattern of its type's bits (R102, Op). The remaining count of a loop level that
is not active reads 0.
DESIGN CHOICE, unsafe: notes/assumptions/83.md. -/
def opVal (c : Ctx) (lit : Option (BitVec 64)) (ty code l : Nat) : Nat :=
  if code < 320 then
    if tyBits ty = 64 then lane (c.w.v code).data l + 2 ^ 32 * lane (c.w.v (code + 1)).data l
    else lane (c.w.v code).data l
  else if code < 384 then (c.w.s c.who.half (code - 320)).toNat % 2 ^ tyBits ty
  else if code < 388 then lane (c.latch (code - 384)).data l
  else if code < 416 then (constBits ty code).getD 0
  else if code < 432 then b2n ((c.w.p c.who.half (code - 416)).getLsbD l)
  else if code < 436 then ((c.half.levels.getD (code - 432) none).map (·.remaining)).getD 0
  else (lit.getD 0).toNat % 2 ^ tyBits ty

/-- A scalar operand's whole 64 bits. -/
def Ctx.sVal (c : Ctx) (code : Nat) : BitVec 64 := c.w.s c.who.half (code - 320)
/-- A 64-bit operand of a uniform instruction: scalar, constant or literal. -/
def Ctx.uVal (c : Ctx) (lit : Option (BitVec 64)) (ty code : Nat) : BitVec 64 :=
  BitVec.ofNat 64 (opVal c lit ty code ((lowest (c.path.mask &&& c.w.live)).getD 0))

/-! ### Results (R67, R83, R102) -/

/-- A result written to the lanes of a mask: the whole register takes the tag; a scalar destination receives the
result of the lowest lane, widened; a predicate takes bit 0. With no lane nothing is written. -/
def writeDst (c : Ctx) (w : Wave) (ty code : Nat) (tag : BitVec 4) (m : Mask) (f : Nat → Nat) : Wave :=
  match lowest m with
  | none => w
  | some l0 =>
    if code < 320 then
      let w1 := w.setV code ⟨blend m (w.v code).data fun l => f l % 2 ^ 32, tag⟩
      if tyBits ty = 64 then
        w1.setV (code + 1) ⟨blend m (w.v (code + 1)).data fun l => f l / 2 ^ 32 % 2 ^ 32, tag⟩
      else w1
    else if code < 384 then w.setS c.who.half (code - 320) (widen ty (f l0))
    else w.setP (code - 416) m (maskOf fun l => f l % 2 == 1)

/-- A latch value pushed (R67): the result in the lanes of m; elsewhere the old destination value, or zero with NW. A latch
that holds a predicate result carries the tag given: 0.
DESIGN CHOICE, unsafe: notes/assumptions/82.md. -/
def pushLatch (c : Ctx) (w : Wave) (u nw : Bool) (code : Nat) (tag : BitVec 4) (m : Mask) (f : Nat → Nat) : Wave :=
  let old (l : Nat) : Nat :=
    if nw then 0
    else if code < 320 then lane (c.w.v code).data l
    else if code < 384 then (c.w.s c.who.half (code - 320)).toNat % 2 ^ 32
    else b2n ((c.w.p c.who.half (code - 416)).getLsbD l)
  let res (l : Nat) : Nat := if 416 ≤ code then f l % 2 else f l % 2 ^ 32
  let tag := if m = 0 && !nw && code < 320 then (c.w.v code).tag else tag
  let d := match u, lowest m with
    | true, some l0 => ofLanes fun _ => res l0
    | _, _ => ofLanes fun l => if m.getLsbD l then res l else old l
  let ls := match w.chain with
    | some k => if k.half = c.who.half ∧ k.path = c.who.path then k.latches else []
    | none => []
  { w with chain := some ⟨c.who.half, c.who.path, c.chainPos + 1, u, (⟨d, tag⟩ :: ls).take 4⟩ }

/-- A per-lane result of an arithmetic instruction delivered: to the destination unless NW, and to the latches where
the chain goes on (R67, R102). -/
def deliver (c : Ctx) (w : Wave) (o : Op3) (ty : Nat) (tag : BitVec 4) (m : Mask) (f : Nat → Nat) : Wave :=
  let w := if o.nw then w else writeDst c w ty o.d tag m f
  if o.ch then pushLatch c w o.u o.nw o.d tag m f else w

/-- A uniform 64-bit result written to a scalar. -/
def writeS (c : Ctx) (w : Wave) (code : Nat) (v : BitVec 64) : Wave := w.setS c.who.half (code - 320) v

end Sys2Proof.Machine
end

