-- ==== Sys2Proof/Machine/Mem.lean ====
section
/-!
DEFINITION. Memory: translation (R178 to R183), cached copies (R177, R205 to R207, R214), checked pages (R215 to R219),
errors (R196, R197), windows (R184), fault records (R186 to R188), and the lanes' accesses by parts (R189).
-/

namespace Sys2Proof.Machine

/-! ### Translation -/

/-- Who accesses: the core, the process's PASID, page-table root and TDI, and the party with its SFR number and block. -/
structure Space where
  core : Nat
  slot : Nat
  pasid : BitVec 20
  root : Nat
  tdi : Nat
  proc : BitVec 32
  party : Party
  sfr : Nat
  eng : Bool
  blk : Option Nat
  deriving DecidableEq, Repr

/-- What is done at an address (R183). -/
inductive Acc where
  | read | write | atomic | fetch
  deriving DecidableEq, Repr

/-- The KIND of a fault record (R187).
DEDUCED, unsafe: notes/assumptions/43.md. -/
def Acc.kind (eng : Bool) : Acc → Nat
  | .read => if eng then 4 else 0
  | .write => if eng then 5 else 1
  | .atomic => 2
  | .fetch => 3

/-- A leaf entry and its level (R179, R180). -/
structure Leaf where
  pte : BitVec 64
  lvl : Nat
  deriving DecidableEq, Repr

namespace Leaf
/-- V, R, W, X, C, G, NC, LEAF, P64 by bit (R180). -/
def bit (l : Leaf) (k : Nat) : Bool := l.pte.getLsbD k
def r (l : Leaf) : Bool := l.bit 1
def w (l : Leaf) : Bool := l.bit 2
def x (l : Leaf) : Bool := l.bit 3
def c (l : Leaf) : Bool := l.bit 4
def g (l : Leaf) : Bool := l.bit 5
def nc (l : Leaf) : Bool := l.bit 6
def p64 (l : Leaf) : Bool := l.bit 8
def key (l : Leaf) : Nat := bits l.pte.toNat 57 52
def tier (l : Leaf) : Nat := bits l.pte.toNat 59 58
def pfn (l : Leaf) : Nat := bits l.pte.toNat 51 12
/-- log2 of the page size (R179). -/
def size (l : Leaf) : Nat := if l.lvl = 2 then 30 else if l.lvl = 1 then 21 else if l.p64 then 16 else 12
/-- The physical address of a virtual one. -/
def pa (l : Leaf) (va : Nat) : Nat := l.pfn * 4096 / 2 ^ l.size * 2 ^ l.size + va % 2 ^ l.size
/-- A malformed leaf (R181). -/
def malformed (l : Leaf) : Bool :=
  bits l.pte.toNat 63 60 != 0 || bits l.pte.toNat 11 9 != 0 || l.tier == 3 || (l.w && l.x) ||
    (l.lvl != 0 && l.p64) || (l.c && l.tier != 0) || (l.tier != 0 && l.key != 0) ||
    l.pfn * 4096 % 2 ^ l.size != 0 || (l.lvl == 0 && !l.bit 7)
end Leaf

/-- What a walk meets: a leaf, V = 0 at a level, a malformed entry, or an error in the table at a physical address. -/
inductive Tr where
  | ok (l : Leaf)
  | miss (lvl : Nat)
  | bad
  | lost (pa : Nat)
  deriving DecidableEq, Repr

/-- Reading these bytes of HBM meets an uncorrectable error: sectors of 32 bytes (R195). -/
def State.eccAt (s : State) (pa n : Nat) : Bool := s.mem.ecc.any fun x => pa / 32 ≤ x && x ≤ (pa + n - 1) / 32
/-- Reading these bytes of local memory meets an uncorrectable error, or the page is retired (R196, R197). -/
def State.badData (s : State) (pa n : Nat) : Bool := s.mem.retired.contains (pa / 4096) || s.eccAt pa n

/-- The index into a table of a level (R179).
DESIGN CHOICE, safe: notes/assumptions/7.md. -/
def walkIndex (lvl va : Nat) : Nat := if lvl = 3 then va / 2 ^ 39 % 8192 else va / 2 ^ (12 + 9 * lvl) % 512

/-- A malformed entry that is no leaf (R181). -/
def badTable (lvl e : Nat) : Bool :=
  bits e 63 60 != 0 || bits e 11 9 != 0 || bits e 59 58 != 0 || bits e 57 52 != 0 || bits e 6 1 != 0 ||
    bits e 8 8 != 0 || (lvl == 3 && bits e 7 7 != 0)

/-- The walk of the page table from a level's table on (R179 to R181); of the 16 entries of a 64 KiB page that are not
identical, any one may translate. A table on a retired page, or with an error in the entry read, gives none (R196, R197). -/
def walkFrom (s : State) (va : Nat) : Nat → Nat → Tr
  | 0, base =>
    let i := walkIndex 0 va
    let e := s.num (base + 8 * i) 8
    if s.badData (base + 8 * i) 8 then .lost (base + 8 * i)
    else if e % 2 = 0 then .miss 0
    else if bits e 8 8 = 1 then
      let all := (List.range 16).map fun k => s.num (base + 8 * (i / 16 * 16 + k)) 8
      let e := if all.all (· == e) then e else all.getD (Config.which s.free va % 17) e
      if e % 2 = 0 then .miss 0 else .ok ⟨BitVec.ofNat 64 e, 0⟩
    else .ok ⟨BitVec.ofNat 64 e, 0⟩
  | lvl + 1, base =>
    let e := s.num (base + 8 * walkIndex (lvl + 1) va) 8
    if s.badData (base + 8 * walkIndex (lvl + 1) va) 8 then .lost (base + 8 * walkIndex (lvl + 1) va)
    else if e % 2 = 0 then .miss (lvl + 1)
    else if bits e 7 7 = 1 && lvl < 2 then .ok ⟨BitVec.ofNat 64 e, lvl + 1⟩
    else if badTable (lvl + 1) e then .bad
    else walkFrom s va lvl (bits e 51 12 * 4096)

/-- The key of a translation held by a core.
DESIGN CHOICE, safe: notes/assumptions/7.md. -/
def tlbKey (pasid : BitVec 20) (va : Nat) : Nat := pasid.toNat * 2 ^ 40 + va / 4096

/-- A translation: the walk, or a translation the core still holds from an earlier walk (R191, R192); the core then
holds what was used.
DESIGN CHOICE, safe: notes/assumptions/7.md. -/
def State.translate (s : State) (sp : Space) (va : Nat) : Tr × State :=
  let cur := walkFrom s va 3 sp.root
  let k := tlbKey sp.pasid va
  let held := Sparse.get? k (s.core sp.core).tlb
  let r : Tr × State :=
    match held with
    | some (lvl, pte) => s.pick (.ok ⟨pte, lvl⟩) cur
    | none => (cur, s)
  match r.1 with
  | .ok l =>
    -- a translation of an address space that is being torn down is not kept (R301)
    if held = some (l.lvl, l.pte) || s.boot.pasidDown == some sp.pasid then r
    else (r.1, r.2.updCore sp.core fun c => { c with tlb := Sparse.put k (l.lvl, l.pte) c.tlb })
  | _ => r

/-- Steps 5 to 8 of R183: the step that fails and its exception. A write to a G page fails step 7 whatever W holds. No key
slot is bound beyond the 512 GiB of HBM (R18, R182).
DEDUCED, unsafe: notes/assumptions/86.md. -/
def permit (s : State) (tdi : Nat) (a : Acc) (l : Leaf) (va : Nat) : Option (Nat × Nat) :=
  let wr := a = .write || a = .atomic
  if l.malformed then some (5, Exc.permission)
  else if (a = .read || a = .atomic) && !l.r then some (6, Exc.permission)
  else if wr && !l.w && !l.g then some (6, Exc.permission)
  else if a = .fetch && !l.x then some (6, Exc.fetchFault)
  else if wr && l.g then some (7, Exc.writeToGlobalRo)
  else if l.tier = 0 &&
      (2 ^ 39 ≤ l.pa va || Sparse.get 0 s.mem.granKey (l.pa va / 2 ^ 21) != l.key || (l.key == 0 && tdi != 0xFF) ||
        !s.mem.keyHeld.getLsbD l.key) then some (8, Exc.permission)
  else none

/-! ### Cached copies -/

/-- The caches between a core and the LLC, nearest first (R177): L1 of core c is unit c, the cluster caches are 128 on,
the L2s 160 on; the management core has none. -/
def cachePath (core : Nat) : List Nat :=
  if core = mgmtCore then [] else [core, 128 + clusterOf core, 160 + dieOf core]
/-- How many of them a synchronisation at a scope passes (R205, R206). -/
def scopeDepth (scope : Nat) : Nat := if scope ≤ 1 then 0 else scope - 1

/-- The bytes of new where the mask says so, of old elsewhere. -/
def mergeBytes (m : BitVec 16) (new old : BitVec 128) : BitVec 128 :=
  BitVec.ofNat 128 (pack 8 ((List.range 16).map fun k => if m.getLsbD k then elem 8 k new.toNat else elem 8 k old.toNat))

/-- A granule of HBM. -/
def State.homeGran (s : State) (g : Nat) : BitVec 128 := BitVec.ofNat 128 (s.num (16 * g) 16)
/-- The copy of a granule in a unit. -/
def State.copy? (s : State) (u g : Nat) : Option Copy := (Sparse.get? u s.mem.copies).bind (Sparse.get? g)
/-- A copy put into a unit. -/
def State.setCopy (s : State) (u g : Nat) (c : Copy) : State :=
  { s with mem := { s.mem with copies := Sparse.put u (Sparse.put g c (Sparse.get [] s.mem.copies u)) s.mem.copies } }
/-- A copy dropped from a unit. -/
def State.dropCopy (s : State) (u g : Nat) : State :=
  { s with mem := { s.mem with copies := Sparse.upd u (Sparse.del g) s.mem.copies } }

/-- Reading the bytes m of a granule through the units of a path consumes data with an uncorrectable error (R196): a copy
with an error, or the home's sector; not where a nearer copy without one serves the bytes.
DESIGN CHOICE, safe: notes/assumptions/6.md. -/
def State.granBad (s : State) (g : Nat) : List Nat → Nat → BitVec 16 → Bool
  | [], _, m => m != 0 && s.eccAt (16 * g) 16
  | u :: us, skip, m =>
    match s.copy? u g with
    | none => s.granBad g us (skip - 1) m
    | some c =>
      if c.bad && (skip = 0 || m &&& c.dirty != 0) then m != 0
      else skip != 0 && s.granBad g us (skip - 1) (m &&& ~~~c.dirty)

/-- The value of a granule through the units of a path (R206, R214): dirty bytes of a copy are returned; the clean
bytes of a copy may be returned or replaced by the next level's, but the first `skip` units' clean bytes are not, and the
next level's are not where they hold an error. Each unit then holds what it passed on.
DESIGN CHOICE, safe: notes/assumptions/6.md. -/
def State.readGran (s : State) (g : Nat) : List Nat → Nat → BitVec 128 × State
  | [], _ => (s.homeGran g, s)
  | u :: us, skip =>
    let (v, s) := s.readGran g us (skip - 1)
    match s.copy? u g with
    | none => (v, s.setCopy u g ⟨v, 0, false⟩)
    | some c =>
      let fresh := mergeBytes c.dirty c.data v
      let (d, s) := if skip > 0 then (fresh, s)
        else if s.granBad g us 0 (~~~c.dirty) then (c.data, s) else s.pick fresh c.data
      (d, if d = c.data then s else s.setCopy u g ⟨d, c.dirty, false⟩)

/-- Bytes of a granule written at the first unit of a path, dirty there; at the home where the path is empty. -/
def State.writeGran (s : State) (us : List Nat) (g : Nat) (m : BitVec 16) (d : BitVec 128) : State :=
  match us with
  | [] => s.setNum (16 * g) 16 (mergeBytes m d (s.homeGran g)).toNat
  | u :: _ =>
    match s.copy? u g with
    | some c => s.setCopy u g ⟨mergeBytes m d c.data, c.dirty ||| m, false⟩
    | none =>
      let (v, s) := s.readGran g us 0
      s.setCopy u g ⟨mergeBytes m d v, m, false⟩

/-- Bytes of a granule on their way through units: a copy there takes them.
DESIGN CHOICE, safe: notes/assumptions/6.md. -/
def State.passGran (s : State) (us : List Nat) (g : Nat) (m : BitVec 16) (d : BitVec 128) : State :=
  us.foldl (fun s u => match s.copy? u g with
    | some c => s.setCopy u g ⟨mergeBytes m d c.data, c.dirty, c.bad⟩
    | none => s) s

/-- The dirty bytes of one copy pushed through the units of `mids` to the rest of the path (R206).
DESIGN CHOICE, safe: notes/assumptions/6.md. -/
def State.pushCopy (s : State) (u : Nat) (mids below : List Nat) (g : Nat) : State :=
  match s.copy? u g with
  | some c =>
    if c.dirty = 0 then s
    else ((s.passGran mids g c.dirty c.data).writeGran below g c.dirty c.data).setCopy u g ⟨c.data, 0, c.bad⟩
  | none => s

/-- A release's push: the dirty bytes of the first n units of a path go to the unit after them (R206). -/
def State.push (s : State) : List Nat → Nat → State
  | _, 0 => s
  | [], _ => s
  | u :: us, n + 1 =>
    -- the outer levels first, so that the nearest level's bytes, the latest, land last
    let s := s.push us n
    ((Sparse.get [] s.mem.copies u).map (·.1)).foldl (fun s g => s.pushCopy u (us.take n) (us.drop n) g) s

/-- The granule key under which a line of a peer stands in the caches (R279). -/
def peerGran (pa : Nat) : Nat := 2 ^ 60 + pa / 16

/-- An acquire's discard: the clean bytes of the first n units of a path are dropped; G lines stay, those of peers and those
of the local tier (R206). -/
def State.discard (s : State) : List Nat → Nat → State
  | _, 0 => s
  | [], _ => s
  | u :: us, n + 1 =>
    let s := s.discard us n
    (Sparse.get [] s.mem.copies u).foldl (fun s (x : Nat × Copy) =>
      if x.1 ≥ 2 ^ 60 || s.mem.gLines.contains x.1 then s
      else if x.2.dirty = 0 then s.dropCopy u x.1
      else
        let (v, s) := s.readGran x.1 us 0
        s.setCopy u x.1 ⟨mergeBytes x.2.dirty x.2.data v, x.2.dirty, x.2.bad⟩) s

/-- The separate copies that the wave in a slot of a core makes by atomics of wave scope stand in a unit of their own before
the core's L1 (R205, R207).
DEDUCED, safe: notes/assumptions/97.md. -/
def waveUnit (core slot : Nat) : Nat := 2 ^ 16 + 32 * core + slot
/-- The copies of some granules in a unit before a core's caches are written back to its L1, and the unit holds them no
more (R207). -/
def State.flushUnit (s : State) (core u : Nat) (on : Nat → Bool) : State :=
  (((Sparse.get [] s.mem.copies u).map (·.1)).filter on).foldl (fun s g => (s.pushCopy u [] (cachePath core) g).dropCopy u g) s
/-- The waves' separate copies of some granules at a core are written back (R207). -/
def State.flushWaves (s : State) (core : Nat) (on : Nat → Bool) : State :=
  (s.mem.copies.filter fun (x : Nat × List (Nat × Copy)) => waveUnit core 0 ≤ x.1 && x.1 < waveUnit core 32).foldl
    (fun s x => s.flushUnit core x.1 on) s

/-- A release by a core at a scope: one wider than a wave's writes back the waves' separate copies (R206, R207). -/
def State.release (s : State) (core scope : Nat) : State :=
  (if scope = 0 then s else s.flushWaves core fun _ => true).push (cachePath core) (scopeDepth scope)
/-- An acquire by a core at a scope. -/
def State.acquire (s : State) (core scope : Nat) : State := s.discard (cachePath core) (scopeDepth scope)

/-- The mask of n bytes at offset o of a granule. -/
def granMask (o n : Nat) : BitVec 16 := BitVec.ofNat 16 ((2 ^ n - 1) * 2 ^ o)

/-- The path of an access: none for a page that is not cached or is checked (R177, R205). -/
def Leaf.path (l : Leaf) (core : Nat) : List Nat := if l.nc || l.c then [] else cachePath core

/-- n bytes, within one granule, read through a path.
DESIGN CHOICE, safe: notes/assumptions/6.md. -/
def State.readVia (s : State) (us : List Nat) (skip pa n : Nat) : Nat × State :=
  let (v, s) := s.readGran (pa / 16) us skip
  (v.toNat / 2 ^ (8 * (pa % 16)) % 2 ^ (8 * n), s)

/-- n bytes, within one granule, written through a path.
DESIGN CHOICE, safe: notes/assumptions/6.md. -/
def State.writeVia (s : State) (us : List Nat) (pa n v : Nat) : State :=
  s.writeGran us (pa / 16) (granMask (pa % 16) n) (BitVec.ofNat 128 (v % 2 ^ (8 * n) * 2 ^ (8 * (pa % 16))))

/-- One granule's dirty bytes in the first n units of a path pushed, and the copies there dropped. -/
def State.pushGran (s : State) (g : Nat) : List Nat → Nat → State
  | _, 0 => s
  | [], _ => s
  | u :: us, n + 1 => ((s.pushGran g us n).pushCopy u (us.take n) (us.drop n) g).dropCopy u g

/-- A synchronising write performs at its scope's level: copies nearer than it go (R205, R206). -/
def State.writeAt (s : State) (us : List Nat) (scope pa n v : Nat) : State :=
  let d := min (scopeDepth scope) us.length
  (s.pushGran (pa / 16) us d).writeVia (us.drop d) pa n v

/-! ### Checked pages -/

/-- Party Y at core k, of a block, lies in the unit (R199): from core scope on, the parties of one block contain each
other wherever the block has moved. -/
def Reach.has (u : Reach) (y : Party) (k : Nat) (blk : Option Nat) : Bool :=
  u.party == y || (1 ≤ u.scope && u.blk.isSome && u.blk == blk) ||
    match u.scope with
    | 0 => false
    | 1 => u.core == k
    | 2 => clusterOf u.core == clusterOf k && k != mgmtCore
    | 3 => dieOf u.core == dieOf k && k != mgmtCore
    | _ => true

/-- A party's SFR of a number is still open (R215). -/
def State.sfrOpen (s : State) (p : Party) (n : Nat) : Bool :=
  match p with
  | .wave h =>
    match s.resident h with
    | some (c, k) => match s.wave? c k with | some w => w.sfr == n | none => false
    | none => match s.named h with
      | some ⟨_, _, _, _, .wave _ _ _ (some w) _ _ _⟩ => w.sfr == n
      | _ => false
  | .engine c i => ((s.core c).fifo ++ (s.core c).copyq).any fun x => x.id == i
  | _ => false

/-- Y's access to a checked granule conflicts (R216, R217). The record's writer counts as at the core where it wrote.
DESIGN CHOICE, unsafe: notes/assumptions/98.md. -/
def State.race (s : State) (sp : Space) (g scope : Nat) (wr sync : Bool) : Bool :=
  match Sparse.get? g s.mem.checked with
  | none => false
  | some r =>
    (r.accs.any fun x => x.party != sp.party && (x.write || wr) && (x.data || !sync) && s.sfrOpen x.party x.sfr) ||
      (sync && match r.sync with
        | some u => !u.has sp.party sp.core sp.blk || !Reach.has ⟨scope, sp.core, sp.blk, sp.party⟩ u.party u.core u.blk
        | none => false)

/-- An access kept in the granule's record (R216, R217).
DEDUCED, unsafe: notes/assumptions/37.md. -/
def State.note (s : State) (sp : Space) (g scope : Nat) (wr sync : Bool) : State :=
  let r := Sparse.get ⟨[], none⟩ s.mem.checked g
  let a : Access := ⟨sp.party, sp.sfr, wr, !sync⟩
  let r : Checked :=
    { accs := if r.accs.contains a then r.accs else (r.accs.filter fun x => s.sfrOpen x.party x.sfr) ++ [a]
      sync := if sync && wr then some ⟨scope, sp.core, sp.blk, sp.party⟩ else r.sync }
  { s with mem := { s.mem with checked := Sparse.put g r s.mem.checked } }

/-- A release at a scope widens the records its party wrote (R217). -/
def State.widenRecords (s : State) (sp : Space) (scope : Nat) : State :=
  { s with mem := { s.mem with checked := s.mem.checked.map fun x => match x.2.sync with
      | some u => if u.party = sp.party ∧ u.scope < scope then (x.1, { x.2 with sync := some ⟨scope, sp.core, sp.blk, sp.party⟩ }) else x
      | none => x } }

/-- The release side of an operation of a party (R206, R217). -/
def State.releaseBy (s : State) (sp : Space) (scope : Nat) : State :=
  (s.release sp.core scope).widenRecords sp scope

/-! ### Fault records -/

/-- A miss opens a fault record or joins the unanswered one of its page (R186); none while the buffer is full. The
management core, which has no core index, stands in CORE as its index 255 modulo 128.
DESIGN CHOICE, unsafe: notes/assumptions/99.md. -/
def State.openRecord (s : State) (sp : Space) (a : Acc) (va lvl : Nat) : Option (BitVec 16) × State :=
  let d := if sp.core = mgmtCore then 0 else dieOf sp.core
  match s.mem.fbuf[d]? with
  | none => (none, s)
  | some b =>
    match b.recs.find? fun r => !r.answered && r.pasid == sp.pasid && r.vpage.toNat == va / 4096 % 2 ^ 40 with
    | some r => (some r.seq, s)
    | none =>
      if (b.recs.filter fun r => !r.popped).length ≥ 4096 then (none, s)
      else
        let r : FaultRec := ⟨BitVec.ofNat 40 (va / 4096), a.kind sp.eng, lvl, sp.core % 128, sp.pasid, b.seq, sp.eng,
          if sp.eng then 0 else sp.slot, false, false⟩
        (some b.seq, { s with mem := { s.mem with fbuf := updAt (fun b => ⟨b.seq + 1, b.recs ++ [r]⟩) d s.mem.fbuf } })

/-- A record's number with the lowest address that met it. -/
def addSeq (q : BitVec 16) (va : Nat) : List (BitVec 16 × Nat) → List (BitVec 16 × Nat)
  | [] => [(q, va)]
  | (r, a) :: qs => if r = q then (r, min a va) :: qs else (r, a) :: addSeq q va qs

/-- Records for a list of misses: their numbers, and whether all could be opened. -/
def State.openRecords (s : State) (sp : Space) (a : Acc) : List (Nat × Nat) → List (BitVec 16 × Nat) × Bool × State
  | [] => ([], true, s)
  | (va, lvl) :: ms =>
    let (r, s) := s.openRecord sp a va lvl
    let (qs, ok, s) := s.openRecords sp a ms
    match r with
    | some q => (addSeq q va qs, ok, s)
    | none => (qs, false, s)

/-! ### Windows (R184) -/

/-- An address of the window map: VA[51:44] = 0xFF. -/
def isWindow (va : Nat) : Bool := va / 2 ^ 44 % 256 == 0xFF && va < 2 ^ 52

/-- The block whose scratchpad allocation holds a byte of a core. -/
def State.spadOwner (s : State) (core off : Nat) : Option Nat :=
  (s.host.blocks.find? fun (_, b) => b.st == .placed && b.core == core && b.spadBase ≤ off && off < b.spadBase + b.spadLen).map (·.1)

/-- The process of a block. -/
def State.blockProc (s : State) (b : Nat) : Option (BitVec 32) :=
  (s.block? b).bind fun k => (s.launch? k.launch).map fun l => BitVec.ofNat 32 (field l.record 4 4)

/-- What a byte of the window map is. -/
inductive WinByte where
  | spad (core off : Nat)
  | reg (core slot n l k : Nat)
  | acc (core set a i k : Nat)
  | tile (core set i : Nat)
  | full (core byte : Nat)
  deriving DecidableEq, Repr

/-- The byte a window address names, when the process owns it. -/
def State.window (s : State) (proc : BitVec 32) (va : Nat) : Option WinByte :=
  let core := bits va 43 36
  let kind := bits va 35 32
  let off := bits va 31 0
  let owns (b : Option Nat) : Bool := match b.bind s.blockProc with | some p => p == proc | none => false
  if core ≥ 128 then none
  else match kind with
  | 0 => if off < 0x300000 && owns (s.spadOwner core off) then some (.spad core off) else none
  | 1 =>
    let slot := bits off 21 17
    let blk := bits off 16 14
    if off ≥ 2 ^ 22 || slot = 0 || blk > 4 then none
    else match s.wave? core slot with
      | some w =>
        if w.id.proc = proc && w.heldBlk blk then
          some (.reg core slot (64 * blk + bits off 13 8) (bits off 7 2) (off % 4))
        else none
      | none => none
  | 2 =>
    let set := bits off 18 18
    if off < 2 ^ 19 && owns (((s.core core).msets[set]?).bind (·.owner)) then
      some (.acc core set (bits off 17 16) (bits off 15 2) (off % 4))
    else none
  | 3 =>
    let set := bits off 17 17
    if off < 2 ^ 18 && owns (((s.core core).msets[set]?).bind (·.owner)) then some (.tile core set (off % 2 ^ 17))
    else none
  | 4 =>
    if off < 0x6000 && (List.range 8).all (fun j => owns (s.spadOwner core (128 * off + 16 * j))) then some (.full core off)
    else none
  | _ => none

/-- A byte of a number replaced. -/
def setByte (x k : Nat) (b : Byte) : Nat := x - elem 8 k x * 2 ^ (8 * k) + b.toNat * 2 ^ (8 * k)

/-- A window byte read. -/
def State.winRead (s : State) : WinByte → Byte
  | .spad c o => Sparse.get 0 (s.core c).scratch o
  | .reg c k n l b =>
    match s.wave? c k with
    | some w => byteOf (lane (Sparse.get VReg.zero w.regs.v n).data l) b
    | none => 0
  | .acc c t a i b => byteOf (Sparse.get 0 (((s.core c).msets.getD t (MSet.fresh none)).accs) (16384 * a + i)).toNat b
  | .tile c t i => Sparse.get 0 (((s.core c).msets.getD t (MSet.fresh none)).tiles) i
  | .full c i => BitVec.ofNat 8 (pack 1 ((List.range 8).map fun k => b2n (Sparse.get false (s.core c).fe (8 * i + k))))

/-- A matrix state set of a core changed. -/
def State.updMSet (s : State) (c t : Nat) (f : MSet → MSet) : State :=
  s.updCore c fun k => { k with msets := updAt f t k.msets }

/-- A tag of a matrix state set written by an engine or a window (R143, R184): its posted tag follows unless `keep`.
DEDUCED, unsafe: notes/assumptions/95.md. -/
def MSet.setTag (m : MSet) (i : Nat) (t : BitVec 4) (keep : Bool) : MSet :=
  { m with tags := updAt (fun _ => t) i m.tags, posted := if keep then m.posted else updAt (fun _ => t) i m.posted }

/-- A FIFO entry that will write register i (t0–t7, a0–a3 as 8–11) of the set of a block (R143). -/
def Cmd.writes (x : Cmd) (i : Nat) : Bool :=
  match x.ins with
  | .mma e => i == 8 + e.mod.toNat % 4
  | .cpy _ => x.follow && i == 8 + (x.scal.getD 1 0).toNat % 4
  | .accz e => i == 8 + e.mod.toNat % 4
  | .accwr e => i == 8 + e.mod.toNat % 4
  | .tilemvLd e => i == e.mod.toNat % 8
  | _ => false

/-- An entry that has executed: only its counter is still to come (R143). -/
def Cmd.done (x : Cmd) : Bool :=
  match x.st with
  | .counting | .parked _ 4 => true
  | _ => false
/-- Some unexecuted FIFO entry of the block writes register i, whose posted tag stays that entry's (R143).
DEDUCED, unsafe: notes/assumptions/95.md. -/
def State.pendingWriter (s : State) (c : Nat) (b : Option Nat) (i : Nat) : Bool :=
  (s.core c).fifo.any fun x => x.poster.blk == b && x.writes i && !x.done

/-- A window byte written: a register, tile or accumulator loses its tag, and a full-empty bit that changes wakes nothing
(R184, R185). -/
def State.winWrite (s : State) (x : WinByte) (b : Byte) : State :=
  match x with
  | .spad c o => s.setSpad c o [b]
  | .reg c k n l j =>
    s.updWave c k fun w =>
      let r := Sparse.get VReg.zero w.regs.v n
      let d := blend (oneLane l) r.data fun _ => setByte (lane r.data l) j b
      { w with regs := { w.regs with v := Sparse.set VReg.zero w.regs.v n { data := d, tag := 0 } } }
  | .acc c t a i j =>
    s.updMSet c t fun m =>
      let v := (Sparse.get 0 m.accs (16384 * a + i)).toNat
      MSet.setTag { m with accs := Sparse.set 0 m.accs (16384 * a + i) (BitVec.ofNat 32 (setByte v j b)) } (8 + a) 0
        (s.pendingWriter c m.owner (8 + a))
  | .tile c t i =>
    s.updMSet c t fun m =>
      MSet.setTag { m with tiles := Sparse.set 0 m.tiles i b } (i / 16384) 0 (s.pendingWriter c m.owner (i / 16384))
  | .full c i =>
    s.setFe c false ((List.range 8).map fun j => (8 * i + j, b.getLsbD j))

/-- n bytes of the window map read. -/
def State.winNum (s : State) (proc : BitVec 32) (va n : Nat) : Nat :=
  leNat ((List.range n).map fun k => match s.window proc (va + k) with | some x => s.winRead x | none => 0)
/-- n bytes of the window map written. -/
def State.winSet (s : State) (proc : BitVec 32) (va n v : Nat) : State :=
  (List.range n).foldl (fun s k => match s.window proc (va + k) with
    | some x => s.winWrite x (byteOf v k)
    | none => s) s

/-! ### Errors (R196, R197) -/

/-- Reading n bytes, within one granule, through a path consumes data with an uncorrectable error (R196). -/
def State.badRead (s : State) (us : List Nat) (skip pa n : Nat) : Bool := s.granBad (pa / 16) us skip (granMask (pa % 16) n)

/-- A window byte is read from a register or a granule that holds an error (R196). -/
def State.winBad (s : State) : WinByte → Bool
  | .spad c o => s.spadBad c o 1
  | .reg c k n _ _ => ((s.wave? c k).map fun w => w.badRegs.contains n).getD false
  | .acc c t a _ _ => (((s.core c).msets[t]?).map fun m => m.bad.contains (8 + a)).getD false
  | .tile c t i => (((s.core c).msets[t]?).map fun m => m.bad.contains (i / 16384)).getD false
  | .full _ _ => false

/-- The page of a failed line is retired. -/
def State.retire (s : State) (pa : Nat) : State :=
  if s.mem.retired.contains (pa / 4096) then s
  else { s with mem := { s.mem with retired := s.mem.retired ++ [pa / 4096] } }

/-! ### Atomics (R319) -/

/-- The new value of an atomic: operation 0 add, 1 min, 2 max, 3 and, 4 or, 5 xor, 6 exch, 7 cas, on a value of a type
(0 s32, 1 z32, 2 s64, 3 z64, 4 f32). -/
def atomNew (op ty old x y : Nat) : Nat :=
  let w := tyBits ty
  let lt : Bool := if tySigned ty then asInt w old < asInt w x else decide (old < x)
  match op with
  | 0 => if ty = 4 then Fmt.f32.round .rne false 0 32 (FV.add .rne (Fmt.f32.value old) (Fmt.f32.value x)) else (old + x) % 2 ^ w
  | 1 => if lt then old else x
  | 2 => if lt then x else old
  | 3 => old &&& x
  | 4 => old ||| x
  | 5 => old ^^^ x
  | 6 => x
  | _ => if old = x then y else old

/-- The atomic writes: every one but a cas that finds a mismatch (R319). -/
def atomWrites (op old x : Nat) : Bool := op != 7 || old == x

/-! ### The lanes' accesses (R183, R189) -/

/-- A memory instruction as its lanes see it. -/
structure MemOp where
  acc : Acc
  n : Nat
  ord : Nat
  scope : Nat
  sync : Bool
  atom : Option (Nat × Nat)
  deriving DecidableEq, Repr

/-- One lane's access: lane, address, operands. -/
structure LaneAcc where
  l : Nat
  va : Nat
  x : Nat
  y : Nat
  deriving DecidableEq, Repr

/-- A lane's access with its translation. -/
structure LaneTr where
  a : LaneAcc
  leaf : Leaf
  pa : Nat
  part : Nat
  deriving DecidableEq, Repr

/-- The part an access lies in (R189): a 4 KiB unit of the local tier, or a page of another tier.
DESIGN CHOICE, safe: notes/assumptions/8.md. -/
def partOf (l : Leaf) (va : Nat) : Nat := if l.tier = 0 then l.pa va / 4096 else 2 ^ 52 + va / 2 ^ l.size

/-- The lowest-numbered step that fails and the lowest address that fails it.
DEDUCED, unsafe: notes/assumptions/75.md. -/
def worst (fs : List (Nat × Nat × Nat)) : Option (Nat × Nat) :=
  match fs.foldl (fun m f => min m f.1) 1000, fs with
  | _, [] => none
  | st, _ =>
    let hit := fs.filter fun f => f.1 = st
    let a := hit.foldl (fun m f => min m f.2.2) (2 ^ 64)
    match hit.find? fun f => f.2.2 = a with
    | some f => some (f.2.1, a)
    | none => none

/-- Steps 1 to 3 of R183 over every lane, and the errors of the bytes read through the window map (R196).
DEDUCED, unsafe: notes/assumptions/75.md. -/
def lanesOk (s : State) (proc : BitVec 32) (o : MemOp) (ls : List LaneAcc) : Option (Nat × Nat) :=
  worst (ls.filterMap fun a =>
    if a.va % o.n ≠ 0 then some (1, Exc.misalignedAccess, a.va)
    else if a.va ≥ 2 ^ 52 then some (2, Exc.permission, a.va)
    else if isWindow a.va then
      if (List.range o.n).any (fun k => (s.window proc (a.va + k)).isNone) || (o.acc = .atomic && o.scope = 0)
        then some (3, Exc.permission, a.va)
      else if o.acc ≠ .write && (List.range o.n).any (fun k => ((s.window proc (a.va + k)).map s.winBad).getD false)
        then some (10, Exc.dataIntegrity, a.va)
      else none
    else none)

/-- What the translation of the lanes finds: passing lanes, failing ones (step, code, address, part), misses. -/
structure Found where
  ok : List LaneTr
  bad : List (Nat × Nat × Nat × Nat)
  miss : List (Nat × Nat)
  deriving DecidableEq, Repr

/-- The units whose clean bytes an access passes over (R206): an acquiring load reads beyond those below its scope, but for
G lines; an atomic reads where it executes. -/
def MemOp.skip (o : MemOp) (l : Leaf) : Nat :=
  if o.acc = .atomic then 3 else if o.ord % 2 = 1 && !l.g then scopeDepth o.scope else 0

/-- Step 4 to 8, the race check and the error check for each lane (R183, R196, R218).
DEDUCED, unsafe: notes/assumptions/75.md. -/
def translateLanes (s : State) (sp : Space) (o : MemOp) : List LaneAcc → Found × State
  | [] => (⟨[], [], []⟩, s)
  | a :: ls =>
    let (t, s) := s.translate sp a.va
    let (f, s) := translateLanes s sp o ls
    match t with
    | .miss lvl => ({ f with miss := (a.va, lvl) :: f.miss }, s)
    | .bad => ({ f with bad := (5, Exc.permission, a.va, 2 ^ 53 + a.va / 4096) :: f.bad }, s)
    | .lost pa => ({ f with bad := (4, Exc.dataIntegrity, a.va, pa / 4096) :: f.bad }, s)
    | .ok l =>
      let wr := o.acc = .write || o.acc = .atomic
      let fail := match permit s sp.tdi o.acc l a.va with
        | some x => some x
        | none =>
          if l.tier = 0 && l.c && s.race sp (l.pa a.va / 16) o.scope wr o.sync then some (9, Exc.memoryRace)
          else if l.tier = 0 && (s.mem.retired.contains (l.pa a.va / 4096) ||
              (o.acc ≠ .write && s.badRead (l.path sp.core) (o.skip l) (l.pa a.va) o.n))
            then some (10, Exc.dataIntegrity)
          else none
      match fail with
      | some (st, code) => ({ f with bad := (st, code, a.va, partOf l a.va) :: f.bad }, s)
      | none => ({ f with ok := ⟨a, l, l.pa a.va, partOf l a.va⟩ :: f.ok }, s)

/-- A granule that a wave reads through a G page stands in the caches as a G line; through another page it does not (R206). -/
def State.markG (s : State) (l : Leaf) (g : Nat) : State :=
  if l.g = s.mem.gLines.contains g then s
  else { s with mem := { s.mem with gLines := if l.g then g :: s.mem.gLines else s.mem.gLines.filter (· ≠ g) } }

/-- The separate copy that a wave holds of a granule is written back before an access of it that is none of its atomics of
wave scope (R207).
DEDUCED, safe: notes/assumptions/97.md. -/
def State.joinCopy (s : State) (sp : Space) (g : Nat) : State :=
  let u := waveUnit sp.core sp.slot
  if sp.eng then s else (s.pushCopy u [] (cachePath sp.core) g).dropCopy u g

/-- An atomic of a party performed on a granule's copy (R205, R207): at the level its scope names; one of wave scope on the
wave's own copy.
DEDUCED, safe: notes/assumptions/97.md. -/
def performAtom (s : State) (sp : Space) (o : MemOp) (t : LaneTr) (op ty : Nat) : Nat × State :=
  let us := t.leaf.path sp.core
  let own := o.scope = 0 && !us.isEmpty && sp.slot != 0 && !sp.eng
  let s := if own then s else s.joinCopy sp (t.pa / 16)
  let d := min (scopeDepth o.scope) us.length
  let s := s.pushGran (t.pa / 16) us d
  let us := if own then waveUnit sp.core sp.slot :: us else us.drop d
  let (old, s) := s.readVia us 4 t.pa o.n
  (old, if atomWrites op old t.a.x then s.writeVia us t.pa o.n (atomNew op ty old t.a.x t.a.y) else s)

/-- One lane's access to the local or the host tier, or to a window, performed: the value read (0 for a store). -/
def performLane (s : State) (sp : Space) (o : MemOp) (t : LaneTr) : Nat × State :=
  if t.leaf.tier = 2 then
    let old := leNat (Sparse.range memDefault s.mem.host t.pa o.n)
    let put (x : Nat) : State := { s with mem := { s.mem with host := Sparse.setRange memDefault s.mem.host t.pa (leBytes o.n x) } }
    match o.acc, o.atom with
    | .write, _ => (0, put t.a.x)
    | .atomic, some (op, ty) => (old, if atomWrites op old t.a.x then put (atomNew op ty old t.a.x t.a.y) else s)
    | _, _ => (old, s)
  else
    let g := t.pa / 16
    let wr := o.acc = .write || o.acc = .atomic
    let s := if t.leaf.c then s.note sp g o.scope wr o.sync else s
    let s := s.markG t.leaf g
    let us := t.leaf.path sp.core
    match o.acc, o.atom with
    | .write, _ =>
      let s := s.joinCopy sp g
      (0, if o.sync then s.writeAt us o.scope t.pa o.n t.a.x else s.writeVia us t.pa o.n t.a.x)
    | .atomic, some (op, ty) => performAtom s sp o t op ty
    | _, _ => (s.joinCopy sp g).readVia us (o.skip t.leaf) t.pa o.n

/-- A window access performed. -/
def performWin (s : State) (sp : Space) (o : MemOp) (a : LaneAcc) : Nat × State :=
  let old := s.winNum sp.proc a.va o.n
  match o.acc, o.atom with
  | .write, _ => (0, s.winSet sp.proc a.va o.n a.x)
  | .atomic, some (op, ty) =>
    (old, if atomWrites op old a.x then s.winSet sp.proc a.va o.n (atomNew op ty old a.x a.y) else s)
  | _, _ => (old, s)

/-- Accesses performed in lane order: the values by lane.
DESIGN CHOICE, safe: notes/assumptions/8.md. -/
def performAll (s : State) (sp : Space) (o : MemOp) : List LaneTr → List (Nat × Nat) × State
  | [] => ([], s)
  | t :: ts =>
    let (v, s) := performLane s sp o t
    let (vs, s) := performAll s sp o ts
    ((t.a.l, v) :: vs, s)

/-- Window accesses performed in lane order. -/
def performWins (s : State) (sp : Space) (o : MemOp) : List LaneAcc → List (Nat × Nat) × State
  | [] => ([], s)
  | a :: ls =>
    let (v, s) := performWin s sp o a
    let (vs, s) := performWins s sp o ls
    ((a.l, v) :: vs, s)

/-- The pages of the lines that failed are retired (R197). -/
def State.retireParts (s : State) (bad : List (Nat × Nat × Nat × Nat)) : State :=
  bad.foldl (fun s x => if x.2.1 = Exc.dataIntegrity then s.retire (x.2.2.2 * 4096) else s) s

/-- What a set of lanes' accesses comes to: the values of the lanes that performed, the lanes left for the League with
their offsets, and whether a part parks, waits in the translation unit or faults. -/
structure Performed where
  vals : List (Nat × Nat)
  peer : List LaneTr
  parked : List (BitVec 16 × Nat)
  filling : Bool
  fault : Option (Nat × Nat)
  deriving DecidableEq, Repr

/-- The accesses of the lanes left, by parts (R183, R189): a part that fails leaves its lanes undone; beside a failing
part each other part performs or stays undone; missing parts park.
DESIGN CHOICE, safe: notes/assumptions/8.md. -/
def access (s : State) (sp : Space) (o : MemOp) (ls : List LaneAcc) : Performed × State :=
  let (wins, rest) := ls.partition fun a => isWindow a.va
  let (f, s) := translateLanes s sp o rest
  let badParts := f.bad.map fun x => x.2.2.2
  let good := f.ok.filter fun t => !badParts.contains t.part
  -- beside a fault a part that has not performed may remain undone
  let good := if f.bad.isEmpty then good else good.filter fun t => Config.which s.free t.part % 2 == 0
  let (peer, local') := good.partition fun t => t.leaf.tier == 1
  -- a release side performs before any part of its instruction does (R319, R423)
  let s := if 2 ≤ o.ord && (f.bad.isEmpty || !good.isEmpty || !wins.isEmpty) then s.releaseBy sp o.scope else s
  let (wv, s) := performWins s sp o wins
  let (vs, s) := performAll s sp o local'
  match worst (f.bad.map fun x => (x.1, x.2.1, x.2.2.1)) with
  | some (code, a) =>
    let s := if code = Exc.dataIntegrity then s.retireParts f.bad else s
    (⟨wv ++ vs, [], [], false, some (code, a)⟩, s)
  | none =>
    let (qs, all, s) := s.openRecords sp o.acc f.miss
    (⟨wv ++ vs, peer, qs, !all, none⟩, s)

end Sys2Proof.Machine
end

