-- ==== Sys2Proof/Machine/Issue.lean ====
section
/-!
DEFINITION. Issuing one instruction of one split: fetch and transfers of control (R79 to R81), the checks that precede
an instruction's own (R66, R94, R100, R101), the schedule fields and what they leave open (R95 to R97), and what
follows it: the PC, the back edge, regions, merges and the re-read of pending targets (R28, R76, R165, R170, R259).
-/

namespace Sys2Proof.Machine

/-- How an instruction's body ends. -/
inductive Res where
  /-- It has completed and falls through. -/
  | next (s : State)
  /-- It has completed, falls through, and closes the idempotent region (R259). -/
  | nextR (s : State)
  /-- It has completed and set its split's PC and stack itself. -/
  | jump (s : State)
  /-- Its split waits at it. -/
  | wait (s : State)
  /-- It raises an exception; the state holds the parts that stand (R189). -/
  | raise (s : State) (code addr : Nat)

/-- A failed check of R100 steps 4 to 6, or the rest. -/
def withOps (s : State) (ops : List OpOk) (k : Res) : Res :=
  match checkOps ops with
  | some code => .raise s code 0
  | none => k

/-- The issuing wave as it stands, to be written; `Ctx.w` is what the instruction reads. -/
def State.mine (s : State) (c : Ctx) : Wave := (s.wave? c.who.core c.who.slot).getD c.w

/-- The process with a PASID. -/
def State.byPasid (s : State) (pasid : BitVec 20) : Option (BitVec 64 × BitVec 8) :=
  s.kern.objs.findSome? fun (_, o) =>
    match o.body with
    | .process p root _ _ => if p = pasid then some (root, o.tdi) else none
    | _ => none

/-- The address space of a process, for a party on a core. -/
def State.spaceOf (s : State) (core slot : Nat) (proc : BitVec 32) (party : Party) (sfr : Nat) (eng : Bool)
    (blk : Option Nat) : Space :=
  match s.named proc with
  | some ⟨_, _, _, tdi, .process pasid root _ _⟩ => ⟨core, slot, pasid, root.toNat, tdi.toNat, proc, party, sfr, eng, blk⟩
  | _ => ⟨core, slot, 0, 0, 0xFF, proc, party, sfr, eng, blk⟩

/-- The address space of the issuing wave: its process's, or for a privileged wave that of KPASID,
on behalf of the process KPROC (R249); its SFR is the one the wave has open now (R215). -/
def Ctx.space (c : Ctx) (s : State) : Space :=
  if c.w.priv then
    let pasid := (s.core c.who.core).ctl.kpasid
    let r := (s.byPasid pasid).getD (0, 0xFF)
    ⟨c.who.core, c.who.slot, pasid, r.1.toNat, r.2.toNat, (s.core c.who.core).ctl.kproc, .wave c.w.id.handle, (s.mine c).sfr, false, none⟩
  else s.spaceOf c.who.core c.who.slot c.w.id.proc (.wave c.w.id.handle) (s.mine c).sfr false c.w.id.blk

/-! ### Fetch (R79, R81, R191) -/

/-- What fetching a line meets. -/
inductive Fetch where
  /-- The line, its 32-byte sectors that hold an uncorrectable error (R196), and its physical address. -/
  | line (bs : List Byte) (bad : List Nat) (pa : Nat)
  | miss (va lvl : Nat)
  | fault (step code : Nat)
  deriving DecidableEq, Repr

/-- The 64 bytes at a physical address of a leaf's tier (R182). Those of a peer are the peer's: what it answers is free.
DESIGN CHOICE, safe: notes/assumptions/80.md. -/
def State.codeLine (s : State) (l : Leaf) (va : Nat) : BitVec 512 :=
  if l.tier = 0 then BitVec.ofNat 512 (s.num (l.pa va) 64)
  else if l.tier = 2 then BitVec.ofNat 512 (leNat (Sparse.range memDefault s.mem.host (l.pa va) 64))
  else Config.peerLine s.free

/-- The 64-byte line that holds an address, under the current translation or as the core still holds it (R81, R183, R191).
A window address is never translated, and is no executable mapping (R178, R184).
DESIGN CHOICE, safe: notes/assumptions/7.md; DESIGN CHOICE, safe: notes/assumptions/80.md. -/
def State.fetch (s : State) (sp : Space) (pc : Nat) : Fetch × State :=
  let va := pc / 64 * 64
  if isWindow va then (.fault 3 Exc.fetchFault, s)
  else
    let (t, s) := s.translate sp va
    match t with
    | .miss lvl => (.miss va lvl, s)
    | .bad => (.fault 3 Exc.permission, s)
    | .lost pa => (.fault 3 Exc.dataIntegrity, s.retire pa)
    | .ok l =>
      match permit s sp.tdi .fetch l va with
      | some (_, code) => (.fault 3 code, s)
      | none =>
        let cur := s.codeLine l va
        let k := sp.pasid.toNat * 2 ^ 46 + va / 64
        let held := Sparse.get? k (s.core sp.core).icache
        let (d, s) : BitVec 512 × State := match held with
          | some old => s.pick old cur
          | none => (cur, { s with free := if l.tier = 1 then s.free + 1 else s.free })
        let bad := if held = some d || l.tier ≠ 0 then [] else [0, 1].filter fun h => s.badData (l.pa va + 32 * h) 32
        let s := if held = some d || !bad.isEmpty then s
          else s.updCore sp.core fun c => { c with icache := Sparse.put k d c.icache }
        (.line (leBytes 64 d.toNat) bad (l.pa va), s)

/-- Consuming the words lo to hi of a fetched line meets an error: the failed line's page is retired (R196, R197). -/
def State.consume (s : State) (bad : List Nat) (pa lo hi : Nat) : Option State :=
  (bad.find? fun h => lo / 8 ≤ h && h ≤ hi / 8).map fun h => s.retire (pa + 32 * h)

/-- The words of a line at which instructions start, by the lengths from word 0 on (R79). -/
def startsFrom : Nat → List Word → Nat → List Nat
  | 0, _, _ => []
  | fuel + 1, ws, k =>
    match ws[k]? with
    | none => []
    | some w => k :: startsFrom fuel ws (k + wordsOf w)
/-- The word indexes of a line that start an instruction. -/
def lineStarts (bs : List Byte) : List Nat := startsFrom 16 (wordsOfBytes bs) 0

/-- The instruction at a place of a line: one that runs past the line is none (R79). -/
def decodeIn (bs : List Byte) (pc : Nat) : Except Reject Instr :=
  match decode (bs.drop (pc % 64)) with
  | .ok (i, _) => .ok i
  | .error r => .error r

/-- A PC within reach of the code base (R72, R80). -/
def pcInRange (base : Dword) (t : Nat) : Bool :=
  t < 2 ^ 52 && t ≤ 2 ^ 52 - 4 && base.toNat ≤ t + 2 ^ 30 && t ≤ base.toNat + 2 ^ 30 - 4

/-- What the check of targets comes to (R80). -/
inductive Targets where
  | ok
  | fault (code addr : Nat)
  | miss (ms : List (Nat × Nat))
  deriving DecidableEq, Repr

/-- One target's failing step and code, or a miss. -/
def State.target (s : State) (sp : Space) (base : Dword) (t : Nat) : (Option (Nat × Nat) × Option (Nat × Nat)) × State :=
  if !pcInRange base t then ((some (1, Exc.pcOverflow), none), s)
  else if t % 4 ≠ 0 then ((some (2, Exc.misalignedTarget), none), s)
  else
    match s.fetch sp t with
    | (.miss _ lvl, s) => ((none, some (t, lvl)), s)
    | (.fault st code, s) => ((some (st, code), none), s)
    | (.line bs bad pa, s) =>
      match s.consume bad pa 0 (t % 64 / 4) with
      | some s => ((some (3, Exc.dataIntegrity), none), s)
      | none => (if (lineStarts bs).contains (t % 64 / 4) then (none, none) else (some (4, Exc.misalignedTarget), none), s)

/-- The targets of a transfer, step by step over all of them (R80). -/
def State.targets (s : State) (sp : Space) (base : Dword) : List Nat → List (Nat × Nat × Nat) × List (Nat × Nat) × State
  | [] => ([], [], s)
  | t :: ts =>
    let ((f, m), s) := s.target sp base t
    let (fs, ms, s) := s.targets sp base ts
    (match f with | some (st, code) => (st, code, t) :: fs | none => fs, m.toList ++ ms, s)

/-- The outcome of the check: a step up to 3 that fails, else a parked walk, else step 4. -/
def State.checkTargets (s : State) (sp : Space) (base : Dword) (ts : List Nat) : Targets × State :=
  let (fs, ms, s) := s.targets sp base ts
  match worst (fs.filter fun f => f.1 ≤ 3), ms, worst fs with
  | some (code, a), _, _ => (.fault code a, s)
  | none, m :: ms, _ => (.miss (m :: ms), s)
  | none, [], some (code, a) => (.fault code a, s)
  | none, [], none => (.ok, s)

/-- How far a path has come in the instruction at its PC (R189, R190). -/
def Path.progress (p : Path) : Progress :=
  match p.prog with
  | some q => if q.pc = p.pc then q else ⟨p.pc, 0, 0, []⟩
  | none => ⟨p.pc, 0, 0, []⟩

/-- The issuing split parks on fault records, or waits in the translation unit while those opened hold a part of its
accesses (R186, R188).
DEDUCED, safe: notes/assumptions/14.md. -/
def State.park (s : State) (c : Ctx) (qs : List (BitVec 16 × Nat)) (all : Bool) : State :=
  s.updPath c fun p => if all then { p with wait := .parked qs }
    else { p with wait := .filling, prog := some { p.progress with held := qs } }

/-- A release or a fence of the issuing split waits while its wave has requests to peers unanswered (R206, R209). -/
def quietly (c : Ctx) (s : State) (k : Res) : Res :=
  if s.hasReqs c.w.id.handle then .wait (s.updPath c fun p => { p with wait := .quiet }) else k

/-- A transfer of control in an address space, the issuing split's own or that of a wave it returns to: its targets are
checked before anything changes (R80). -/
def transferIn (sp : Space) (base : Dword) (c : Ctx) (s : State) (ts : List Nat) (k : State → Res) : Res :=
  match s.checkTargets sp base ts with
  | (.ok, s) => k s
  | (.fault code a, s) => .raise s code a
  | (.miss ms, s) =>
    let (qs, all, s) := s.openRecords sp .fetch ms
    .wait (s.park c qs all)
/-- A transfer of control of the issuing split (R80). -/
def transfer (c : Ctx) (s : State) (ts : List Nat) (k : State → Res) : Res := transferIn (c.space s) c.w.id.codeBase c s ts k

/-! ### Checks before an instruction's own -/

/-- What the management core accepts (R101). -/
def mgmtAccepts (i : Instr) : Bool :=
  let (m, u) := i.majU
  [0x00, 0x38, 0x3A, 0x3B, 0x3C, 0x44, 0x45, 0x43, 0x7D].contains m ||
    (u && ((1 ≤ m && m ≤ 0x2C && !([0x1C, 0x1D, 0x1E, 0x1F].contains m)) || [0x48, 0x49, 0x4E, 0x50, 0x7C].contains m))

/-- The result of a chainable instruction is 32 bits wide, a predicate included (R66). -/
def narrowResult (i : Instr) (e : Ext) : Bool :=
  match i with
  | .cmp _ | .plog _ => true
  | .ballot _ | .lea _ => false
  | .pmov _ => e.d9.toNat ≥ 416
  | .cvt e => e.ty ≠ 2 && e.ty ≠ 3
  | .mad e => e.ty ≠ 2 && e.ty ≠ 3 && e.mod.toNat % 2 == 0
  | .popcExt _ | .clzExt _ | .ctzExt _ | .vote _ | .mprefix _ | .electExt _ => true
  | _ => e.ty ≠ 2 && e.ty ≠ 3 && e.ty ≠ 8

/-- The chain conditions of R66: what stands in a chain, or begins one. -/
def chainOk (c : Ctx) (i : Instr) (e : Option Ext) : Bool :=
  let pos := c.chainPos
  let m := i.majU.1
  match e with
  | none => pos == 0
  | some e =>
    (pos == 0 && !e.ch) ||
      (1 ≤ m && m ≤ 0x30 && (narrowResult i e || (pos == 0 && !e.ch)) && pos < 8 && !(e.ch && pos == 7) &&
        (pos == 0 || (c.w.chain.map (·.u)).getD e.u == e.u))

/-- R100 steps 1 to 3 and R101: the exception an instruction meets before its operands are looked at. -/
def formCheck (c : Ctx) (i : Instr) (e : Option Ext) : Option Nat :=
  if c.w.id.kind = .mgmt && !mgmtAccepts i then some Exc.illegal
  else if i.isSys && !c.w.priv then some Exc.privileged
  else if !i.formOk || !chainOk c i e then some Exc.illegal
  else none

/-! ### Schedule fields (R31, R94 to R97) -/

/-- The code object of a process that holds an address (R94, R111).
DEDUCED, unsafe: notes/assumptions/54.md. -/
def State.codeOf (s : State) (proc : BitVec 32) (pc : Dword) : Option CodeObj :=
  s.host.code.find? fun k => k.proc == proc && k.base ≤ pc.toNat && pc.toNat < k.base + k.len

/-- A wave runs in scheduled mode (R94): its code object's note names the part's stepping and the core is not set to
interlock. Firmware agents and the management core run code of no code object, interlocked.
DESIGN CHOICE, unsafe: notes/assumptions/74.md.
DEDUCED, unsafe: notes/assumptions/54.md. -/
def State.scheduled (s : State) (c : Ctx) : Bool :=
  ((s.codeOf c.w.id.proc c.w.id.codeBase).bind (·.stepping)) == some Config.stepping && !(s.core c.who.core).ctl.intlk

/-- The fixed latency of an instruction (R96), or none for a variable one.
DESIGN CHOICE, safe: notes/assumptions/5.md. -/
def latency (i : Instr) : Option Nat :=
  let m := i.majU.1
  if m = 3 ∨ m = 4 ∨ m = 5 ∨ m = 0x2B then some 6
  else if m = 6 then none
  else if m ≤ 0x25 then some 4
  else none

/-- The physical register an outstanding write names: 0 to 319 vectors, 320 on scalars, 416 on predicates; 432 on for
blocks given back. -/
def OldReg.key : OldReg → Nat
  | .v n .. => n
  | .s n .. => 320 + n
  | .p n .. => 416 + n
  | .over k _ => k
  | .gone b => 432 + b

/-- An outstanding write restricted to lanes: none where it is left in no lane. -/
def OldReg.on (m : Mask) : OldReg → Option OldReg
  | .v n old k d => if k &&& m = 0 then none else some (.v n old (k &&& m) d)
  | .p n old k d => if k &&& m = 0 then none else some (.p n old (k &&& m) d)
  | .over n k => if k &&& m = 0 then none else some (.over n (k &&& m))
  | r => some r

/-- The value is readable only while the instruction of a number has not landed either. -/
def OldReg.needs (n : Nat) : OldReg → OldReg
  | .v k old m d => .v k old m (n :: d)
  | .s k old d => .s k old (n :: d)
  | .p k old m d => .p k old m (n :: d)
  | r => r
/-- The instructions it needs outstanding. -/
def OldReg.deps : OldReg → List Nat
  | .v _ _ _ d | .s _ _ d | .p _ _ _ d => d
  | _ => []

/-- The block given back, an outstanding write into it concerns no register of the wave (R58). -/
def OldReg.giveBack (blk : Nat) (r : OldReg) : OldReg := if r.key < 320 ∧ r.key / 64 = blk then .gone blk else r

/-- The registers a base form names, as keys of `OldReg` (R84): of the base forms of control, CALL and RET name the link
register (R160). -/
def baseKeys (c : Ctx) (i : Instr) : List Nat :=
  let phys (n : Nat) : Nat := if n < 320 then c.w.phys n else if n < 384 then 320 + c.w.physS c.who.half (n - 320) else n
  match encode i with
  | w :: _ =>
    let u := w.getLsbD 2
    let r (k : Nat) : Nat := regCode u (w.extractLsb' k 6)
    let m := (w.extractLsb' 3 7).toNat
    (if m ≤ 0x30 ∧ m ≠ 0x1F then [r 10, r 10 + 1, r 16, r 16 + 1, r 22, r 22 + 1]
     else if 0x48 ≤ m ∧ m ≤ 0x4B then [r 10, r 10 + 1, r 10 + 2, r 10 + 3, r 16, r 16 + 1]
     else if m = 0x1F ∨ m = 0x3A then [416 + (w.extractLsb' 10 4).toNat]
     else match i with
       | .call _ | .ret => [if c.w.id.gang then 351 else 383]
       | _ => []).map phys
  | [] => []

/-- The outstanding writes that stay so after an instruction's interlock or its waits: a base form waits for the
registers it names, an extended form for the scoreboards in WAIT and for room in its own (R84, R95).
DESIGN CHOICE, safe: notes/assumptions/5.md. -/
def settlePend (c : Ctx) (i : Instr) (e : Option Ext) (ps : List Pend) : List Pend :=
  match e with
  | none =>
    let ks := baseKeys c i
    ps.filter fun p => !p.regs.any fun r => ks.contains r.key
  | some e =>
    let mine (p : Pend) : Bool := p.half == c.who.half && p.mask &&& c.path.mask != 0
    let ps := ps.filter fun p => !(mine p && p.sbs != 0 && e.wait.getLsbD (p.sbs - 1))
    let counted := ((ps.filter fun p => e.sbs != 0 && mine p && p.sbs == e.sbs.toNat).map (·.n)).eraseDups
    let first := counted.take (counted.length - 62)
    if 63 ≤ counted.length then ps.filter fun p => !first.contains p.n else ps

/-- A vector register with the lanes of a mask as they were before; the tag goes with them where the reader has a lane
among them. -/
def VReg.before (cur old : VReg) (m reader : Mask) : VReg :=
  ⟨blend m cur.data (lane old.data), if m &&& reader = 0 then cur.tag else old.tag⟩

/-- The lanes of an earlier value: all for a scalar. -/
def OldReg.lanes : OldReg → Mask
  | .v _ _ m _ | .p _ _ m _ => m
  | .s .. => allLanes
  | _ => 0
/-- The lanes in which an outstanding write names the register of a key. -/
def OldReg.holds (key : Nat) (r : OldReg) : Mask :=
  if r.key ≠ key then 0
  else match r with
    | .over _ m => m
    | _ => r.lanes
/-- The lanes in which the instruction of a number still has a write of the register of a key outstanding. -/
def stillOut (ps : List Pend) (key n : Nat) : Mask :=
  (ps.filter fun p => p.n = n).foldl (fun m p => p.regs.foldl (fun m r => m ||| r.holds key) m) 0
/-- The lanes in which an earlier value may be read: none of the writes it needs has landed there. -/
def OldReg.readable (ps : List Pend) (r : OldReg) : Mask := r.deps.foldl (fun m n => m &&& stillOut ps r.key n) r.lanes

/-- A register as a split of the lanes `reader` may read it while a write is outstanding: before it or after it (R97).
DESIGN CHOICE, safe: notes/assumptions/5.md. -/
def readOld (reader : Mask) (ps : List Pend) (s : State) (w : Wave) (o : OldReg) : Wave × State :=
  let m := o.readable ps
  if m = 0 then (w, s)
  else match o with
  | .v n old _ _ =>
    let cur := Sparse.get VReg.zero w.regs.v n
    let (r, s) := s.pick cur (cur.before old m reader)
    ({ w with regs := { w.regs with v := Sparse.set VReg.zero w.regs.v n r } }, s)
  | .s n old _ =>
    let (r, s) := s.pick (Sparse.get 0 w.regs.s n) old
    ({ w with regs := { w.regs with s := Sparse.set 0 w.regs.s n r } }, s)
  | .p n old _ _ =>
    let cur := Sparse.get 0 w.regs.p n
    let (r, s) := s.pick cur ((cur &&& ~~~m) ||| (old &&& m))
    ({ w with regs := { w.regs with p := Sparse.set 0 w.regs.p n r } }, s)
  | .over .. | .gone _ => (w, s)

/-- The wave as an instruction of a split reads it (R97).
DESIGN CHOICE, safe: notes/assumptions/5.md. -/
def readView (reader : Mask) (s : State) (w : Wave) (ps : List Pend) : Wave × State :=
  ps.foldl (fun x p => p.regs.foldl (fun (y : Wave × State) r => readOld reader ps y.2 y.1 r) x) (w, s)

/-- The keys at which two register tables differ. -/
def changedKeys {α : Type} [DecidableEq α] (d : α) (a b : List (Nat × α)) : List Nat :=
  ((a.map (·.1)) ++ (b.map (·.1))).eraseDups.filter fun k => Sparse.get d a k ≠ Sparse.get d b k

/-- The registers an instruction wrote in the lanes of a mask, with the values they held before. -/
def written (m : Mask) (old new : Regs) : List OldReg :=
  (changedKeys VReg.zero old.v new.v).map (fun k =>
    let a := Sparse.get VReg.zero old.v k
    let b := Sparse.get VReg.zero new.v k
    .v k a (m ||| maskOf fun l => lane a.data l ≠ lane b.data l) []) ++
  (changedKeys 0 old.s new.s).map (fun k => .s k (Sparse.get 0 old.s k) []) ++
  (changedKeys 0 old.p new.p).map (fun k => .p k (Sparse.get 0 old.p k) (m ||| (Sparse.get 0 old.p k ^^^ Sparse.get 0 new.p k)) [])

/-- The same register and lanes, with the value that some registers hold. -/
def OldReg.now (g : Regs) : OldReg → OldReg
  | .v n _ m _ => .v n (Sparse.get VReg.zero g.v n) m []
  | .s n _ _ => .s n (Sparse.get 0 g.s n) []
  | .p n _ m _ => .p n (Sparse.get 0 g.p n) m []
  | r => r

/-- A register put back to the value an outstanding write holds for it. -/
def Wave.putBack (w : Wave) : OldReg → Wave
  | .v n old m _ =>
    { w with regs := { w.regs with v := Sparse.set VReg.zero w.regs.v n ((Sparse.get VReg.zero w.regs.v n).before old m m) } }
  | .s n old _ => { w with regs := { w.regs with s := Sparse.set 0 w.regs.s n old } }
  | .p n old m _ =>
    let cur := Sparse.get 0 w.regs.p n
    { w with regs := { w.regs with p := Sparse.set 0 w.regs.p n ((cur &&& ~~~m) ||| (old &&& m)) } }
  | _ => w

/-- A write of a register over the same register of an outstanding instruction (R97): the write r, by which the registers
became g, over the earlier values qs that the instruction of number n keeps. Either write lands last. A value before both can be
read only until the first of them has landed; the value between them, until the last has. The answer: what the earlier
instruction and what the later one have outstanding, and the wave.
DESIGN CHOICE, safe: notes/assumptions/5.md. -/
def overwrite (late : Bool) (n : Nat) (g : Regs) (w : Wave) (r : OldReg) (qs : List OldReg) :
    List OldReg × List OldReg × Wave :=
  let both := r.lanes &&& qs.foldl (fun m q => m ||| q.lanes) 0
  let rest := match r with
    | .s .. => []
    | _ => qs.filterMap (OldReg.on (~~~both))
  let before := qs.filterMap fun q => (q.on both).map (OldReg.needs n)
  match r.on both with
  | some x =>
    if late then (x.now g :: rest, before, w.putBack x)
    else (.over r.key both :: rest, before, w)
  | none => (qs, [], w)

/-- A write of a register over every outstanding instruction that writes it (R97).
DESIGN CHOICE, safe: notes/assumptions/5.md. -/
def overtake (lat : Option Nat) (g : Regs) (r : OldReg) : List Pend → Wave → State → List Pend × List OldReg × Wave × State
  | [], w, s => ([], [], w, s)
  | p :: ps, w, s =>
    let (same, others) := p.regs.partition fun q => q.key == r.key && q.lanes &&& r.lanes != 0
    if same.isEmpty then
      let (ps, more, w, s) := overtake lat g r ps w s
      (p :: ps, more, w, s)
    else
      let may := match p.left with | some k => decide (k > lat.getD 1) | none => true
      let (late, s) := if may then s.choose else (false, s)
      let (kept, before, w) := overwrite late p.n g w r same
      let (ps, more, w, s) := overtake lat g r ps w s
      ({ p with regs := others ++ kept } :: ps, before ++ more, w, s)

/-- The register writes of an instruction that every later instruction sees at once: the ADV update of a posting (R389),
and the return address of CALL, for which R96 gives no latency.
DESIGN CHOICE, unsafe: notes/assumptions/78.md. -/
def writesAtOnce : Instr → Bool
  | .mma _ | .tilemvLd _ | .tilemvSt _ | .callAbs _ | .callDisp _ => true
  | _ => false

/-- The outstanding writes after an instruction of the lanes m of a half: each counts `gap` more cycles in those lanes
(R96). -/
def aged (half : Nat) (m : Mask) (gap : Nat) (ps : List Pend) : List Pend :=
  ps.flatMap fun p =>
    match p.left with
    | none => [p]
    | some k =>
      if p.half ≠ half || p.mask &&& m == 0 then [p]
      else
        let part (x : Mask) (k : Nat) : Pend := { p with mask := p.mask &&& x, regs := p.regs.filterMap (OldReg.on x), left := some k }
        (if k ≤ gap then [] else [part m (k - gap)]) ++ (if p.mask &&& ~~~m = 0 then [] else [part (~~~m) k])

/-- The bookkeeping of outstanding writes after an instruction of the issuing split (R31, R95 to R97): a base form counts
as one cycle.
DESIGN CHOICE, safe: notes/assumptions/5.md.
DESIGN CHOICE, unsafe: notes/assumptions/78.md. -/
def State.track (s : State) (c : Ctx) (i : Instr) (e : Option Ext) (old : Regs) : State :=
  match s.wave? c.who.core c.who.slot, e with
  | none, _ => s
  | some w, none => s.setWave c.who.core c.who.slot { w with pend := aged c.who.half c.path.mask 1 w.pend }
  | some w, some e =>
    let rs := if writesAtOnce i then [] else written (c.act e.u e.pg e.pn) old w.regs
    let (ps, before, w, s) := rs.foldl (fun (x : List Pend × List OldReg × Wave × State) r =>
      let (ps, more, w, s) := overtake (latency i) w.regs r x.1 x.2.2.1 x.2.2.2
      (ps, x.2.1 ++ more, w, s)) (w.pend, [], w, s)
    let gap := 1 + e.stall.toNat
    -- a number that no outstanding instruction has and no earlier value needs
    let n := ps.foldl (fun m p => p.regs.foldl (fun m r => r.deps.foldl max m) (max m p.n)) 0 + 1
    let new : List Pend :=
      if rs.isEmpty && e.sbs == 0 then []
      else match latency i with
        | some k => if k ≤ gap then [] else [⟨n, rs ++ before, e.sbs.toNat, c.who.half, c.path.mask, some (k - gap)⟩]
        | none => [⟨n, rs ++ before, e.sbs.toNat, c.who.half, c.path.mask, none⟩]
    s.setWave c.who.core c.who.slot { w with pend := aged c.who.half c.path.mask gap ps ++ new }

/-! ### Regions (R170, R259, R263) -/

/-- A region closed and a new one opened whose entry is pc (R170, R259). -/
def State.closeRegion (s : State) (c : Ctx) (pc : Dword) : State :=
  s.updWave c.who.core c.who.slot fun w =>
    let w := { w with regcnt := w.regcnt + 1 }
    match w.halves[c.who.half]? with
    | some h =>
      if h.stack.isEmpty then
        { w with srrb := w.rrb }.updHalf c.who.half fun h => { h with region := pc, snap := h.levels }
      else w
    | none => w

/-- The operations that clear a block's idempotence flag once they have performed (R263); a
COLL clears it when the posted command performs (R347, `State.collWrite`). -/
def clearsIdem (i : Instr) : Bool :=
  match i with
  | .atom _ | .atomn _ | .ratom _ | .rst _ | .rmcst _ | .stExt _ | .stlExt _ | .cmpst _ | .wcreate _ | .psend _ | .precv _
  | .objnew _ | .objdel _ | .wsadd _ | .wswait _ | .tarm _ | .tcancel _ => true
  | _ => false

/-- The idempotence flag of the wave's block cleared. -/
def State.clearIdem (s : State) (c : Ctx) : State :=
  match c.w.id.blk with
  | some b => s.updBlock b fun k => { k with idem := false }
  | none => s

/-! ### Merges and the re-read of pending targets (R28, R76) -/

/-- The paths an entry may hold that have not arrived (R28, R33). -/
def maxPaths (gang : Bool) : Nat := if gang then 2 else 4

/-- The targets of the pending lanes: the recorded JMPI's pair, read again.
DEDUCED, safe: notes/assumptions/35.md.
DESIGN CHOICE, unsafe: notes/assumptions/79.md. -/
def rereadTargets (w : Wave) (i : Instr) (m : Mask) : List (Nat × Nat) :=
  match i with
  | .jmpi e => (lanesOf m).map fun l =>
      (l, lane (w.v e.a9.toNat).data l + 2 ^ 32 * lane (w.v (e.a9.toNat + 1)).data l)
  | _ => []

/-- A path that starts: in an entry whose paths run one at a time, behind the others (R28); in the bottom entry in the place
of one that has arrived, so that the places of running paths stay within the entry's slots (R27, R32), and the arrived one
moves to the end. -/
def startPath (serial : Bool) (p : Path) (ps : List Path) : List Path :=
  match if serial then none else ps.findIdx? (·.arrived) with
  | some k => ps.set k p ++ (ps[k]?).toList
  | none => ps ++ [p]

/-- Merges, and while a slot of the top JMPI entry is free the lowest pending target starts (R28, R76). A recorded JMPI
that can no longer be read or decoded raises what its fetch raises, at its own address.
DEDUCED, safe: notes/assumptions/35.md; DESIGN CHOICE, unsafe: notes/assumptions/79.md. -/
def State.merge : Nat → State → Who → State
  | 0, s, _ => s
  | fuel + 1, s, a =>
    match s.wave? a.core a.slot with
    | none => s
    | some w0 =>
      let w := w0.settle 70 a.half
      let s := if w = w0 then s else s.setWave a.core a.slot w
      match w.halves[a.half]? with
      | some ⟨base, ended, e :: es, lv, rg, sn, rr⟩ =>
        match e.jmpi with
        | some at' =>
          if e.pending == 0 || (e.paths.filter fun p => !p.arrived).length ≥ maxPaths w.id.gang || w.traps != 0 then s
          else
            let h : Half := ⟨base, ended, e :: es, lv, rg, sn, rr⟩
            let c : Ctx := ⟨a, w, h, base⟩
            let sp := c.space s
            match s.fetch sp at'.toNat with
            | (.line bs bad pa, s) =>
              match s.consume bad pa (at'.toNat % 64 / 4) (at'.toNat % 64 / 4 + 4), decodeIn bs at'.toNat with
              | some s, _ => s.raise c true Exc.dataIntegrity at' at'.toNat
              | none, .ok i =>
                let ts := rereadTargets w i e.pending
                if ts.isEmpty then s.raise c true Exc.illegal at' 0
                else match s.checkTargets sp w.id.codeBase (ts.map (·.2)) with
                | (.ok, s) =>
                  let t := (ts.map (·.2)).foldl min (2 ^ 64 - 1)
                  let m := maskOf fun l => ts.contains (l, t)
                  let p : Path := ⟨BitVec.ofNat 64 t, m, true, false, 0, .ready, none, e.iters⟩
                  let s := s.updWave a.core a.slot fun w => w.updHalf a.half fun h =>
                    match h.stack with
                    | e :: es =>
                      { h with reread := [], stack := { e with paths := startPath (!es.isEmpty) p e.paths, pending := e.pending &&& ~~~m } :: es }
                    | [] => h
                  State.merge fuel s a
                | (.fault code t, s) => s.raise c true code at' t
                | (.miss ms, s) =>
                  let (qs, _, s) := s.openRecords sp .fetch ms
                  s.updWave a.core a.slot fun w => w.updHalf a.half fun h => { h with reread := qs }
              | none, .error _ => s.raise c true Exc.illegal at' 0
            | (.miss _ lvl, s) =>
              let (qs, _, s) := s.openRecords sp .fetch [(at'.toNat, lvl)]
              s.updWave a.core a.slot fun w => w.updHalf a.half fun h => { h with reread := qs }
            | (.fault _ code, s) => s.raise c true code at' at'.toNat
        | none => s
      | _ => s

/-! ### One instruction -/

/-- Bytes of an instruction. -/
def byteLen (i : Instr) : Nat := 4 * (encode i).length

/-- The address after an instruction. -/
def nextPc (c : Ctx) (i : Instr) : Dword := c.path.pc + BitVec.ofNat 64 (byteLen i)

/-- The end of a completed instruction: its chain's standing, its split's PC through the back edges, its region, which one that
stands at end(n) opens behind the back edge.
DESIGN CHOICE, unsafe: notes/assumptions/100.md. -/
def finish (i : Instr) (e : Option Ext) (c : Ctx) (s : State) (falls closes : Bool) : State :=
  let ch := (e.map (·.ch)).getD false
  let s := s.updWave c.who.core c.who.slot fun w =>
    { w with chain := if ch then w.chain else none, lastIssue := s.now }
  let s := s.updCore c.who.core fun k => { k with lastIssue := s.now }
  let s := if closes && clearsIdem i then s.clearIdem c else s
  if !falls then s.merge 70 c.who
  else
    match s.wave? c.who.core c.who.slot with
    | none => s
    | some w =>
      match w.backEdge 4 c.who.half c.who.path c.path.pc (nextPc c i) with
      | none =>
        -- the instruction has completed and its effect stands; the back edge is not taken (R76)
        let s := if closes then s.closeRegion c (nextPc c i) else s
        let s := s.updPath c fun p => { p with prog := none }
        s.raise { c with w := { s.mine c with chain := c.w.chain } } false Exc.loopNest c.path.pc 0
      | some (w, pc) =>
        let w := w.updPath c.who.half c.who.path fun p => { p with pc := pc, wait := .ready, prog := none }
        let s := s.setWave c.who.core c.who.slot w
        let s := if closes then s.closeRegion c pc else s
        s.merge 70 c.who

/-- What follows a body's answer. -/
def conclude (i : Instr) (e : Option Ext) (c : Ctx) (old : Regs) (sched : Bool) : Res → State
  | .next s => finish i e c (if sched then s.track c i e old else s) true false
  | .nextR s => finish i e c (if sched then s.track c i e old else s) true true
  | .jump s => finish i e c (if sched then s.track c i e old else s) false false
  | .wait s => s
  | .raise s code addr => s.raise c false code c.path.pc addr

/-- The issuing wave's outstanding writes after the interlock. -/
def settled (s : State) (c : Ctx) (i : Instr) (e : Option Ext) : List Pend :=
  if s.scheduled c then settlePend c i e c.w.pend else []

/-- The wave as a split in the middle of an instruction sees its holding: a block that another split has given back, and that
drains until this instruction has written it, counts as held (R57, R58). -/
def Ctx.midHold (c : Ctx) (s : State) (w : Wave) : Wave :=
  if c.midway s then
    { w with hold := (s.core c.who.core).draining.foldl (fun h d =>
        if d.slot = c.who.slot ∧ d.blk ≠ 0 then h ||| BitVec.ofNat 4 (2 ^ (d.blk - 1)) else h) w.hold }
  else w

/-- One instruction of a ready split, in full: what stops it before its body, the registers as it reads them, its
body, and what follows. -/
def issue (i : Instr) (e : Option Ext) (body : Ctx → State → Res) (c : Ctx) (s : State) : State :=
  match formCheck c i e with
  | some code => s.raise c false code c.path.pc 0
  | none =>
    let ps := settled s c i e
    let w := { c.w with pend := ps }
    let s := s.put c w
    let (rd, s) := if e.isSome then readView c.path.mask s w ps else (w, s)
    conclude i e { c with w := rd } w.regs (s.scheduled c) (body { c with w := c.midHold s rd } s)

/-- A wave instruction executed by the split `State.cur`. -/
def runWave (i : Instr) (e : Option Ext) (body : Ctx → State → Res) (s : State) : Host.Outcome State Fault Refusal :=
  match s.ctx? s.cur with
  | none => .fault .noIssuingSplit
  | some c => if c.ready s then .next (issue i e body c s) else .fault .noIssuingSplit

end Sys2Proof.Machine
end

