-- ==== Sys2Proof/Machine/Int.lean ====
section
/-!
DEFINITION. The integer mould (R314 to R317, R356, R385, R393, R394, R401, R418, R425), its unary members (R341, R390,
R391, R404), and the extended integer instructions (R327, R328, R342, R343, R380, R384, R419).
-/

namespace Sys2Proof.Machine

/-- The operations of the integer mould. -/
inductive IntOp where
  | add | sub | mul | mulh | div | rem | min | max | and | or | xor | andn | shl | shr | sar
  deriving DecidableEq, Repr

/-- F of an operation on elements of width w, read as signed or unsigned. -/
def IntOp.run (op : IntOp) (signed : Bool) (w a b : Nat) : Nat :=
  let val (x : Nat) : Int := if signed then asInt w x else x
  match op with
  | .add => (a + b) % 2 ^ w
  | .sub => (a + 2 ^ w - b % 2 ^ w) % 2 ^ w
  | .mul => (a * b) % 2 ^ w
  | .mulh => ofInt w (val a * val b / (2 ^ w : Nat))
  | .div => if b = 0 then 0 else ofInt w (Int.tdiv (val a) (val b))
  | .rem => if b = 0 then a else ofInt w (Int.tmod (val a) (val b))
  | .min => if val b < val a then b else a
  | .max => if val a < val b then b else a
  | .and => a &&& b
  | .or => a ||| b
  | .xor => a ^^^ b
  | .andn => a &&& (2 ^ w - 1 - b % 2 ^ w)
  | .shl => if b < w then a * 2 ^ b % 2 ^ w else 0
  | .shr => if b < w then a / 2 ^ b else 0
  | .sar => if b < w then ofInt w (asInt w a / (2 ^ b : Nat)) else if asInt w a < 0 then 2 ^ w - 1 else 0

/-- The bitwise operations read any tag and give tag 0 (R317). -/
def IntOp.bitwise : IntOp → Bool
  | .and | .or | .xor | .andn => true
  | _ => false
/-- The type an operation acts in: s32 and s64 stand for b32 and b64 in a bitwise one (R317). -/
def IntOp.type (op : IntOp) (ty : Nat) : Nat := if op.bitwise then (if tyBits ty = 64 then 8 else 7) else ty

/-- A function of elements applied to every element of two values (R116). -/
def perElem (ty : Nat) (f : Nat → Nat → Nat) (a b : Nat) : Nat :=
  pack (elBits ty) ((List.range (elCount ty)).map fun i => f (elem (elBits ty) i a) (elem (elBits ty) i b))

/-- The result of the integer mould in a lane. -/
def intVal (op : IntOp) (o : Op3) (c : Ctx) (l : Nat) : Nat :=
  let ty := op.type o.ty
  perElem ty (op.run (tySigned ty) (elBits ty)) (opVal c o.lit ty o.a l) (opVal c o.lit ty o.b l)

/-- The checks of the integer mould on its operands. -/
def intOps (op : IntOp) (o : Op3) (c : Ctx) : List OpOk :=
  let ty := op.type o.ty
  [srcOk c o.lit ty o.a, srcOk c o.lit ty o.b, dstOk c o.u (tyRegs ty) o.d]

/-- The integer mould (R314, R315). -/
def intMould (op : IntOp) (o : Op3) (c : Ctx) (s : State) : Res :=
  let ty := op.type o.ty
  withOps s (intOps op o c) (.next (s.put c (deliver c (s.mine c) o ty (tagOf ty) (c.lanes o) (intVal op o c))))

/-! ### Unary members -/

/-- Leading zeros of a value of width w. -/
def clzBits (w x : Nat) : Nat := if x = 0 then w else w - 1 - x.log2
/-- Trailing zeros of a value of width w. -/
def ctzBits (w x : Nat) : Nat := ((List.range w).find? fun k => x / 2 ^ k % 2 == 1).getD w
/-- Set bits of a value of width w. -/
def popBits (w x : Nat) : Nat := (List.range w).countP fun k => x / 2 ^ k % 2 == 1

/-- CLZ, CTZ and POPC (R341, R404): a 32-bit count with tag 1. -/
def countMould (f : Nat → Nat → Nat) (o : Op3) (c : Ctx) (s : State) : Res :=
  withOps s [srcOk c o.lit o.ty o.a, dstOk c o.u 1 o.d] <|
    .next (s.put c (deliver c (s.mine c) o 1 1 (c.lanes o) fun l => f (tyBits o.ty) (opVal c o.lit o.ty o.a l)))

/-- The type MOV moves in: only its width counts; 16 is e2m1x8. -/
def movTy (o : Op3) : Nat := if o.mod / 2 ^ 9 % 2 = 1 then 16 else o.ty
/-- The tag MOV writes to register k of its destination (R390). -/
def movTag (o : Op3) (c : Ctx) (k : Nat) : BitVec 4 :=
  if o.mod % 2 = 1 then tagOf (movTy o)
  else if o.a < 320 then (c.w.v (o.a + k)).tag
  else if 384 ≤ o.a ∧ o.a < 388 then (c.latch (o.a - 384)).tag
  else if 416 ≤ o.a ∧ o.a < 432 then 1
  else tagOf o.ty

/-- MOV (R390). -/
def movMould (o : Op3) (c : Ctx) (s : State) : Res :=
  withOps s [bitsOk c o.lit (movTy o) o.a, dstOk c o.u (tyRegs o.ty) o.d] <|
    let m := c.lanes o
    let w := deliver c (s.mine c) o (movTy o) (movTag o c 0) m fun l => opVal c o.lit (movTy o) o.a l
    -- a pair copies each register's own tag
    let w := if o.d < 320 && tyBits o.ty == 64 && m != 0 && !o.nw
      then w.setV (o.d + 1) ⟨(w.v (o.d + 1)).data, movTag o c 1⟩ else w
    .next (s.put c w)

/-- MOVI (R391): `ty` gives width and tag. -/
def moviMould (o : Op3) (code ty : Nat) (c : Ctx) (s : State) : Res :=
  withOps s [{ bitsOk c o.lit ty code with valid := (bitsOk c o.lit ty code).valid && ((388 ≤ code && code < 416) || code == 511) },
      dstOk c o.u (tyRegs ty) o.d] <|
    .next (s.put c (deliver c (s.mine c) o ty (tagOf ty) (c.lanes o) fun l => opVal c o.lit ty code l))

/-! ### Extended only -/

/-- MAD (R384). -/
def madBody (o : Op3) (c : Ctx) (s : State) : Res :=
  let wide := o.mod % 2 == 1
  let tr := if wide then 2 else o.ty
  let w := tyBits tr
  let val (x : Nat) : Int := if tySigned o.ty then asInt (tyBits o.ty) x else x
  withOps s [srcOk c o.lit o.ty o.a, srcOk c o.lit o.ty o.b, srcOk c o.lit tr o.c, dstOk c o.u (tyRegs tr) o.d] <|
    .next (s.put c (deliver c (s.mine c) o tr (tagOf tr) (c.lanes o) fun l =>
      ofInt w (val (opVal c o.lit o.ty o.a l) * val (opVal c o.lit o.ty o.b l) + (opVal c o.lit tr o.c l : Nat))))

/-- The field a control value names in a value of width w: position and length (R328). -/
def fieldOf (w k : Nat) : Nat × Nat := let p := min (k % 256) w; (p, min (k / 256 % 256) (w - p))

/-- BFX (R328). -/
def bfxVal (signed : Bool) (w a k : Nat) : Nat :=
  let (p, n) := fieldOf w k
  if n = 0 then 0 else if signed then ofInt w (asInt n (a / 2 ^ p)) else a / 2 ^ p % 2 ^ n
/-- BFI (R328). -/
def bfiVal (w a k base : Nat) : Nat :=
  let (p, n) := fieldOf w k
  base - base / 2 ^ p % 2 ^ n * 2 ^ p + a % 2 ^ n * 2 ^ p

/-- BFX. -/
def bfxBody (o : Op3) (c : Ctx) (s : State) : Res :=
  withOps s [srcOk c o.lit o.ty o.a, bitsOk c o.lit 7 o.b, dstOk c o.u (tyRegs o.ty) o.d] <|
    .next (s.put c (deliver c (s.mine c) o o.ty (tagOf o.ty) (c.lanes o) fun l =>
      bfxVal (tySigned o.ty) (tyBits o.ty) (opVal c o.lit o.ty o.a l) (opVal c o.lit 7 o.b l)))
/-- BFI. -/
def bfiBody (o : Op3) (c : Ctx) (s : State) : Res :=
  withOps s [srcOk c o.lit o.ty o.a, bitsOk c o.lit 7 o.b, srcOk c o.lit o.ty o.c, dstOk c o.u (tyRegs o.ty) o.d] <|
    .next (s.put c (deliver c (s.mine c) o o.ty (tagOf o.ty) (c.lanes o) fun l =>
      bfiVal (tyBits o.ty) (opVal c o.lit o.ty o.a l) (opVal c o.lit 7 o.b l) (opVal c o.lit o.ty o.c l)))

/-- A comparison of CMP (R343). -/
def cmpVal (ty cc a b : Nat) : Bool :=
  if ty = 4 then
    let x := Fmt.f32.value a
    let y := Fmt.f32.value b
    if cc = 6 then x == .nan || y == .nan else cmpCond cc (FV.lt false x y) (FV.lt false y x) (FV.eqv x y)
  else
    let val (v : Nat) : Int := if tySigned ty then asInt (tyBits ty) v else v
    cmpCond cc (val a < val b) (val b < val a) (a == b)

/-- CMP (R342, R343). -/
def cmpBody (o : Op3) (c : Ctx) (s : State) : Res :=
  withOps s [srcOk c o.lit o.ty o.a, srcOk c o.lit o.ty o.b, predDstOk c o.d] <|
    let at' (l : Nat) : Bool := cmpVal o.ty (o.mod % 16) (opVal c o.lit o.ty o.a l) (opVal c o.lit o.ty o.b l)
    let m := c.lanes o
    -- with U = 1 the one comparison is written in every Active lane
    let (r, m) : (Nat → Bool) × Mask := match o.u, lowest m with
      | true, some l0 => let v := at' l0; (fun _ => v, c.active o.pg o.pn)
      | _, _ => (at', m)
    let old := c.w.p c.who.half (o.d - 416)
    let f (l : Nat) : Nat := b2n (match o.mod / 16 % 4 with
      | 1 => old.getLsbD l && r l
      | 2 => old.getLsbD l || r l
      | _ => r l)
    .next (s.put c (deliver c (s.mine c) o 7 0 m f))

/-- The tags of the registers and latches a data source names. -/
def srcTags (c : Ctx) (ty code : Nat) : List (BitVec 4) :=
  if code < 320 then (List.range (tyRegs ty)).map fun k => (c.w.v (code + k)).tag
  else if 384 ≤ code ∧ code < 388 then [(c.latch (code - 384)).tag]
  else []

/-- SEL (R419). -/
def selBody (o : Op3) (c : Ctx) (s : State) : Res :=
  let tags := srcTags c o.ty o.a ++ srcTags c o.ty o.b
  let same := match tags with | [] => true | t :: ts => ts.all (· == t)
  withOps s [bitsOk c o.lit o.ty o.a, { bitsOk c o.lit o.ty o.b with tagged := same }, predOk o.c,
      dstOk c o.u (tyRegs o.ty) o.d] <|
    let p := c.w.p c.who.half (o.c - 416)
    .next (s.put c (deliver c (s.mine c) o o.ty (tags.headD (tagOf o.ty)) (c.lanes o) fun l =>
      opVal c o.lit o.ty (if p.getLsbD l != (o.mod % 2 == 1) then o.a else o.b) l))

/-- LEA (R380). -/
def leaBody (o : Op3) (c : Ctx) (s : State) : Res :=
  let base := srcOk c o.lit 2 o.a
  withOps s [{ base with valid := base.valid && (o.a < 384 || o.a == 511) }, srcOk c o.lit o.ty o.b,
      { dstOk c o.u 2 o.d with valid := (dstOk c o.u 2 o.d).valid && decide (o.d < 384) }] <|
    .next (s.put c (deliver c (s.mine c) o 2 11 (c.lanes o) fun l =>
      let x := opVal c o.lit o.ty o.b l
      let x : Int := if o.ty = 0 then asInt 32 x else x
      ofInt 64 ((opVal c o.lit 2 o.a l : Nat) + x * (2 ^ (o.mod % 8) : Nat))))

/-! ### The instructions -/

/-- ADD REG (R316). -/
def execAddReg (f : B3) (s : State) : Host.Outcome State Fault Refusal :=
  runWave (.addReg f) none (intMould .add (B3.op3 f)) s

/-- ADD IMM (R316). -/
def execAddImm (f : B3I) (s : State) : Host.Outcome State Fault Refusal :=
  runWave (.addImm f) none (intMould .add (B3I.op3 false f)) s

/-- ADD LIT (R316). -/
def execAddLit (f : B3L) (s : State) : Host.Outcome State Fault Refusal :=
  runWave (.addLit f) none (intMould .add (B3L.op3 false f)) s

/-- ADD EXT (R316). -/
def execAddExt (e : Ext) (s : State) : Host.Outcome State Fault Refusal :=
  runWave (.addExt e) (some e) (intMould .add (Ext.op3 e)) s

/-- SUB REG (R425). -/
def execSubReg (f : B3) (s : State) : Host.Outcome State Fault Refusal :=
  runWave (.subReg f) none (intMould .sub (B3.op3 f)) s

/-- SUB IMM (R425). -/
def execSubImm (f : B3I) (s : State) : Host.Outcome State Fault Refusal :=
  runWave (.subImm f) none (intMould .sub (B3I.op3 false f)) s

/-- SUB LIT (R425). -/
def execSubLit (f : B3L) (s : State) : Host.Outcome State Fault Refusal :=
  runWave (.subLit f) none (intMould .sub (B3L.op3 false f)) s

/-- SUB EXT (R425). -/
def execSubExt (e : Ext) (s : State) : Host.Outcome State Fault Refusal :=
  runWave (.subExt e) (some e) (intMould .sub (Ext.op3 e)) s

/-- MUL REG (R393). -/
def execMulReg (f : B3) (s : State) : Host.Outcome State Fault Refusal :=
  runWave (.mulReg f) none (intMould .mul (B3.op3 f)) s

/-- MUL IMM (R393). -/
def execMulImm (f : B3I) (s : State) : Host.Outcome State Fault Refusal :=
  runWave (.mulImm f) none (intMould .mul (B3I.op3 false f)) s

/-- MUL LIT (R393). -/
def execMulLit (f : B3L) (s : State) : Host.Outcome State Fault Refusal :=
  runWave (.mulLit f) none (intMould .mul (B3L.op3 false f)) s

/-- MUL EXT (R393). -/
def execMulExt (e : Ext) (s : State) : Host.Outcome State Fault Refusal :=
  runWave (.mulExt e) (some e) (intMould .mul (Ext.op3 e)) s

/-- MULH REG (R394). -/
def execMulhReg (f : B3) (s : State) : Host.Outcome State Fault Refusal :=
  runWave (.mulhReg f) none (intMould .mulh (B3.op3 f)) s

/-- MULH IMM (R394). -/
def execMulhImm (f : B3I) (s : State) : Host.Outcome State Fault Refusal :=
  runWave (.mulhImm f) none (intMould .mulh (B3I.op3 false f)) s

/-- MULH LIT (R394). -/
def execMulhLit (f : B3L) (s : State) : Host.Outcome State Fault Refusal :=
  runWave (.mulhLit f) none (intMould .mulh (B3L.op3 false f)) s

/-- MULH EXT (R394). -/
def execMulhExt (e : Ext) (s : State) : Host.Outcome State Fault Refusal :=
  runWave (.mulhExt e) (some e) (intMould .mulh (Ext.op3 e)) s

/-- DIV REG (R356). -/
def execDivReg (f : B3) (s : State) : Host.Outcome State Fault Refusal :=
  runWave (.divReg f) none (intMould .div (B3.op3 f)) s

/-- DIV IMM (R356). -/
def execDivImm (f : B3I) (s : State) : Host.Outcome State Fault Refusal :=
  runWave (.divImm f) none (intMould .div (B3I.op3 false f)) s

/-- DIV LIT (R356). -/
def execDivLit (f : B3L) (s : State) : Host.Outcome State Fault Refusal :=
  runWave (.divLit f) none (intMould .div (B3L.op3 false f)) s

/-- DIV EXT (R356). -/
def execDivExt (e : Ext) (s : State) : Host.Outcome State Fault Refusal :=
  runWave (.divExt e) (some e) (intMould (if e.m 0 1 = 1 then .rem else .div) (Ext.op3 e)) s

/-- MIN REG (R385). -/
def execMinReg (f : B3) (s : State) : Host.Outcome State Fault Refusal :=
  runWave (.minReg f) none (intMould .min (B3.op3 f)) s

/-- MIN IMM (R385). -/
def execMinImm (f : B3I) (s : State) : Host.Outcome State Fault Refusal :=
  runWave (.minImm f) none (intMould .min (B3I.op3 false f)) s

/-- MIN LIT (R385). -/
def execMinLit (f : B3L) (s : State) : Host.Outcome State Fault Refusal :=
  runWave (.minLit f) none (intMould .min (B3L.op3 false f)) s

/-- MIN EXT (R385). -/
def execMinExt (e : Ext) (s : State) : Host.Outcome State Fault Refusal :=
  runWave (.minExt e) (some e) (intMould .min (Ext.op3 e)) s

/-- MAX REG (R385). -/
def execMaxReg (f : B3) (s : State) : Host.Outcome State Fault Refusal :=
  runWave (.maxReg f) none (intMould .max (B3.op3 f)) s

/-- MAX IMM (R385). -/
def execMaxImm (f : B3I) (s : State) : Host.Outcome State Fault Refusal :=
  runWave (.maxImm f) none (intMould .max (B3I.op3 false f)) s

/-- MAX LIT (R385). -/
def execMaxLit (f : B3L) (s : State) : Host.Outcome State Fault Refusal :=
  runWave (.maxLit f) none (intMould .max (B3L.op3 false f)) s

/-- MAX EXT (R385). -/
def execMaxExt (e : Ext) (s : State) : Host.Outcome State Fault Refusal :=
  runWave (.maxExt e) (some e) (intMould .max (Ext.op3 e)) s

/-- AND REG (R317). -/
def execAndReg (f : B3) (s : State) : Host.Outcome State Fault Refusal :=
  runWave (.andReg f) none (intMould .and (B3.op3 f)) s

/-- AND IMM (R317). -/
def execAndImm (f : B3I) (s : State) : Host.Outcome State Fault Refusal :=
  runWave (.andImm f) none (intMould .and (B3I.op3 false f)) s

/-- AND LIT (R317). -/
def execAndLit (f : B3L) (s : State) : Host.Outcome State Fault Refusal :=
  runWave (.andLit f) none (intMould .and (B3L.op3 false f)) s

/-- AND EXT (R317). -/
def execAndExt (e : Ext) (s : State) : Host.Outcome State Fault Refusal :=
  runWave (.andExt e) (some e) (intMould .and (Ext.op3 e)) s

/-- OR REG (R401). -/
def execOrReg (f : B3) (s : State) : Host.Outcome State Fault Refusal :=
  runWave (.orReg f) none (intMould .or (B3.op3 f)) s

/-- OR IMM (R401). -/
def execOrImm (f : B3I) (s : State) : Host.Outcome State Fault Refusal :=
  runWave (.orImm f) none (intMould .or (B3I.op3 false f)) s

/-- OR LIT (R401). -/
def execOrLit (f : B3L) (s : State) : Host.Outcome State Fault Refusal :=
  runWave (.orLit f) none (intMould .or (B3L.op3 false f)) s

/-- OR EXT (R401). -/
def execOrExt (e : Ext) (s : State) : Host.Outcome State Fault Refusal :=
  runWave (.orExt e) (some e) (intMould .or (Ext.op3 e)) s

/-- XOR REG (R401). -/
def execXorReg (f : B3) (s : State) : Host.Outcome State Fault Refusal :=
  runWave (.xorReg f) none (intMould .xor (B3.op3 f)) s

/-- XOR IMM (R401). -/
def execXorImm (f : B3I) (s : State) : Host.Outcome State Fault Refusal :=
  runWave (.xorImm f) none (intMould .xor (B3I.op3 false f)) s

/-- XOR LIT (R401). -/
def execXorLit (f : B3L) (s : State) : Host.Outcome State Fault Refusal :=
  runWave (.xorLit f) none (intMould .xor (B3L.op3 false f)) s

/-- XOR EXT (R401). -/
def execXorExt (e : Ext) (s : State) : Host.Outcome State Fault Refusal :=
  runWave (.xorExt e) (some e) (intMould .xor (Ext.op3 e)) s

/-- ANDN REG (R317). -/
def execAndnReg (f : B3) (s : State) : Host.Outcome State Fault Refusal :=
  runWave (.andnReg f) none (intMould .andn (B3.op3 f)) s

/-- ANDN IMM (R317). -/
def execAndnImm (f : B3I) (s : State) : Host.Outcome State Fault Refusal :=
  runWave (.andnImm f) none (intMould .andn (B3I.op3 false f)) s

/-- ANDN LIT (R317). -/
def execAndnLit (f : B3L) (s : State) : Host.Outcome State Fault Refusal :=
  runWave (.andnLit f) none (intMould .andn (B3L.op3 false f)) s

/-- ANDN EXT (R317). -/
def execAndnExt (e : Ext) (s : State) : Host.Outcome State Fault Refusal :=
  runWave (.andnExt e) (some e) (intMould .andn (Ext.op3 e)) s

/-- SHL REG (R418). -/
def execShlReg (f : B3) (s : State) : Host.Outcome State Fault Refusal :=
  runWave (.shlReg f) none (intMould .shl (B3.op3 f)) s

/-- SHL IMM (R418). -/
def execShlImm (f : B3I) (s : State) : Host.Outcome State Fault Refusal :=
  runWave (.shlImm f) none (intMould .shl (B3I.op3 false f)) s

/-- SHL LIT (R418). -/
def execShlLit (f : B3L) (s : State) : Host.Outcome State Fault Refusal :=
  runWave (.shlLit f) none (intMould .shl (B3L.op3 false f)) s

/-- SHL EXT (R418). -/
def execShlExt (e : Ext) (s : State) : Host.Outcome State Fault Refusal :=
  runWave (.shlExt e) (some e) (intMould .shl (Ext.op3 e)) s

/-- SHR REG (R418). -/
def execShrReg (f : B3) (s : State) : Host.Outcome State Fault Refusal :=
  runWave (.shrReg f) none (intMould .shr (B3.op3 f)) s

/-- SHR IMM (R418). -/
def execShrImm (f : B3I) (s : State) : Host.Outcome State Fault Refusal :=
  runWave (.shrImm f) none (intMould .shr (B3I.op3 false f)) s

/-- SHR LIT (R418). -/
def execShrLit (f : B3L) (s : State) : Host.Outcome State Fault Refusal :=
  runWave (.shrLit f) none (intMould .shr (B3L.op3 false f)) s

/-- SHR EXT (R418). -/
def execShrExt (e : Ext) (s : State) : Host.Outcome State Fault Refusal :=
  runWave (.shrExt e) (some e) (intMould .shr (Ext.op3 e)) s

/-- SAR REG (R418). -/
def execSarReg (f : B3) (s : State) : Host.Outcome State Fault Refusal :=
  runWave (.sarReg f) none (intMould .sar (B3.op3 f)) s

/-- SAR IMM (R418). -/
def execSarImm (f : B3I) (s : State) : Host.Outcome State Fault Refusal :=
  runWave (.sarImm f) none (intMould .sar (B3I.op3 false f)) s

/-- SAR LIT (R418). -/
def execSarLit (f : B3L) (s : State) : Host.Outcome State Fault Refusal :=
  runWave (.sarLit f) none (intMould .sar (B3L.op3 false f)) s

/-- SAR EXT (R418). -/
def execSarExt (e : Ext) (s : State) : Host.Outcome State Fault Refusal :=
  runWave (.sarExt e) (some e) (intMould .sar (Ext.op3 e)) s

/-- POPC REG (R404). -/
def execPopcReg (f : B3) (s : State) : Host.Outcome State Fault Refusal :=
  runWave (.popcReg f) none (countMould popBits (B3.op3 f)) s

/-- POPC EXT (R404). -/
def execPopcExt (e : Ext) (s : State) : Host.Outcome State Fault Refusal :=
  runWave (.popcExt e) (some e) (countMould popBits (Ext.op3 e)) s

/-- CLZ REG (R341). -/
def execClzReg (f : B3) (s : State) : Host.Outcome State Fault Refusal :=
  runWave (.clzReg f) none (countMould clzBits (B3.op3 f)) s

/-- CLZ EXT (R341). -/
def execClzExt (e : Ext) (s : State) : Host.Outcome State Fault Refusal :=
  runWave (.clzExt e) (some e) (countMould clzBits (Ext.op3 e)) s

/-- CTZ REG (R341). -/
def execCtzReg (f : B3) (s : State) : Host.Outcome State Fault Refusal :=
  runWave (.ctzReg f) none (countMould ctzBits (B3.op3 f)) s

/-- CTZ EXT (R341). -/
def execCtzExt (e : Ext) (s : State) : Host.Outcome State Fault Refusal :=
  runWave (.ctzExt e) (some e) (countMould ctzBits (Ext.op3 e)) s

/-- MOV REG (R390). -/
def execMovReg (f : B3) (s : State) : Host.Outcome State Fault Refusal :=
  runWave (.movReg f) none (movMould (B3.op3 f)) s

/-- MOV EXT (R390). -/
def execMovExt (e : Ext) (s : State) : Host.Outcome State Fault Refusal :=
  runWave (.movExt e) (some e) (movMould (Ext.op3 e)) s

/-- MOVI IMM (R391). -/
def execMoviImm (f : B3I) (s : State) : Host.Outcome State Fault Refusal :=
  runWave (.moviImm f) none (moviMould (B3I.op3 false f) 511 (immTy false f.u)) s

/-- MOVI LIT (R391). -/
def execMoviLit (f : B3L) (s : State) : Host.Outcome State Fault Refusal :=
  runWave (.moviLit f) none (moviMould (B3L.op3 false f) 511 (immTy false f.u)) s

/-- MOVI EXT (R391). -/
def execMoviExt (e : Ext) (s : State) : Host.Outcome State Fault Refusal :=
  runWave (.moviExt e) (some e) (moviMould (Ext.op3 e) e.a9.toNat e.ty.toNat) s

/-- MAD (R384). -/
def execMad (e : Ext) (s : State) : Host.Outcome State Fault Refusal :=
  runWave (.mad e) (some e) (madBody (Ext.op3 e)) s

/-- BFX (R327). -/
def execBfx (e : Ext) (s : State) : Host.Outcome State Fault Refusal :=
  runWave (.bfx e) (some e) (bfxBody (Ext.op3 e)) s

/-- BFI (R327). -/
def execBfi (e : Ext) (s : State) : Host.Outcome State Fault Refusal :=
  runWave (.bfi e) (some e) (bfiBody (Ext.op3 e)) s

/-- CMP (R342). -/
def execCmp (e : Ext) (s : State) : Host.Outcome State Fault Refusal :=
  runWave (.cmp e) (some e) (cmpBody (Ext.op3 e)) s

/-- SEL (R419). -/
def execSel (e : Ext) (s : State) : Host.Outcome State Fault Refusal :=
  runWave (.sel e) (some e) (selBody (Ext.op3 e)) s

/-- LEA (R380). -/
def execLea (e : Ext) (s : State) : Host.Outcome State Fault Refusal :=
  runWave (.lea e) (some e) (leaBody (Ext.op3 e)) s

end Sys2Proof.Machine
end

