-- ==== Sys2Proof/Machine/Float.lean ====
section
/-!
DEFINITION. The float mould (R362 to R370), conversions (R353, R354), block quantisation (R329, R330, R135, R136) and
packed dot products (R431).
-/

namespace Sys2Proof.Machine

/-- The operations of the float mould with two or three sources. -/
inductive FltOp where
  | add | sub | mul | fma | min | max
  deriving DecidableEq, Repr

/-- F of an operation, exact (R126). -/
def FltOp.run (op : FltOp) (mode : Rnd) (a b c : FV) : FV :=
  match op with
  | .add => FV.add mode a b
  | .sub => FV.add mode a b.neg
  | .mul => FV.mul a b
  | .fma => FV.add mode (FV.mul a b) c
  | .min => FV.minmax false a b
  | .max => FV.minmax true a b

/-- The element format of a float type. -/
def fmtOf (ty : Nat) : Fmt := (tyFmt ty).getD .f32

/-- The random bits of element i and their number (R122): k bits each of operand C. -/
def rsBits (count i x : Nat) : Nat × Nat := (elem (32 / count) i x, 32 / count)

/-- The result of the float mould in a lane (R363). -/
def fltVal (op : FltOp) (o : Op3) (c : Ctx) (l : Nat) : Nat :=
  let F := fmtOf o.ty
  let mode := Rnd.ofCode (o.mod % 8)
  let w := elBits o.ty
  let val (code i : Nat) : FV := F.value (elem w i (opVal c o.lit o.ty code l))
  pack w ((List.range (elCount o.ty)).map fun i =>
    let (rb, k) := rsBits (elCount o.ty) i (if mode = .rs then opVal c o.lit 7 o.c l else 0)
    F.round mode false rb k (op.run mode (val o.a i) (val o.b i) (if op = .fma then val o.c i else .nan)))

/-- The checks of the float mould on its operands. -/
def fltOps (op : FltOp) (o : Op3) (c : Ctx) : List OpOk :=
  [srcOk c o.lit o.ty o.a, srcOk c o.lit o.ty o.b] ++
    (if op = .fma then [srcOk c o.lit o.ty o.c] else if o.mod % 8 = 4 then [bitsOk c o.lit 7 o.c] else []) ++
    [dstOk c o.u 1 o.d]

/-- The float mould (R362, R363). -/
def fltMould (op : FltOp) (o : Op3) (c : Ctx) (s : State) : Res :=
  withOps s (fltOps op o c) (.next (s.put c (deliver c (s.mine c) o o.ty (tagOf o.ty) (c.lanes o) (fltVal op o c))))

/-- The result of a unary float function in a lane (R366): the exact value rounded once. -/
def fltFunVal (f : FV → Approx) (o : Op3) (c : Ctx) (l : Nat) : Nat :=
  let F := fmtOf o.ty
  let w := elBits o.ty
  pack w ((List.range (elCount o.ty)).map fun i =>
    let r := f (F.value (elem w i (opVal c o.lit o.ty o.a l)))
    F.round (Rnd.ofCode (o.mod % 8)) false 0 32 r.v r.sticky)

/-- The unary members of the float mould. -/
def fltFun (f : FV → Approx) (o : Op3) (c : Ctx) (s : State) : Res :=
  withOps s [srcOk c o.lit o.ty o.a, dstOk c o.u 1 o.d] <|
    .next (s.put c (deliver c (s.mine c) o o.ty (tagOf o.ty) (c.lanes o) (fltFunVal f o c)))

/-! ### CVT (R353, R354) -/

/-- The value of an element of a type, integer or float. -/
def elemVal (ty x : Nat) : FV :=
  match tyFmt ty with
  | some F => F.value x
  | none => FV.ofInt (if tySigned ty then asInt (elBits ty) x else (x : Int))

/-- The range of an integer type's elements. -/
def intRange (ty : Nat) : Int × Int :=
  let w := elBits ty
  if tySigned ty then (-(2 ^ (w - 1) : Nat), (2 ^ (w - 1) : Nat) - 1) else (0, (2 ^ w : Nat) - 1)

/-- Convert (R354): one rounding, saturating unless NOSAT. -/
def convert (x : FV) (ty : Nat) (mode : Rnd) (nosat : Bool) (rb k : Nat) : Nat :=
  match tyFmt ty with
  | some F => F.round mode (!nosat) rb k x
  | none => let (lo, hi) := intRange ty; ofInt (elBits ty) (x.toInt mode rb k lo hi)

/-- The scale of element i of lane l (R128): byte sel of register vS in the lane of the element's block. -/
def scaleByte (c : Ctx) (vS ty ssel l : Nat) : Nat :=
  let sel := ssel % 4
  let at' := if ty = 16 then l / 4 + 16 * (ssel / 4 % 4) else l / 8 + 8 * (ssel / 4)
  elem 8 sel (lane (c.w.v vS).data at')

/-- An element replaced in a packed number. -/
def setElem (w i x r : Nat) : Nat := r - elem w i r * 2 ^ (w * i) + x % 2 ^ w * 2 ^ (w * i)

/-- The result of CVT in a lane. -/
def cvtVal (e : Ext) (c : Ctx) (l : Nat) : Nat :=
  let dt := e.cvtD
  let st := e.cvtS
  let nd := elCount dt
  let ns := elCount st
  let part := e.sub.toNat / 32
  let mode := Rnd.ofCode (e.m 0 3)
  let src := opVal c e.lit st e.a9.toNat l
  let rbits := if mode = .rs then opVal c e.lit 7 e.c9.toNat l else 0
  let base := if nd > ns then opVal c e.lit dt e.d9.toNat l else 0
  let moved := if nd ≥ ns then (List.range ns).map fun i => (i, part * ns + i) else (List.range nd).map fun o => (part * nd + o, o)
  moved.foldl (fun r io =>
    let x := elemVal st (elem (elBits st) io.1 src)
    let x := if e.m 10 1 = 1 then x.scaled (scaleByte c e.b9.toNat st (e.m 4 5) l) else x
    let (rb, k) := rsBits (if tyBits dt = 64 then 1 else nd) io.2 rbits
    setElem (elBits dt) io.2 (convert x dt mode (e.m 3 1 == 1) rb k) r) base

/-- A scale register: a vector register with tag 12 (R127). -/
def scaleOk (c : Ctx) (n align code : Nat) : OpOk := vRun c.w code n align (· == tagScale)

/-- CVT. -/
def cvtBody (e : Ext) (c : Ctx) (s : State) : Res :=
  let o := Ext.op3 e
  let dt := e.cvtD
  withOps s ([srcOk c o.lit e.cvtS o.a, dstOk c o.u (tyRegs dt) o.d] ++
      (if e.m 10 1 = 1 then [scaleOk c 1 1 o.b] else []) ++ (if e.m 0 3 = 4 then [bitsOk c o.lit 7 o.c] else [])) <|
    .next (s.put c (deliver c (s.mine c) o dt (tagOf dt) (c.lanes o) (cvtVal e c)))

/-! ### BQNT (R329, R330) -/

/-- The exponent of the largest finite magnitude among values, or none when every one is zero. -/
def amaxLog (xs : List FV) : Option Int :=
  xs.foldl (fun a x => match x with
    | .num _ m e => if m = 0 then a else
        let p : Int := (m.log2 : Int) + e
        some (match a with | some q => max p q | none => p)
    | _ => a) none

/-- A block's scale (R135, R136). -/
def blockScale (F : Fmt) (xs : List FV) : Nat :=
  if xs.any fun x => match x with | .num .. => false | _ => true then 0xFF
  else match amaxLog xs with
    | none => 0
    | some p => (max 0 (min 254 (p - F.emax + 127))).toNat

/-- An element quantised under its block's scale (R135, R136). -/
def quantise (F : Fmt) (scale : Nat) (zero : Bool) (mode : Rnd) (nosat : Bool) (rb k : Nat) (x : FV) : Nat :=
  if scale = 0xFF || zero then (if F = .ps8 then 0x77 else 0)
  else F.round mode (!nosat) rb k (x.scale (127 - (scale : Int)))

/-- Every element of a list of values in blocks of 32: block scales, and the quantised elements. -/
def bqnt (F : Fmt) (mode : Rnd) (nosat : Bool) (rb : Nat → Nat × Nat) (x : Nat → FV) (blocks : Nat) : List Nat × List Nat :=
  let scales := (List.range blocks).map fun j => blockScale F ((List.range 32).map fun i => x (32 * j + i))
  let zeros := (List.range blocks).map fun j => (amaxLog ((List.range 32).map fun i => x (32 * j + i))).isNone
  (scales, (List.range (32 * blocks)).map fun n =>
    quantise F (scales.getD (n / 32) 0) (zeros.getD (n / 32) true) mode nosat (rb n).1 (rb n).2 (x n))

/-- BQNT. -/
def bqntBody (e : Ext) (c : Ctx) (s : State) : Res :=
  let ty := if e.m 9 1 = 1 then 16 else e.ty.toNat
  let nb := if ty = 16 then 16 else 8
  let per := if ty = 16 then 8 else 4          -- elements of a lane, registers of the source
  let F := fmtOf ty
  let mode := Rnd.ofCode (e.m 0 3)
  let a := e.a9.toNat
  let b := e.b9.toNat
  let d := e.d9.toNat
  withOps s ([vRun c.w a per per (· == 2), vRun c.w b 1 1 (fun t => t == 0 || t == tagScale),
      (vRun c.w d 1 1 fun _ => true).dst] ++
      (if mode = .rs then [bitsOk c e.lit 7 e.c9.toNat] else [])) <|
    let m := c.act false e.pg e.pn
    if m = 0 then .next s
    else
      let x (n : Nat) : FV := Fmt.f32.value (lane (c.w.v (a + n / 64)).data (n % 64))
      let rb (n : Nat) : Nat × Nat := rsBits per (n % per) (if mode = .rs then opVal c e.lit 7 e.c9.toNat (n / per) else 0)
      let (scales, qs) := bqnt F mode (e.m 3 1 == 1) rb x nb
      let ssel := e.m 4 5
      let w := s.mine c
      let w := w.setV d ⟨blend m (w.v d).data fun l => pack (elBits ty) ((qs.drop (per * l)).take per), tagOf ty⟩
      let first := if ty = 16 then 16 * (ssel / 4 % 4) else 8 * (ssel / 4)
      let old := (w.v b).data
      let w := w.setV b ⟨ofLanes fun l =>
        if first ≤ l ∧ l < first + nb then setElem 8 (ssel % 4) (scales.getD (l - first) 0) (lane old l) else lane old l, tagScale⟩
      .next (s.put c w)

/-! ### Sums of products (R131 to R133), shared by VDOT and the matrix engine -/

/-- An element of zero skipping: either zero, or a PS8 encoding both of whose terms are zero (R133). -/
def zeroElem (ty x : Nat) : Bool :=
  if ty = 15 then x % 8 == 7 && x / 16 % 8 == 7
  else match elemVal ty x with | .num _ m _ => m == 0 | _ => false

/-- The exact sum of the products of paired elements (R131, R133). -/
def dotSum (ta tb : Nat) (zs : Bool) (xs : List (Nat × Nat)) : FV :=
  let ps := xs.map fun x => if zs && zeroElem ta x.1 then FV.num false 0 0 else FV.mul (elemVal ta x.1) (elemVal tb x.2)
  match ps with
  | [] => .num false 0 0
  | p :: ps => ps.foldl (FV.add .rne) p

/-- The exact integer sum of products (R132). -/
def dotInt (xs : List (Nat × Nat)) : Int := xs.foldl (fun t x => t + asInt 8 x.1 * asInt 8 x.2) 0

/-- The B format of a product: A's, or the other FP8 format with ALT. -/
def altFmt (f alt : Nat) : Nat := if alt = 1 then (if f = 13 then 14 else 13) else f

/-- VDOT in a lane (R431). -/
def vdotVal (e : Ext) (c : Ctx) (l : Nat) : Nat :=
  let f := (mulFmt e.ty.toNat (e.m 9 1)).getD 13
  let g := altFmt f (e.m 11 1)
  let w := elBits f
  let a := lane (c.w.v e.a9.toNat).data l
  let b := lane (c.w.v e.b9.toNat).data l
  let acc := lane (c.w.v e.d9.toNat).data l
  let xs := (List.range (32 / w)).map fun i => (elem w i a, elem w i b)
  if f = 11 then ofInt 32 ((acc : Int) + dotInt xs)
  else
    let p := dotSum f g (e.m 12 1 == 1) xs
    let p := if e.m 10 1 = 1 then
        (p.scaled (scaleByte c e.c9.toNat f (e.m 4 5) l)).scaled (scaleByte c (e.c9.toNat + 1) f (e.m 4 5) l)
      else p
    let mode := Rnd.ofCode (e.m 0 3)
    Fmt.f32.round mode false 0 32 (FV.add mode (Fmt.f32.value acc) p)

/-- VDOT. -/
def vdotBody (e : Ext) (c : Ctx) (s : State) : Res :=
  let f := (mulFmt e.ty.toNat (e.m 9 1)).getD 13
  let o := Ext.op3 e
  let tr : Nat := if f = 11 then 0 else 4
  withOps s ([vRun c.w o.a 1 1 (· == tagOf f), vRun c.w o.b 1 1 (· == tagOf (altFmt f (e.m 11 1))),
      vRun c.w o.d 1 1 (fun t => t == tagOf tr || t == 0)] ++ (if e.m 10 1 = 1 then [scaleOk c 2 2 o.c] else [])) <|
    .next (s.put c (deliver c (s.mine c) o tr (tagOf tr) (c.lanes o) (vdotVal e c)))

/-! ### The instructions -/

/-- FADD REG (R364). -/
def execFaddReg (f : B3) (s : State) : Host.Outcome State Fault Refusal :=
  runWave (.faddReg f) none (fltMould .add (B3.op3 f)) s

/-- FADD IMM (R364). -/
def execFaddImm (f : B3I) (s : State) : Host.Outcome State Fault Refusal :=
  runWave (.faddImm f) none (fltMould .add (B3I.op3 true f)) s

/-- FADD LIT (R364). -/
def execFaddLit (f : B3L) (s : State) : Host.Outcome State Fault Refusal :=
  runWave (.faddLit f) none (fltMould .add (B3L.op3 true f)) s

/-- FADD EXT (R364). -/
def execFaddExt (e : Ext) (s : State) : Host.Outcome State Fault Refusal :=
  runWave (.faddExt e) (some e) (fltMould .add (Ext.op3 e)) s

/-- FSUB REG (R370). -/
def execFsubReg (f : B3) (s : State) : Host.Outcome State Fault Refusal :=
  runWave (.fsubReg f) none (fltMould .sub (B3.op3 f)) s

/-- FSUB IMM (R370). -/
def execFsubImm (f : B3I) (s : State) : Host.Outcome State Fault Refusal :=
  runWave (.fsubImm f) none (fltMould .sub (B3I.op3 true f)) s

/-- FSUB LIT (R370). -/
def execFsubLit (f : B3L) (s : State) : Host.Outcome State Fault Refusal :=
  runWave (.fsubLit f) none (fltMould .sub (B3L.op3 true f)) s

/-- FSUB EXT (R370). -/
def execFsubExt (e : Ext) (s : State) : Host.Outcome State Fault Refusal :=
  runWave (.fsubExt e) (some e) (fltMould .sub (Ext.op3 e)) s

/-- FMUL REG (R369). -/
def execFmulReg (f : B3) (s : State) : Host.Outcome State Fault Refusal :=
  runWave (.fmulReg f) none (fltMould .mul (B3.op3 f)) s

/-- FMUL IMM (R369). -/
def execFmulImm (f : B3I) (s : State) : Host.Outcome State Fault Refusal :=
  runWave (.fmulImm f) none (fltMould .mul (B3I.op3 true f)) s

/-- FMUL LIT (R369). -/
def execFmulLit (f : B3L) (s : State) : Host.Outcome State Fault Refusal :=
  runWave (.fmulLit f) none (fltMould .mul (B3L.op3 true f)) s

/-- FMUL EXT (R369). -/
def execFmulExt (e : Ext) (s : State) : Host.Outcome State Fault Refusal :=
  runWave (.fmulExt e) (some e) (fltMould .mul (Ext.op3 e)) s

/-- FMIN REG (R368). -/
def execFminReg (f : B3) (s : State) : Host.Outcome State Fault Refusal :=
  runWave (.fminReg f) none (fltMould .min (B3.op3 f)) s

/-- FMIN IMM (R368). -/
def execFminImm (f : B3I) (s : State) : Host.Outcome State Fault Refusal :=
  runWave (.fminImm f) none (fltMould .min (B3I.op3 true f)) s

/-- FMIN LIT (R368). -/
def execFminLit (f : B3L) (s : State) : Host.Outcome State Fault Refusal :=
  runWave (.fminLit f) none (fltMould .min (B3L.op3 true f)) s

/-- FMIN EXT (R368). -/
def execFminExt (e : Ext) (s : State) : Host.Outcome State Fault Refusal :=
  runWave (.fminExt e) (some e) (fltMould .min (Ext.op3 e)) s

/-- FMAX REG (R368). -/
def execFmaxReg (f : B3) (s : State) : Host.Outcome State Fault Refusal :=
  runWave (.fmaxReg f) none (fltMould .max (B3.op3 f)) s

/-- FMAX IMM (R368). -/
def execFmaxImm (f : B3I) (s : State) : Host.Outcome State Fault Refusal :=
  runWave (.fmaxImm f) none (fltMould .max (B3I.op3 true f)) s

/-- FMAX LIT (R368). -/
def execFmaxLit (f : B3L) (s : State) : Host.Outcome State Fault Refusal :=
  runWave (.fmaxLit f) none (fltMould .max (B3L.op3 true f)) s

/-- FMAX EXT (R368). -/
def execFmaxExt (e : Ext) (s : State) : Host.Outcome State Fault Refusal :=
  runWave (.fmaxExt e) (some e) (fltMould .max (Ext.op3 e)) s

/-- FRCP REG (R366). -/
def execFrcpReg (f : B3) (s : State) : Host.Outcome State Fault Refusal :=
  runWave (.frcpReg f) none (fltFun FV.rcp (B3.op3 f)) s

/-- FRCP EXT (R366). -/
def execFrcpExt (e : Ext) (s : State) : Host.Outcome State Fault Refusal :=
  runWave (.frcpExt e) (some e) (fltFun FV.rcp (Ext.op3 e)) s

/-- FRSQ REG (R366). -/
def execFrsqReg (f : B3) (s : State) : Host.Outcome State Fault Refusal :=
  runWave (.frsqReg f) none (fltFun FV.rsqrt (B3.op3 f)) s

/-- FRSQ EXT (R366). -/
def execFrsqExt (e : Ext) (s : State) : Host.Outcome State Fault Refusal :=
  runWave (.frsqExt e) (some e) (fltFun FV.rsqrt (Ext.op3 e)) s

/-- FSQRT REG (R366). -/
def execFsqrtReg (f : B3) (s : State) : Host.Outcome State Fault Refusal :=
  runWave (.fsqrtReg f) none (fltFun FV.sqrt (B3.op3 f)) s

/-- FSQRT EXT (R366). -/
def execFsqrtExt (e : Ext) (s : State) : Host.Outcome State Fault Refusal :=
  runWave (.fsqrtExt e) (some e) (fltFun FV.sqrt (Ext.op3 e)) s

/-- FEX2 REG (R366). -/
def execFex2Reg (f : B3) (s : State) : Host.Outcome State Fault Refusal :=
  runWave (.fex2Reg f) none (fltFun FV.ex2 (B3.op3 f)) s

/-- FEX2 EXT (R366). -/
def execFex2Ext (e : Ext) (s : State) : Host.Outcome State Fault Refusal :=
  runWave (.fex2Ext e) (some e) (fltFun FV.ex2 (Ext.op3 e)) s

/-- FLG2 REG (R366). -/
def execFlg2Reg (f : B3) (s : State) : Host.Outcome State Fault Refusal :=
  runWave (.flg2Reg f) none (fltFun FV.lg2 (B3.op3 f)) s

/-- FLG2 EXT (R366). -/
def execFlg2Ext (e : Ext) (s : State) : Host.Outcome State Fault Refusal :=
  runWave (.flg2Ext e) (some e) (fltFun FV.lg2 (Ext.op3 e)) s

/-- FFMA (R367). -/
def execFfma (e : Ext) (s : State) : Host.Outcome State Fault Refusal :=
  runWave (.ffma e) (some e) (fltMould .fma (Ext.op3 e)) s

/-- CVT (R353). -/
def execCvt (e : Ext) (s : State) : Host.Outcome State Fault Refusal :=
  runWave (.cvt e) (some e) (cvtBody e) s

/-- BQNT (R329). -/
def execBqnt (e : Ext) (s : State) : Host.Outcome State Fault Refusal :=
  runWave (.bqnt e) (some e) (bqntBody e) s

/-- VDOT (R431). -/
def execVdot (e : Ext) (s : State) : Host.Outcome State Fault Refusal :=
  runWave (.vdot e) (some e) (vdotBody e) s

end Sys2Proof.Machine
end

