-- ==== Sys2Proof/Machine/Lanes.lean ====
section
/-!
DEFINITION. Predicates and operations across lanes: PLOG, PMOV, BALLOT, VOTE, MPREFIX, ELECT, SHFL, LSCAN, LRED (R322,
R357, R382, R383, R392, R402, R403, R420, R433).
-/

namespace Sys2Proof.Machine

/-- The first lane of the issuing half, from which its lanes count (R33). -/
def Ctx.lane0 (c : Ctx) : Nat := if c.w.id.gang then 32 * c.who.half else 0
/-- The number of lanes of the issuing half. -/
def Ctx.width (c : Ctx) : Nat := if c.w.id.gang then 32 else 64
/-- A mask as the scalar of the half that reads it: its own lanes from bit 0 (R33). -/
def Ctx.toScalar (c : Ctx) (m : Mask) : BitVec 64 :=
  if c.w.id.gang then (m >>> c.lane0) &&& BitVec.ofNat 64 (2 ^ 32 - 1) else m
/-- A scalar as a mask of the half's lanes. -/
def Ctx.ofScalar (c : Ctx) (v : BitVec 64) : Mask :=
  if c.w.id.gang then (v &&& BitVec.ofNat 64 (2 ^ 32 - 1)) <<< c.lane0 else v

/-- A vector register as destination, nothing else. -/
def vDst (c : Ctx) (n code : Nat) : OpOk := (vRun c.w code n n fun _ => true).dst
/-- A source predicate with its negation (PLOG apart). -/
def Ctx.pred (c : Ctx) (code : Nat) (neg : Bool) : Mask :=
  let p := c.w.p c.who.half (code - 416)
  if neg then ~~~p else p

/-- PLOG (R402). -/
def plogBody (e : Ext) (c : Ctx) (s : State) : Res :=
  let o := Ext.op3 e
  withOps s [predOk o.a, predOk o.b, predOk o.c, predDstOk c o.d] <|
    let p (code l : Nat) : Nat := b2n ((c.pred code false).getLsbD l)
    .next (s.put c (deliver c (s.mine c) o 7 0 (c.lanes o) fun l =>
      o.mod / 2 ^ (4 * p o.a l + 2 * p o.b l + p o.c l) % 2))

/-- PMOV (R403). -/
def pmovBody (e : Ext) (c : Ctx) (s : State) : Res :=
  let o := Ext.op3 e
  let m := c.lanes o
  if 416 ≤ o.d then
    if 416 ≤ o.a ∧ o.a < 432 then
      withOps s [predDstOk c o.d, predOk o.a] (.next (s.put c ((s.mine c).setP (o.d - 416) m (c.pred o.a false))))
    else
      withOps s [predDstOk c o.d, if o.a = 511 then OpOk.when o.lit.isSome else sRun c o.a] <|
        let v := if o.a = 511 then o.lit.getD 0 else c.sVal o.a
        .next (s.put c ((s.mine c).setP (o.d - 416) m (c.ofScalar v)))
  else
    withOps s [sDst c o.d, predOk o.a] <|
      .next (if m = 0 then s else s.put c (writeS c (s.mine c) o.d (c.toScalar (c.pred o.a false))))

/-- BALLOT (R322). -/
def ballotBody (e : Ext) (c : Ctx) (s : State) : Res :=
  let o := Ext.op3 e
  withOps s [sDst c o.d, predOk o.a] <|
    .next (s.put c (writeS c (s.mine c) o.d (c.toScalar (c.lanes o &&& c.pred o.a (o.mod % 2 == 1)))))

/-- The one bit of a vote over a mask (R433). -/
def voteVal (mode : Nat) (m p : Mask) : Bool :=
  match mode with
  | 0 => m &&& p != 0
  | 1 => m &&& ~~~p == 0
  | _ => m &&& p == 0 || m &&& ~~~p == 0

/-- VOTE (R433). -/
def voteBody (e : Ext) (c : Ctx) (s : State) : Res :=
  let o := Ext.op3 e
  withOps s [if o.d < 416 then sDst c o.d else predDstOk c o.d, predOk o.a] <|
    let m := c.lanes o
    let r := voteVal (o.mod % 4) m (c.pred o.a (o.mod / 4 % 2 == 1))
    .next (s.put c (if o.d < 416 then writeS c (s.mine c) o.d (BitVec.ofNat 64 (b2n r))
      else (s.mine c).setP (o.d - 416) m (if r then allLanes else 0)))

/-- MPREFIX (R392). -/
def mprefixBody (e : Ext) (c : Ctx) (s : State) : Res :=
  let o := Ext.op3 e
  withOps s [vDst c 1 o.d, predOk o.a] <|
    let m := c.lanes o
    let p := m &&& c.pred o.a (o.mod % 2 == 1)
    .next (s.put c (deliver c (s.mine c) o 1 1 m fun l =>
      countLanes (p &&& BitVec.ofNat 64 (2 ^ (if o.mod / 2 % 2 = 1 then l + 1 else l) - 1))))

/-- ELECT (R357): the predicate of code d over the lanes m. -/
def electBody (d : Nat) (m : Ctx → Mask) (c : Ctx) (s : State) : Res :=
  withOps s [{ predDstOk c d with valid := (predDstOk c d).valid && d != 416 }] <|
    .next (match lowest (m c) with
      | none => s
      | some l => s.put c ((s.mine c).setP (d - 416) (m c) (oneLane l)))

/-- The lane SHFL reads in lane l of the half, with segments of z lanes (R420). -/
def shflLane (mode z l k : Nat) : Nat :=
  let j := l % z
  l - j + (match mode with
    | 0 => k % z
    | 1 => if k > j then j else j - k
    | 2 => if j + k ≥ z then j else j + k
    | _ => j ^^^ (k % z))

/-- SHFL (R420). -/
def shflBody (e : Ext) (c : Ctx) (s : State) : Res :=
  let o := Ext.op3 e
  let n := tyRegs o.ty
  withOps s [vRun c.w o.a n n (fun _ => true), srcOk c o.lit 1 o.b, vDst c n o.d] <|
    let z := min (2 ^ (6 - o.mod / 4 % 8)) c.width
    let m := c.lanes o
    let at' (l : Nat) : Nat := c.lane0 + shflLane (o.mod % 4) z (l - c.lane0) (opVal c o.lit 1 o.b l)
    let w := writeDst c (s.mine c) o.ty o.d (c.w.v o.a).tag m fun l => opVal c o.lit o.ty o.a (at' l)
    let w := if n = 2 && m != 0 then w.setV (o.d + 1) ⟨(w.v (o.d + 1)).data, (c.w.v (o.a + 1)).tag⟩ else w
    .next (s.put c w)

/-- OP of LRED and LSCAN on two values (R383). -/
def redOp (op ty a b : Nat) : Nat :=
  if ty = 4 then
    let x := Fmt.f32.value a
    let y := Fmt.f32.value b
    Fmt.f32.round .rne false 0 32 (match op with
      | 0 => FV.add .rne x y
      | 1 => FV.minmax false x y
      | _ => FV.minmax true x y)
  else match op with
    | 0 => IntOp.add.run (tySigned ty) 32 a b
    | 1 => IntOp.min.run (tySigned ty) 32 a b
    | 2 => IntOp.max.run (tySigned ty) 32 a b
    | 3 => a &&& b
    | 4 => a ||| b
    | _ => a ^^^ b

/-- Id(OP) (R383). -/
def redId (op ty : Nat) : Nat :=
  match op with
  | 1 => if ty = 4 then 0x7F800000 else if ty = 0 then 0x7FFFFFFF else 0xFFFFFFFF
  | 2 => if ty = 4 then 0xFF800000 else if ty = 0 then 0x80000000 else 0
  | 3 => 0xFFFFFFFF
  | _ => 0

/-- The folds in ascending lane order: for each lane the value before it and with it. -/
def scanFrom (op ty : Nat) (x : Nat → Nat) : List Nat → Option Nat → List (Nat × Nat × Nat)
  | [], _ => []
  | l :: ls, acc =>
    let a := match acc with | none => x l | some a => redOp op ty a (x l)
    (l, acc.getD (redId op ty), a) :: scanFrom op ty x ls (some a)

/-- LSCAN (R382, R383). -/
def lscanBody (e : Ext) (c : Ctx) (s : State) : Res :=
  let o := Ext.op3 e
  withOps s [srcOk c o.lit o.ty o.a, vDst c 1 o.d] <|
    let m := c.lanes o
    let r := scanFrom e.sub.toNat o.ty (opVal c o.lit o.ty o.a) (lanesOf m) none
    .next (s.put c (writeDst c (s.mine c) o.ty o.d (tagOf o.ty) m fun l =>
      match r.lookup l with | some (b, a) => if o.mod % 2 = 1 then b else a | none => 0))

/-- LRED (R382, R383). -/
def lredBody (e : Ext) (c : Ctx) (s : State) : Res :=
  let o := Ext.op3 e
  withOps s [srcOk c o.lit o.ty o.a, { dstOk c false 1 o.d with valid := (dstOk c false 1 o.d).valid && decide (o.d < 384) }] <|
    let m := c.lanes o
    let r := scanFrom e.sub.toNat o.ty (opVal c o.lit o.ty o.a) (lanesOf m) none
    let v := match r.getLast? with | some (_, _, a) => a | none => redId e.sub.toNat o.ty
    .next (s.put c (if o.d < 320 then writeDst c (s.mine c) o.ty o.d (tagOf o.ty) m fun _ => v
      else writeS c (s.mine c) o.d (widen o.ty v)))

/-! ### The instructions -/

/-- PLOG (R402). -/
def execPlog (e : Ext) (s : State) : Host.Outcome State Fault Refusal :=
  runWave (.plog e) (some e) (plogBody e) s

/-- PMOV (R403). -/
def execPmov (e : Ext) (s : State) : Host.Outcome State Fault Refusal :=
  runWave (.pmov e) (some e) (pmovBody e) s

/-- BALLOT (R322). -/
def execBallot (e : Ext) (s : State) : Host.Outcome State Fault Refusal :=
  runWave (.ballot e) (some e) (ballotBody e) s

/-- VOTE (R433). -/
def execVote (e : Ext) (s : State) : Host.Outcome State Fault Refusal :=
  runWave (.vote e) (some e) (voteBody e) s

/-- MPREFIX (R392). -/
def execMprefix (e : Ext) (s : State) : Host.Outcome State Fault Refusal :=
  runWave (.mprefix e) (some e) (mprefixBody e) s

/-- ELECT (R357). -/
def execElect (p : BitVec 4) (s : State) : Host.Outcome State Fault Refusal :=
  runWave (.elect p) none (electBody (416 + p.toNat) fun c => c.active 0 false) s

/-- ELECT EXT (R357). -/
def execElectExt (e : Ext) (s : State) : Host.Outcome State Fault Refusal :=
  runWave (.electExt e) (some e) (electBody e.d9.toNat fun c => c.active e.pg e.pn) s

/-- SHFL (R420). -/
def execShfl (e : Ext) (s : State) : Host.Outcome State Fault Refusal :=
  runWave (.shfl e) (some e) (shflBody e) s

/-- LSCAN (R382). -/
def execLscan (e : Ext) (s : State) : Host.Outcome State Fault Refusal :=
  runWave (.lscan e) (some e) (lscanBody e) s

/-- LRED (R382). -/
def execLred (e : Ext) (s : State) : Host.Outcome State Fault Refusal :=
  runWave (.lred e) (some e) (lredBody e) s

end Sys2Proof.Machine
end

