-- ==== Sys2Proof/Machine/League.lean ====
section
/-!
DEFINITION. The League as every instruction and event uses it: planes and packets (R269 to R271), requests and their
answers (R272, R278), the window table and the exporter's side of an access (R274, R275), and cached G lines (R279).
-/

namespace Sys2Proof.Machine

/-! ### Packets -/

/-- Words 2 to 7 of a header: 64 bits each. -/
def Packet.word (p : Packet) (k : Nat) : BitVec 64 := p.ext.extractLsb' (64 * (k - 2)) 64
/-- The data of a packet as bytes. -/
def Packet.bytes (p : Packet) (n : Nat) : List Byte := leBytes n (p.data.toNat % 2 ^ (8 * n))
/-- Data for a packet from bytes. -/
def dataOf (bs : List Byte) : BitVec 2048 := BitVec.ofNat 2048 (leNat bs)
/-- Data flits for n bytes. -/
def flits (n : Nat) : BitVec 3 := BitVec.ofNat 3 ((n + 63) / 64)

/-- A packet with nothing in it but its type and its ends. -/
def Packet.plain (type : Nat) (src dst : BitVec 9) (tag : Nat) : Packet where
  ver := 1
  type := BitVec.ofNat 6 type
  src := src
  dst := dst
  tag := BitVec.ofNat 12 tag
  ndata := 0
  plane := 0
  status := 0
  group := 0
  atty := 0
  atop := 0
  g := false
  lenm1 := 0
  offset := 0
  ext := 0
  data := 0

/-- The plane a packet is meant for (R269): requests by OFFSET[12:8], segments by their pair, others by their ends.
DEDUCED, unsafe: notes/assumptions/20.md. -/
def Packet.want (p : Packet) : Nat :=
  let t := p.type.toNat
  if t = 1 ∨ t = 3 ∨ t = 5 ∨ t = 7 then p.offset.toNat / 256 % 32
  else if t = 0x10 ∨ t = 0x11 then
    (let pair := (Packet.word p 2).toNat / 2 ^ 32 % 2 ^ 20
     if pair = 0 then ((Packet.word p 2).toNat % 2 ^ 32 + ((Packet.word p 3)).toNat / 2 ^ 48) % 32 else pair % 32)
  else (p.src.toNat + p.dst.toNat) % 32

/-- The plane a packet takes: the next one up, in ascending order modulo 32 (R269). -/
def State.planeFor (s : State) (want : Nat) : Option Nat :=
  ((List.range 32).map fun k => (want + k) % 32).find? fun k => ((s.league.ports[k]?).map (·.up)).getD false

/-- A packet sent; nothing where every port is down (R269). -/
def State.send (s : State) (p : Packet) : Option State :=
  (s.planeFor (Packet.want p)).map fun k =>
    { s with league := { s.league with netOut := s.league.netOut ++ [{ p with plane := BitVec.ofNat 5 k }] } }
/-- A packet sent if a port is up. -/
def State.trySend (s : State) (p : Packet) : State := (s.send p).getD s

/-- A port of the device changed; its LDOWN bit follows (R269, R273, R308). -/
def State.updPort (s : State) (k : Nat) (f : Port → Port) : State :=
  let ps := updAt f k s.league.ports
  let bit : BitVec 32 := BitVec.ofNat 32 (2 ^ k)
  let up := ((ps[k]?).map (·.up)).getD false
  { s with league := { s.league with ports := ps }
           boot := { s.boot with ldown := if up then s.boot.ldown &&& ~~~bit else s.boot.ldown ||| bit } }

/-- A packet has come over a link that is up and runs at its version (R273). -/
def State.linkOk (s : State) (p : Packet) : Bool :=
  ((s.league.ports[p.plane.toNat]?).map fun (x : Port) => x.up && x.ver == p.ver.toNat).getD false

/-- A packet received: one whose version differs from the link's is dropped, and the link goes down to be trained again
(R273). -/
def State.recv (s : State) (p : Packet) (f : State → State) : State :=
  if s.linkOk p then f s else s.updPort p.plane.toNat fun x => { x with up := false }

/-! ### The window table (R274) -/

/-- A window entry's fields. -/
structure Win where
  raw : Nat
  deriving DecidableEq, Repr
namespace Win
def valid (w : Win) : Bool :=
  bits w.raw 63 63 == 1 && bits w.raw 58 40 == 0 && bits w.raw 20 0 == 0 && bits w.raw 127 116 == 0 &&
    bits w.raw 84 64 == 0 && bits w.raw 191 168 == 0 && bits w.raw 255 211 == 0 &&
    bits w.raw 200 192 + bits w.raw 210 201 ≤ 512
def rd (w : Win) : Bool := bits w.raw 62 62 == 1
def wr (w : Win) : Bool := bits w.raw 61 61 == 1
def at' (w : Win) : Bool := bits w.raw 60 60 == 1
def gc (w : Win) : Bool := bits w.raw 59 59 == 1
def base (w : Win) : Nat := bits w.raw 39 21 * 2 ^ 21
def vaBase (w : Win) : Nat := bits w.raw 115 85 * 2 ^ 21
def size (w : Win) : Nat := bits w.raw 167 148 * 2 ^ 21
def pasid (w : Win) : BitVec 20 := BitVec.ofNat 20 (bits w.raw 147 128)
/-- The importer range holds a peer. -/
def imports (w : Win) (peer : Nat) : Bool :=
  bits w.raw 200 192 ≤ peer && peer < bits w.raw 200 192 + bits w.raw 210 201
/-- The window covers an offset. -/
def covers (w : Win) (off : Nat) : Bool := w.base ≤ off && off < w.base + w.size
end Win

/-- The entry an access uses: the valid one of the lowest index that covers the offset for the importer (R275). -/
def State.windowFor (s : State) (src off : Nat) : Option (Nat × Win) :=
  (s.league.windows.map fun (x : Nat × BitVec 256) => (x.1, Win.mk x.2.toNat)).find? fun x =>
    x.2.valid && x.2.covers off && x.2.imports src

/-! ### The exporter's side of an access (R275) -/

/-- What an exported access finds: a reason, or the leaf and the physical address. -/
inductive Exported where
  | no (reason : Nat)
  | ok (g : Bool) (pa : Nat)
  deriving DecidableEq, Repr

/-- The checks of R275 for n bytes at an offset of the windows.
DEDUCED, unsafe: notes/assumptions/21.md. -/
def State.exported (s : State) (src off n : Nat) (a : Acc) : Exported × State :=
  match s.windowFor src off with
  | none => (.no 1, s)
  | some (i, w) =>
    if s.league.closed.contains (i, src) then (.no 1, s)
    else if !(match a with | .read | .fetch => w.rd | .write => w.wr | .atomic => w.at') then (.no 2, s)
    else if off + n > w.base + w.size then (.no 8, s)
    else
      let va := w.vaBase + (off - w.base)
      let (root, tdi) := (s.byPasid w.pasid).getD (0, 0xFF)
      let sp : Space := ⟨mgmtCore, 0, w.pasid, root.toNat, tdi.toNat, 0, .peer src, 0, false, none⟩
      -- a window of the exporter's own addresses is translated by no page table (R178)
      if root = 0 || 2 ^ 52 < va + n || isWindow va then (.no 5, s)
      else
        let (t, s) := s.translate sp va
        match t with
        | .miss _ | .bad => (.no 5, s)
        | .lost pa => (.no 6, s.retire pa)
        | .ok l =>
          match permit s sp.tdi a l va with
          | some (7, _) => (.no 4, s)
          | some _ => (.no 5, s)
          | none =>
            if l.tier ≠ 0 then (.no 5, s)
            else if l.c then (.no 3, s)
            else if (a ≠ .write || s.mem.retired.contains (l.pa va / 4096)) && s.badData (l.pa va) n
              then (.no 6, s.retire (l.pa va))
            else (.ok (l.g && w.gc) (l.pa va), s)

/-- Bytes merged under a lane mask: byte k is written when lane k div 4 is set (R283).
DESIGN CHOICE, unsafe: notes/assumptions/24.md. -/
def maskBytes (m : Mask) (new old : List Byte) : List Byte :=
  (new.zip old).zipIdx.map fun (x : (Byte × Byte) × Nat) => if m.getLsbD (x.2 / 4) then x.1.1 else x.1.2

/-- The answer to a read, write, atomic or multicast copy, and its effect at the home LLC (R275, R283). A multicast
copy carries its lanes in word 2 (notes/assumptions/24.md).
DEDUCED, unsafe: notes/assumptions/20.md. -/
def State.serve (s : State) (p : Packet) : Packet × State :=
  let n := p.lenm1.toNat + 1
  let t := p.type.toNat
  let a : Acc := if t = 1 then .read else if t = 5 then .atomic else .write
  let back : Packet := { Packet.plain (t + 1) p.dst p.src p.tag.toNat with lenm1 := p.lenm1, offset := p.offset }
  match s.exported p.src.toNat p.offset.toNat n a with
  | (.no r, s) => ({ back with status := BitVec.ofNat 4 r }, s)
  | (.ok g pa, s) =>
    match a with
    | .write =>
      let bs := (Packet.bytes p n)
      (back, s.setBytes pa (if t = 7 then maskBytes (Packet.word p 2) bs (s.bytes pa n) else bs))
    | .atomic =>
      let old := s.num pa n
      let new := atomNew p.atop.toNat p.atty.toNat old (field (Packet.bytes p 16) 0 n) (field (Packet.bytes p 16) n n)
      ({ back with data := BitVec.ofNat 2048 old, ndata := 1 },
        if atomWrites p.atop.toNat old (field (Packet.bytes p 16) 0 n) then s.setNum pa n new else s)
    | _ => ({ back with data := dataOf (s.bytes pa n), ndata := flits n, g := g }, s)

/-- What a reason raises at the initiator (R275). -/
def reasonCode (r : Nat) : Nat := if r = 4 then Exc.writeToGlobalRo else if r = 6 then Exc.dataIntegrity else Exc.remoteAccess

/-! ### Requests (R272, R278) -/

/-- A request of a split: answered at once by the device's own windows or where no port is up, else sent and kept. -/
def State.ask (s : State) (handle : BitVec 32) (half l va : Nat) (inst : Option Nat) (p : Packet) : State :=
  let tag := s.league.nextTag % 4096
  let p : Packet := { p with tag := BitVec.ofNat 12 tag, src := s.peer }
  let (ans, s) : Option Packet × State :=
    if p.dst = s.peer then let (a, s) := s.serve p; (some a, s)
    else match s.send p with
      | some s => (none, s)
      | none => (some { p with status := 7 }, s)
  let r : Req := ⟨tag, handle, half, l, p, s.now, false, false, inst, ans, va, false⟩
  { s with league := { s.league with reqs := s.league.reqs ++ [r], nextTag := tag + 1 } }

/-- A request is one of a name and a half. -/
def Req.under (r : Req) (h : BitVec 32) (half : Nat) : Bool := !r.orphan && r.handle == h && r.half == half

/-- The issuing split's requests. -/
def State.reqsOf (s : State) (c : Ctx) : List Req :=
  s.league.reqs.filter fun r => r.of c.w.id.handle c.who.half c.path.mask
/-- The sender of a message held at a full port asks for it back, once (R229, R288): word 2 has bit 33 set.
DESIGN CHOICE, unsafe: notes/assumptions/29.md. -/
def State.withdraw (s : State) (p : Req → Bool) : State :=
  let held (r : Req) : Bool := p r && r.suspended && r.answer.isNone && !r.pkt.ext.getLsbD 33
  let back (r : Req) : Req := { r with pkt := { r.pkt with ext := r.pkt.ext ||| BitVec.ofNat 384 (2 ^ 33) } }
  let go := s.league.reqs.filter held
  go.foldl (fun s r => s.trySend (back r).pkt)
    { s with league := { s.league with reqs := s.league.reqs.map fun r => if held r then back r else r } }

/-- Requests given up: those answered are over, the others are orphans until their answers come (R281), and a message held
at a full port is asked back. -/
def State.giveUp (s : State) (p : Req → Bool) : State :=
  let s := s.withdraw p
  let left (r : Req) : Option Req :=
    if !p r then some r else if r.answer.isSome then none else some { r with orphan := true }
  { s with league := { s.league with reqs := s.league.reqs.filterMap left } }

/-- The requests of a split are taken. -/
def State.dropReqs (s : State) (c : Ctx) : State := s.giveUp fun (r : Req) => r.of c.w.id.handle c.who.half c.path.mask

/-- The path of a half that holds a lane and waits. -/
def Half.waiter (h : Half) (l : Nat) : Option Nat :=
  h.paths.findIdx? fun p => p.mask.getLsbD l && (match p.wait with | .on _ _ => true | _ => false)

/-- The instructions that read or write memory beside what their lanes access (R152, R228, R285, R399); PSEND and PRECV keep
their place among the waiters of a port (R229). -/
def readsAtPosting : Instr → Bool
  | .cpy _ | .coll _ | .wcreate _ | .ctxld _ | .objwr _ | .objrd _ | .ctxsv _ => true
  | _ => false

/-- The splits of a half that wait at posting look again. -/
def Half.wakePosting (h : Half) : Half :=
  let f (p : Path) : Path := match p.wait with
    | .on i _ => if readsAtPosting i then { p with wait := .ready } else p
    | _ => p
  { h with base := f h.base, stack := h.stack.map fun e => { e with paths := e.paths.map f } }

/-- A split whose requests are all answered is ready again (R278). A request numbered by a half plus 2 belongs to a
posting of that half, one by a half plus 4 to what its instruction writes to memory at the end. -/
def State.wakeReq (s : State) (r : Req) : State :=
  match s.resident r.handle with
  | none => s
  | some (c, k) =>
    if 2 ≤ r.half then s.updWave c k fun w => w.updHalf (r.half % 2) Half.wakePosting
    else match ((s.wave? c k).bind fun w => w.halves[r.half]?) with
    | none => s
    | some h =>
      match h.waiter r.lane with
      | none => s
      | some i =>
        let m := ((h.paths[i]?).map (·.mask)).getD 0
        if s.league.reqs.any fun q => q.of r.handle r.half m && q.answer.isNone then s
        else s.updWave c k fun w => w.updPath r.half i fun p => { p with wait := .ready }

/-- A G line installed in the caches of a core's path: the granules of an answer's bytes (R279). -/
def State.install (s : State) (core : Nat) (peer off : Nat) (bs : List Byte) : State :=
  if off % 16 = 0 && bs.length % 16 == 0 then
    (cachePath core).foldl (fun s u =>
      (List.range (bs.length / 16)).foldl (fun s k =>
        s.setCopy u (peerGran (peer * 2 ^ 40 + off + 16 * k)) ⟨BitVec.ofNat 128 (field bs (16 * k) 16), 0, false⟩) s) s
  else s

/-- The acknowledgements of invalidates whose marked reads have all been answered go out (R281). -/
def State.payAcks (s : State) : State :=
  let owed (p : Packet) : Bool := s.league.reqs.any fun r => r.marked && r.answer.isNone && r.pkt.dst == p.dst
  let (keep, go) := s.league.acks.partition owed
  go.foldl State.trySend { s with league := { s.league with acks := keep } }

/-- An answer taken for an outstanding request (R278, R279): a G line may be installed unless an invalidate marked it. The
answer of a multicast comes from a switch and is told by its tag alone. -/
def State.answerReq (s : State) (p : Packet) : State :=
  match s.league.reqs.find? fun r => r.answer.isNone && r.tag == p.tag.toNat && (r.pkt.dst == p.src || r.pkt.type == 7) with
  | none => s
  | some r =>
    if r.orphan then { s with league := { s.league with reqs := s.league.reqs.filter fun q => q ≠ r } }.payAcks
    else
    let s := { s with league := { s.league with reqs := s.league.reqs.map fun q => if q = r then { q with answer := some p } else q } }
    let s := match r.inst with
      | some core => if p.g && p.status == 0 && !r.marked && Config.which s.free 2 == 1
          then s.install core p.src.toNat r.pkt.offset.toNat ((Packet.bytes p (p.lenm1.toNat + 1))) else s
      | none => s
    (s.wakeReq r).payAcks

/-- A wait begins: the split waits at the instruction, with a number of its own. -/
def State.waitOn (s : State) (c : Ctx) (i : Instr) : State :=
  let (n, s) := s.tick
  s.updPath c fun p => { p with wait := .on i n }

/-- The split waits for its requests, or goes on at once when all are answered already. -/
def State.waitReqs (s : State) (c : Ctx) (i : Instr) : State :=
  if (s.reqsOf c).all fun r => r.answer.isSome then s.updPath c fun p => { p with wait := .ready }
  else s.waitOn c i

/-- The negative answer of the lowest address: the exception and that address (R253, R275, R278). -/
def negative (rs : List Req) : Option (Nat × Nat) :=
  let bad := rs.filterMap fun r => match r.answer with
    | some a => if a.status = 0 then none else some (r.va, a.status.toNat)
    | none => none
  match bad with
  | [] => none
  | _ =>
    let lo := bad.foldl (fun m x => min m x.1) (2 ^ 64)
    (bad.find? fun x => x.1 = lo).map fun x => (reasonCode x.2, x.1)

end Sys2Proof.Machine
end

