-- ==== Sys2Proof/Machine/Memory.lean ====
section
/-!
DEFINITION. Memory instructions: LD, ST, LDL, STL, CMPST, EXPLD, ATOM, ATOMN, the fences, PREF, CFLUSH and CINV (R208 to
R211, R318 to R321, R337, R338, R344, R345, R360, R361, R376 to R379, R406, R422 to R424), and the events that complete
them (R186, R188, R207).
-/

namespace Sys2Proof.Machine

/-! ### Progress and waits -/

/-- How far the issuing split has come in the instruction at its PC (R189, R190). -/
def Ctx.progress (c : Ctx) : Progress := c.path.progress

/-- The issuing split's progress kept. -/
def State.setProg (s : State) (c : Ctx) (done : Mask) (k : Nat) : State :=
  s.updPath c fun p => { p with prog := some ⟨c.path.pc, done, k, []⟩ }

/-- A synchronisation operation of the issuing wave has performed: its next SFR opens (R215).
DEDUCED, unsafe: notes/assumptions/37.md. -/
def State.bumpSfr (s : State) (c : Ctx) : State :=
  s.updWave c.who.core c.who.slot fun w => { w with sfr := w.sfr + 1 }

/-- The space of a synchronisation operation that has not performed yet: it belongs to the SFR it opens (R215).
DEDUCED, unsafe: notes/assumptions/37.md. -/
def Ctx.syncSpace (c : Ctx) (s : State) : Space :=
  let sp := c.space s
  { sp with sfr := sp.sfr + 1 }

/-- A waiting split that could go on: it runs and its wave is not trapped (R248). -/
def Ctx.waiting (c : Ctx) : Option Instr :=
  match c.path.wait with
  | .on i _ => if c.path.running && !c.path.arrived && c.w.traps == 0 && c.w.halves.all (·.reread.isEmpty) then some i else none
  | _ => none

/-- A waiting split goes on with the instruction it waits in, by the body given; nothing happens where it would go on
waiting, unless it asks the League for something or has come further, and then it keeps its place. The body sees in `Ctx.path` the wait it had.
DEDUCED, safe: notes/assumptions/73.md. -/
def State.resume (s : State) (a : Who) (f : Instr → Option (Option Ext × (Ctx → State → Res))) : State :=
  match s.ctx? a with
  | none => s
  | some c =>
    match c.waiting.bind fun i => (f i).map fun x => (i, x) with
    | none => s
    | some (i, e, body) =>
      match body c (s.updPath c fun p => { p with wait := .ready }) with
      | .wait t =>
        match (t.ctx? a).map fun (d : Ctx) => d.path with
        | some ⟨_, _, _, _, _, .on _ _, prog, _⟩ =>
          if t.league.reqs = s.league.reqs ∧ prog = c.path.prog then s else t.updPath c fun p => { p with wait := c.path.wait }
        | _ => t
      | r => conclude i e c c.w.regs (s.scheduled c) r

/-! ### Pending atomics of ATOMN (R321) -/

/-- The space under which a pending atomic performs. -/
def State.waveSpace (s : State) (core slot : Nat) (w : Wave) : Space :=
  if w.priv then
    let pasid := (s.core core).ctl.kpasid
    let r := (s.byPasid pasid).getD (0, 0xFF)
    ⟨core, slot, pasid, r.1.toNat, r.2.toNat, (s.core core).ctl.kproc, .wave w.id.handle, w.sfr, false, none⟩
  else s.spaceOf core slot w.id.proc (.wave w.id.handle) w.sfr false w.id.blk

/-- A pending atomic performs (R319, R321), unless its data hold an uncorrectable error or their page is retired: then it has
no effect, and the page is retired (R196, R197).
DEDUCED, unsafe: notes/assumptions/18.md.
DEDUCED, unsafe: notes/assumptions/37.md. -/
def State.performAtomn (s : State) (sp : Space) (x : AtomnOp) : Bool × State :=
  let o : MemOp := ⟨.atomic, tyBits x.ty / 8, 0, x.scope, true, some (x.op, x.ty)⟩
  let l : Leaf := ⟨x.pte, x.lvl⟩
  let pa := l.pa x.va
  if l.tier = 0 && (s.mem.retired.contains (pa / 4096) || s.badRead (l.path sp.core) (o.skip l) pa o.n) then (false, s.retire pa)
  else (true, (performLane s sp o ⟨⟨0, x.va, x.x, 0⟩, l, pa, 0⟩).2)

/-- A wave with the SFR opened that the first atomic of an ATOMN opens as it performs (R215). -/
def Wave.opening (w : Wave) (x : AtomnOp) : Wave := if x.opens then { w with sfr := w.sfr + 1 } else w

/-- Every pending atomic of a wave performs, in order (R321); the wave raises DATA_INTEGRITY at the ATOMN of one that met
an error (R196). -/
def State.drainAtomn (s : State) (core slot : Nat) : State :=
  match s.wave? core slot with
  | none => s
  | some w =>
    let (s, w) := w.atomn.foldl (fun (y : State × Wave) x =>
      let w := y.2.opening x
      let (ok, s) := (y.1.setWave core slot w).performAtomn (y.1.waveSpace core slot w) x
      (s, if ok then w else { w with later := w.later ++ [w.errorRecord core slot x] })) (s, { w with atomn := [] })
    s.setWave core slot w

/-- DATA_INTEGRITY raised by a pending atomic of a wave that has ended (R196): its block, if it has not ended, ends. -/
def State.orphanError (s : State) (o : Orphan) : State :=
  let s := s.updCore o.core fun k => k.queueTrap o.rec'
  match o.blk with
  | some b => if (s.block? b).any fun k => k.st != .ended then s.killBlock b else s
  | none => s

/-- The pending atomics of waves that have ended perform, those of some cores (R213, R461). -/
def State.drainOrphans (s : State) (on : Nat → Bool) : State :=
  let (go, keep) := s.mem.orphans.partition fun o => on o.core
  go.foldl (fun s o =>
    let (ok, s) := s.performAtomn ⟨o.core, 0, 0, 0, 0xFF, 0, o.party, o.sfr, false, o.blk⟩ o.op
    if ok then s else s.orphanError o) { s with mem := { s.mem with orphans := keep } }

/-- The tiers and physical addresses that an address may be translated to: by the current walk, or as the core still holds it. -/
def State.placesOf (s : State) (sp : Space) (va : Nat) : List (Nat × Nat) :=
  if isWindow va then []
  else
    let cur : List Leaf := match walkFrom s va 3 sp.root with | .ok l => [l] | _ => []
    let held : List Leaf := ((Sparse.get? (tlbKey sp.pasid va) (s.core sp.core).tlb).map fun x => (⟨x.2, x.1⟩ : Leaf)).toList
    (cur ++ held).map fun l => (l.tier, l.pa va)

/-- An access of n bytes touches a byte of a pending atomic, by its virtual address or by another that names the byte. -/
def AtomnOp.meets (x : AtomnOp) (s : State) (sp : Space) (va n : Nat) : Bool :=
  let k := tyBits x.ty / 8
  let l : Leaf := ⟨x.pte, x.lvl⟩
  let p := l.pa x.va
  (va < x.va + k && x.va < va + n) || (s.placesOf sp va).any fun y => y.1 == l.tier && y.2 < p + k && p < y.2 + n

/-- Before an access of the wave: the pending atomics it must follow perform, those on its bytes, and all of them before a
synchronisation operation, whose place in program order is after them (R204, R321).
DEDUCED, unsafe: notes/assumptions/18.md. -/
def State.orderAtomn (s : State) (c : Ctx) (sync : Bool) (ls : List LaneAcc) (n : Nat) : State :=
  let w := s.mine c
  if w.atomn.isEmpty then s
  else if sync || w.atomn.any (fun x => ls.any fun a => x.meets s (c.space s) a.va n) then s.drainAtomn c.who.core c.who.slot
  else s

/-! ### Operand forms (R86, R376) -/

/-- Bytes of an access size (R86). -/
def szBytes (sz : Nat) : Nat := [1, 2, 4, 8, 16, 1, 2].getD sz 4
/-- Vector registers of a value of an access size. -/
def szRegs (sz : Nat) : Nat := if sz = 3 then 2 else if sz = 4 then 4 else 1
/-- A loaded value extended to 32 bits: s8 and s16 by sign (R377). -/
def szExtend (sz v : Nat) : Nat :=
  if sz = 5 then ofInt 32 (asInt 8 v) else if sz = 6 then ofInt 32 (asInt 16 v) else v
/-- The tag a load writes (R86). -/
def szTag (sz : Nat) : BitVec 4 := if 5 ≤ sz then 1 else 0

/-- A memory instruction's fields, base or extended. `a` and `d` are operand codes; the offset is an operand code, or
511 for the one given. -/
structure MemArgs where
  u : Bool
  sz : Nat
  d : Nat
  a : Nat
  off : Nat
  lit : Option (BitVec 64)
  pg : BitVec 4
  pn : Bool
  ord : Nat
  scope : Nat
  fe : Nat
  deriving DecidableEq, Repr

/-- BM with OFF6 (R86). -/
def BM.args (f : BM) : MemArgs :=
  ⟨f.u, f.sz.toNat, regCode f.u f.d, regCode f.u f.a, 511, some (BitVec.ofNat 64 (f.off.toNat * szBytes f.sz.toNat)), 0, false,
   0, 0, 0⟩
/-- BM with a literal offset (R86). -/
def BML.args (f : BML) : MemArgs :=
  ⟨f.u, f.sz.toNat, regCode f.u f.d, regCode f.u f.a, 511, some f.lit, 0, false, 0, 0, 0⟩
/-- The extended form of a load (R376). -/
def Ext.loadArgs (e : Ext) : MemArgs :=
  ⟨e.u, e.m 9 3, e.d9.toNat, e.a9.toNat, e.b9.toNat, e.lit, e.pg, e.pn, e.m 0 2, e.m 2 3, e.m 7 2⟩
/-- The extended form of a store (R422): the data stands in C9. -/
def Ext.storeArgs (e : Ext) : MemArgs := { Ext.loadArgs e with d := e.c9.toNat }

/-- The lanes of a memory instruction. -/
def Ctx.memLanes (c : Ctx) (m : MemArgs) : Mask := c.act m.u m.pg m.pn

/-- An offset operand: a scalar, an integer constant, or the literal (R376). -/
def offOk (c : Ctx) (lit : Option (BitVec 64)) (code : Nat) : OpOk :=
  if 320 ≤ code ∧ code < 384 then sRun c code
  else OpOk.when ((388 ≤ code && code ≤ 408) || (code == 511 && lit.isSome))
/-- Its value, modulo 2^64. -/
def offVal (c : Ctx) (lit : Option (BitVec 64)) (code : Nat) : Nat :=
  if 320 ≤ code ∧ code < 384 then (c.sVal code).toNat
  else if code = 511 then (lit.getD 0).toNat
  else ofInt 64 (((const2 code).getD 0) / 2)
/-- A 64-bit address operand: an even vector pair, or a scalar. -/
def addrOk (c : Ctx) (code : Nat) : OpOk :=
  if code < 320 then vRun c.w code 2 2 (fun _ => true) else sRun c code
/-- Its value in a lane. -/
def addrVal (c : Ctx) (code l : Nat) : Nat := opVal c none 8 code l
/-- A scratchpad offset operand: a vector register, or a scalar (R378). -/
def spadAddrOk (c : Ctx) (code : Nat) : OpOk :=
  if code < 320 then vRun c.w code 1 1 (fun _ => true) else sRun c code
/-- The data registers of an access size (R86, R376): a vector register as the destination with U = 1 is refused. -/
def dataOk (c : Ctx) (dst u : Bool) (sz code : Nat) : OpOk :=
  if code < 320 then
    let r := vRun c.w code (szRegs sz) (szRegs sz) (fun _ => true)
    { r with valid := r.valid && !(dst && u), sound := dst || r.sound }
  else
    { OpOk.when (scalarOk c.w code && (sz != 4 || (code % 2 == 0 && scalarOk c.w (code + 1)))) with
      sound := dst || ((sRun c code).sound && (sz != 4 || (sRun c (code + 1)).sound)) }
/-- The data of a store in a lane. -/
def dataVal (c : Ctx) (sz code l : Nat) : Nat :=
  (if code < 320 then pack 32 ((List.range (szRegs sz)).map fun k => lane (c.w.v (code + k)).data l)
   else (c.sVal code).toNat + (if sz = 4 then 2 ^ 64 * (c.sVal (code + 1)).toNat else 0)) % 2 ^ (8 * szBytes sz)

/-- The value of a lane in a list. -/
def valAt (vals : List (Nat × Nat)) (l : Nat) : Nat := (vals.lookup l).getD 0
/-- The lanes of a list of values. -/
def valMask (vals : List (Nat × Nat)) : Mask := vals.foldl (fun m x => m ||| oneLane x.1) 0

/-- Loaded values written (R377): to the lanes that have returned; to a scalar the value of the lowest lane. -/
def loadInto (c : Ctx) (sz code : Nat) (act : Mask) (vals : List (Nat × Nat)) (w : Wave) : Wave :=
  let m := valMask vals
  if m = 0 then w
  else if code < 320 then
    (List.range (szRegs sz)).foldl (fun (w : Wave) k =>
      w.setV (code + k) ⟨blend m (w.v (code + k)).data fun l => szExtend sz (valAt vals l) / 2 ^ (32 * k) % 2 ^ 32, szTag sz⟩) w
  else match lowest act with
    | some l =>
      if m.getLsbD l then
        let v := valAt vals l
        let x := if sz = 5 then ofInt 64 (asInt 8 v) else if sz = 6 then ofInt 64 (asInt 16 v) else v % 2 ^ 64
        let w := writeS c w code (BitVec.ofNat 64 x)
        if sz = 4 then writeS c w (code + 1) (BitVec.ofNat 64 (v / 2 ^ 64)) else w
      else w
    | none => w

/-! ### The accesses of an instruction, over as many issues as they take -/

/-- A request for a lane's access to the peer tier (R182, R275).
DEDUCED, safe: notes/assumptions/17.md; DEDUCED, unsafe: notes/assumptions/20.md. -/
def peerPacket (o : MemOp) (t : LaneTr) : Packet :=
  let peer := BitVec.ofNat 9 (t.pa / 2 ^ 40)
  let whole := o.acc = .read && t.leaf.g
  let off := if whole then t.pa / 16 * 16 else t.pa
  let n := if whole then 16 else o.n
  let p := Packet.plain (match o.acc with | .write => 3 | .atomic => 5 | _ => 1) 0 peer 0
  { p with
    offset := BitVec.ofNat 40 off
    lenm1 := BitVec.ofNat 8 (n - 1)
    ndata := if o.acc = .read then 0 else 1
    atop := BitVec.ofNat 3 ((o.atom.getD (0, 0)).1)
    atty := BitVec.ofNat 3 ((o.atom.getD (0, 0)).2)
    data := BitVec.ofNat 2048 (t.a.x + 2 ^ (8 * o.n) * t.a.y) }

/-- The value of an answered request, for a lane whose address is given: a G page is read by whole granules.
DEDUCED, safe: notes/assumptions/17.md. -/
def Req.value (r : Req) (o : MemOp) (va : Nat) : Option Nat :=
  r.answer.bind fun a =>
    if a.status ≠ 0 then none
    else if o.acc = .write then some 0
    else some (a.data.toNat / 2 ^ (8 * (if r.pkt.lenm1 = 15 ∧ o.n < 16 then va % 16 else 0)) % 2 ^ (8 * o.n))

/-- A peer G line that the core's caches hold may serve the read (R279).
DEDUCED, safe: notes/assumptions/17.md. -/
def State.cachedPeer (s : State) (core : Nat) (pa n : Nat) : Option Nat :=
  if Config.choice s.free then
    ((cachePath core).findSome? fun u => s.copy? u (peerGran pa)).map fun x =>
      x.data.toNat / 2 ^ (8 * (pa % 16)) % 2 ^ (8 * n)
  else none

/-- Requests for the lanes that reach the peer tier, in lane order; the values of those a cache serves. -/
def State.askLanes (s : State) (c : Ctx) (o : MemOp) : List LaneTr → List (Nat × Nat) × State
  | [] => ([], s)
  | t :: ts =>
    match (if o.acc = .read && t.leaf.g then s.cachedPeer c.who.core t.pa o.n else none) with
    | some v =>
      let (vs, s) := State.askLanes { s with free := s.free + 1 } c o ts
      ((t.a.l, v) :: vs, s)
    | none =>
      State.askLanes (s.ask c.w.id.handle c.who.half t.a.l t.a.va (if t.leaf.g then some c.who.core else none) (peerPacket o t)) c o ts

/-- The unanswered record, among those given, that holds an access to an address (R188). -/
def State.heldBy (s : State) (sp : Space) (held : List (BitVec 16 × Nat)) (va : Nat) : Option (BitVec 16) :=
  (s.mem.fbuf[if sp.core = mgmtCore then 0 else dieOf sp.core]?).bind fun b =>
    (b.recs.find? fun r => !r.answered && (held.lookup r.seq).isSome && r.pasid == sp.pasid && r.vpage.toNat == va / 4096 % 2 ^ 40).map
      (·.seq)

/-- The lanes' accesses of an instruction that loads, stores or applies atomics (R183, R189, R278): what has been answered
is taken, what is left is checked and performs by parts, and the split parks or waits for what is still to come. `put`
writes the values of lanes that have performed. The first lane to perform opens the SFR of a synchronisation operation
(R215). -/
def runAccess (i : Instr) (o : MemOp) (close : Bool) (ls : List LaneAcc) (put : List (Nat × Nat) → Wave → Wave)
    (c : Ctx) (s : State) : Res :=
  if ls.isEmpty then .next s
  else
    let done0 := c.progress.done
    let rs := s.reqsOf c
    let got := ls.filterMap fun a => (rs.find? fun r => r.lane = a.l).bind fun r => (r.value o a.va).map fun v => (a.l, v)
    let s := s.dropReqs c
    let s := s.put c (put got (s.mine c))
    let s := if o.sync && done0 = 0 && !got.isEmpty then s.bumpSfr c else s
    let done := done0 ||| valMask got
    match negative rs with
    | some (code, a) => .raise (s.setProg c done 0) code a
    | none =>
      let left := ls.filter fun a => !done.getLsbD a.l
      match lanesOk s (c.space s).proc o left with
      | some (code, a) => .raise (s.setProg c done 0) code a
      | none =>
        (if 2 ≤ o.ord && done = 0 then quietly c s else id) <|
        let s := s.orderAtomn c (o.sync || 2 ≤ o.ord) left o.n
        let sp := if o.sync && done = 0 then c.syncSpace s else c.space s
        let hold (a : LaneAcc) : Option (BitVec 16) := s.heldBy sp c.progress.held a.va
        let go := left.filter fun a => (hold a).isNone
        let stay := left.filterMap fun a => (hold a).map fun q => (q, a.va)
        let (p, s) := if go.isEmpty then (⟨[], [], [], false, none⟩, s) else access s sp o go
        let parked := stay.foldl (fun qs x => addSeq x.1 x.2 qs) p.parked
        let (vs, s) := if parked.isEmpty && !p.filling then s.askLanes c o p.peer else ([], s)
        let vals := p.vals ++ vs
        let s := s.put c (put vals (s.mine c))
        let s := if o.sync && done = 0 && !vals.isEmpty then s.bumpSfr c else s
        let done := done ||| valMask vals
        let s := s.setProg c done 0
        match p.fault with
        | some (code, a) => .raise s code a
        | none =>
          if !parked.isEmpty || p.filling then .wait (s.park c parked (!p.filling))
          else if vs.length < p.peer.length then .wait (s.waitReqs c i)
          else
            let s := if o.ord % 2 = 1 then s.acquire c.who.core o.scope else s
            if close then .nextR s else .next s

/-- LD (R376, R377). -/
def ldBody (i : Instr) (m : MemArgs) (c : Ctx) (s : State) : Res :=
  withOps s [addrOk c m.a, offOk c m.lit m.off, dataOk c true m.u m.sz m.d] <|
    let act := c.memLanes m
    let ls : List LaneAcc := (lanesOf act).map fun l => ⟨l, (addrVal c m.a l + offVal c m.lit m.off) % 2 ^ 64, 0, 0⟩
    runAccess i ⟨.read, szBytes m.sz, m.ord, m.scope, m.ord == 1, none⟩ false ls (loadInto c m.sz m.d act) c s

/-- ST (R422, R423). -/
def stBody (i : Instr) (m : MemArgs) (c : Ctx) (s : State) : Res :=
  withOps s [addrOk c m.a, offOk c m.lit m.off, dataOk c false m.u m.sz m.d] <|
    let ls : List LaneAcc := (lanesOf (c.memLanes m)).map fun l =>
      ⟨l, (addrVal c m.a l + offVal c m.lit m.off) % 2 ^ 64, dataVal c m.sz m.d l, 0⟩
    runAccess i ⟨.write, szBytes m.sz, m.ord, m.scope, m.ord == 2, none⟩ (m.ord == 2) ls (fun _ w => w) c s

/-- ATOM (R318, R319). -/
def atomBody (e : Ext) (c : Ctx) (s : State) : Res :=
  let o := Ext.op3 e
  let op := e.sub.toNat
  let n := tyBits o.ty / 8
  withOps s [if o.d = 320 then OpOk.yes else { dstOk c o.u (tyRegs o.ty) o.d with valid := o.d < 384 && (dstOk c o.u (tyRegs o.ty) o.d).valid },
      addrOk c o.a, srcOk c o.lit o.ty o.b, if op = 7 then srcOk c o.lit o.ty o.c else OpOk.yes] <|
    let act := c.lanes o
    let ls : List LaneAcc := (lanesOf act).map fun l =>
      ⟨l, addrVal c o.a l, opVal c o.lit o.ty o.b l, if op = 7 then opVal c o.lit o.ty o.c l else 0⟩
    let put (vals : List (Nat × Nat)) (w : Wave) : Wave :=
      let m := valMask vals
      let low := match lowest act with | some l => m.getLsbD l | none => false
      if o.d = 320 || (320 ≤ o.d && !low) then w else writeDst c w o.ty o.d (tagOf o.ty) m (valAt vals)
    runAccess (.atom e) ⟨.atomic, n, e.m 0 2, e.m 2 3, true, some (op, o.ty)⟩ true ls put c s

/-- ATOMN (R321): the checks and translations of every lane; the atomics of the local and host tiers then stand pending,
those of windows, peers and checked pages perform at the instruction, where their exceptions are precise (R216, R275).
DEDUCED, unsafe: notes/assumptions/18.md. -/
def atomnBody (e : Ext) (c : Ctx) (s : State) : Res :=
  let o := Ext.op3 e
  let op := e.sub.toNat
  let n := tyBits o.ty / 8
  withOps s [addrOk c o.a, srcOk c o.lit o.ty o.b] <|
    let all : List LaneAcc := (lanesOf (c.lanes o)).map fun l => ⟨l, addrVal c o.a l, opVal c o.lit o.ty o.b l, 0⟩
    let mo : MemOp := ⟨.atomic, n, e.m 0 2, e.m 2 3, true, some (op, o.ty)⟩
    if all.isEmpty then .next s
    else
      let done0 := c.progress.done
      let rs := s.reqsOf c
      let got := rs.filter fun r => match r.answer with | some a => a.status == 0 | none => false
      let done := done0 ||| valMask (got.map fun r => (r.lane, 0))
      let s := s.dropReqs c
      let s := if done0 = 0 && done != 0 then s.bumpSfr c else s
      match negative rs with
      | some (code, a) => .raise (s.setProg c done 0) code a
      | none =>
        let ls := all.filter fun a => !done.getLsbD a.l
        let sp := c.space s
        match lanesOk s sp.proc mo ls with
        | some (code, a) => .raise (s.setProg c done 0) code a
        | none =>
          (if 2 ≤ mo.ord && done = 0 then quietly c s else id) <|
          let (wins, rest) := ls.partition fun a => isWindow a.va
          let (f, s) := translateLanes s sp mo rest
          match worst (f.bad.map fun x => (x.1, x.2.1, x.2.2.1)) with
          | some (code, a) =>
            let s := if code = Exc.dataIntegrity then s.retireParts f.bad else s
            .raise (s.setProg c done 0) code a
          | none =>
            let (qs, whole, s) := s.openRecords sp .atomic f.miss
            if !qs.isEmpty || !whole then .wait ((s.setProg c done 0).park c qs whole)
            else
              let (peer, here) := f.ok.partition fun t => t.leaf.tier == 1
              let (now, later) := here.partition fun t => t.leaf.c
              let s := s.orderAtomn c (2 ≤ mo.ord || !peer.isEmpty || !wins.isEmpty || !now.isEmpty) [] 0
              let sp := if done = 0 then c.syncSpace s else c.space s
              let s := if 2 ≤ mo.ord then s.releaseBy sp mo.scope else s
              if !peer.isEmpty then
                let (_, s) := s.askLanes c mo peer
                .wait ((s.setProg c done 0).waitReqs c (.atomn e))
              else
                let (_, s) := performWins s sp mo wins
                let (_, s) := performAll s sp mo now
                let acted := done != 0 || !wins.isEmpty || !now.isEmpty
                let s := if done = 0 && acted then s.bumpSfr c else s
                let ops := later.zipIdx.map fun (t : LaneTr × Nat) =>
                  (⟨t.1.a.va, t.1.leaf.pte, t.1.leaf.lvl, t.1.a.x, op, o.ty, mo.scope, t.2 == 0 && !acted, c.who.half, c.path.pc⟩ : AtomnOp)
                .nextR (s.updWave c.who.core c.who.slot fun w => { w with atomn := w.atomn ++ ops })

/-! ### Scratchpad (R185, R379) -/

/-- The scratchpad allocation of the wave's block: its first offset and its length. -/
def State.spadOf (s : State) (c : Ctx) : Nat × Nat :=
  match c.w.id.blk.bind s.block? with
  | some b => (b.spadBase, b.spadLen)
  | none => (0, 0)

/-- The alignment and allocation checks of R379. -/
def spadCheck (s : State) (c : Ctx) (n : Nat) (ls : List LaneAcc) : Option (Nat × Nat) :=
  let (base, len) := s.spadOf c
  worst (ls.filterMap fun a =>
    if a.va % n ≠ 0 then some (1, Exc.misalignedAccess, a.va)
    else if a.va < base ∨ base + len < a.va + n then some (2, Exc.permission, a.va)
    else none)

/-- Every named granule's full-empty bit has the value. -/
def State.feAll (s : State) (core : Nat) (full : Bool) (ls : List LaneAcc) : Bool :=
  ls.all fun a => Sparse.get false (s.core core).fe (a.va / 16) == full
/-- The named granules' bits set or cleared. -/
def State.feSet (s : State) (core : Nat) (full : Bool) (ls : List LaneAcc) : State :=
  s.setFe core true (ls.map fun a => (a.va / 16, full))
/-- A full-empty access may perform: every named bit has the value, and a split that has waited since the order number n has
been woken: a named bit has changed since, by an access that wakes, and none later by a window store (R185).
DEDUCED, safe: notes/assumptions/88.md. -/
def State.feReady (s : State) (c : Ctx) (full : Bool) (ls : List LaneAcc) : Bool :=
  let k := s.core c.who.core
  s.feAll c.who.core full ls && match c.path.wait with
    | .on _ n =>
      let quiet := ls.foldl (fun m a => max m (Sparse.get 0 k.feQuiet (a.va / 16))) n
      ls.any fun a => quiet < Sparse.get 0 k.feWoke (a.va / 16)
    | _ => true
/-- The lowest scratchpad address read that meets an uncorrectable error (R196). -/
def State.spadError (s : State) (core n : Nat) (ls : List LaneAcc) : Option Nat :=
  (worst ((ls.filter fun a => s.spadBad core a.va n).map fun a => (0, 0, a.va))).map (·.2)

/-- The lanes of a scratchpad access, with their offsets modulo 2^32 and their data. -/
def spadLanes (c : Ctx) (m : MemArgs) (data : Nat → Nat) : List LaneAcc :=
  (lanesOf (c.memLanes m)).map fun l => ⟨l, (opVal c none 7 m.a l + offVal c m.lit m.off) % 2 ^ 32, data l, 0⟩

/-- LDL (R378, R379). -/
def ldlBody (i : Instr) (m : MemArgs) (c : Ctx) (s : State) : Res :=
  withOps s [spadAddrOk c m.a, offOk c m.lit m.off, dataOk c true m.u m.sz m.d] <|
    let ls := spadLanes c m fun _ => 0
    let n := szBytes m.sz
    match spadCheck s c n ls with
    | some (code, a) => .raise s code a
    | none =>
      let core := c.who.core
      if m.fe ≠ 0 && !s.feReady c true ls then .wait (s.waitOn c i)
      else
        match s.spadError core n ls with
        | some a => .raise s Exc.dataIntegrity a
        | none =>
          let vals := ls.map fun a => (a.l, leNat (s.spad core a.va n))
          let s := if m.fe = 2 && !ls.isEmpty then s.feSet core false ls else s
          let s := if m.fe ≠ 0 && !ls.isEmpty then ((s.orderAtomn c true [] 0).acquire core 1).bumpSfr c else s
          .next (s.put c (loadInto c m.sz m.d (c.memLanes m) vals (s.mine c)))

/-- STL (R424). -/
def stlBody (i : Instr) (m : MemArgs) (c : Ctx) (s : State) : Res :=
  withOps s [spadAddrOk c m.a, offOk c m.lit m.off, dataOk c false m.u m.sz m.d] <|
    let ls := spadLanes c m (dataVal c m.sz m.d)
    let n := szBytes m.sz
    match spadCheck s c n ls with
    | some (code, a) => .raise s code a
    | none =>
      let core := c.who.core
      let sync := m.fe ≠ 0 && !ls.isEmpty
      if m.fe ≠ 0 && !s.feReady c false ls then .wait (s.waitOn c i)
      else
        (if sync then quietly c s else id) <|
        let s := if sync then (s.orderAtomn c true [] 0).releaseBy (c.space s) 1 else s
        let s := ls.foldl (fun s a => s.setSpad core a.va (leBytes n a.x)) s
        if sync then .nextR ((s.feSet core true ls).bumpSfr c) else .next s

/-! ### Packed elements (R190, R345, R361) -/

/-- The lanes CMPST and EXPLD select, ascending. -/
def selected (c : Ctx) (e : Ext) : List Nat :=
  lanesOf (c.active e.pg e.pn &&& c.pred e.b9.toNat (e.m 12 1 == 1))

/-- What performing the elements from one on comes to. -/
inductive Packed where
  | done (s : State)
  | stop (r : Res)

/-- The elements of CMPST or EXPLD, one after another from element k (R190). An element at a window address that the process
owns is accessed as a load or a store there is (R184).
DESIGN CHOICE, unsafe: notes/assumptions/104.md. -/
def packElems (i : Instr) (o : MemOp) (base : Nat) (put : List (Nat × Nat) → Wave → Wave) (c : Ctx) (data : Nat → Nat) :
    Nat → List Nat → State → Packed
  | _, [], s => .done s
  | k, l :: ls, s =>
    let a : LaneAcc := ⟨l, (base + k * o.n) % 2 ^ 64, data l, 0⟩
    let at' (x : Nat) : Nat := x % 2 ^ 52 + k * 2 ^ 52
    let s := s.setProg c 0 k
    let rs := (s.reqsOf c).filter fun r => r.lane = l
    match rs.head? with
    | some r =>
      let s := s.dropReqs c
      match r.value o a.va with
      | some v => packElems i o base put c data (k + 1) ls (s.put c (put [(l, v)] (s.mine c)))
      | none =>
        match negative [r] with
        | some (code, x) => .stop (.raise s code (at' x))
        | none => .stop (.wait (s.waitReqs c i))
    | none =>
      let sp := c.space s
      match lanesOk s sp.proc o [a] with
      | some (code, x) => .stop (.raise s code (at' x))
      | none =>
        let s := s.orderAtomn c false [a] o.n
        let (p, s) := access s sp o [a]
        match p.fault with
        | some (code, x) => .stop (.raise s code (at' x))
        | none =>
          if !p.parked.isEmpty || p.filling then
            .stop (.wait (s.park c (p.parked.map fun x => (x.1, at' x.2)) (!p.filling)))
          else
            let (vs, s) := s.askLanes c o p.peer
            if vs.length < p.peer.length then .stop (.wait (s.waitReqs c i))
            else packElems i o base put c data (k + 1) ls (s.put c (put (p.vals ++ vs) (s.mine c)))

/-- CMPST (R344, R345); with no Active lane it performs nothing but sD, its uniform result (R83, R201).
DEDUCED, safe: notes/assumptions/19.md. -/
def cmpstBody (e : Ext) (c : Ctx) (s : State) : Res :=
  let sz := e.m 9 3
  let n := szBytes sz
  let ord := e.m 0 2
  withOps s [sDst c e.d9.toNat, sRun c e.a9.toNat, predOk e.b9.toNat, { dataOk c false false sz e.c9.toNat with
      valid := e.c9.toNat < 320 && (dataOk c false false sz e.c9.toNat).valid }] <|
    let base := (c.sVal e.a9.toNat).toNat
    if c.active e.pg e.pn = 0 then .next (s.put c (writeS c (s.mine c) e.d9.toNat (BitVec.ofNat 64 base)))
    else
      if base % n ≠ 0 then .raise s Exc.misalignedAccess (base % 2 ^ 52 + c.progress.k * 2 ^ 52)
      else
        let sel := selected c e
        let k := c.progress.k
        (if ord = 2 && k = 0 && c.path.prog.isNone then quietly c s else id) <|
        let s := if ord = 2 then
            let s := (s.orderAtomn c true [] 0).releaseBy (c.space s) (e.m 2 3)
            if k = 0 && (c.path.prog).isNone then s.bumpSfr c else s
          else s
        let o : MemOp := ⟨.write, n, 0, e.m 2 3, false, none⟩
        match packElems (.cmpst e) o base (fun _ w => w) c (dataVal c sz e.c9.toNat) k (sel.drop k) s with
        | .stop r => r
        | .done s =>
          let s := s.put c (writeS c (s.mine c) e.d9.toNat (BitVec.ofNat 64 (base + sel.length * n)))
          if ord = 2 then .nextR s else .next s

/-- EXPLD (R360, R361); with no Active lane it performs nothing but sE, its uniform result (R83, R201).
DEDUCED, safe: notes/assumptions/19.md. -/
def expldBody (e : Ext) (c : Ctx) (s : State) : Res :=
  let sz := e.m 9 3
  let n := szBytes sz
  let ord := e.m 0 2
  withOps s [{ dataOk c true false sz e.d9.toNat with valid := e.d9.toNat < 320 && (dataOk c true false sz e.d9.toNat).valid },
      sRun c e.a9.toNat, predOk e.b9.toNat, sDst c e.c9.toNat] <|
    let base := (c.sVal e.a9.toNat).toNat
    if c.active e.pg e.pn = 0 then .next (s.put c (writeS c (s.mine c) e.c9.toNat (BitVec.ofNat 64 base)))
    else
      if base % n ≠ 0 then .raise s Exc.misalignedAccess (base % 2 ^ 52 + c.progress.k * 2 ^ 52)
      else
        let sel := selected c e
        let k := c.progress.k
        let o : MemOp := ⟨.read, n, 0, e.m 2 3, false, none⟩
        match packElems (.expld e) o base (loadInto c sz e.d9.toNat 0) c (fun _ => 0) k (sel.drop k) s with
        | .stop r => r
        | .done s =>
          let s := if ord = 1 then ((s.orderAtomn c true [] 0).acquire c.who.core (e.m 2 3)).bumpSfr c else s
          .next (s.put c (writeS c (s.mine c) e.c9.toNat (BitVec.ofNat 64 (base + sel.length * n))))

/-! ### Fences (R208 to R211) -/

/-- FENCE (R209): what the wave has asked of peers is answered first. -/
def fenceBody (e : Ext) (c : Ctx) (s : State) : Res :=
  if c.act e.u e.pg e.pn = 0 then .next s
  else quietly c s <|
    let ord := e.m 0 2
    let s := s.orderAtomn c true [] 0
    let s := if 2 ≤ ord then s.releaseBy (c.space s) (e.m 2 3) else s
    let s := if ord % 2 = 1 then s.acquire c.who.core (e.m 2 3) else s
    .next (s.bumpSfr c)

/-- FENCEO (R210): a synchronisation operation of its wave that costs nothing more. -/
def fenceoBody (c : Ctx) (s : State) : Res :=
  if c.path.mask &&& c.w.live = 0 then .next s else .next ((s.orderAtomn c true [] 0).bumpSfr c)

/-- The cores of the unit that have been used. -/
def State.unitCores (s : State) (scope core : Nat) : List Nat :=
  ((s.cores.map fun (x : Nat × Core) => x.1).filter fun k =>
    match scope with
    | 0 | 1 => k == core
    | 2 => clusterOf k == clusterOf core && k != mgmtCore
    | 3 => dieOf k == dieOf core && k != mgmtCore
    | _ => true)

/-- The waves a FENCER cuts (R211): those of the process on the cores of its unit.
DEDUCED, safe: notes/assumptions/15.md. -/
def State.cutWaves (s : State) (proc : BitVec 32) (cores : List Nat) : List (Nat × Nat × Wave) :=
  cores.flatMap fun k => ((s.core k).waves.filter fun (x : Nat × Wave) => x.2.id.proc == proc).map fun x => (k, x.1, x.2)

/-- A saved wave of the process exists.
DEDUCED, safe: notes/assumptions/15.md. -/
def State.savedWave (s : State) (proc : BitVec 32) : Bool :=
  s.kern.objs.any fun (x : Nat × Obj) => match x.2.body with | .wave _ _ _ (some w) _ _ _ => w.id.proc == proc | _ => false

/-- The loads and stores of cut waves that have not performed: reads, writes, atomics and multicasts sent no later than the
cut. -/
def State.openReqs (s : State) (cut : List (Nat × Nat × Wave)) (t : Nat) : Bool :=
  s.league.reqs.any fun r =>
    [1, 3, 5, 7].contains r.pkt.type.toNat && r.answer.isNone && r.at' ≤ t && cut.any fun x => x.2.2.id.handle == r.handle

/-- FENCER (R211): once the wave's own requests have been answered the cut is taken; the cut waves' pending atomics perform,
the dirty copies of the cores of the unit are pushed to the level of the scope and their clean copies below it dropped, and
the split waits while a request sent before the cut is unanswered.
DEDUCED, safe: notes/assumptions/15.md. -/
def fencerBody (e : Ext) (c : Ctx) (s : State) : Res :=
  if c.act e.u e.pg e.pn = 0 then .next s
  else
    (if c.progress.k = 0 then quietly c s else id) <|
    let scope := e.m 2 3
    let cores := if s.savedWave c.w.id.proc then s.cores.map fun (x : Nat × Core) => x.1 else s.unitCores scope c.who.core
    let cut := s.cutWaves c.w.id.proc (s.unitCores scope c.who.core)
    let t := if c.progress.k = 0 then s.now else c.progress.k - 1
    let s := cut.foldl (fun s x => s.drainAtomn x.1 x.2.1) s
    let s := s.drainOrphans cores.contains
    let s := cores.foldl (fun s k => s.release k scope) s
    let s := cores.foldl (fun s k => s.acquire k scope) s
    if s.openReqs cut t then .wait ((s.setProg c 0 (t + 1)).waitOn c (.fencer e))
    else .next ((s.widenRecords (c.space s) scope).bumpSfr c)

/-! ### Cache maintenance (R337, R338, R406) -/

/-- PREF (R406): only the checks of its encoding and operands; it consumes no data, and an error in a register raises
nothing. -/
def prefBody (e : Ext) (c : Ctx) (s : State) : Res :=
  withOps s ([addrOk c e.a9.toNat, offOk c e.lit e.b9.toNat].map fun o => { o with sound := true }) (.next s)

/-- A granule's dirty bytes in the first n units of a path pushed to the unit after them, the copies staying valid. -/
def State.flushGran (s : State) (g : Nat) : List Nat → Nat → State
  | _, 0 => s
  | [], _ => s
  | u :: us, n + 1 => (s.flushGran g us n).pushCopy u (us.take n) (us.drop n) g

/-- What the pages of a range translate to: granule keys by page, and the first exception. -/
structure Ranges where
  /-- First granule key and number of granules. -/
  gran : List (Nat × Nat)
  bad : List Nat
  /-- An address whose walk met an uncorrectable error, and where (R196). -/
  lost : List (Nat × Nat)
  deriving DecidableEq, Repr

/-- The pages of a range translated (R338): a page met with V = 0 is skipped, and so is a
window address, which is never translated (R178). -/
def State.rangePages (s : State) (sp : Space) (lo hi : Nat) : List Nat → Ranges × State
  | [] => (⟨[], [], []⟩, s)
  | pg :: ps =>
    let a := max lo (pg * 4096)
    let b := min hi (pg * 4096 + 4096)
    if a ≥ 2 ^ 52 then
      let (r, s) := s.rangePages sp lo hi ps
      ({ r with bad := a :: r.bad }, s)
    else if isWindow a then s.rangePages sp lo hi ps
    else
      let (t, s) := s.translate sp a
      let (r, s) := s.rangePages sp lo hi ps
      match t with
      | .miss _ => (r, s)
      | .bad => ({ r with bad := a :: r.bad }, s)
      | .lost pa => ({ r with lost := (a, pa) :: r.lost }, s)
      | .ok l =>
        if l.malformed then ({ r with bad := a :: r.bad }, s)
        else
          let key := if l.tier = 1 then peerGran (l.pa a) else l.pa a / 16
          if l.tier = 2 then (r, s) else ({ r with gran := (key, (b - a) / 16) :: r.gran }, s)

/-- The copies of the range's granules that a unit holds. -/
def State.rangeCopies (s : State) (u : Nat) (rs : List (Nat × Nat)) : List Nat :=
  ((Sparse.get [] s.mem.copies u).map fun (x : Nat × Copy) => x.1).filter fun g =>
    rs.any fun r => r.1 ≤ g && g < r.1 + r.2

/-- The body of CFLUSH, and of CINV with `inv` (R338). -/
def maintBody (inv : Bool) (e : Ext) (c : Ctx) (s : State) : Res :=
  let b := e.b9.toNat
  withOps s [sRun c e.a9.toNat, if 320 ≤ b ∧ b < 384 then sRun c b else offOk c e.lit b] <|
    if c.act true e.pg e.pn = 0 then .next s
    else
      let base := (c.sVal e.a9.toNat).toNat
      let len := offVal c e.lit b
      if isWindow base ∨ len > 2 ^ 32 then .raise s Exc.invalidOperand 0
      else if len = 0 then .next s
      else
        let s := s.orderAtomn c true [] 0
        let lo := base / 128 * 128
        let hi := (base + len + 127) / 128 * 128
        let sp := c.space s
        let (r, s) := s.rangePages sp lo hi ((List.range ((hi - 1) / 4096 - lo / 4096 + 1)).map fun k => lo / 4096 + k)
        match r.lost, r.bad with
        | x :: _, _ =>
          .raise (r.lost.foldl (fun s y => s.retire y.2) s) Exc.dataIntegrity (max base (r.lost.foldl (fun m y => min m y.1) x.1))
        | [], _ :: _ => .raise s Exc.permission (max base (r.bad.foldl min (2 ^ 64)))
        | [], [] =>
          let scope := e.m 2 3
          let cores := s.unitCores scope c.who.core
          let d := scopeDepth scope
          let units := fun k => (cachePath k).take d
          let s := cores.foldl (fun s k => s.flushWaves k fun g => r.gran.any fun x => x.1 ≤ g && g < x.1 + x.2) s
          let s := cores.foldl (fun s k => ((units k).flatMap fun u => s.rangeCopies u r.gran).foldl
            (fun s g => s.flushGran g (cachePath k) d) s) s
          if !inv then .next s
          else
            let s := cores.foldl (fun s k => (units k).foldl (fun s u =>
              (s.rangeCopies u r.gran).foldl (fun s g => s.dropCopy u g) s) s) s
            .next (cores.foldl (fun s k => s.updCore k fun q => { q with icache := q.icache.filter fun (x : Nat × BitVec 512) =>
              !(x.1 / 2 ^ 46 == sp.pasid.toNat && lo / 64 ≤ x.1 % 2 ^ 46 && x.1 % 2 ^ 46 < (hi + 63) / 64) }) s)

/-! ### Events -/

/-- The splits of the wave in a slot, with the halves and paths that satisfy a test, changed. -/
def Wave.mapPaths (w : Wave) (f : Path → Path) : Wave :=
  { w with halves := w.halves.map fun h =>
      { h with base := f h.base, stack := h.stack.map fun e => { e with paths := e.paths.map f } } }

/-- Every resident wave changed. -/
def State.mapWaves (s : State) (f : Nat → Nat → Wave → Wave) : State :=
  { s with cores := s.cores.map fun (x : Nat × Core) =>
      (x.1, { x.2 with waves := x.2.waves.map fun (y : Nat × Wave) => (y.1, f x.1 y.1 y.2) }) }

/-- A record of a fault buffer answered: it goes once it has been popped as well. -/
def FaultBuf.answer (b : FaultBuf) (seq : BitVec 16) : FaultBuf :=
  { b with recs := (b.recs.map fun r => if r.seq = seq then { r with answered := true } else r).filter fun r =>
      !(r.popped && r.answered) }

/-- The unanswered record of a sequence number. -/
def State.faultRec? (s : State) (die : Nat) (seq : BitVec 16) : Option FaultRec :=
  (s.mem.fbuf[die]?).bind fun b => b.recs.find? fun r => r.seq = seq && !r.answered

/-- A split parked on a record goes back to the translation unit when it is answered: its accesses walk again, but for those
another record still holds; a fetch waits for all of its records (R80, R188).
DEDUCED, safe: notes/assumptions/14.md. -/
def Path.answered (seq : BitVec 16) (fetch : Bool) (p : Path) : Path :=
  match p.wait with
  | .parked qs =>
    let left := qs.filter fun x => x.1 ≠ seq
    if left.length = qs.length then p
    else if fetch && !left.isEmpty then { p with wait := .parked left }
    else { p with wait := .filling, prog := some { p.progress with held := left } }
  | _ => { p with prog := p.prog.map fun q => { q with held := q.held.filter fun x => x.1 ≠ seq } }

/-- A command parked on a record is walked again when no other record holds it. -/
def CmdSt.answered (seq : BitVec 16) : CmdSt → CmdSt
  | .parked qs k => .parked (qs.filter fun x => x.1 ≠ seq) k
  | c => c

/-- A command whose fill is served goes on from its stage. -/
def CmdSt.filled : CmdSt → CmdSt
  | .parked [] 0 => .fired
  | .parked [] 2 => .landed
  | .parked [] 3 => .written
  | .parked [] _ => .counting
  | c => c

/-- The die of a core's translation unit. -/
def unitDie (core : Nat) : Nat := if core = mgmtCore then 0 else dieOf core

/-- A fault record of die 0 is answered: the device's own reads and writes for queues and launches that it parked go on, or
have raised (R43, R188, R293, R295). -/
def State.hostAnswered (s : State) (die : Nat) (seq : BitVec 16) (raise : Bool) : State :=
  if die ≠ 0 then s
  else
    let left (qs : List (BitVec 16 × Nat)) : List (BitVec 16 × Nat) := qs.filter fun x => x.1 ≠ seq
    let hit (qs : List (BitVec 16 × Nat)) : Bool := raise && qs.any fun x => x.1 == seq
    let pkt (x : QPkt) : QPkt := { x with parked := left x.parked }
    let launch (x : Launch) : Launch := match x.st with
      | .checking qs => { x with st := .checking (left qs), raised := x.raised || hit qs }
      | .ending qs => { x with st := .ending (left qs), raised := x.raised || hit qs }
      | _ => x
    { s with host := { s.host with
        queues := s.host.queues.map fun (x : Nat × Queue) => (x.1, { x.2 with pkts := x.2.pkts.map pkt })
        launches := s.host.launches.map fun (x : Nat × Launch) => (x.1, launch x.2) } }

/-- The halves of a die's cores whose re-read of pending targets is parked on a record alone (R76). -/
def State.rereads (s : State) (die : Nat) (seq : BitVec 16) : List Who :=
  s.cores.flatMap fun (x : Nat × Core) =>
    if unitDie x.1 ≠ die then []
    else x.2.waves.flatMap fun (y : Nat × Wave) =>
      y.2.halves.zipIdx.filterMap fun (h : Half × Nat) =>
        if !h.1.reread.isEmpty && h.1.reread.all (fun q => q.1 == seq) then some ⟨x.1, y.1, h.2, 0⟩ else none

/-- A response with ACT = 0 (R188): what the record held walks again, a re-read of pending targets at once (R76).
DEDUCED, safe: notes/assumptions/14.md. -/
def State.walkAgain (s : State) (die : Nat) (seq : BitVec 16) : State :=
  match s.faultRec? die seq with
  | none => s
  | some r =>
    let s := { s with mem := { s.mem with fbuf := updAt (fun b => b.answer seq) die s.mem.fbuf } }
    let s := s.hostAnswered die seq false
    let go (w : Wave) : Wave := w.mapPaths (Path.answered seq (r.kind == 3))
    (s.rereads die seq).foldl (fun s a => s.merge 70 a)
      { s with cores := s.cores.map fun (x : Nat × Core) =>
          if unitDie x.1 = die then
            (x.1, { x.2 with
              copyq := x.2.copyq.map fun (y : Cmd) => { y with st := y.st.answered seq }
              fifo := x.2.fifo.map fun (y : Cmd) => { y with st := y.st.answered seq }
              waves := x.2.waves.map fun (y : Nat × Wave) =>
                (y.1, { go y.2 with
                  due := y.2.due.map fun d => { d with parked := d.parked.filter fun q => q.1 ≠ seq }
                  halves := (go y.2).halves.map fun h => { h with reread := h.reread.filter fun q => q.1 ≠ seq } }) })
          else x }

/-- The splits of a die's cores that a record holds, parked, or with accesses of it that have not walked again yet beside
others: the split, whether it is a re-read of pending targets, and the lowest faulting address. -/
def State.parkedOn (s : State) (die : Nat) (seq : BitVec 16) : List (Who × Bool × Nat) :=
  s.cores.flatMap fun (x : Nat × Core) =>
    if unitDie x.1 ≠ die then []
    else x.2.waves.flatMap fun (y : Nat × Wave) =>
      y.2.halves.zipIdx.flatMap fun (h : Half × Nat) =>
        (h.1.paths.zipIdx.filterMap fun (p : Path × Nat) => match p.1.wait with
          | .parked qs => (qs.lookup seq).map fun a => (⟨x.1, y.1, h.2, p.2⟩, false, a)
          | _ => (p.1.progress.held.lookup seq).map fun a => (⟨x.1, y.1, h.2, p.2⟩, false, a)) ++
        ((h.1.reread.lookup seq).toList.map fun a => (⟨x.1, y.1, h.2, 0⟩, true, a))

/-- A fault of a core's firmware agent at its instruction (R255). -/
def State.agentFault (s : State) (core code addr : Nat) : State :=
  match s.ctx? ⟨core, 0, 0, 0⟩ with
  | some c => s.takeException c false code c.path.pc addr
  | none => s

/-- A response with ACT = 1 to a record on which the targets of trap returns are parked: TRANSLATION is raised at the agents
that return, and the waves stay as they are (R80, R188). -/
def State.raiseDue (s : State) (die : Nat) (seq : BitVec 16) : State :=
  (s.cores.filter fun (x : Nat × Core) => unitDie x.1 = die).foldl (fun s x => x.2.waves.foldl (fun s y =>
    match y.2.due.find? fun d => (d.parked.lookup seq).isSome with
    | some d =>
      (s.updWave x.1 y.1 fun w => { w with due := w.due.erase d }).agentFault x.1 Exc.translation ((d.parked.lookup seq).getD 0)
    | none => s) s) s

/-- A response with ACT = 1 raises TRANSLATION in each split parked on the record (R188).
DEDUCED, safe: notes/assumptions/14.md. -/
def State.raiseParked (s : State) (die : Nat) (seq : BitVec 16) : State :=
  match s.faultRec? die seq with
  | none => s
  | some _ =>
    let ws := s.parkedOn die seq
    let s := (s.hostAnswered die seq true).raiseDue die seq
    let s := { s with mem := { s.mem with fbuf := updAt (fun b => b.answer seq) die s.mem.fbuf } }
    ws.foldl (fun s x =>
      match s.ctx? x.1 with
      | none => s
      | some c =>
        if x.2.1 then
          let pc := (c.half.stack.head?.bind (·.jmpi)).getD c.path.pc
          (s.updWave c.who.core c.who.slot fun w => w.updHalf c.who.half fun h => { h with reread := [] }).takeException c true
            Exc.translation pc x.2.2
        else
          (s.updPath c fun p => { p with wait := .ready }).takeException c false Exc.translation c.path.pc x.2.2) s

/-- Minimal mode serves the management core, PF configuration space, the mailbox and BOOTSTAT alone (R304): the fault
buffers, the window table, the League's ports and the virtual functions do nothing. -/
def State.unlessMin (s : State) (k : State → State) : State := if s.boot.min then s else k s

/-- FBRESP_WALK_AGAIN (R188, R304). -/
def execFbrespWalkAgain (die : Nat) (seq : BitVec 16) (s : State) : Host.Outcome State Fault Refusal :=
  .next (s.unlessMin fun s => s.walkAgain die seq)

/-- The oldest record of a fault buffer not popped is popped, without being answered (R188). -/
def State.fbpop (s : State) (die : Nat) : State :=
  { s with mem := { s.mem with fbuf := updAt (fun b =>
    { b with recs := (updAt (fun r => { r with popped := true }) ((b.recs.findIdx? fun r => !r.popped).getD b.recs.length)
        b.recs).filter fun r => !(r.popped && r.answered) }) die s.mem.fbuf } }

/-- FBPOP (R188, R304). -/
def execFbpop (die : Nat) (s : State) : Host.Outcome State Fault Refusal := .next (s.unlessMin fun s => s.fbpop die)

/-- TRANSLATION_FILL (R186): the splits of a wave that wait in the translation unit, or a core's parked copy command,
walk again. -/
def execTranslationFill (core slot : Nat) (eng : Bool) (s : State) : Host.Outcome State Fault Refusal :=
  .next <|
    if eng then s.updCore core fun k =>
      { k with
        copyq := k.copyq.map fun (x : Cmd) => { x with st := x.st.filled }
        fifo := k.fifo.map fun (x : Cmd) => { x with st := x.st.filled } }
    else s.updWave core slot fun w => w.mapPaths fun p => if p.wait = .filling then { p with wait := .ready } else p

/-! ### Errors (R196, R197) -/

/-- An uncorrectable error comes up: one in a dirty line loses the line, and its page is retired (R197). That of an HBM sector
stays, whatever is written there.
DESIGN CHOICE, safe: notes/assumptions/94.md; DESIGN CHOICE, unsafe: notes/assumptions/110.md. -/
def State.struck (s : State) : Config.Strike → State
  | .sector x => if s.mem.ecc.contains x then s else { s with mem := { s.mem with ecc := x :: s.mem.ecc } }
  | .copy u g =>
    match s.copy? u g with
    | none => s
    | some c =>
      if c.dirty = 0 then s.setCopy u g { c with bad := true }
      else (s.dropCopy u g).retire (16 * g)
  | .spad c g => s.updCore c fun k => if k.badSpad.contains g then k else { k with badSpad := g :: k.badSpad }
  | .reg c k n =>
    s.updWave c k fun w => if n = 320 || 384 ≤ n || w.badRegs.contains n then w else { w with badRegs := n :: w.badRegs }
  | .matrix c t i => s.updMSet c t fun m => if 12 ≤ i || m.bad.contains i then m else { m with bad := i :: m.bad }

/-- ATOMN_PERFORM (R321). -/
def execAtomnPerform (core slot : Nat) (s : State) : Host.Outcome State Fault Refusal :=
  .next ((s.drainAtomn core slot).drainOrphans (· == core))

/-- FULL_EMPTY_WAKE (R185). -/
def execFullEmptyWake (w : Who) (s : State) : Host.Outcome State Fault Refusal :=
  .next (s.resume w fun i => match i with
    | .ldlExt e => some (some e, ldlBody i (Ext.loadArgs e))
    | .stlExt e => some (some e, stlBody i (Ext.storeArgs e))
    | _ => none)

/-- FENCER_COMPLETE (R211). -/
def execFencerComplete (w : Who) (s : State) : Host.Outcome State Fault Refusal :=
  .next (s.resume w fun i => match i with
    | .fencer e => some (some e, fencerBody e)
    | _ => none)

/-- The units a copy passes on its way from a unit to the home (R177). -/
def belowUnit (u : Nat) : List Nat :=
  if waveUnit 0 0 ≤ u then cachePath ((u - waveUnit 0 0) / 32)
  else if u < 128 then [128 + clusterOf u, 160 + dieOf u] else if u < 160 then [160 + dieOfCluster (u - 128)] else []

/-- CACHE_LINE_WRITE_BACK (R207): a line leaves a cache level, its dirty bytes going to the next.
DESIGN CHOICE, safe: notes/assumptions/6.md. -/
def execCacheLineWriteBack (unit line : Nat) (s : State) : Host.Outcome State Fault Refusal :=
  .next ((List.range 8).foldl (fun s k => (s.pushCopy unit [] (belowUnit unit) (8 * line + k)).dropCopy unit (8 * line + k)) s)

/-- LD REG (R377). -/
def execLdReg (f : BM) (s : State) : Host.Outcome State Fault Refusal :=
  runWave (.ldReg f) none (ldBody (.ldReg f) (BM.args f)) s

/-- LD LIT (R377). -/
def execLdLit (f : BML) (s : State) : Host.Outcome State Fault Refusal :=
  runWave (.ldLit f) none (ldBody (.ldLit f) (BML.args f)) s

/-- LD EXT (R377). -/
def execLdExt (e : Ext) (s : State) : Host.Outcome State Fault Refusal :=
  runWave (.ldExt e) (some e) (ldBody (.ldExt e) (Ext.loadArgs e)) s

/-- LDL REG (R379). -/
def execLdlReg (f : BM) (s : State) : Host.Outcome State Fault Refusal :=
  runWave (.ldlReg f) none (ldlBody (.ldlReg f) (BM.args f)) s

/-- LDL LIT (R379). -/
def execLdlLit (f : BML) (s : State) : Host.Outcome State Fault Refusal :=
  runWave (.ldlLit f) none (ldlBody (.ldlLit f) (BML.args f)) s

/-- LDL EXT (R379). -/
def execLdlExt (e : Ext) (s : State) : Host.Outcome State Fault Refusal :=
  runWave (.ldlExt e) (some e) (ldlBody (.ldlExt e) (Ext.loadArgs e)) s

/-- ST REG (R423). -/
def execStReg (f : BM) (s : State) : Host.Outcome State Fault Refusal :=
  runWave (.stReg f) none (stBody (.stReg f) (BM.args f)) s

/-- ST LIT (R423). -/
def execStLit (f : BML) (s : State) : Host.Outcome State Fault Refusal :=
  runWave (.stLit f) none (stBody (.stLit f) (BML.args f)) s

/-- ST EXT (R423). -/
def execStExt (e : Ext) (s : State) : Host.Outcome State Fault Refusal :=
  runWave (.stExt e) (some e) (stBody (.stExt e) (Ext.storeArgs e)) s

/-- STL REG (R424). -/
def execStlReg (f : BM) (s : State) : Host.Outcome State Fault Refusal :=
  runWave (.stlReg f) none (stlBody (.stlReg f) (BM.args f)) s

/-- STL LIT (R424). -/
def execStlLit (f : BML) (s : State) : Host.Outcome State Fault Refusal :=
  runWave (.stlLit f) none (stlBody (.stlLit f) (BML.args f)) s

/-- STL EXT (R424). -/
def execStlExt (e : Ext) (s : State) : Host.Outcome State Fault Refusal :=
  runWave (.stlExt e) (some e) (stlBody (.stlExt e) (Ext.storeArgs e)) s

/-- CMPST (R345). -/
def execCmpst (e : Ext) (s : State) : Host.Outcome State Fault Refusal :=
  runWave (.cmpst e) (some e) (cmpstBody e) s

/-- EXPLD (R361). -/
def execExpld (e : Ext) (s : State) : Host.Outcome State Fault Refusal :=
  runWave (.expld e) (some e) (expldBody e) s

/-- ATOM (R319). -/
def execAtom (e : Ext) (s : State) : Host.Outcome State Fault Refusal :=
  runWave (.atom e) (some e) (atomBody e) s

/-- ATOMN (R321). -/
def execAtomn (e : Ext) (s : State) : Host.Outcome State Fault Refusal :=
  runWave (.atomn e) (some e) (atomnBody e) s

/-- FENCE (R209). -/
def execFence (e : Ext) (s : State) : Host.Outcome State Fault Refusal :=
  runWave (.fence e) (some e) (fenceBody e) s

/-- FENCER (R211). -/
def execFencer (e : Ext) (s : State) : Host.Outcome State Fault Refusal :=
  runWave (.fencer e) (some e) (fencerBody e) s

/-- PREF (R406). -/
def execPref (e : Ext) (s : State) : Host.Outcome State Fault Refusal :=
  runWave (.pref e) (some e) (prefBody e) s

/-- FENCEO (R210). -/
def execFenceo (sc : BitVec 3) (s : State) : Host.Outcome State Fault Refusal :=
  runWave (.fenceo sc) none fenceoBody s

/-- CFLUSH (R338). -/
def execCflush (e : Ext) (s : State) : Host.Outcome State Fault Refusal :=
  runWave (.cflush e) (some e) (maintBody false e) s

/-- CINV (R338). -/
def execCinv (e : Ext) (s : State) : Host.Outcome State Fault Refusal :=
  runWave (.cinv e) (some e) (maintBody true e) s

end Sys2Proof.Machine
end

