-- ==== Sys2Proof/Machine/Image.lean ====
section
/-!
DEFINITION. The context image of a wave (R71 to R77): its bytes, the checks of an image, and the wave read back from one;
saving a wave and freeing its slot (R58, R60, R61, R233, R352), and loading it into a slot (R61, R351).
-/

namespace Sys2Proof.Machine

/-- A PC as a signed 29-bit word offset from the code base (R72). -/
def pcWord (base pc : Dword) : Nat := (pc - base).toNat / 4 % 2 ^ 29
/-- The PC of an offset word. -/
def pcOfWord (base : Dword) (x : Nat) : Dword := base + ((BitVec.ofNat 29 x).signExtend 64 <<< 2)

/-- The cycles counted by a resident wave at a device time: 1.3 in each nanosecond (R54, selector 15). -/
def Wave.cyclesAt (w : Wave) (now : Nat) : Nat := w.cycles + (now - w.since) * 13 / 10

/-- A level record (R75): zeros where the level is not active. -/
def levelBytes (base : Dword) : Option Level → List Byte
  | none => List.replicate 16 0
  | some l =>
    leBytes 4 (pcWord base l.start + (l.stages - 1) % 8 * 2 ^ 29) ++ leBytes 4 (pcWord base l.stop + b2n l.rot * 2 ^ 31) ++
      leBytes 4 l.remaining ++ leBytes 4 l.index

/-- A level's record number: a half of a ganged wave holds two (R33). -/
def levelNo (half n : Nat) : Nat := 2 * half + n

/-- The level records of a wave: lc0 to lc3, or lc0 and lc1 of each half.
DEDUCED, unsafe: notes/assumptions/38.md. -/
def Wave.levelRecords (w : Wave) (get : Half → List (Option Level)) : List (Option Level) :=
  if w.id.gang then
    w.halves.flatMap fun h => (get h).take 2 ++ List.replicate (2 - (get h).length) none
  else (w.halves.head?.map get).getD []

/-- Which of four level records are active, as bits. -/
def activeBits (ls : List (Option Level)) : Nat := pack 1 (ls.map fun l => b2n l.isSome)

/-- The path words an entry's image holds (R75): PC, running, arrived, lanes. The paths that have arrived share one word
at the join while one of the four is left; otherwise their lanes stand in no word. -/
def Entry.words (e : Entry) : List (Dword × Bool × Bool × Mask) :=
  let live := (e.paths.filter fun p => !p.arrived).map fun p => (p.pc, p.running, false, p.mask)
  let arr := e.paths.foldl (fun m p => if p.arrived then m ||| p.mask else m) 0
  if arr = 0 ∨ live.length ≥ 4 then live.take 4 else live ++ [(e.join, false, true, arr)]

/-- The bytes of a stack entry (R75). -/
def entryBytes (base : Dword) (e : Entry) : List Byte :=
  let ws := e.words
  let code (l : Nat) : Nat :=
    match ws.findIdx? fun x => x.2.2.2.getLsbD l with
    | some k => k
    | none => if e.pending.getLsbD l then 4 else 7
  leBytes 4 (pcWord base e.join + b2n e.jmpi.isSome * 2 ^ 29) ++
    ((List.range 4).flatMap fun k => match ws[k]? with
      | some (pc, run, arr, _) => leBytes 4 (pcWord base pc + b2n arr * 2 ^ 30 + b2n run * 2 ^ 31)
      | none => leBytes 4 0) ++
    leBytes 24 (pack 3 ((List.range 64).map code)) ++
    ((List.range 4).flatMap fun n => leBytes 2 ((e.iters.getD n none).getD 0 % 65536))

/-- The stack entries of a half in the image: the bottom entry is entry 0.
DESIGN CHOICE, unsafe: notes/assumptions/93.md. -/
def stackBytes (base : Dword) (n : Nat) (h : Half) : List Byte :=
  let es := h.stack.reverse.take n
  es.flatMap (entryBytes base) ++ List.replicate (52 * (n - es.length)) 0
/-- The JMPI addresses of a half's entries (R71).
DESIGN CHOICE, unsafe: notes/assumptions/93.md. -/
def jmpiBytes (base : Dword) (n : Nat) (h : Half) : List Byte :=
  let es := h.stack.reverse.take n
  (es.flatMap fun e => leBytes 4 ((e.jmpi.map (pcWord base)).getD 0)) ++ List.replicate (4 * (n - es.length)) 0

/-- The lane state codes (R73).
DEDUCED, unsafe: notes/assumptions/38.md. -/
def Wave.laneCode (w : Wave) (l : Nat) : Nat :=
  if w.exited.getLsbD l then 5
  else match w.removed.findIdx? fun m => m.getLsbD l with
    | some n => 1 + n
    | none => 0

/-- CTLHDR (R74). -/
def Wave.header (w : Wave) : Nat :=
  let depth (k : Nat) : Nat := (w.halves[k]?.map fun h => h.stack.length).getD 0
  w.regcnt.toNat + activeBits (w.levelRecords (·.snap)) * 2 ^ 22 + activeBits (w.levelRecords (·.levels)) * 2 ^ 26 +
    w.srrb.toNat * 2 ^ 30 + w.rrb.toNat * 2 ^ 36 + w.hold.toNat * 2 ^ 42 + (if w.id.gang then depth 1 else 0) * 2 ^ 46 +
    depth 0 * 2 ^ 50 + b2n w.id.gang * 2 ^ 55 + 2 ^ 56

/-- The control area (R73). -/
def Wave.control (w : Wave) (now : Nat) : List Byte :=
  let base := w.id.codeBase
  let pcs (k : Nat) : List Byte := match w.halves[k]? with
    | some h => leBytes 4 (pcWord base h.base.pc) ++ leBytes 4 (pcWord base h.region)
    | none => leBytes 8 0
  leBytes 8 w.header ++ leBytes 8 (base.toNat % 2 ^ 52) ++ leBytes 8 (w.cyclesAt now) ++ pcs 0 ++
    (if w.id.gang then pcs 1 else leBytes 8 0) ++
    leBytes 24 (pack 3 ((List.range 64).map w.laneCode)) ++
    ((w.levelRecords (·.levels)).take 4).flatMap (levelBytes base) ++
    ((w.levelRecords (·.snap)).take 4).flatMap (levelBytes base) ++
    (if w.id.gang then w.halves.flatMap (stackBytes base 8) else (w.halves.head?.map (stackBytes base 16)).getD [])

/-- The physical registers of the blocks held, in ascending order (R71). -/
def heldRegs (hold : BitVec 4) : List Nat :=
  (List.range 5).flatMap fun k => if k = 0 || hold.getLsbD (k - 1) then (List.range 64).map fun n => 64 * k + n else []

/-- A wave's context image (R71). -/
def Wave.image (w : Wave) (now : Nat) : List Byte :=
  let held := heldRegs w.hold
  let tag (n : Nat) : Nat := if held.contains n then (Sparse.get VReg.zero w.regs.v n).tag.toNat else 0
  w.control now ++
    ((List.range 64).flatMap fun n => leBytes 8 (if n = 0 then 0 else (Sparse.get 0 w.regs.s n).toNat)) ++
    ((List.range 16).flatMap fun n => leBytes 8 (if n = 0 then 2 ^ 64 - 1 else (Sparse.get 0 w.regs.p n).toNat)) ++
    ((List.range 160).map fun k => BitVec.ofNat 8 (tag (2 * k) + 16 * tag (2 * k + 1))) ++
    (if w.id.gang then w.halves.flatMap (jmpiBytes w.id.codeBase 8)
     else (w.halves.head?.map (jmpiBytes w.id.codeBase 16)).getD []) ++
    List.replicate 160 0 ++
    held.flatMap fun n => leBytes 256 (Sparse.get VReg.zero w.regs.v n).data.toNat

/-- The size of an image with n extended blocks (R71). -/
def imageSize (n : Nat) : Nat := 0x800 + 0x4000 * (1 + n)
/-- The extended blocks an image's header holds. -/
def headerHold (hdr : Nat) : BitVec 4 := BitVec.ofNat 4 (bits hdr 45 42)
/-- The number of blocks in a holding. -/
def holdCount (h : BitVec 4) : Nat := (List.range 4).countP fun k => h.getLsbD k

/-- The checks of an image (R73 to R75, R77), and that its depths are within the stack it has room for.
DESIGN CHOICE, unsafe: notes/assumptions/93.md. -/
def imageOk (bs : List Byte) : Bool :=
  let hdr := field bs 0 8
  let w (a : Nat) : Nat := field bs a 4
  bits hdr 63 56 == 1 && bits hdr 21 20 == 0 && bits hdr 54 50 ≤ (if bits hdr 55 55 = 1 then 8 else 16) && bits hdr 49 46 ≤ 8 &&
    bits (field bs 8 8) 63 52 == 0 &&
    ((List.range 64).all fun l => elem 3 l (field bs 0x28 24) ≤ 5) &&
    ((List.range 8).all fun n => bits (w (0x40 + 16 * n + 4)) 30 29 == 0) &&
    ((List.range 16).all fun k =>
      let a := 0xC0 + 52 * k
      bits (w a) 31 30 == 0 && ((List.range 4).all fun j => bits (w (a + 4 + 4 * j)) 29 29 == 0) &&
        ((List.range 64).all fun l => let c := elem 3 l (field bs (a + 20) 24); c ≤ 4 || c == 7) &&
        bits (w (0x720 + 4 * k)) 31 29 == 0) &&
    field bs 0x760 160 == 0

/-- A level record read back; `after` gives the address after an end. -/
def readLevel (bs : List Byte) (a : Nat) (base : Dword) (after : Dword → Dword) : Level :=
  let stop := pcOfWord base (bits (field bs (a + 4) 4) 28 0)
  { start := pcOfWord base (bits (field bs a 4) 28 0)
    stop := stop
    after := after stop
    remaining := field bs (a + 8) 4
    index := field bs (a + 12) 4
    stages := bits (field bs a 4) 31 29 + 1
    rot := bits (field bs (a + 4) 4) 31 31 == 1 }

/-- Four level records of a half read back. -/
def readLevels (bs : List Byte) (a act half : Nat) (gang : Bool) (base : Dword) (after : Dword → Dword) : List (Option Level) :=
  (List.range 4).map fun n =>
    let k := if gang then levelNo half n else n
    if gang && n ≥ 2 then none
    else if act / 2 ^ k % 2 = 1 then some (readLevel bs (a + 16 * k) base after) else none

/-- What a wave's half held beside its image: the iteration numbers of a path, its progress at the same PC, and the level
that stopped it.
DEDUCED, unsafe: notes/assumptions/38.md. -/
def keptPath (old : List Path) (k : Nat) (p : Path) : Path :=
  match old[k]? with
  | some q =>
    if q.pc = p.pc then { p with prog := q.prog, iters := q.iters, held := if p.running then 0 else q.held }
    else { p with iters := q.iters }
  | none => p

/-- The iteration number of a level at a push: the entry's own where the wave held it, else the latest number of the level
with the low bits of the image (R75, R76).
DEDUCED, unsafe: notes/assumptions/38.md. -/
def readIter (old : Option Entry) (l : Option Level) (n low : Nat) : Option Nat :=
  match old, l with
  | some e, _ => (e.iters.getD n none).map fun r => if r % 65536 = low then r else low
  | none, some l => some (if low ≤ l.index then l.index - (l.index - low) % 65536 else low)
  | none, none => none

/-- A stack entry read back, with the lanes its entry below gave it. -/
def readEntry (bs : List Byte) (a jm : Nat) (base : Dword) (parent : Nat) (lanes : Mask) (levels : List (Option Level))
    (old : Option Entry) : Entry :=
  let join := field bs a 4
  let map := field bs (a + 20) 24
  let code (c : Nat) : Mask := maskOf fun l => elem 3 l map == c
  -- the words hold the paths that have not arrived, in their order
  let oldPaths := ((old.map (·.paths)).getD []).filter fun p => !p.arrived
  let iters := (List.range 4).map fun n => readIter old (levels.getD n none) n (field bs (a + 44 + 2 * n) 2)
  let held := match ((List.range 4).filter fun n => (levels.getD n none).isSome).getLast? with | some n => n + 1 | none => 0
  let words := (List.range 4).map fun k =>
    let x := field bs (a + 4 + 4 * k) 4
    let run := bits x 31 31 == 1
    let arr := bits x 30 30 == 1
    let p : Path := ⟨pcOfWord base (bits x 28 0), code k, run, arr, if run || arr then 0 else held, .ready, none, iters⟩
    if arr then p else keptPath oldPaths k p
  let used := words.filter fun p => p.mask ≠ 0
  let inEntry := (List.range 5).foldl (fun m c => m ||| code c) 0
  let rest := lanes &&& ~~~inEntry
  let joinPc := pcOfWord base (bits join 28 0)
  let arrived : List Path := if rest = 0 then [] else [⟨joinPc, rest, false, true, 0, .ready, none, iters⟩]
  { join := joinPc
    jmpi := if bits join 29 29 = 1 then some (pcOfWord base (bits (field bs jm 4) 28 0)) else none
    paths := used ++ arrived
    pending := code 4
    iters := iters
    parent := parent }

/-- The stack of a half read back from entry k on, bottom first, under the paths of the entry below.
DESIGN CHOICE, unsafe: notes/assumptions/93.md. -/
def readStack (bs : List Byte) (base : Dword) (levels : List (Option Level)) (old : List Entry) :
    Nat → Nat → List Path → List Entry → List Entry
  | 0, _, _, acc => acc
  | n + 1, k, below, acc =>
    let map := field bs (0xC0 + 52 * k + 20) 24
    let mine := maskOf fun l => elem 3 l map ≤ 4
    let parent := (below.findIdx? fun p => p.mask &&& mine != 0).getD ((below.findIdx? fun p => !p.running && !p.arrived).getD 0)
    let lanes := ((below[parent]?).map (·.mask)).getD mine
    let e := readEntry bs (0xC0 + 52 * k) (0x720 + 4 * k) base parent lanes levels (old[k]?)
    readStack bs base levels old n (k + 1) e.paths (e :: acc)

/-- A wave read back from its image; what the image does not carry comes from the wave that was saved (R74 to R76). -/
def Wave.ofImage (old : Wave) (bs : List Byte) (after : Dword → Dword) (now : Nat) : Wave :=
  let hdr := field bs 0 8
  let gang := bits hdr 55 55 == 1
  let base := BitVec.ofNat 64 (bits (field bs 8 8) 51 0)
  let hold := headerHold hdr
  let held := heldRegs hold
  let lanes := field bs 0x28 24
  let code (c : Nat) : Mask := maskOf fun l => elem 3 l lanes == c
  let live := code 0
  let tag (n : Nat) : BitVec 4 := BitVec.ofNat 4 (elem 4 n (field bs 0x680 160))
  let half (h : Nat) : Half :=
    let m := live &&& halfLanes gang h
    let levels := readLevels bs 0x40 (bits hdr 29 26) h gang base after
    let snap := readLevels bs 0x80 (bits hdr 25 22) h gang base after
    let pc := pcOfWord base (bits (field bs (if h = 0 then 0x18 else 0x20) 4) 28 0)
    let depth := if h = 0 then bits hdr 54 50 else bits hdr 49 46
    let oldHalf := old.halves[h]?
    let b : Path := ⟨pc, m, depth == 0, false, 0, .ready, none, levelIters levels⟩
    let b := match oldHalf with
      | some o => { b with iters := o.base.iters, prog := if o.base.pc = pc then o.base.prog else none }
      | none => b
    { base := b
      ended := (oldHalf.map (·.ended)).getD false
      stack := readStack bs base levels (((oldHalf.map (·.stack)).getD []).reverse) depth (if gang then 8 * h else 0) [b] []
      levels := levels
      region := pcOfWord base (bits (field bs (if h = 0 then 0x1C else 0x24) 4) 28 0)
      snap := snap
      reread := [] }
  { old with
    id := { old.id with gang := gang, codeBase := base }
    regs :=
      { s := (List.range 64).filterMap fun n =>
          let v : BitVec 64 := BitVec.ofNat 64 (field bs (0x400 + 8 * n) 8)
          if n = 0 || v = 0 || (gang && n = 32) then none else some (n, v)
        v := held.zipIdx.filterMap fun (x : Nat × Nat) =>
          let r : VReg := ⟨BitVec.ofNat 2048 (field bs (0x800 + 256 * x.2) 256), tag x.1⟩
          if r = VReg.zero then none else some (x.1, r)
        p := (List.range 16).filterMap fun n =>
          let v : BitVec 64 := BitVec.ofNat 64 (field bs (0x600 + 8 * n) 8)
          if n = 0 || v = 0 then none else some (n, v) }
    hold := hold
    rrb := BitVec.ofNat 6 (bits hdr 41 36)
    srrb := BitVec.ofNat 6 (bits hdr 35 30)
    regcnt := BitVec.ofNat 20 (bits hdr 19 0)
    exited := code 5
    removed := (List.range 4).map fun n => code (1 + n)
    halves := if gang then [half 0, half 1] else [half 0]
    chain := none
    pend := []
    cycles := field bs 0x10 8
    since := now
    lastIssue := now }

/-! ### Where images lie -/

/-- The address the device gives the image of a wave object (notes/assumptions/26.md). -/
def State.imageAddr (s : State) (i : Nat) : Nat := s.kern.entryBase.toNat + 2 ^ 33 + 2 ^ 17 * i

/-- The address after the instruction at a PC of a wave, by the memory its process maps there; four bytes where it maps
none. -/
def State.afterPc (s : State) (sp : Space) (pc : Dword) : Dword :=
  let len := match walkFrom s pc.toNat 3 sp.root with
    | .ok l => wordsOf (BitVec.ofNat 32 (s.num (l.pa pc.toNat) 4))
    | _ => 1
  pc + BitVec.ofNat 64 (4 * len)

/-! ### Saving -/

/-- A path whose wait a save abandons: it stands at its instruction (R265); a FENCER takes new cuts when it issues again, and
an ACCRD, whose progress is told by its lanes, waits for the entries then posted (R211, R311). -/
def Path.abandon (p : Path) : Path :=
  { p with
    wait := .ready
    prog := match p.wait with
      | .on (.fencer _) _ => none
      | _ => p.prog.filter fun q => !(q.done == allLanes && q.k != 0) }
/-- The waits a save abandons; a trap return whose target is parked looks again. -/
def Wave.abandon (w : Wave) : Wave :=
  { w.mapPaths Path.abandon with due := w.due.map fun d => { d with parked := [] } }

/-- The names a wave looks up on other devices are given up (R396): it asks again when it goes on. -/
def State.forgetNames (s : State) (core slot : Nat) : State :=
  match s.wave? core slot with
  | some w => s.giveUp fun r => !r.orphan && r.handle == w.id.handle && r.pkt.type == 0x0C
  | none => s

/-- A wave about to be saved: its pending atomics and outstanding writes have retired (R321, R352), its requests for a
pool block are withdrawn (R61), its waits abandoned, that in a REGROUP and that for a name among them (R173, R396). -/
def State.quiesce (s : State) (core slot : Nat) : State :=
  let s := (s.drainAtomn core slot).forgetNames core slot
  let s := s.updWave core slot fun w => { w.abandon with pend := [], chain := none }
  s.updCore core fun k => { k with poolQ := k.poolQ.filter fun q => q.slot ≠ slot }

/-- A resident wave's image written to its descriptor's address and its slot freed (R233, R352). A trapped wave stays
trapped in its image. Its writes are pushed, since it may go on at another core. An address beyond HBM is memory as any
other.
DESIGN CHOICE, unsafe: notes/assumptions/26.md; DESIGN CHOICE, unsafe: notes/assumptions/105.md. -/
def State.saveOut (s : State) (core slot : Nat) : State :=
  let s := (s.quiesce core slot).release core 4
  match s.wave? core slot with
  | none => s
  | some w =>
    let w := { w with cycles := w.cyclesAt s.now, since := s.now, stopping := false }
    let addr := match s.named w.id.handle with
      | some ⟨_, _, _, _, .wave a _ _ _ _ _ _⟩ => a.toNat
      | _ => 0
    let s := s.setBytes addr (w.image s.now)
    let s := s.vacate core slot
    s.updWaveObj w.id.handle (fun a b _ _ _ g t => .wave a b none (some w) (some w.id) g t) (some (if w.traps = 0 then 0 else 2))

/-- The list of a run queue: cluster and scheduling context index (R231). -/
def State.queueKey (s : State) (cluster : Nat) (sc : BitVec 32) : Nat :=
  256 * cluster + (match s.named sc with | some ⟨_, _, _, _, .sctx _ _ _ _ _ i _ _ _⟩ => i | _ => 255)

/-- An entry appended to the tail of a list with its ready time (R231, R233). -/
def State.enqueue (s : State) (cluster : Nat) (sc : BitVec 32) (x : BitVec 32 ⊕ Nat) : State :=
  let k := s.queueKey cluster sc
  { s with kern := { s.kern with runq := Sparse.put k (Sparse.get [] s.kern.runq k ++ [(x, s.now)]) s.kern.runq } }

/-- A saved wave that is ready joins the list of its home cluster (R233). -/
def State.readyWave (s : State) (h : BitVec 32) : State :=
  match s.named h with
  | some ⟨_, _, _, _, .wave _ _ none (some w) _ none _⟩ =>
    let s := s.updWaveObj h (fun a _ c d e g t => .wave a s.now c d e g t) (some 0)
    s.enqueue (clusterOf w.id.home) w.id.sc (.inl h)
  | _ => s

/-! ### Loading -/

/-- The extended blocks of a core's pool that no waiting request is to receive (R58). -/
def Core.spare (k : Core) : Nat := k.pool - k.poolQ.length
/-- The blocks an image needs can be supplied by the core's pool (R61). -/
def State.poolFor (s : State) (core : Nat) (hold : BitVec 4) : Bool := holdCount hold ≤ (s.core core).spare
/-- The extended blocks that the image of a wave's object holds (R61, R74). -/
def State.imageHold (s : State) (h : BitVec 32) : BitVec 4 :=
  match s.named h with
  | some ⟨_, _, _, _, .wave a _ _ _ _ _ _⟩ => headerHold (s.num a.toNat 8)
  | _ => 0
/-- The lowest free slot of a core for user waves: one that holds no wave and whose base block has drained (R60). -/
def State.freeSlot (s : State) (core : Nat) : Option Nat :=
  ((List.range 31).map (· + 1)).find? fun k =>
    (s.wave? core k).isNone && !((s.core core).draining.any fun d => d.slot == k && d.blk == 0)

/-- A wave put into a slot: the blocks come from the pool and its object says where it is. It sees what its creator, and
itself at another core, wrote before (R213). -/
def State.install' (s : State) (core slot : Nat) (w : Wave) : State :=
  let s := (s.flushUnit core (waveUnit core slot) fun _ => true).acquire core 4
  let s := s.updCore core fun k => { k with pool := k.pool - holdCount w.hold }
  let s := s.setWave core slot { w with since := s.now, waitAt := none, idle := false }
  let s := s.updWaveObj w.id.handle (fun a b _ _ _ g t => .wave a b (some (core, slot)) none none g t) (some 1)
  -- pending JMPI targets are read again where the wave resumes (R76)
  (List.range w.halves.length).foldl (fun s h => s.merge 70 ⟨core, slot, h, 0⟩) s

/-- A non-resident wave's image loaded into a slot (R233, R351); none where the image is refused, or holds more blocks than
the pool can supply (R61). -/
def State.loadIn (s : State) (core slot : Nat) (h : BitVec 32) (bs : List Byte) : Option State :=
  match s.named h with
  | some ⟨_, _, _, _, .wave _ _ none (some w) _ _ _⟩ =>
    if !imageOk bs || !s.poolFor core (headerHold (field bs 0 8)) then none
    else
      let sp := s.waveSpace core slot w
      some (s.install' core slot (Wave.ofImage w bs (s.afterPc sp) s.now))
  | _ => none

/-- A wave entry's placement allows a core (R230): a pinned wave runs only on its home core.
DEDUCED, unsafe: notes/assumptions/39.md. -/
def WaveId.allows (id : WaveId) (core : Nat) : Bool :=
  match if id.pinned then 0 else id.placement.toNat with
  | 0 => core == id.home
  | 1 => clusterOf core == clusterOf id.home
  | 2 => dieOf core == dieOf id.home
  | _ => true

/-- The bytes of the image of a wave's object (R71). -/
def State.imageBytes (s : State) (h : BitVec 32) : List Byte :=
  match s.named h with
  | some ⟨_, _, _, _, .wave a _ _ _ _ _ _⟩ => s.bytes a.toNat (imageSize (holdCount (headerHold (s.num a.toNat 8))))
  | _ => []

end Sys2Proof.Machine
end

