-- ==== Sys2Proof/Machine/Barrier.lean ====
section
/-!
DEFINITION. What joins or divides the waves of a block and the register blocks of a core: launch levels (R35, R37, R38),
BAR, BARA and BARW (R323 to R326), REGROUP (R172 to R176), VGROW and VSHRINK (R56 to R61), and their events.
-/

namespace Sys2Proof.Machine

/-! ### Launch levels -/

/-- The level count of a launch record (R294). -/
def Launch.nlvl (l : Launch) : Nat := bits (field l.record 0 8) 15 12
/-- Level entry k of a launch record (R35). -/
def Launch.level (l : Launch) (k : Nat) : Nat := field l.record (32 + 8 * k) 8
namespace Level
/-- The fields of a level entry (R35). -/
def extent (e : Nat) : Nat := bits e 23 0
def domain (e : Nat) : Nat := bits e 27 24
def scope (e : Nat) : Nat := bits e 31 28
def bbase (e : Nat) : Nat := bits e 39 32
def bar (e : Nat) : Bool := bits e 40 40 == 1
end Level
/-- E2·…·Ek (R37): 1 for k below 2. -/
def Launch.span (l : Launch) (k : Nat) : Nat :=
  ((List.range k).map (· + 1)).foldl (fun n j => if j < 2 then n else n * Level.extent (l.level j)) 1
/-- The number of tickets (R37). -/
def Launch.tickets (l : Launch) : Nat := l.span (l.nlvl - 1)
/-- The level-k index of a ticket, for k ≥ 2 (R37). -/
def Launch.index (l : Launch) (t k : Nat) : Nat :=
  if k < l.nlvl then t / l.span (k - 1) % Level.extent (l.level k) else 0
/-- The level that a barrier identifier names (R323). -/
def Launch.barLevel (l : Launch) (id : Nat) : Option Nat :=
  (List.range l.nlvl).find? fun k => Level.bar (l.level k) && Level.bbase (l.level k) == id
/-- The key of the instance of a level that holds a ticket (R38, R39). -/
def Launch.barKey (l : Launch) (k t : Nat) : Nat := 2 ^ 40 * k + t / l.span k
/-- The first ticket of this device's part of a launch, and how many it has (R38). -/
def Launch.localRange (l : Launch) (peer : Nat) : Nat × Nat :=
  let top := l.nlvl - 1
  if Level.domain (l.level top) = 5 then
    let m := peer - bits (field l.record 104 8) 8 0
    (m * l.span (top - 1), l.span (top - 1))
  else (0, l.tickets)

/-! ### Barriers -/

/-- A barrier instance as it begins. -/
def Bar.fresh : Bar := ⟨0, [], [], false, false⟩
/-- A barrier instance of a launch. -/
def State.bar (s : State) (l key : Nat) : Bar := Sparse.get Bar.fresh ((s.launch? l).map (·.bars) |>.getD []) key
/-- A barrier instance changed. -/
def State.updBar (s : State) (l key : Nat) (f : Bar → Bar) : State :=
  s.updLaunch l fun x => { x with bars := Sparse.put key (f (Sparse.get Bar.fresh x.bars key)) x.bars }
/-- The key of a member's count (R34, R324). -/
def memberKey (h : BitVec 32) (half : Nat) : Nat := 2 * h.toNat + half
/-- A member's arrival count c (R324).
DEDUCED, safe: notes/assumptions/41.md. -/
def Bar.count (b : Bar) (h : BitVec 32) (half : Nat) : Nat := Sparse.get 0 b.counts (memberKey h half)

/-- A wave by its handle, resident or saved. -/
def State.waveOf (s : State) (h : BitVec 32) : Option Wave :=
  match s.named h with
  | some ⟨_, _, _, _, .wave _ _ (some (c, k)) _ _ _ _⟩ => s.wave? c k
  | some ⟨_, _, _, _, .wave _ _ none w _ _ _⟩ => w
  | _ => none

/-- Every half of a wave has a count beyond the phase, or has ended (R324). -/
def State.waveBeyond (s : State) (b : Bar) (p : Nat) (h : BitVec 32) : Bool :=
  match s.waveOf h with
  | some w => w.halves.zipIdx.all fun (x : Half × Nat) => x.1.ended || b.count h x.2 > p
  | none => true

/-- The tickets of an instance that this device runs. -/
def Launch.members (l : Launch) (peer k key : Nat) : List Nat :=
  let n := key % 2 ^ 40
  let (lo, len) := l.localRange peer
  ((List.range (l.span k)).map fun j => n * l.span k + j).filter fun t => lo ≤ t && t < lo + len

/-- Every member of an instance on this device has arrived at the phase, and its credits have completed (R145, R324).
DEDUCED, unsafe: notes/assumptions/44.md. -/
def State.barDone (s : State) (li k key : Nat) : Bool :=
  match s.launch? li with
  | none => false
  | some l =>
    let b := s.bar li key
    ((l.members s.peer.toNat k key).all fun t =>
      match s.host.blocks.find? fun (x : Nat × Block) => x.2.launch == li && x.2.ticket == t with
      | none => l.st == .closed
      | some (_, x) => x.st == .ended || ((x.st == .placed || x.st == .saved) && x.waves.all (s.waveBeyond b b.phase))) &&
      b.credits.all fun c => c.2.2 > b.phase

/-- What a barrier instruction names: the launch, its level's entry, and the instance. -/
structure BarRef where
  launch : Nat
  level : Nat
  entry : Nat
  key : Nat
  deriving DecidableEq, Repr

/-- The barrier an identifier names for the issuing wave (R323). -/
def State.barRef (s : State) (c : Ctx) (id : Nat) : Option BarRef :=
  (c.w.id.blk.bind s.block?).bind fun b =>
    (s.launch? b.launch).bind fun l =>
      (l.barLevel id).map fun k => ⟨b.launch, k, l.level k, l.barKey k b.ticket⟩

/-- The phase a token names, when it lies behind the count (R325). -/
def tokenPhase (c t : Nat) : Option Int :=
  let d : Nat := (c + 2 ^ 32 - 1 - t % 2 ^ 32) % 2 ^ 32
  if c = 0 ∨ d ≥ 2 ^ 31 then none else some ((c : Int) - 1 - (d : Int))

/-- An arrival at a phase (R325): a release at the level's scope. -/
def State.arriveBar (s : State) (c : Ctx) (r : BarRef) : State :=
  let s := (s.orderAtomn c true [] 0).releaseBy (c.space s) (Level.scope r.entry)
  (s.updBar r.launch r.key fun b =>
    { b with counts := Sparse.put (memberKey c.w.id.handle c.who.half) (b.count c.w.id.handle c.who.half + 1) b.counts }).bumpSfr c

/-- The completion side of a barrier (R325). -/
def State.completeBar (s : State) (c : Ctx) (r : BarRef) : State :=
  ((s.orderAtomn c true [] 0).acquire c.who.core (Level.scope r.entry)).bumpSfr c

/-- BAR, and BARA with `wait` false (R325). -/
def barBody (i : Instr) (wait : Bool) (id d : Nat) (c : Ctx) (s : State) : Res :=
  withOps s [if wait then OpOk.yes else sDst c d] <|
    match s.barRef c id with
    | none => .raise s Exc.invalidOperand 0
    | some r =>
      if !c.half.stack.isEmpty then .raise s Exc.invalidOperand 0
      else
        let b := s.bar r.launch r.key
        let n := b.count c.w.id.handle c.who.half
        let k := c.progress.k
        if k ≠ 0 then
          -- it has arrived, at phase k - 1
          if k - 1 < b.phase then .nextR (s.completeBar c r) else .wait (s.waitOn c i)
        else if n ≠ 0 && b.phase < n then .wait (s.waitOn c i)
        else quietly c s <|
          let s := s.arriveBar c r
          if !wait then .nextR (s.put c (writeS c (s.mine c) d (BitVec.ofNat 64 (n % 2 ^ 32))))
          else if n < b.phase then .nextR (s.completeBar c r)
          else .wait ((s.setProg c 0 (n + 1)).waitOn c i)

/-- BARW (R325). -/
def barwBody (i : Instr) (id a : Nat) (c : Ctx) (s : State) : Res :=
  withOps s [sRun c a] <|
    match s.barRef c id with
    | none => .raise s Exc.invalidOperand 0
    | some r =>
      if !c.half.stack.isEmpty then .raise s Exc.invalidOperand 0
      else
        let b := s.bar r.launch r.key
        match tokenPhase (b.count c.w.id.handle c.who.half) (c.sVal a).toNat with
        | none => .raise s Exc.invalidOperand 0
        | some p => if p < b.phase then .next (s.completeBar c r) else .wait (s.waitOn c i)

/-- The splits of a wave that wait in an instruction of a kind, made ready to execute it again. -/
def Wave.release (w : Wave) (f : Instr → Bool) : Wave :=
  w.mapPaths fun p => match p.wait with
    | .on i _ => if f i then { p with wait := .ready } else p
    | _ => p

/-- The instruction waits at a barrier. -/
def isBarWait : Instr → Bool
  | .bar _ | .bara _ | .barw _ => true
  | _ => false

/-- The packet of a peer-set barrier: type 0x13 with the kind (3 an arrival, 6 one for every phase, 4 a release), the launch
key, the phase and the set in words 2 and 3 (notes/assumptions/27.md). -/
def barPacket (kind : Nat) (dst : Nat) (key base count phase : Nat) : Packet :=
  { Packet.plain 0x13 0 (BitVec.ofNat 9 dst) 0 with
    ext := BitVec.ofNat 384 (key % 2 ^ 32 + kind * 2 ^ 32 + (phase % 2 ^ 32 + base % 2 ^ 16 * 2 ^ 32 + count % 2 ^ 16 * 2 ^ 48) * 2 ^ 64) }

/-- A barrier instruction by its form and body. -/
def barBodyOf : Instr → Option (Option Ext × (Ctx → State → Res))
  | .bar e => some (some e, barBody (.bar e) true (e.m 0 8) 0)
  | .bara e => some (some e, barBody (.bara e) false (e.m 0 8) e.d9.toNat)
  | .barw e => some (some e, barwBody (.barw e) (e.m 0 8) e.a9.toNat)
  | _ => none

/-- The splits that wait at barriers: with their stack empty they are at depth 0 (R325). -/
def State.barWaiters (s : State) : List Who :=
  s.cores.flatMap fun (x : Nat × Core) => x.2.waves.flatMap fun (y : Nat × Wave) =>
    y.2.halves.zipIdx.filterMap fun (h : Half × Nat) => match h.1.base.wait with
      | .on i _ => if isBarWait i then some (⟨x.1, y.1, h.2, 0⟩ : Who) else none
      | _ => none

/-- A phase completes: the splits that wait for it go on (R324, R325); those of trapped waves look again once a verdict is
applied (`State.lookAgain`). -/
def State.nextPhase (s : State) (l key : Nat) : State :=
  let s := s.updBar l key fun b => { b with phase := b.phase + 1, sent := false }
  s.barWaiters.foldl (fun s a => s.resume a barBodyOf) s

/-- The splits of a wave that wait at barriers go on where the phase has completed while the wave could not (R248, R325). -/
def State.lookAgain (s : State) (core slot : Nat) : State :=
  (List.range 2).foldl (fun s h => s.resume ⟨core, slot, h, 0⟩ barBodyOf) s

/-- Base, count and key of a record's peer set (R41, R294). -/
def Launch.peerBase (l : Launch) : Nat := bits (field l.record 104 8) 8 0
def Launch.peerCount (l : Launch) : Nat := bits (field l.record 104 8) 25 16
def Launch.key (l : Launch) : Nat := bits (field l.record 104 8) 63 32

/-- The launch of this device with a key and a peer set (R41): one that runs, or else the latest that is over. -/
def State.launchBySet (s : State) (key base count : Nat) : Option (Nat × Launch) :=
  let is := s.host.launches.filter fun (x : Nat × Launch) =>
    x.2.key == key && x.2.peerBase == base && x.2.peerCount == count && count != 0
  (is.find? fun (x : Nat × Launch) => x.2.st == .running).or (is.reverse.find? fun (x : Nat × Launch) => x.2.st != .arriving)

/-- A release of a peer-set phase: it completes on this device (R289). -/
def State.peerRelease (s : State) (key base count phase : Nat) : State :=
  match s.launchBySet key base count with
  | some (i, l) =>
    let k := 2 ^ 40 * (l.nlvl - 1)
    if (s.bar i k).phase % 2 ^ 32 = phase && !(s.bar i k).allOver then s.nextPhase i k else s
  | none => s

/-- The lowest peer counts an arrival of a peer-set phase, one that stands for every phase where `final`, and releases every
peer once all have arrived (R289, R324). -/
def State.peerArrive (s : State) (src key base count phase : Nat) (final : Bool) : State :=
  if src < base ∨ base + count ≤ src then s
  else
    let is (b : PeerBar) : Bool := b.key == key && b.base == base && b.count == count && b.phase == phase
    let old := (s.league.peerBars.find? is).getD ⟨key, base, count, phase, [], []⟩
    let rest := s.league.peerBars.filter fun b => !is b
    let b : PeerBar := { old with
      from' := if old.from'.contains src then old.from' else src :: old.from'
      allOver := if final && !old.allOver.contains src then src :: old.allOver else old.allOver }
    let all := (List.range count).map (base + ·)
    if all.all fun m => b.from'.contains m || b.allOver.contains m then
      let after := if b.allOver.isEmpty || all.all b.allOver.contains then rest
        else { b with phase := (phase + 1) % 2 ^ 32, from' := [] } :: rest
      all.foldl (fun s m =>
        if m = s.peer.toNat then s.peerRelease key base count phase
        else s.trySend { barPacket 4 m key base count phase with src := s.peer })
        { s with league := { s.league with peerBars := after } }
    else { s with league := { s.league with peerBars := b :: rest } }

/-- Every block of this device's part of a launch has ended, or no other will start. -/
def State.membersOver (s : State) (li : Nat) (l : Launch) (key : Nat) : Bool :=
  l.st == .closed || (l.members s.peer.toNat (l.nlvl - 1) key).all fun t =>
    s.host.blocks.any fun (x : Nat × Block) => x.2.launch == li && x.2.ticket == t && x.2.st == .ended

/-- The phase in progress of an instance completes, or, at a level with DOMAIN 5, the device sends its arrival to the
lowest peer, one for every phase where its members have all ended (R289, R324). -/
def State.phaseComplete (s : State) (blk k : Nat) : State :=
  match (s.block? blk).bind fun b => (s.launch? b.launch).map fun l => (b, l) with
  | none => s
  | some (b, l) =>
    let key := l.barKey k b.ticket
    if k < l.nlvl && Level.bar (l.level k) && s.barDone b.launch k key then
      if Level.domain (l.level k) = 5 then
        let r := s.bar b.launch key
        if r.sent || r.allOver then s
        else
          let final := s.membersOver b.launch l key
          let s := s.updBar b.launch key fun x => { x with sent := true, allOver := final }
          if l.peerBase = s.peer.toNat then s.peerArrive l.peerBase l.key l.peerBase l.peerCount (r.phase % 2 ^ 32) final
          else s.trySend { barPacket (if final then 6 else 3) l.peerBase l.key l.peerBase l.peerCount r.phase with src := s.peer }
      else s.nextPhase b.launch key
    else s

/-- BARRIER_PHASE_COMPLETE (R324). -/
def execBarrierPhaseComplete (blk level : Nat) (s : State) : Host.Outcome State Fault Refusal := .next (s.phaseComplete blk level)

/-- What a save does to a barrier wait (R326): an arrival whose phase has not completed is withdrawn; where it has, the BAR
completes. -/
def State.withdrawBars (s : State) (core slot : Nat) : State :=
  (List.range 2).foldl (fun s h =>
    match s.ctx? ⟨core, slot, h, 0⟩ with
    | none => s
    | some c =>
      match c.path.wait, c.path.prog with
      | .on (.bar e) _, some p =>
        match s.barRef c (e.m 0 8) with
        | some r =>
          if p.k = 0 then s
          else if p.k - 1 < (s.bar r.launch r.key).phase then
            conclude (.bar e) (some e) c c.w.regs (s.scheduled c) (.nextR (s.completeBar c r))
          else
            let s := s.updBar r.launch r.key fun b =>
              { b with counts := Sparse.put (memberKey c.w.id.handle h) (b.count c.w.id.handle h - 1) b.counts }
            s.updPath c fun p => { p with prog := none }
        | none => s
      | _, _ => s) s

/-! ### REGROUP (R172 to R176) -/

/-- The fields of a REGROUP, and whether it is the key form. -/
def regroupOf : Instr → Option (Bool × Ext)
  | .regroupKey e => some (true, e)
  | .regroupHome e => some (false, e)
  | _ => none

/-- A participant: its place, its wave, and the split that waits in REGROUP. -/
structure Part where
  slot : Nat
  w : Wave
  path : Path
  deriving DecidableEq, Repr

/-- A thread of a participant: the wave's number, its lane, key, tag and carried registers. -/
structure Thread where
  j : Nat
  l : Nat
  key : Nat
  tid : Nat
  regs : List Nat
  deriving DecidableEq, Repr

/-- A path that waits in a REGROUP, with the instruction. -/
def Path.regrouping (p : Path) : Option (Path × Instr) :=
  match p.wait with
  | .on i _ => if (regroupOf i).isSome then some (p, i) else none
  | _ => none

/-- The first split of a wave that waits in a REGROUP, in whatever entry of its stack it stands: its half, its place in
the top, or 64 where it stands below it, its path and the instruction. -/
def Wave.regroupAt (w : Wave) : Option (Nat × Nat × Path × Instr) :=
  w.halves.zipIdx.findSome? fun (h : Half × Nat) =>
    (h.1.paths.zipIdx.findSome? fun (p : Path × Nat) => p.1.regrouping.map fun x => (h.2, p.2, x)).or
      (((h.1.base :: h.1.stack.flatMap (·.paths)).findSome? Path.regrouping).map fun x => (h.2, 64, x))

/-- The first split of a wave that waits in a REGROUP. -/
def Wave.regrouping (w : Wave) : Option (Path × Instr) := w.regroupAt.map fun x => x.2.2

/-- The waves of a block on their core, by slot. -/
def State.blockWaves (s : State) (blk : Nat) : List (Nat × Nat × Wave) :=
  s.cores.flatMap fun (x : Nat × Core) =>
    (x.2.waves.filter fun (y : Nat × Wave) => y.2.id.blk == some blk).map fun y => (x.1, y.1, y.2)

/-- The carried registers of a form: vF and their number. -/
def carried (e : Ext) : Nat × Nat := (e.b9.toNat, e.m 0 5 + 1)

/-- The checks of R174 over the participants. -/
def regroupOk (key : Bool) (e : Ext) (ps : List Part) : Bool :=
  let (f, n) := carried e
  ps.all (fun p => p.w.id.blk.isSome && p.w.halves.all (fun h => h.stack.isEmpty && h.levels.all (·.isNone)) &&
      (match p.w.regrouping with
        | some (_, i) => match regroupOf i with
          | some (_, x) => x.d9 == e.d9 && x.a9 == e.a9 && x.b9 == e.b9 && x.mod == e.mod
          | none => false
        | none => false) &&
      (!key || (p.w.v e.a9.toNat).tag == 0 || (p.w.v e.a9.toNat).tag == 1) &&
      ((List.range n).all fun k => p.w.heldBlk ((f + k) / 64))) &&
    ((List.range n).all fun k => match ps with
      | [] => true
      | q :: qs => qs.all fun p => (p.w.v (f + k)).tag == (q.w.v (f + k)).tag)

/-- The threads of the participants (R175). -/
def threads (e : Ext) (ps : List Part) : List Thread :=
  let (f, n) := carried e
  ps.zipIdx.flatMap fun (x : Part × Nat) => (lanesOf (x.1.path.mask &&& x.1.w.live)).map fun l =>
    ⟨x.2, l, lane (x.1.w.v e.a9.toNat).data l % 16, x.1.w.tid l, (List.range n).map fun k => lane (x.1.w.v (f + k)).data l⟩

/-- Threads with their new wave number and lane. -/
abbrev Placed := List ((Nat × Nat) × Thread)

/-- A lane of a wave has no thread yet. -/
def vacant (pl : Placed) (w l : Nat) : Bool := !pl.any fun x => x.1 == (w, l)
/-- The lowest vacant lane of the lowest-numbered wave with one. -/
def firstVacant (pl : Placed) (n : Nat) : Nat × Nat :=
  (((List.range n).flatMap fun w => (List.range 64).map fun l => (w, l)).find? fun x => vacant pl x.1 x.2).getD (0, 0)

/-- The key form places the threads of one key, from position pos of wave w on. -/
def placeKey (n : Nat) : List Thread → Placed → Nat → Nat → Placed × Nat × Nat
  | [], pl, w, pos => (pl, w, pos)
  | x :: xs, pl, w, pos =>
    if pos < 64 && vacant pl w pos then placeKey n xs (((w, pos), x) :: pl) w (pos + 1)
    else placeKey n xs ((firstVacant pl n, x) :: pl) w pos

/-- The key form (R175). -/
def placeKeys (n : Nat) (ts : List Thread) : Placed :=
  ((List.range 16).foldl (fun (a : Placed × Nat × Nat) k =>
    let xs := ts.filter fun x => x.key = k
    if xs.isEmpty then a
    else
      let (w, pos) := if a.2.2 > 0 ∧ a.2.1 < n - 1 then (a.2.1 + 1, 0) else (a.2.1, a.2.2)
      placeKey n xs a.1 w pos) ([], 0, 0)).1

/-- The home wave of a thread tag, by level-1 index, and its home lane (R26). -/
def homeOf (tid : Nat) : Nat × Nat := (tid / 64 % 32, tid % 64)

/-- The home form (R175). -/
def placeHome (ps : List Part) (ts : List Thread) : Placed :=
  let waveAt (i : Nat) : Option Nat := ps.findIdx? fun p => p.w.id.lvls.getD 1 0 = i
  let home := ts.filterMap fun x => (waveAt (homeOf x.tid).1).map fun w => ((w, (homeOf x.tid).2), x)
  let rest := (List.range (32 * 64)).flatMap fun k => ts.filter fun x => x.tid % 2048 = k ∧ (waveAt (homeOf x.tid).1).isNone
  rest.foldl (fun pl x => (firstVacant pl ps.length, x) :: pl) home

/-- A participant after the move (R175). -/
def movedWave (e : Ext) (key : Bool) (pl : Placed) (j : Nat) (w : Wave) : Wave :=
  let (f, n) := carried e
  let mine := pl.filter fun x => x.1.1 = j
  let at' (l : Nat) : Option Thread := (mine.find? fun x => x.1.2 = l).map (·.2)
  let m := maskOf fun l => (at' l).isSome
  let w := (List.range n).foldl (fun (w : Wave) k =>
    w.setV (f + k) { w.v (f + k) with data := blend m (w.v (f + k)).data fun l => ((at' l).map fun (t : Thread) => t.regs.getD k 0).getD 0 }) w
  let w := { w with
    tids := blend m w.tids fun l => ((at' l).map fun (t : Thread) => t.tid).getD 0
    exited := ~~~m
    removed := [0, 0, 0, 0] }
  let keys := (mine.map fun x => x.2.key).eraseDups
  let r := match keys with | [] => 0xFF | [k] => k | _ => 0xFE
  let w := if key then w.setS 0 (e.d9.toNat - 320) (BitVec.ofNat 64 r) else w
  w.updHalf 0 fun h => { h with base := { h.base with mask := m } }

/-- The split of a participant that waits in REGROUP. -/
def State.regroupCtx (s : State) (core : Nat) (slot : Nat) : Option Ctx :=
  (s.wave? core slot).bind fun w => w.regroupAt.bind fun x =>
    (w.halves[x.1]?).map fun h => ⟨⟨core, slot, x.1, x.2.1⟩, w, h, x.2.2.1⟩

/-- The regroup of a block, once every wave of it that has not ended waits in one (R173 to R175): the move, or
REGROUP_FAULT in every participant. -/
def State.tryRegroup (s : State) (blk : Nat) : State :=
  let ws := s.blockWaves blk
  let all := (s.block? blk).map (·.waves) |>.getD []
  let ps := ws.filterMap fun x => (x.2.2.regrouping).map fun q => ((x.1, x.2.1), q.2, (⟨x.2.1, x.2.2, q.1⟩ : Part))
  if ps.isEmpty || ps.length ≠ all.length || ws.any (fun x => x.2.2.traps ≠ 0) then s
  else
    match ps.head?.bind fun x => regroupOf x.2.1 with
    | none => s
    | some (key, e) =>
      let parts := ps.map fun x => x.2.2
      if !regroupOk key e parts then
        ps.foldl (fun s x => match s.regroupCtx x.1.1 x.1.2 with
          | some c =>
            let s := s.updWave x.1.1 x.1.2 fun w => w.release fun i => (regroupOf i).isSome
            s.raise c false Exc.regroupFault c.path.pc 0
          | none => s) s
      else
        let ts := threads e parts
        let pl := if key then placeKeys parts.length ts else placeHome parts ts
        let s := ps.zipIdx.foldl (fun s x => s.updWave x.1.1.1 x.1.1.2 fun w => movedWave e key pl x.2 w) s
        -- each completes under its own schedule fields, with the registers it had before the move
        ps.foldl (fun s x => match s.regroupCtx x.1.1 x.1.2, regroupOf x.2.1 with
          | some c, some (_, own) =>
            let s := ((s.orderAtomn c true [] 0).releaseBy (c.space s) 1).acquire c.who.core 1
            conclude x.2.1 (some own) c x.2.2.w.regs (s.scheduled c) (.nextR (s.bumpSfr c))
          | _, _ => s) s

/-- REGROUP (R172, R173, R411): the arrival. -/
def regroupBody (i : Instr) (key : Bool) (e : Ext) (c : Ctx) (s : State) : Res :=
  let (f, n) := carried e
  if c.w.id.gang then .raise s Exc.illegal 0
  else
    withOps s [if key then vRun c.w e.a9.toNat 1 1 (fun _ => true) else OpOk.yes,
        if key then sDst c e.d9.toNat else OpOk.when (e.d9 == 0), vRun c.w f n 1 (fun _ => true)] <|
      match c.w.id.blk with
      | none => .raise s Exc.regroupFault 0
      | some b =>
        let others := (s.blockWaves b).filter fun x => !(x.1 == c.who.core && x.2.1 == c.who.slot)
        let differs := others.any fun x => match x.2.2.regrouping with
          | some (_, j) => match regroupOf j with
            | some (k, y) => k != key || y.m 5 8 != e.m 5 8
            | none => false
          | none => false
        if differs then .raise s Exc.regroupFault 0
        else quietly c s (.wait ((s.waitOn c i).tryRegroup b))

/-! ### Register blocks (R56 to R61) -/

/-- VGROW (R57); one whose request has been answered while its split could not go on has written its predicate already. -/
def vgrowBody (e : Ext) (c : Ctx) (s : State) : Res :=
  let k := e.m 0 3
  let p := e.d9.toNat
  withOps s [{ predDstOk c p with valid := p != 416 && (predDstOk c p).valid }] <|
    if c.progress.k = 1 then .next s
    else if c.w.heldBlk k then .next (s.put c ((s.mine c).setP (p - 416) allLanes allLanes))
    else
      let s := s.updCore c.who.core fun r =>
        if r.poolQ.any fun q => q.slot == c.who.slot && q.blk == k then r else { r with poolQ := r.poolQ ++ [⟨c.who.slot, k⟩] }
      .wait (s.waitOn c (.vgrow e))

/-- The vector registers that an instruction which waits for the League will write: the first, and how many. -/
def waitDest : Instr → Nat × Nat
  | .ldReg f => ((BM.args f).d, szRegs f.sz.toNat)
  | .ldLit f => ((BML.args f).d, szRegs f.sz.toNat)
  | .ldExt e | .expld e => (e.d9.toNat, szRegs (e.m 9 3))
  | .rld e => (e.d9.toNat, 4)
  | .atom e | .ratom e => (e.d9.toNat, 2)
  | _ => (320, 0)

/-- A split of a wave, but for the one given, is in the middle of an instruction that will write block k: its writes into the
block are outstanding (R57, R58, R278). One whose answers have all come may be about to write any block.
DEDUCED, safe: notes/assumptions/106.md. -/
def State.awaited (s : State) (core slot k : Nat) (but : Option Who) : Bool :=
  match s.wave? core slot with
  | none => false
  | some w => w.halves.zipIdx.any fun h => h.1.paths.zipIdx.any fun p =>
      but != some ⟨core, slot, h.2, p.2⟩ && Ctx.midway ⟨⟨core, slot, h.2, p.2⟩, w, h.1, p.1⟩ s && match p.1.wait with
        | .on i _ => (waitDest i).1 < 320 && (waitDest i).1 / 64 ≤ k && k ≤ ((waitDest i).1 + (waitDest i).2 - 1) / 64
        | _ => true

/-- VSHRINK (R52, R57, R58). -/
def vshrinkBody (e : Ext) (c : Ctx) (s : State) : Res :=
  let k := e.m 0 3
  if !c.w.heldBlk k then .next s
  else if k = 4 && c.half.rotating.isSome then .raise s Exc.invalidOperand 0
  else
    let busy := (s.mine c).busyBlk k || s.awaited c.who.core c.who.slot k (some c.who)
    let s := s.put c { s.mine c with
      hold := (s.mine c).hold &&& ~~~BitVec.ofNat 4 (2 ^ (k - 1))
      pend := (s.mine c).pend.map fun p => { p with regs := p.regs.map (OldReg.giveBack k) } }
    .next (s.updCore c.who.core fun r =>
      if busy then { r with draining := r.draining ++ [⟨c.who.slot, k⟩] } else { r with pool := r.pool + 1 })

/-- The split waits for block k. -/
def waitsBlk (k : Nat) : Instr → Bool
  | .vgrow e => e.m 0 3 == k
  | _ => false

/-- The VGROW that a path waits in, of those given. -/
def Path.growing (f : Instr → Bool) (p : Path) : Option Ext :=
  match p.wait with
  | .on (.vgrow e) _ => if f (.vgrow e) then some e else none
  | _ => none

/-- The predicate of a VGROW that has been answered (R57). -/
def Wave.grown (w : Wave) (ok : Bool) (e : Ext) : Wave := w.setP (e.d9.toNat - 416) allLanes (if ok then allLanes else 0)

/-- The splits of a wave that wait in some of its VGROWs have their answer and go on (R57), one after another. -/
def State.passGrows (s : State) (core slot : Nat) (f : Instr → Bool) (ok : Bool) : Nat → State
  | 0 => s
  | fuel + 1 =>
    let at' := (s.wave? core slot).bind fun w => w.halves.zipIdx.findSome? fun h => h.1.paths.zipIdx.findSome? fun p =>
      (p.1.growing f).map fun e => ((⟨core, slot, h.2, p.2⟩ : Who), e)
    match at'.bind fun x => (s.ctx? x.1).map fun c => (c, x.2) with
    | none => s
    | some (c, e) =>
      (conclude (.vgrow e) (some e) c c.w.regs (s.scheduled c) (.next (s.put c (c.w.grown ok e)))).passGrows core slot f ok fuel

/-- The requests of a wave for pool blocks answered (R57): every predicate is written, the splits of the top of a stack go on,
and those below it complete when they are the top again. -/
def State.endGrows (s : State) (core slot : Nat) (f : Instr → Bool) (ok : Bool) : State :=
  let below (p : Path) : Path :=
    if (p.growing f).isSome then { p with wait := .ready, prog := some ⟨p.pc, 0, 1, []⟩ } else p
  let s := s.updWave core slot fun w =>
    let under := w.halves.flatMap fun h => if h.stack.isEmpty then [] else h.base :: h.stack.tail.flatMap (·.paths)
    { (under.filterMap (Path.growing f)).foldl (Wave.grown · ok) w with
      halves := w.halves.map fun h => match h.stack with
        | [] => h
        | e :: es => { h with base := below h.base, stack := e :: es.map fun e => { e with paths := e.paths.map below } } }
  s.passGrows core slot f ok 64

/-- The pool's oldest request receives a block, which reads zero with no error, and every split of the wave that waits for it
goes on (R55, R57, R58). A block of the same name that the wave has given back drains first.
DEDUCED, unsafe: notes/assumptions/107.md. -/
def State.grantBlock (s : State) (core : Nat) : State :=
  match (s.core core).poolQ, (s.core core).pool with
  | q :: qs, n + 1 =>
    if (s.core core).draining.contains ⟨q.slot, q.blk⟩ then s
    else
      let s := (s.updCore core fun r => { r with poolQ := qs, pool := n }).updWave core q.slot fun w =>
        { w with
          hold := w.hold ||| BitVec.ofNat 4 (2 ^ (q.blk - 1))
          regs := { w.regs with v := w.regs.v.filter fun (x : Nat × VReg) => x.1 / 64 ≠ q.blk }
          badRegs := w.badRegs.filter fun n => n / 64 ≠ q.blk }
      s.endGrows core q.slot (waitsBlk q.blk) true
  | _, _ => s

/-- VGROW_GRANT (R58). -/
def execVgrowGrant (core : Nat) (s : State) : Host.Outcome State Fault Refusal := .next (s.grantBlock core)

/-- A wave in a slot is blocked in VGROW (R59): a split waits in it, and none is ready to issue. -/
def State.vgrowBlocked (s : State) (core slot : Nat) (w : Wave) : Bool :=
  (w.halves.any fun h => h.paths.any fun p => match p.wait with | .on (.vgrow _) _ => true | _ => false) &&
    w.halves.zipIdx.all fun h => h.1.paths.zipIdx.all fun p => !Ctx.ready ⟨⟨core, slot, h.2, p.2⟩, w, h.1, p.1⟩ s

/-- VGROW_DEADLOCK_BREAK (R59): the youngest wave's requests fail, unless a save of one of the core's waves is in progress. It
may fire while the pool holds a block that the head request is to receive: R59 does not name the pool among its conditions.
DESIGN CHOICE, safe: notes/assumptions/81.md. -/
def State.vgrowBreak (s : State) (core : Nat) : State :=
  let k := s.core core
  let ws := k.waves.filter fun (x : Nat × Wave) => x.1 ≠ 0
  if ws.isEmpty || !k.draining.isEmpty || ws.any (fun (x : Nat × Wave) => x.2.stopping || !s.vgrowBlocked core x.1 x.2) then s
  else
    let top := ws.foldl (fun m (x : Nat × Wave) => max m x.2.id.made) 0
    match ws.find? fun (x : Nat × Wave) => x.2.id.made = top with
    | none => s
    | some (slot, _) =>
      (s.updCore core fun r => { r with poolQ := r.poolQ.filter fun q => q.slot ≠ slot }).endGrows core slot (fun _ => true) false

/-- VGROW_DEADLOCK_BREAK (R59). -/
def execVgrowDeadlockBreak (core : Nat) (s : State) : Host.Outcome State Fault Refusal := .next (s.vgrowBreak core)

/-- A draining block whose outstanding writes have retired (R58, R60), those of splits in the middle of an instruction among
them: the writes of a wave that has ended may retire at any time. -/
def State.drained (s : State) (core : Nat) (d : Drain) : Bool :=
  match s.wave? core d.slot with
  | none => true
  | some w => !(w.pend.any fun p => p.regs.contains (.gone d.blk)) && !s.awaited core d.slot d.blk none

/-- BLOCK_DRAIN_DONE (R58, R60). -/
def execBlockDrainDone (core : Nat) (s : State) : Host.Outcome State Fault Refusal :=
  .next <| match (s.core core).draining.find? (s.drained core) with
    | some d => s.updCore core fun r => { r with draining := r.draining.erase d, pool := r.pool + if d.blk = 0 then 0 else 1 }
    | none => s

/-- BAR (R325). -/
def execBar (e : Ext) (s : State) : Host.Outcome State Fault Refusal :=
  runWave (.bar e) (some e) (barBody (.bar e) true (e.m 0 8) 0) s

/-- BARA (R325). -/
def execBara (e : Ext) (s : State) : Host.Outcome State Fault Refusal :=
  runWave (.bara e) (some e) (barBody (.bara e) false (e.m 0 8) e.d9.toNat) s

/-- BARW (R325). -/
def execBarw (e : Ext) (s : State) : Host.Outcome State Fault Refusal :=
  runWave (.barw e) (some e) (barwBody (.barw e) (e.m 0 8) e.a9.toNat) s

/-- REGROUP KEY (R175). -/
def execRegroupKey (e : Ext) (s : State) : Host.Outcome State Fault Refusal :=
  runWave (.regroupKey e) (some e) (regroupBody (.regroupKey e) true e) s

/-- REGROUP HOME (R175). -/
def execRegroupHome (e : Ext) (s : State) : Host.Outcome State Fault Refusal :=
  runWave (.regroupHome e) (some e) (regroupBody (.regroupHome e) false e) s

/-- VGROW (R57). -/
def execVgrow (e : Ext) (s : State) : Host.Outcome State Fault Refusal :=
  runWave (.vgrow e) (some e) (vgrowBody e) s

/-- VSHRINK (R57). -/
def execVshrink (e : Ext) (s : State) : Host.Outcome State Fault Refusal :=
  runWave (.vshrink e) (some e) (vshrinkBody e) s

end Sys2Proof.Machine
end

