-- ==== Sys2Proof/Machine/Traps.lean ====
section
/-!
DEFINITION. Traps after they have been taken: making waves (R26, R45, R230), the delivery of a record to the process
handler (R256, R258, R460), the verdicts and the restart (R257, R261, R414), the end of a wave (R45, R359), and
AGENT_RESTART (R254).
-/

namespace Sys2Proof.Machine

/-! ### Making a wave -/

/-- Run-queue nodes in use at a cluster, at most 4096 (R231): an entry beyond them waits in its descriptor. -/
def State.queued (s : State) (cl : Nat) : Nat :=
  min 4096 ((s.kern.runq.filter fun (x : Nat × List ((BitVec 32 ⊕ Nat) × Nat)) => x.1 / 256 = cl).foldl (fun n x => n + x.2.length) 0)

/-- The cluster of those given with fewest nodes in use, lowest index on ties (R230). -/
def State.leastQueued (s : State) (cls : List Nat) : Nat :=
  let m := cls.foldl (fun m c => min m (s.queued c)) (2 ^ 32)
  (cls.find? fun c => s.queued c = m).getD 0

/-- The home cluster of a new wave (R230): the creator's, or the least loaded of its die or of the package.
DEDUCED, unsafe: notes/assumptions/39.md. -/
def State.homeCluster (s : State) (core placement : Nat) : Nat :=
  if placement ≤ 1 then clusterOf core
  else if placement = 2 then s.leastQueued ((List.range 32).filter fun c => dieOfCluster c = dieOf core)
  else s.leastQueued (List.range 32)

/-- A wave that is to be made (R45, R230, R256). -/
structure NewWave where
  proc : BitVec 32
  sc : BitVec 32
  entry : Dword
  args : List (BitVec 64)
  hold : BitVec 4
  placement : BitVec 2
  cluster : Nat
  core : Nat
  kind : Kind
  handles : Option TrapRec
  deriving DecidableEq, Repr

/-- A wave object made, with its image, and put at the tail of its list; none while the table is full (R230).
DEDUCED, unsafe: notes/assumptions/39.md. -/
def State.makeWave (s : State) (n : NewWave) : Option (BitVec 32 × State) :=
  match s.freeIndex, s.named n.proc with
  | some i, some po =>
    let gen := ((s.obj? i).map (·.gen)).getD 0
    let h := mkHandle 2 gen i
    let id : WaveId :=
      { handle := h, proc := n.proc, sc := n.sc, kind := n.kind, blk := none, lvls := List.replicate 8 0, gang := false,
        codeBase := n.entry, placement := n.placement,
        home := if n.placement = 0 then n.core else coreAt n.cluster 0, pinned := n.placement == 0, made := s.kern.made,
        handles := n.handles }
    let w := Wave.fresh id n.hold n.args (fun l => i * 64 + l) [Half.fresh n.entry allLanes false] s.now
    let addr := s.imageAddr i
    let s := s.setBytes addr (w.image s.now)
    let s := { s with kern := { s.kern with made := s.kern.made + 1 } }
    let s := s.setObj i ⟨gen, BitVec.ofNat 20 (hIndex n.proc), 0, po.tdi,
      .wave (BitVec.ofNat 64 addr) s.now none (some w) (some id) none none⟩
    some (h, s.enqueue n.cluster n.sc (.inl h))
  | _, _ => none

/-! ### Verdicts -/

/-- The verdicts R247 allows for an exception. -/
def verdictAllowed (code v : Nat) : Bool :=
  if code = Exc.engineCommand then v == 0 || v == 3
  else if code = Exc.breakpoint || 0x100 ≤ code then true
  else if code = Exc.dataIntegrity then false
  else v ≤ 2

/-- A verdict as it is applied: one that is not allowed terminates, and in a chain RETRY and CONTINUE restart (R257). -/
def verdictOf (code v : Nat) (inchain : Bool) : Nat :=
  let v := if verdictAllowed code v then v else 0
  if inchain && 2 ≤ v then 1 else v

/-- The fields of a record's KTCODE (R251). -/
def TrapRec.excCode (r : TrapRec) : Nat := bits r.code.toNat 15 0
def TrapRec.inchain (r : TrapRec) : Bool := r.code.getLsbD 24
def TrapRec.privileged (r : TrapRec) : Bool := r.code.getLsbD 25
def TrapRec.reread (r : TrapRec) : Bool := r.code.getLsbD 26
def TrapRec.async (r : TrapRec) : Bool := r.code.getLsbD 22
def TrapRec.half (r : TrapRec) : Nat := bits r.code.toNat 21 21

/-- The restart of a half from its region entry (R261): what its splits have met since is gone. -/
def Wave.restart (w : Wave) (half : Nat) : Wave :=
  match w.halves[half]? with
  | none => w
  | some h =>
    let mine := halfLanes w.id.gang half
    let w := { w with
      rrb := w.srrb
      later := w.later.filter fun r => r.half ≠ half
      removed := w.removed.zipIdx.map fun (x : Mask × Nat) => if (h.snap.getD x.2 none).isSome then x.1 else x.1 &&& ~~~mine }
    w.updHalf half fun h =>
      { h with
        base := ⟨h.region, w.live &&& mine, true, false, 0, .ready, none, levelIters h.snap⟩
        stack := []
        levels := h.snap
        reread := [] }

/-- One trap of a wave is over. -/
def Wave.untrap (w : Wave) : Wave := { w with traps := w.traps - 1, trap := if w.traps ≤ 1 then none else w.trap }

/-- The wave ends under TERMINATE (R257): with its block, if it has one. -/
def State.terminate (s : State) (h : BitVec 32) (blk : Option Nat) : State :=
  match blk with
  | some b => s.killBlock b
  | none => s.endHandle h

/-- A split goes on behind the instruction it stands at, over its back edge (R165, R414). -/
def Wave.passOver (w : Wave) (after : Dword → Dword) (half path : Nat) (pc : Dword) : Wave :=
  match w.backEdge 4 half path pc (after pc) with
  | some (w, nxt) => w.updPath half path fun p => { p with pc := nxt, wait := .ready, prog := none }
  | none => w.updPath half path fun p => { p with pc := pc, wait := .ready }

/-- What a verdict does to a wave (R261, R414): PC of the split that faulted, the restart, or the fall-through past the
faulting instruction with its back edge. -/
def Wave.verdict (w : Wave) (after : Dword → Dword) (v half path : Nat) (pc : Dword) (reread : Bool) : Wave :=
  let w := w.untrap
  if v = 1 then w.restart half
  else if v = 2 then
    if reread then w
    else w.updPath half path fun p => { p with pc := pc, wait := .ready, prog := if p.pc = pc then p.prog else none }
  else w.passOver after half path pc

/-- The requests of a half of a wave given up. -/
def State.forgetReqs (s : State) (h : BitVec 32) (half : Nat) : State :=
  s.giveUp fun r => r.handle == h && r.half % 2 == half

/-- A saved wave changed, its image written anew. -/
def State.rewrite (s : State) (h : BitVec 32) (w : Wave) : State :=
  let addr := match s.named h with
    | some ⟨_, _, _, _, .wave a _ _ _ _ _ _⟩ => a.toNat
    | _ => 0
  (s.setBytes addr (w.image s.now)).updWaveObj h (fun a b c _ e g t => .wave a b c (some w) e g t) none

/-- A regroup of the wave's block that waited for a verdict may take place (R173). -/
def State.regroupAfter (s : State) (blk : Option Nat) : State :=
  match blk with
  | some b => s.tryRegroup b
  | none => s

/-- Where a verdict sends the split that faulted: nowhere new where it terminates or resumes as it stands (R257, R414). -/
def Wave.returnsTo (w : Wave) (after : Dword → Dword) (v half : Nat) (pc : Dword) (stays : Bool) : List Nat :=
  if v = 0 then []
  else if v = 1 then ((w.halves[half]?).map fun (h : Half) => h.region.toNat).toList
  else if stays then []
  else [(if v = 2 then pc else after pc).toNat]

/-- One trap of a wave, resident or saved, is over without more (R257, ENGINE_COMMAND with CONTINUE). -/
def State.resumeWave (s : State) (h : BitVec 32) : State :=
  match s.resident h, s.waveOf h with
  | some (c, k), some w => if w.traps = 0 then s else (s.setWave c k w.untrap).lookAgain c k
  | none, some w =>
    if w.traps = 0 then s
    else
      let s := s.updWaveObj h (fun a b c _ e g t => .wave a b c (some w.untrap) e g t) none
      if w.untrap.traps = 0 && w.id.blk.isNone then s.readyWave h else s
  | _, none => s

/-- The CONTINUE verdicts on a block's engine commands take effect once no precise verdict of its waves is pending (R268): the
block resumes only when both allow it. -/
def State.releaseHeld (s : State) (blk : Option Nat) : State :=
  match blk.bind fun b => (s.block? b).map fun k => (b, k) with
  | none => s
  | some (b, k) =>
    let ws := k.waves.filterMap s.waveOf
    if k.engHeld = 0 || ws.any fun w => k.engHeld + b2n k.engErr < w.traps then s
    else
      let s := s.updBlock b fun k => { k with engHeld := 0 }
      ((List.range k.engHeld).foldl (fun s _ => k.waves.foldl State.resumeWave s) s).tryEndBlock b

/-- A saved trapped wave of no block whose verdict is known: it becomes resident on a core that it may run on and that has
room, as an agent that loads it there leaves it (R268), or else it joins its list.
DESIGN CHOICE, safe: notes/assumptions/55.md. -/
def State.returnWave (s : State) (id : WaveId) : State :=
  let h := id.handle
  let cores := (List.range 128).filter fun k => id.allows k && (s.freeSlot k).isSome && s.poolFor k (s.imageHold h)
  let core := cores.getD (Config.which s.free 268 % cores.length) 0
  let s := { s with free := s.free + 1 }
  match if cores.isEmpty then none else s.freeSlot core with
  | none => s.readyWave h
  | some slot =>
    (s.loadIn core slot h (s.imageBytes h)).getD (s.readyWave h)

/-- A verdict applied to a resident trapped wave whose target has passed its check (R257, R261, R414): what waited for the
wave's verdict goes on. -/
def State.giveVerdict (s : State) (core slot : Nat) (d : Due) : State :=
  match s.wave? core slot with
  | none => s
  | some w =>
    if d.v = 0 then s.terminate w.id.handle w.id.blk
    else
      let s := if d.v = 2 then s else s.forgetReqs w.id.handle d.half
      let after := s.afterPc (s.waveSpace core slot w)
      let s := s.setWave core slot (w.verdict after d.v d.half d.path d.pc d.reread)
      ((s.merge 70 ⟨core, slot, d.half, 0⟩).lookAgain core slot |>.releaseHeld w.id.blk).regroupAfter w.id.blk

/-- A verdict on a resident wave as the firmware agent of its core gives it: a trap return is a transfer of control, its target
checked before anything changes (R80). A failed check is a fault of the agent, and the wave stays as it is; a check that misses
waits for its fault records.
DEDUCED, unsafe: notes/assumptions/85.md. -/
def State.tryVerdict (s : State) (core slot : Nat) (d : Due) : State :=
  match s.wave? core slot with
  | none => s
  | some w =>
    let sp := s.waveSpace core slot w
    match s.checkTargets sp w.id.codeBase (w.returnsTo (s.afterPc sp) d.v d.half d.pc d.reread) with
    | (.ok, s) => s.giveVerdict core slot d
    | (.fault code t, s) => s.agentFault core code t
    | (.miss ms, s) =>
      let (qs, _, s) := s.openRecords sp .fetch ms
      s.updWave core slot fun w => { w with due := w.due ++ [{ d with parked := qs }] }

/-- A precise record's verdict on its wave (R257, R268): at once where the wave is resident; on a saved wave when it has been
restored, TERMINATE of a wave of no block excepted.
DEDUCED, unsafe: notes/assumptions/85.md. -/
def State.applyVerdict (s : State) (h : BitVec 32) (d : Due) : State :=
  match s.waveOf h with
  | none => s
  | some w =>
    if w.traps = 0 then s
    else match s.resident h with
      | some (c, k) => s.tryVerdict c k d
      | none =>
        if d.v = 0 && w.id.blk.isNone then s.terminate h none
        else
          let s := s.updWaveObj h (fun a b c w e g t => .wave a b c (w.map fun w => { w with due := w.due ++ [d] }) e g t) none
          if w.id.blk.isNone then s.returnWave w.id else s

/-- What a resident wave has to come: a verdict not applied yet, unless its check is parked, or else an exception that a split
met while the wave was trapped (R254, R268). -/
def State.settleWave (s : State) (core slot : Nat) : State :=
  match s.wave? core slot with
  | none => s
  | some w =>
    match w.due with
    | d :: ds =>
      if w.traps = 0 then s.setWave core slot { w with due := [] }
      else if d.parked.isEmpty then (s.setWave core slot { w with due := ds }).tryVerdict core slot d
      else s
    | [] => s.raiseLater core slot

/-- What every resident wave has to come. -/
def State.settleWaves (s : State) : State :=
  (s.cores.flatMap fun (x : Nat × Core) => x.2.waves.filterMap fun (y : Nat × Wave) =>
    if y.2.due.isEmpty && y.2.later.isEmpty then none else some (x.1, y.1)).foldl (fun s a => s.settleWave a.1 a.2) s

/-- The posting split of a wave, resident or saved, goes on behind its posting instruction.
DEDUCED, unsafe: notes/assumptions/89.md. -/
def State.passPosting (s : State) (r : TrapRec) : State :=
  match s.resident r.wave, s.waveOf r.wave with
  | some (c, k), some w => s.setWave c k (w.passOver (s.afterPc (s.waveSpace c k w)) (bits r.code.toNat 21 21) r.path r.pc)
  | none, some w => s.rewrite r.wave (w.passOver (s.afterPc (s.waveSpace w.id.home 1 w)) (bits r.code.toNat 21 21) r.path r.pc)
  | _, none => s

/-- CONTINUE on an engine command's record, of which only one of a block's command raised at posting is given (R268, R414,
R460): every wave of the block goes on, or the posting wave.
DEDUCED, unsafe: notes/assumptions/89.md. -/
def State.engineGo (s : State) (h : BitVec 32) (blk : Option Nat) (post : Option TrapRec) : State :=
  match blk with
  | some b =>
    let s := match post with | some r => s.passPosting r | none => s
    ((s.updBlock b fun k => { k with engErr := false, engHeld := k.engHeld + 1 }).releaseHeld blk).regroupAfter blk
  | none => s.resumeWave h

/-- CONTINUE past the posting instruction at which a record was raised (R414). -/
def TrapRec.past (r : TrapRec) : Due := ⟨3, r.half, r.path, r.pc, false, []⟩

/-- The verdict on an engine command's record (R460). -/
def State.engineVerdict (s : State) (r : TrapRec) (v : Nat) : State :=
  if v = 3 then
    if r.blk.isNone && r.posting then s.applyVerdict r.wave r.past else s.engineGo r.wave r.blk (if r.posting then some r else none)
  else match r.blk with
    | some b => s.killBlock b
    | none => s.endHandle r.wave

/-- A handler's verdict on its record (R256, R257). -/
def State.handlerDone (s : State) (r : TrapRec) (v : Nat) : State :=
  let v := verdictOf r.excCode v r.inchain
  if r.excCode = Exc.dataIntegrity then s
  else if r.async then s.engineVerdict r v
  else s.applyVerdict r.wave ⟨v, r.half, r.path, r.pc, r.reread, []⟩

/-! ### Delivery (R256, R258) -/

/-- A wave can be stopped now: at a chain boundary, trapped or not (R68, R248), none of its splits in the middle of an
instruction that the League has still to answer (R278), or about to complete a fence or a release whose requests it waits for
(R365).
DEDUCED, safe: notes/assumptions/50.md. -/
def State.stoppable (s : State) (core slot : Nat) : Bool :=
  match s.wave? core slot with
  | some w => w.chain.isNone && !s.midWave w.id.handle true && w.halves.all fun h => h.paths.all fun p => p.wait != .quiet
  | none => true

/-- A wave that is to be saved where it is asks back what it holds at full ports (R229). -/
def State.askBack (s : State) (h : BitVec 32) : State := s.withdraw fun r => r.handle == h

/-- The waits of a wave that a save takes are abandoned, its arrival at a barrier is withdrawn or completed, and what it has
outstanding retires (R61, R173, R265, R326, R352). -/
def State.halt (s : State) (core slot : Nat) : State := (s.withdrawBars core slot).quiesce core slot

/-- The image of a trapped wave written, the wave staying where it is (R256, R352: CTXSV with KEEP).
DESIGN CHOICE, unsafe: notes/assumptions/26.md. -/
def State.keepImage (s : State) (h : BitVec 32) : State :=
  match s.resident h with
  | some (c, k) =>
    let s := s.halt c k
    match s.wave? c k, s.named h with
    | some w, some ⟨_, _, _, _, .wave a _ _ _ _ _ _⟩ => s.setBytes a.toNat (w.image s.now)
    | _, _ => s
  | none => s

/-- TERMINATE applied to the wave, or the block, that a handler handled (R258): nothing where it has ended. -/
def State.terminateW (s : State) (h : BitVec 32) (blk : Option Nat) : State :=
  match blk with
  | some b => if ((s.block? b).map (·.st)).getD .ended == .ended then s else s.killBlock b
  | none => if (s.waveOf h).isSome then s.endHandle h else s

/-- The wave of a record, if it is resident, stands where it can be saved (R256, R352). -/
def State.deliverable (s : State) (r : TrapRec) : Bool :=
  match s.resident r.wave with
  | some (c, k) => s.stoppable c k
  | none => true

/-- The firmware agent takes the oldest record: a handler wave is made for it, or TERMINATE applies (R256). It first saves
the wave, which stops at its chain boundary, its splits at instruction boundaries (R248, R278, R352).
DEDUCED, unsafe: notes/assumptions/9.md. -/
def State.deliver (s : State) (core : Nat) : State :=
  match (s.core core).trapQ with
  | [] => s
  | r :: rs =>
    if r.privileged || core = mgmtCore then s
    else if !s.deliverable r then s.askBack r.wave
    else
      let s := s.updCore core fun k => { k with trapQ := rs }
      match r.ofW with
      | some (h, blk) =>
        -- a handler that faults has no handler: it ends, and its own record's wave terminates
        (if (s.waveOf r.wave).isSome then s.endHandle r.wave else s).terminateW h blk
      | none =>
        let s := s.keepImage r.wave
        let trap := match s.process? r.proc with | some (_, _, t, _) => t | none => 0
        let n : NewWave := ⟨r.proc, r.sc, trap, [r.wave.setWidth 64, r.code, r.pc, r.addr, r.region, 0, 0], 0, 1,
          clusterOf r.core, r.core, .handler, some r⟩
        match if trap = 0 then none else s.makeWave n with
        | some (_, s) => s
        | none => s.handlerDone r 0

/-- TRAP_RECORD_DELIVERY (R256).
DEDUCED, unsafe: notes/assumptions/9.md. -/
def execTrapRecordDelivery (core : Nat) (s : State) : Host.Outcome State Fault Refusal := .next (s.deliver core)

/-- The privileged trap entry of an agent's ROM handler, and its first instruction after a restart: KTVEC
(notes/assumptions/9.md).
DEDUCED, safe: notes/assumptions/72.md. -/
def State.restartAgent (s : State) (core : Nat) : State :=
  if (s.core core).agentHalted then
    let tv : Dword := (0 : BitVec 12) ++ (s.core core).ctl.ktvec ++ (0 : BitVec 6)
    let s := { s with tokWait := s.tokWait.filter (· ≠ TokWaiter.agent core) }
    (s.updCore core fun k => { k with agentHalted := false }).updWave core 0 fun w =>
      { w with
        traps := 0, chain := none, exited := ~~~slotZeroLanes core, removed := [0, 0, 0, 0]
        halves := [Half.fresh tv (slotZeroLanes core) false] }
  else s

/-- AGENT_RESTART (R254). -/
def execAgentRestart (core : Nat) (s : State) : Host.Outcome State Fault Refusal := .next (s.restartAgent core)

/-! ### Saving and ending -/

/-- A resident wave saved and its slot freed, its barrier arrival withdrawn where the phase has not completed (R265,
R326). -/
def State.saveWave (s : State) (core slot : Nat) : State := (s.withdrawBars core slot).saveOut core slot

/-- A wave that is to be saved issues nothing beyond the boundary at which that can be (R68, R241), and asks back what it
holds at full ports (R229).
DEDUCED, safe: notes/assumptions/50.md. -/
def State.haltWave (s : State) (core slot : Nat) : State :=
  let h := ((s.wave? core slot).map fun (w : Wave) => w.id.handle).getD 0
  (s.updWave core slot fun w => { w with stopping := true }).askBack h

/-- A wave whose last split has ended (R45, R359): its pending atomics perform, an open regroup goes on without it, and a
handler's verdict is delivered; where one of those atomics meets an error the wave raises it first (R196). -/
def State.finishWave (s : State) (core slot : Nat) : State :=
  let s := s.drainAtomn core slot
  match s.wave? core slot with
  | none => s
  | some w =>
    if !w.later.isEmpty && w.traps = 0 then s.raiseLater core slot
    else
    let v := (w.s 0 1).toNat % 4
    let s := s.endWave core slot
    let s := match w.id.blk with | some b => s.tryRegroup b | none => s
    match w.id.handles with
    | some r => s.handlerDone r v
    | none => s

end Sys2Proof.Machine
end

