-- ==== Sys2Proof/Machine/Turn.lean ====
section
/-!
DEFINITION. What one turn of the machine is: an issuing split fetches, decodes and executes; and how a program placed
from outside comes to run (`State.placeProgram`).
-/

namespace Sys2Proof.Machine

/-- The place of a split among those of its wave (R32). -/
def placeOf (a : Who) : Nat := 64 * a.half + a.path

/-- The ready splits of a wave, by place. -/
def State.readyIn (s : State) (core slot : Nat) : List Who :=
  match s.wave? core slot with
  | none => []
  | some w =>
    w.halves.zipIdx.flatMap fun (hx : Half × Nat) => (List.range hx.1.paths.length).filterMap fun k =>
      let a : Who := ⟨core, slot, hx.2, k⟩
      match s.ctx? a with
      | some c => if c.ready s then some a else none
      | none => none

/-- The split of a core that stands within a chain and can go on: the core switches neither wave nor split there (R68). -/
def State.chaining (s : State) (core : Nat) : Option Who :=
  (s.core core).waves.findSome? fun (x : Nat × Wave) => x.2.chain.bind fun k =>
    let a : Who := ⟨core, x.1, k.half, k.path⟩
    match s.ctx? a with
    | some c => if c.ready s || c.path.wait == .filling then some a else none
    | none => none

/-- The waves that a YIELD of a wave makes way for (R437): while its pass lasts, the others of its core that were ready
then, are ready now, and have not issued since. -/
def State.passedFor (s : State) (core slot : Nat) : List Nat :=
  match (s.wave? core slot).bind (·.yielded) with
  | some (t, ks) => if s.now < t then ks.filter fun k => !(s.readyIn core k).isEmpty else []
  | none => []

/-- The wave that a turn of a wave goes to: while the wave is passed over, one that it makes way for (R437).
DESIGN CHOICE, safe: notes/assumptions/3.md. -/
def State.turnOf (s : State) (a : Who) : Who :=
  match (s.passedFor a.core a.slot).find? fun k => (s.passedFor a.core k).isEmpty with
  | some k => ⟨a.core, k, 0, 0⟩
  | none => a

/-- A wave's ready split after the one that issued last, in round-robin order of place (R32). -/
def State.roundRobin (s : State) (a : Who) : Who :=
  let last := ((s.wave? a.core a.slot).map (·.turn)).getD 0
  let rs := s.readyIn a.core a.slot
  ((rs.find? fun b => last < placeOf b).or rs.head?).getD a

/-- The split a turn of a wave goes to (R32, R68, R437): that of a chain in progress on the core, else the wave's next one,
or while the wave has yielded that of another wave.
DESIGN CHOICE, safe: notes/assumptions/3.md. -/
def State.issuer (s : State) (a : Who) : Who :=
  match s.chaining a.core with
  | some b => b
  | none => s.roundRobin (s.turnOf a)

/-- Another wave of the core has issued (R437). -/
def Wave.seen (w : Wave) (slot : Nat) : Wave :=
  { w with yielded := w.yielded.map fun y => (y.1, y.2.filter fun k => k ≠ slot) }

/-- The split that issues, its place noted as its wave's last (R32), and noted by the waves that make way for it (R437). -/
def State.issuing (s : State) (a : Who) : State :=
  let s := s.updCore a.core fun k =>
    { k with waves := k.waves.map fun (x : Nat × Wave) => if x.1 = a.slot then x else (x.1, x.2.seen a.slot) }
  { s.updWave a.core a.slot fun w => { w with turn := placeOf a } with cur := a }

/-- A YIELD issued (R437): the selector passes over the wave's splits until every other ready wave of the core has issued
once, or 256 cycles have passed. -/
def State.yields (s : State) (core slot : Nat) : State :=
  let ks := (s.core core).waves.filterMap fun (x : Nat × Wave) =>
    if x.1 ≠ slot && !(s.readyIn core x.1).isEmpty then some x.1 else none
  s.updWave core slot fun w => { w with yielded := some (s.now + 256 * 10 / 13, ks) }

/-- What a split's fetch gives: an instruction, or the state in which it has stopped. -/
inductive FetchedIns where
  | ins (i : Instr) (s : State)
  | stop (s : State)

/-- Fetch and decode at a ready split's PC (R72, R79, R81, R100 steps 1 to 3). -/
def State.fetchIns (s : State) (c : Ctx) : FetchedIns :=
  let pc := c.path.pc
  if !pcInRange c.w.id.codeBase pc.toNat then .stop (s.raise c false Exc.pcOverflow pc pc.toNat)
  else
    let sp := c.space s
    match s.fetch sp pc.toNat with
    | (.miss _ lvl, s) =>
      let (qs, all, s) := s.openRecords sp .fetch [(pc.toNat, lvl)]
      .stop (s.park c qs all)
    | (.fault _ code, s) => .stop (s.raise c false code pc pc.toNat)
    | (.line bs bad pa, s) =>
      let at' := pc.toNat % 64 / 4
      let len := ((wordsOfBytes bs)[at']?.map wordsOf).getD 1
      match s.consume bad pa at' (at' + len - 1), decodeIn bs pc.toNat with
      | some s, _ => .stop (s.raise c false Exc.dataIntegrity pc pc.toNat)
      | none, .ok i => .ins i s
      | none, .error .sysSub => .stop (s.raise c false (if c.w.priv then Exc.illegal else Exc.privileged) pc 0)
      | none, .error _ => .stop (s.raise c false Exc.illegal pc 0)

/-- The physical addresses at which `placeProgram` puts its page tables (64 KiB root, three tables) and code page.
DESIGN CHOICE, safe: notes/assumptions/1.md. -/
def loadRoot : Nat := 0x10000
/-- The virtual address of the placed code.
DESIGN CHOICE, safe: notes/assumptions/1.md. -/
def loadPc : Nat := 0x1000

/-- A program's bytes placed from outside, as a launch would leave them: a process of the physical function with a page
table that maps one executable page, and a wave of it in slot 1 of core 0 whose next instruction is the first byte.
DESIGN CHOICE, safe: notes/assumptions/1.md. -/
def State.placeProgram (s : State) (bs : List Byte) : State :=
  let s := s.setNum loadRoot 8 (0x20000 + 1)
  let s := s.setNum 0x20000 8 (0x21000 + 1)
  let s := s.setNum 0x21000 8 (0x22000 + 1)
  let s := s.setNum 0x22008 8 (0x23000 + 0x8B)      -- V, R, X, LEAF
  let s := s.setBytes 0x23000 bs
  let ph := mkHandle 1 0 1
  let wh := mkHandle 2 0 2
  let s := s.setObj 1 ⟨0, 1, 0, 0xFF, .process 1 (BitVec.ofNat 64 loadRoot) 0 0⟩
  let s := s.setObj 2 ⟨0, 1, 1, 0xFF, .wave 0 0 (some (0, 1)) none none none none⟩
  let id : WaveId := ⟨wh, ph, 0, .single, none, List.replicate 8 0, false, BitVec.ofNat 64 loadPc, 0, 0, true, 0, none⟩
  -- a wave of the core that stands within a chain would hold its issue slots
  let s := s.updCore 0 fun k => { k with waves := k.waves.map fun (x : Nat × Wave) => (x.1, { x.2 with chain := none }) }
  let s := { s with host := { s.host with code := ⟨ph, loadPc, bs.length, some Config.stepping, false⟩ :: s.host.code } }
  s.setWave 0 1 (Wave.fresh id 0 [] (fun l => l) [Half.fresh (BitVec.ofNat 64 loadPc) allLanes false] 0)

end Sys2Proof.Machine
end

