-- ==== Sys2Proof/Machine/Control.lean ====
section
/-!
DEFINITION. Control flow: branches, calls, returns and indirect jumps (R27 to R30, R159 to R162), loop levels (R163 to
R169), REGION (R170), EXIT (R45, R358, R359), YIELD, NOP, TRAP and BRK.
-/

namespace Sys2Proof.Machine

/-- The split's PC set. -/
def State.setPc (s : State) (c : Ctx) (pc : Nat) : State :=
  s.updPath c fun p => { p with pc := BitVec.ofNat 64 pc, wait := .ready, prog := none }

/-- A target at a displacement in words from the instruction (R159), exactly: one outside 64 bits keeps its low 64 bits and
lies beyond every address, so that it is out of range (R80). -/
def Ctx.disp (c : Ctx) (d : Int) : Nat :=
  let t := (c.path.pc.toNat : Int) + 4 * d
  if 0 ≤ t ∧ t < 2 ^ 64 then t.toNat else 2 ^ 64 + ofInt 64 t

/-- The scalar in which CALL leaves its return address: s63, or s31 of the half in gang mode (R160, R412). -/
def Ctx.linkReg (c : Ctx) : Nat := if c.w.id.gang then 31 else 63

/-- BRA and CALL to a target (R160, R331, R336). -/
def gotoBody (i : Instr) (link : Bool) (t : Ctx → Nat) (c : Ctx) (s : State) : Res :=
  transfer c s [t c] fun s =>
    let s := if link then s.put c ((s.mine c).setS c.who.half c.linkReg (nextPc c i)) else s
    .jump (s.setPc c (t c))

/-- BRA and CALL to an absolute target in a scalar. -/
def gotoAbsBody (i : Instr) (link : Bool) (e : Ext) (c : Ctx) (s : State) : Res :=
  withOps s [sRun c e.a9.toNat] (gotoBody i link (fun c => (c.sVal e.a9.toNat).toNat) c s)

/-- A literal displacement. -/
def litDisp (e : Ext) (c : Ctx) : Nat := c.disp (e.lit.getD 0).toInt

/-- RET (R412). -/
def retBody (c : Ctx) (s : State) : Res :=
  let t := (c.w.s c.who.half c.linkReg).toNat
  transfer c s [t] fun s => .jump (s.setPc c t)

/-- BRU (R160, R335): the target is checked only when the branch is taken. -/
def bruBody (p : Nat) (neg : Bool) (t : Nat) (c : Ctx) (s : State) : Res :=
  if c.active 0 false &&& c.pred (416 + p) neg = 0 then .next s
  else transfer c s [t] fun s => .jump (s.setPc c t)

/-- BRU in the extended form. -/
def bruExtBody (e : Ext) (abs : Bool) (c : Ctx) (s : State) : Res :=
  withOps s [predOk e.a9.toNat, if abs then sRun c e.b9.toNat else OpOk.yes] <|
    bruBody (e.a9.toNat - 416) (e.m 0 1 == 1) (if abs then (c.sVal e.b9.toNat).toNat else litDisp e c) c s

/-- A path that starts, with the iteration numbers of the split it comes from (R27). -/
def Path.at' (iters : List (Option Nat)) (pc : Nat) (m : Mask) (running : Bool) : Path :=
  ⟨BitVec.ofNat 64 pc, m, running, false, 0, .ready, none, iters⟩

/-- The depth at which a push overflows (R30, R33). -/
def Ctx.maxDepth (c : Ctx) : Nat := if c.w.id.gang then 8 else 16

/-- The issuing split divides into paths, in the order in which they run when they run one at a time (R28). A join outside the
64-bit address range keeps its low 64 bits.
DESIGN CHOICE, unsafe: notes/assumptions/101.md. -/
def divide (c : Ctx) (s : State) (join : Nat) (jmpi : Option Dword) (paths : List (Nat × Mask)) (pending : Mask) : Res :=
  if c.half.stack.length ≥ c.maxDepth then .raise s Exc.divstackOverflow 0
  else
    let serial := !c.half.stack.isEmpty
    let ps := runPaths serial (fun _ => false) (paths.map fun x => Path.at' c.path.iters x.1 x.2 true)
    let e : Entry := ⟨BitVec.ofNat 64 join, jmpi, ps, pending, c.path.iters, c.who.path⟩
    .jump (s.updWave c.who.core c.who.slot fun w => w.updHalf c.who.half fun h => h.push c.who.path e)

/-- BRC (R160, R332): one whose target is its own next instruction divides its lanes like any other.
DESIGN CHOICE, unsafe: notes/assumptions/102.md. -/
def brcBody (e : Ext) (c : Ctx) (s : State) : Res :=
  let lit := (e.lit.getD 0).toNat
  let t := asInt 32 (lit % 2 ^ 32)
  let j := asInt 32 (lit / 2 ^ 32)
  withOps s [predOk e.a9.toNat, OpOk.when (decide (1 ≤ t) && decide (t ≤ j))] <|
    let next := (nextPc c (.brc e)).toNat
    transfer c s [c.disp t, next] fun s =>
      if e.m 1 1 = 1 && !c.half.stack.isEmpty then .raise s Exc.invalidOperand 0
      else
        let taken := c.active 0 false &&& c.pred e.a9.toNat (e.m 0 1 == 1)
        let rest := c.path.mask &&& ~~~taken
        if taken = 0 then .next s
        else if rest = 0 then .jump (s.setPc c (c.disp t))
        else divide c s (c.disp j) none [(c.disp t, taken), (next, rest)] 0

/-- A number put into an ascending list, once. -/
def insertAsc (y : Nat) : List Nat → List Nat
  | [] => [y]
  | x :: xs => if y < x then y :: x :: xs else if y = x then x :: xs else x :: insertAsc y xs

/-- JMPI (R160, R375, R28).
DEDUCED, safe: notes/assumptions/35.md. -/
def jmpiBody (e : Ext) (c : Ctx) (s : State) : Res :=
  let j := asInt 64 (e.lit.getD 0).toNat
  let a := e.a9.toNat
  withOps s [vRun c.w a 2 2 (fun _ => true), OpOk.when (decide (0 < j))] <|
    let act := c.active 0 false
    let t (l : Nat) : Nat := opVal c none 8 a l
    let ts := (lanesOf act).foldr (fun l => insertAsc (t l)) []
    if ts.isEmpty then .next s
    else transfer c s ts fun s =>
      match ts with
      | [x] => .jump (s.setPc c x)
      | _ =>
        let first := ts.take (maxPaths c.w.id.gang)
        let lanes (x : Nat) : Mask := maskOf fun l => act.getLsbD l && t l == x
        let pending := maskOf fun l => act.getLsbD l && !first.contains (t l)
        divide c s (c.disp j) (some c.path.pc) (first.map fun x => (x, lanes x)) pending

/-! ### Loop levels -/

/-- Levels a half may have active (R33, R164). -/
def Ctx.maxLevels (c : Ctx) : Nat := if c.w.id.gang then 2 else 4

/-- The paths of the top entry that run beside the issuing one stop until the level ends (R164). -/
def Half.hold (h : Half) (path n : Nat) : Half :=
  match h.stack with
  | [] => h
  | e :: es =>
    { h with stack := { e with paths := e.paths.zipIdx.map fun (x : Path × Nat) =>
        if x.2 ≠ path && x.1.running then { x.1 with running := false, held := n + 1 } else x.1 } :: es }

/-- The address after the instruction at a place of the issuing wave's code. -/
def afterCode (c : Ctx) (s : State) (pc : Dword) : Dword := s.afterPc (c.space s) pc

/-- LOOP (R164): the checks of its displacement and of its scalar's bits 63:32 (R163) come before that of block 4.
DESIGN CHOICE, unsafe: notes/assumptions/103.md. -/
def loopBody (e : Ext) (c : Ctx) (s : State) : Res :=
  let lit := (e.lit.getD 0).toNat
  let disp := asInt 32 (lit % 2 ^ 32)
  let a := e.a9.toNat
  let rot := e.m 3 1 == 1
  let stages := e.m 0 3 + 1
  let kind := if a < 384 then (sRun c a).valid && (c.sVal a).toNat < 2 ^ 32 else (388 ≤ a && a ≤ 404) || a == 511
  withOps s [OpOk.when (kind && decide (0 < disp) && !(rot && c.w.id.gang)), ⟨true, !rot || c.w.heldBlk 4, true, 384 ≤ a || (sRun c a).sound⟩] <|
    let t := if a = 511 then lit / 2 ^ 32 else if a < 384 then (c.sVal a).toNat else a - 388
    if t > 2 ^ 32 - stages then .raise s Exc.invalidOperand 0
    else
      let en := c.disp disp
      transfer c s [en] fun s =>
        let active := c.half.levels.countP (·.isSome)
        let inner := match c.half.innermost with
          | some (_, l) => decide (l.start ≤ c.path.pc) && decide (c.path.pc ≤ l.stop) && decide (l.stop.toNat < en)
          | none => false
        if active ≥ c.maxLevels || (rot && c.half.rotating.isSome) || inner then .raise s Exc.loopNest 0
        else
          let after := afterCode c s (BitVec.ofNat 64 en)
          if t = 0 then .jump (s.setPc c after.toNat)
          else
            let n := (c.half.levels.findIdx? fun l => l.isNone).getD 0
            let l : Level := ⟨nextPc c (.loop e), BitVec.ofNat 64 en, after, t + stages - 1, 0, stages, rot⟩
            .next (s.updWave c.who.core c.who.slot fun w =>
              { w with rrb := if e.m 4 1 = 1 then 0 else w.rrb }.updHalf c.who.half fun h =>
                ({ h.hold c.who.path n with levels := updAt (fun _ => some l) n h.levels }).updPath c.who.path fun p =>
                  { p with iters := updAt (fun _ => some 0) n p.iters })

/-- Another running path of the half holds lanes (R168). -/
def Half.othersRun (h : Half) (path : Nat) : Bool :=
  h.paths.zipIdx.any fun (x : Path × Nat) => x.2 ≠ path && x.1.running && x.1.mask != 0

/-- A stack entry whose join lies in a level's body holds waiting or pending lanes beside those of the issuing split
(R168): `mine` is the number of the path the issuing split descends from. -/
def stranded (l : Level) : Nat → List Entry → Bool
  | _, [] => false
  | mine, e :: es =>
    (decide (l.start ≤ e.join) && decide (e.join ≤ l.stop) &&
      (e.pending != 0 || e.paths.zipIdx.any fun (x : Path × Nat) => x.2 ≠ mine && !x.1.running && x.1.mask != 0)) ||
      stranded l e.parent es

/-- LOOPX (R168).
DEDUCED, unsafe: notes/assumptions/36.md. -/
def loopxBody (e : Ext) (c : Ctx) (s : State) : Res :=
  let n := e.m 0 2
  match c.half.levels.getD n none with
  | none => .raise s Exc.invalidOperand 0
  | some l =>
    if c.half.othersRun c.who.path || stranded l c.who.path c.half.stack then .raise s Exc.loopNest 0
    else
      let levels := ((List.range 4).filter fun k => n ≤ k && (c.half.levels.getD k none).isSome).reverse
      let s := s.updWave c.who.core c.who.slot fun w => levels.foldl (fun w k => w.endLevel c.who.half c.who.path k) w
      .jump (s.setPc c l.after.toNat)

/-- BRKL (R169).
DEDUCED, unsafe: notes/assumptions/36.md. -/
def brklBody (e : Ext) (c : Ctx) (s : State) : Res :=
  withOps s [predOk e.a9.toNat] <|
    match c.half.innermost with
    | none => .raise s Exc.loopNest 0
    | some (n, _) =>
      let m := c.active 0 false &&& c.pred e.a9.toNat (e.m 0 1 == 1)
      if m = 0 then .next s
      else
        let s := s.updWave c.who.core c.who.slot fun w =>
          Wave.updHalf { w with removed := updAt (fun x => x ||| m) n w.removed } c.who.half fun h => h.without m
        if c.path.mask &&& ~~~m ≠ 0 then .next s
        else .jump (s.updWave c.who.core c.who.slot fun w => w.emptied 4 c.who.half c.who.path)

/-- REGION (R170). -/
def regionBody (_c : Ctx) (s : State) : Res := .nextR s

/-- A half that holds no live or removed lane has ended (R45, R358). -/
def Wave.endHalf (w : Wave) (half : Nat) : Wave :=
  if halfLanes w.id.gang half &&& ~~~w.exited = 0 then w.updHalf half fun h => { h with ended := true } else w

/-- EXIT (R358, R359). -/
def exitBody (c : Ctx) (s : State) : Res :=
  let m := c.path.mask
  let s := s.updWave c.who.core c.who.slot fun w =>
    let w := Wave.updHalf { w with exited := w.exited ||| m } c.who.half fun h => h.without m
    (w.emptied 4 c.who.half c.who.path).endHalf c.who.half
  if (s.mine c).halves.all (·.ended) then .wait (s.finishWave c.who.core c.who.slot) else .jump s

/-- NOP (R395): no state changes. -/
def nopBody (_c : Ctx) (s : State) : Res := .next s

/-- YIELD (R437): the selector makes way for the other waves. -/
def yieldBody (c : Ctx) (s : State) : Res := .next (s.yields c.who.core c.who.slot)

/-- TRAP and BRK (R333, R430): the exception, precisely. -/
def trapBody (code : Nat) (_c : Ctx) (s : State) : Res := .raise s code 0

/-- NOP (R395). -/
def execNop (s : State) : Host.Outcome State Fault Refusal :=
  runWave .nop none nopBody s

/-- YIELD (R437). -/
def execYield (s : State) : Host.Outcome State Fault Refusal :=
  runWave .yield none yieldBody s

/-- REGION (R170). -/
def execRegion (s : State) : Host.Outcome State Fault Refusal :=
  runWave .region none regionBody s

/-- EXIT (R358). -/
def execExit (s : State) : Host.Outcome State Fault Refusal :=
  runWave .exit none exitBody s

/-- RET (R412). -/
def execRet (s : State) : Host.Outcome State Fault Refusal :=
  runWave .ret none retBody s

/-- BRK (R333). -/
def execBrk (s : State) : Host.Outcome State Fault Refusal :=
  runWave .brk none (trapBody Exc.breakpoint) s

/-- TRAP (R430). -/
def execTrap (n : BitVec 8) (s : State) : Host.Outcome State Fault Refusal :=
  runWave (.trap n) none (trapBody (Exc.trap n.toNat)) s

/-- BRA (R331). -/
def execBra (d : BitVec 22) (s : State) : Host.Outcome State Fault Refusal :=
  runWave (.bra d) none (gotoBody (.bra d) false fun c => c.disp d.toInt) s

/-- CALL (R336). -/
def execCall (d : BitVec 22) (s : State) : Host.Outcome State Fault Refusal :=
  runWave (.call d) none (gotoBody (.call d) true fun c => c.disp d.toInt) s

/-- BRA ABS (R331). -/
def execBraAbs (e : Ext) (s : State) : Host.Outcome State Fault Refusal :=
  runWave (.braAbs e) (some e) (gotoAbsBody (.braAbs e) false e) s

/-- CALL ABS (R336). -/
def execCallAbs (e : Ext) (s : State) : Host.Outcome State Fault Refusal :=
  runWave (.callAbs e) (some e) (gotoAbsBody (.callAbs e) true e) s

/-- BRA DISP (R331). -/
def execBraDisp (e : Ext) (s : State) : Host.Outcome State Fault Refusal :=
  runWave (.braDisp e) (some e) (gotoBody (.braDisp e) false (litDisp e)) s

/-- CALL DISP (R336). -/
def execCallDisp (e : Ext) (s : State) : Host.Outcome State Fault Refusal :=
  runWave (.callDisp e) (some e) (gotoBody (.callDisp e) true (litDisp e)) s

/-- BRU (R335). -/
def execBru (d : BitVec 17) (neg : Bool) (p : BitVec 4) (s : State) : Host.Outcome State Fault Refusal :=
  runWave (.bru d neg p) none (fun c => bruBody p.toNat neg (c.disp d.toInt) c) s

/-- BRU ABS (R335). -/
def execBruAbs (e : Ext) (s : State) : Host.Outcome State Fault Refusal :=
  runWave (.bruAbs e) (some e) (bruExtBody e true) s

/-- BRU DISP (R335). -/
def execBruDisp (e : Ext) (s : State) : Host.Outcome State Fault Refusal :=
  runWave (.bruDisp e) (some e) (bruExtBody e false) s

/-- BRC (R332). -/
def execBrc (e : Ext) (s : State) : Host.Outcome State Fault Refusal :=
  runWave (.brc e) (some e) (brcBody e) s

/-- JMPI (R375). -/
def execJmpi (e : Ext) (s : State) : Host.Outcome State Fault Refusal :=
  runWave (.jmpi e) (some e) (jmpiBody e) s

/-- LOOP (R164). -/
def execLoop (e : Ext) (s : State) : Host.Outcome State Fault Refusal :=
  runWave (.loop e) (some e) (loopBody e) s

/-- LOOPX (R168). -/
def execLoopx (e : Ext) (s : State) : Host.Outcome State Fault Refusal :=
  runWave (.loopx e) (some e) (loopxBody e) s

/-- BRKL (R169). -/
def execBrkl (e : Ext) (s : State) : Host.Outcome State Fault Refusal :=
  runWave (.brkl e) (some e) (brklBody e) s

end Sys2Proof.Machine
end

