-- ==== Sys2Proof/Machine/Engines.lean ====
section
/-!
DEFINITION. The matrix array, the copy engine and the channels of a core (R137 to R158): posting (R142, R152), the matrix
FIFO and its entries (R143 to R146), channels (R147 to R149), copies and gathers (R150 to R155, R372), collectives (R156,
R346), CWAIT (R157, R355), and asynchronous errors (R154, R460).
-/

namespace Sys2Proof.Machine

/-! ### Channels (R147, R148) -/

/-- A channel of a core. -/
def State.chan? (s : State) (core ch : Nat) : Option Chan := Sparse.get? ch (s.core core).chans
/-- A channel changed. -/
def State.updChan (s : State) (core ch : Nat) (f : Chan → Chan) : State :=
  s.updCore core fun k => { k with chans := Sparse.upd ch f k.chans }

/-- Arrivals that make up one slot for a kind of reservation: P or C. -/
def Chan.per (k : Chan) (r : Resv) : Nat := if r.put then k.p else k.c
/-- The slot a reservation maps to. -/
def Chan.slotOf (k : Chan) (r : Resv) : Nat := r.num / k.per r % k.n
/-- The room, or the data, a reservation waits for is there (R148). -/
def Chan.grantable (k : Chan) (r : Resv) : Bool :=
  let g := r.num / k.per r / k.n
  let slot := k.slots.getD (k.slotOf r) ⟨0, 0, 0, 0⟩
  if r.put then g ≤ slot.empties else g + 1 ≤ slot.fills
/-- The offset of a slot. -/
def Chan.offset (k : Chan) (slot : Nat) : Nat := k.base + slot * k.size
/-- A reservation made, granted at once where it can be. -/
def Chan.reserve (k : Chan) (put : Bool) (wave : Option Nat) : Resv × Chan :=
  let r : Resv := ⟨put, if put then k.pr else k.gr, false, wave⟩
  let r := { r with granted := k.grantable r }
  (r, { k with pr := if put then k.pr + 1 else k.pr, gr := if put then k.gr else k.gr + 1, resv := k.resv ++ [r] })
/-- A reservation by its kind and number. -/
def Chan.find (k : Chan) (put : Bool) (num : Nat) : Option Resv := k.resv.find? fun r => r.put == put && r.num == num
/-- A reservation granted. -/
def Chan.grant (k : Chan) (put : Bool) (num : Nat) : Chan :=
  { k with resv := k.resv.map fun r => if r.put = put ∧ r.num = num then { r with granted := true } else r }
/-- A put done or get done (R148). -/
def Chan.done (k : Chan) (r : Resv) : Chan :=
  { k with
    resv := k.resv.filter fun q => !(q.put == r.put && q.num == r.num)
    slots := updAt (fun (x : ChSlot) =>
      if r.put then
        if x.pc + 1 = k.p then { x with pc := 0, fills := x.fills + 1 } else { x with pc := x.pc + 1 }
      else
        if x.gc + 1 = k.c then { x with gc := 0, empties := x.empties + 1 } else { x with gc := x.gc + 1 }) (k.slotOf r) k.slots }

/-- A channel the issuing wave's block holds. -/
def State.heldChan (s : State) (c : Ctx) (ch : Nat) : Option Chan :=
  match c.w.id.blk, s.chan? c.who.core ch with
  | some b, some k => if k.holder = b then some k else none
  | _, _ => none

/-- Every reservation of a command has been granted (R149); one that a wave's done has completed had been. -/
def State.granted (s : State) (core : Nat) (x : Cmd) : Bool :=
  x.resv.all fun q => match (s.chan? core q.1).bind fun k => k.find q.2.put q.2.num with
    | some r => r.granted
    | none => true
/-- A granted reservation of a kind on a slot that is not done (R148): the holder's own by preference, then another wave's,
then an engine's. -/
def Chan.undone (k : Chan) (put : Bool) (slot : Nat) (own : Option Nat) : Option Resv :=
  let rs := k.resv.filter fun r => r.put == put && r.granted && k.slotOf r == slot
  ((rs.find? fun r => r.wave == own).orElse fun _ => rs.find? fun r => r.wave.isSome).orElse fun _ => rs.head?
/-- The dones of a command's reservations: where a wave's done took the command's own, the command's takes another of the
slot. -/
def State.dones (s : State) (core : Nat) (x : Cmd) : State :=
  x.resv.foldl (fun s q => s.updChan core q.1 fun k =>
    match (k.find q.2.put q.2.num).orElse fun _ => k.undone q.2.put (k.slotOf q.2) none with
    | some r => k.done r
    | none => k) s

/-! ### Matrix state (R50, R137, R143) -/

/-- The matrix state set of a block on a core. -/
def State.msetOf (s : State) (core : Nat) (blk : Option Nat) : Option Nat :=
  if blk.isNone then none else (s.core core).msets.findIdx? fun m => m.owner == blk
/-- A matrix state set. -/
def State.mset (s : State) (core i : Nat) : MSet := (s.core core).msets.getD i (MSet.fresh none)
/-- The posted tag of a register of a wave's matrix state: t0–t7, a0–a3 as 8–11 (R143). -/
def State.postedTag (s : State) (core : Nat) (blk : Option Nat) (i : Nat) : BitVec 4 :=
  match s.msetOf core blk with
  | some k => (s.mset core k).posted.getD i 0
  | none => 0
/-- The wave's block owns a matrix state set (R50). -/
def msetOk (s : State) (c : Ctx) (tagged : Bool) : OpOk :=
  let held := (s.msetOf c.who.core c.w.id.blk).isSome
  ⟨true, held, !held || tagged, true⟩
/-- The posted tag of a register of a block's matrix state set. -/
def State.setPosted (s : State) (core : Nat) (blk : Option Nat) (i : Nat) (t : BitVec 4) : State :=
  match s.msetOf core blk with
  | some k => s.updMSet core k fun m => { m with posted := updAt (fun _ => t) i m.posted }
  | none => s
/-- The tag of a register of a matrix state set that a FIFO entry writes. -/
def MSet.executed (m : MSet) (i : Nat) (t : BitVec 4) : MSet := { m with tags := updAt (fun _ => t) i m.tags }
/-- A register of a matrix state set written whole: an error it held goes with the write (R196).
DESIGN CHOICE, unsafe: notes/assumptions/87.md. -/
def MSet.renewed (m : MSet) (i : Nat) : MSet := { m with bad := m.bad.filter (· ≠ i) }

/-- The tag of an MMA's accumulator (R130, R143). -/
def resultTag (f : Nat) : BitVec 4 := if f = 11 then 1 else 2
/-- A microscaling format (R130). -/
def scaledFmt (f : Nat) : Bool := 13 ≤ f
/-- Scale registers of one operand (R129). -/
def scaleRegs (f : Nat) : Nat := if f = 16 then 4 else 2

/-! ### Descriptors (R140, R141) -/

/-- A 128-row operand: a channel, or rows in the cluster's scratchpad. -/
structure Desc where
  chan : Option Nat
  base : Nat
  pitch : Nat
  krot : Nat
  deriving DecidableEq, Repr

/-- A descriptor read from its two scalars; none where it breaks R140 or the bound of R141. -/
def descOf (d0 d1 : Nat) : Option Desc :=
  if bits d1 63 32 ≠ 0 then none
  else if bits d1 31 31 = 1 then
    if d0 = 0 ∧ bits d1 30 4 = 0 then some ⟨some (bits d1 3 0), 0, 128, 0⟩ else none
  else
    let base := bits d0 23 0
    let pitch := bits d0 39 24
    if bits d0 63 40 = 0 ∧ bits d1 30 28 = 0 ∧ bits d1 27 24 ≤ 3 ∧ bits d1 23 0 % 16 = 0 ∧ base % 16 = 0 ∧ pitch % 16 = 0 ∧
        128 ≤ pitch ∧ base + 127 * pitch + 127 ≤ 0xBFFFFF then
      some ⟨none, base, pitch, bits d1 27 24⟩
    else none

/-- The cluster scratchpad address of byte b of row i (R141). -/
def Desc.addr (d : Desc) (i b : Nat) : Nat := d.base + i * d.pitch + 16 * (b / 16 ^^^ i % 2 ^ d.krot) + b % 16

/-- Bytes of scratchpad of one core. -/
def spadSize : Nat := 0x300000
/-- The core and offset of a cluster scratchpad address (R17). -/
def spadPlace (core a : Nat) : Nat × Nat := (coreAt (clusterOf core) (a / spadSize), a % spadSize)
/-- A byte of cluster scratchpad. -/
def State.clusterByte (s : State) (core a : Nat) : Byte :=
  let (k, o) := spadPlace core a
  Sparse.get memDefault (s.core k).scratch o

/-- The lowest 16-byte chunk of a descriptor's rows that the process does not own (R141, R184). -/
def State.unowned (s : State) (core : Nat) (proc : BitVec 32) (d : Desc) : Option Nat :=
  let bad := (List.range 128).flatMap fun i => (List.range 8).filterMap fun k =>
    let a := d.addr i (16 * k)
    let (q, o) := spadPlace core a
    if ((s.spadOwner q o).bind s.blockProc) = some proc then none else some a
  bad.foldl (fun m a => match m with | none => some a | some x => some (min x a)) none

/-- The checks of a descriptor operand at posting (R141).
DEDUCED, unsafe: notes/assumptions/42.md. -/
def State.descFault (s : State) (c : Ctx) (code : Nat) : Option (Nat × Nat) :=
  match descOf (c.sVal code).toNat (c.sVal (code + 1)).toNat with
  | none => some (Exc.engineCommand, 0)
  | some d =>
    match d.chan with
    | some ch =>
      match s.heldChan c ch with
      | some k => if k.size < 16384 then some (Exc.channel, 0) else none
      | none => some (Exc.channel, 0)
    | none => (s.unowned c.who.core c.w.id.proc d).map fun a => (Exc.permission, a)

/-- A descriptor operand: an even scalar other than s0 (R138). -/
def descOk (c : Ctx) (code : Nat) : OpOk :=
  { OpOk.when (scalarOk c.w code && code % 2 == 0 && code != 320) with
    sound := (sRun c code).sound && (sRun c (code + 1)).sound }

/-! ### Posting (R138, R142, R460) -/

/-- The process the issuing wave acts for: its own, or for an agent that of KPROC (R249). -/
def Ctx.process (c : Ctx) (s : State) : BitVec 32 := if c.w.priv then (s.core c.who.core).ctl.kproc else c.w.id.proc

/-- The poster of a command of the issuing wave (R460). -/
def Ctx.poster (c : Ctx) (s : State) : Poster where
  handle := c.w.id.handle
  slot := c.who.slot
  lvl1 := c.w.id.lvls.getD 1 0
  proc := c.process s
  sc := c.w.id.sc
  blk := c.w.id.blk
  gang := c.w.id.gang
  half := c.who.half
  core := c.who.core
  kpasid := if c.w.priv then some (s.core c.who.core).ctl.kpasid else none

/-- A scalar operand's value, zero where the code is none. -/
def Ctx.sOr (c : Ctx) (code : Nat) : BitVec 64 := if 320 ≤ code ∧ code < 384 then c.sVal code else 0

/-- A command put at the tail of the FIFO or the copy queue. -/
def State.post (s : State) (c : Ctx) (fifo : Bool) (i : Instr) (scal : List (BitVec 64)) (regs : List VReg)
    (act : Mask) (record : List Byte) (resv : List (Nat × Resv)) : Nat × State :=
  let (n, s) := s.tick
  let x : Cmd := ⟨n, n, i, c.path.pc, c.poster s, act, scal, regs, record, resv, .queued, [], false, n⟩
  (n, s.updCore c.who.core fun k => if fifo then { k with fifo := k.fifo ++ [x] } else { k with copyq := k.copyq ++ [x] })

/-- Reservations of channels made for a command: channel and kind. -/
def State.reserveAll (s : State) (core : Nat) : List (Nat × Bool) → List (Nat × Resv) × State
  | [] => ([], s)
  | (ch, put) :: rest =>
    match s.chan? core ch with
    | some k =>
      let (r, k) := k.reserve put none
      let (rs, s) := (s.updChan core ch fun _ => k).reserveAll core rest
      ((ch, r) :: rs, s)
    | none => s.reserveAll core rest

/-- The barrier identifier of a completion (R139). -/
def Ext.barId (e : Ext) : Nat := (e.lit.getD 0).toNat % 256
/-- CMPL (R139). -/
def Ext.cmpl (e : Ext) : Nat := e.m 14 2

/-- The checks of a completion at posting (R145).
DEDUCED, unsafe: notes/assumptions/42.md. -/
def State.cmplFault (s : State) (c : Ctx) (e : Ext) : Option (Nat × Nat) :=
  if Ext.cmpl e = 1 then (if (s.barRef c (Ext.barId e)).isSome then none else some (Exc.engineCommand, 0))
  else if Ext.cmpl e = 2 && (c.sOr e.d9.toNat).toNat % 8 != 0 then some (Exc.misalignedAccess, (c.sOr e.d9.toNat).toNat)
  else none

/-- A barrier credit of a posted command (R145).
DEDUCED, unsafe: notes/assumptions/44.md. -/
def State.credit (s : State) (c : Ctx) (id n : Nat) : State :=
  match s.barRef c id with
  | some r => s.updBar r.launch r.key fun b =>
      { b with credits := b.credits ++ [(c.who.core, n, b.count c.w.id.handle c.who.half)] }
  | none => s

/-- The ADV update of the descriptor registers named (R141). -/
def advance (c : Ctx) (w : Wave) (codes : List Nat) : Wave :=
  codes.eraseDups.foldl (fun w code =>
    let d0 := (c.sVal code).toNat
    let d1 := (c.sVal (code + 1)).toNat
    writeS c w code (BitVec.ofNat 64 (d0 / 2 ^ 24 * 2 ^ 24 + (bits d0 23 0 + bits d1 23 0) % 2 ^ 24))) w

/-- A FIFO entry posted by the issuing wave (R142): its descriptor operands with the kind of reservation a channel makes,
and the register whose posted tag it gives (R143).
DEDUCED, unsafe: notes/assumptions/42.md. -/
def postFifo (i : Instr) (e : Ext) (descs : List Nat) (put : Bool) (scal : List (BitVec 64)) (regs : List VReg) (act : Mask)
    (tag : Option (Nat × BitVec 4)) (c : Ctx) (s : State) : Res :=
  match (descs.findSome? (s.descFault c)).orElse fun _ => s.cmplFault c e with
  | some (code, a) => .raise s code a
  | none =>
    if 64 ≤ (s.core c.who.core).fifo.length then .wait (s.waitOn c i)
    else
      let chans := descs.filterMap fun d => ((descOf (c.sVal d).toNat (c.sVal (d + 1)).toNat).bind (·.chan)).map fun ch => (ch, put)
      let (rs, s) := s.reserveAll c.who.core chans
      let (n, s) := s.post c true i scal regs act [] rs
      let s := if Ext.cmpl e = 1 then s.credit c (Ext.barId e) n else s
      let s := match tag with | some (k, t) => s.setPosted c.who.core c.w.id.blk k t | none => s
      .nextR (if e.m 13 1 = 1 then s.put c (advance c (s.mine c) descs) else s)

/-- The counter operand of a completion. -/
def cmplOp (c : Ctx) (e : Ext) : OpOk := if Ext.cmpl e = 2 then sRun c e.d9.toNat else OpOk.yes

/-- A row operand: a scalar, a constant 388 to 404 or the literal, below 128 (R138); no literal where it is the barrier
identifier of a completion (R312). -/
def rowOk (c : Ctx) (lit : Option (BitVec 64)) (code : Nat) : OpOk :=
  let kind := scalarOk c.w code || (388 ≤ code && code ≤ 404) || (code == 511 && lit.isSome)
  { OpOk.when (kind && (c.uVal lit 8 code).toNat < 128) with
    sound := !(320 ≤ code && code < 384) || (sRun c code).sound }

/-- MMA at posting (R143, R387 to R389). -/
def mmaBody (e : Ext) (c : Ctx) (s : State) : Res :=
  let f := (mulFmt e.ty.toNat (e.m 12 1)).getD 13
  let g := altFmt f (e.m 11 1)
  let acc := 8 + e.m 0 2
  let blk := c.w.id.blk
  let core := c.who.core
  let n := 2 * scaleRegs f
  let tile (src t fmt : Nat) : Bool := src == 1 || s.postedTag core blk t == tagOf fmt
  let op (src code : Nat) : OpOk := if src = 1 then descOk c code else OpOk.when (code == 0)
  let tagged := (s.postedTag core blk acc == 0 || s.postedTag core blk acc == resultTag f) && tile (e.m 2 1) (e.m 3 3) f &&
    tile (e.m 6 1) (e.m 7 3) g
  withOps s [op (e.m 2 1) e.a9.toNat, op (e.m 6 1) e.b9.toNat,
      if scaledFmt f then scaleOk c n n e.c9.toNat else OpOk.when (e.c9 == 0), cmplOp c e, msetOk s c tagged] <|
    let act := c.active e.pg e.pn
    if act = 0 then .next s
    else
      let descs := (if e.m 2 1 = 1 then [e.a9.toNat] else []) ++ (if e.m 6 1 = 1 then [e.b9.toNat] else [])
      let pair (src code : Nat) : List (BitVec 64) := if src = 1 then [c.sVal code, c.sVal (code + 1)] else [0, 0]
      let scal := [if Ext.cmpl e = 2 then c.sOr e.d9.toNat else 0, 0] ++ pair (e.m 2 1) e.a9.toNat ++ pair (e.m 6 1) e.b9.toNat
      let regs := if scaledFmt f then (List.range n).map fun k => c.w.v (e.c9.toNat + k) else []
      postFifo (.mma e) e descs false scal regs act (some (acc, resultTag f)) c s

/-- ACCZ at posting (R146, R313). -/
def acczBody (e : Ext) (c : Ctx) (s : State) : Res :=
  withOps s [cmplOp c e, msetOk s c true] <|
    let act := c.active e.pg e.pn
    if act = 0 then .next s
    else postFifo (.accz e) e [] false [if Ext.cmpl e = 2 then c.sOr e.d9.toNat else 0] [] act
      (some (8 + e.m 0 2, if e.ty = 4 then 2 else 1)) c s

/-- ACCWR at posting (R146, R312). -/
def accwrBody (e : Ext) (c : Ctx) (s : State) : Res :=
  let a := e.a9.toNat
  let t := (c.w.v a).tag
  let old := s.postedTag c.who.core c.w.id.blk (8 + e.m 0 2)
  withOps s [vRun c.w a 2 2 (fun x => (x == 1 || x == 2) && x == t), rowOk c (if Ext.cmpl e = 1 then none else e.lit) e.b9.toNat, cmplOp c e,
      msetOk s c (old == 0 || old == t)] <|
    let act := c.active e.pg e.pn
    if act = 0 then .next s
    else postFifo (.accwr e) e [] false
      [if Ext.cmpl e = 2 then c.sOr e.d9.toNat else 0, 0, 0, 0, c.uVal e.lit 8 e.b9.toNat] [c.w.v a, c.w.v (a + 1)] act
      (some (8 + e.m 0 2, t)) c s

/-- TILEMV at posting (R146, R427). -/
def tilemvBody (i : Instr) (ld : Bool) (e : Ext) (c : Ctx) (s : State) : Res :=
  let a := e.a9.toNat
  withOps s [descOk c a, cmplOp c e, msetOk s c true] <|
    let act := c.active e.pg e.pn
    if act = 0 then .next s
    else postFifo i e [a] (!ld) [if Ext.cmpl e = 2 then c.sOr e.d9.toNat else 0, 0, c.sVal a, c.sVal (a + 1)] [] act
      (if ld then some (e.m 0 3, tagOf ((mulFmt e.ty.toNat (e.m 12 1)).getD 13)) else none) c s

/-- A FIFO entry that names an accumulator (R146). -/
def Cmd.namesAcc (x : Cmd) (a : Nat) : Bool := x.writes (8 + a)

/-- ACCRD (R146, R311): it waits for the entries naming its accumulator that were posted before it. -/
def accrdBody (e : Ext) (c : Ctx) (s : State) : Res :=
  let d := e.d9.toNat
  withOps s [(vRun c.w d 2 2 fun _ => true).dst, rowOk c e.lit e.a9.toNat, msetOk s c true] <|
    let act := c.active e.pg e.pn
    if act = 0 then .next s
    else
      let upto := if c.progress.k = 0 then s.next else c.progress.k - 1
      let waits := (s.core c.who.core).fifo.any fun x => x.poster.blk == c.w.id.blk && x.namesAcc (e.m 0 2) && x.n < upto
      if waits then
        let s := s.setProg c allLanes (upto + 1)
        .wait (s.waitOn c (.accrd e))
      else
        let m := s.mset c.who.core ((s.msetOf c.who.core c.w.id.blk).getD 0)
        if m.bad.contains (8 + e.m 0 2) then .raise s Exc.dataIntegrity 0
        else
        let row := (c.uVal e.lit 8 e.a9.toNat).toNat
        let at' (j : Nat) : Nat := (Sparse.get 0 m.accs (16384 * e.m 0 2 + 128 * row + j)).toNat
        let t := m.tags.getD (8 + e.m 0 2) 0
        let w := s.mine c
        let w := w.setV d ⟨blend act (w.v d).data fun l => at' l, t⟩
        .next (s.put c (w.setV (d + 1) ⟨blend act (w.v (d + 1)).data fun l => at' (64 + l), t⟩))

/-! ### Errors (R154, R460) and the ends of commands -/

/-- The splits of a core that wait to post, or for an accumulator, look again. -/
def State.wakePosts (s : State) (core : Nat) : State :=
  s.updCore core fun k => { k with waves := k.waves.map fun (x : Nat × Wave) => (x.1, x.2.release fun i => match i with
    | .mma _ | .accz _ | .accwr _ | .accrd _ | .tilemvLd _ | .tilemvSt _ | .cpy _ | .gthr _ | .coll _ => true
    | _ => false) }

/-- A command of a core's queues changed. -/
def State.updCmd (s : State) (core id : Nat) (f : Cmd → Cmd) : State :=
  let g (x : Cmd) : Cmd := if x.id = id then f x else x
  s.updCore core fun k => { k with fifo := k.fifo.map g, copyq := k.copyq.map g }
/-- A command leaves its queue; its block may end with it (R359). -/
def State.dropCmd (s : State) (core id : Nat) (blk : Option Nat) : State :=
  let s := s.updCore core fun k => { k with fifo := k.fifo.filter fun x => x.id ≠ id, copyq := k.copyq.filter fun x => x.id ≠ id }
  let s := s.wakePosts core
  match blk with
  | some b => s.tryEndBlock b
  | none => s

/-- The name under which an engine of a core sends requests: no object has it. -/
def engHandle (core : Nat) : BitVec 32 := BitVec.ofNat 32 (0xF0000000 + core)
/-- The requests of a command forgotten. -/
def State.dropEngReqs (s : State) (h : BitVec 32) (half : Nat) : State := s.giveUp fun r => r.under h half

/-- The record of an engine error is queued at the core of the queue (R154, R251, R460): the waves of the block are trapped,
or the poster of no block is. An agent's is a fault of the agent (R255). A block that has a record queued or a verdict
pending gets no second one (R254). -/
def State.recordError (s : State) (core : Nat) (x : Cmd) (addr : Nat) : State :=
  let w := s.waveOf x.poster.handle
  let agent := x.poster.handle.toNat / 2 ^ 28 == 14
  let r : TrapRec :=
    { code := mkCode ((w.map (·.regcnt)).getD 0) false agent false true (if x.poster.gang then x.poster.half else 0)
        x.poster.slot Exc.engineCommand
      pc := x.pc, addr := BitVec.ofNat 64 addr, wave := x.poster.handle, blk := x.poster.blk, proc := x.poster.proc
      sc := x.poster.sc, core := x.poster.core, path := 0
      region := ((w.bind fun w => w.halves[x.poster.half]?).map (·.region)).getD (BitVec.ofNat 64 (Config.which s.free 256 % 2 ^ 52))
      posting := false, ofW := w.bind Wave.ofW }
  if agent then s.privTrap x.poster.core x.poster.slot 0 0 r
  else
    let queue (s : State) : State := s.updCore core fun k => k.queueTrap r
    match x.poster.blk with
    | some b => if ((s.block? b).map (·.engErr)).getD true then s else (queue s).trapBlock b r none
    | none => (queue s).trapBy r x.poster.handle

/-- A later command of the same block, or of the same poster where it is of none. -/
def Cmd.laterOf (y x : Cmd) : Bool :=
  (match x.poster.blk with
    | some b => y.poster.blk == some b
    | none => y.poster.handle == x.poster.handle) && y.n > x.n

/-- An error of a running command (R154, R460): it is recorded, the block's later commands are discarded with what they have
asked of the League, and the command ends without its counter. -/
def State.engineFault (s : State) (core : Nat) (x : Cmd) (addr : Nat) : State :=
  let s := { s.recordError core x addr with free := s.free + 1 }
  let k := s.core core
  let gone := (k.fifo ++ k.copyq).filter fun y => y.laterOf x
  let s := gone.foldl (fun s y => s.dropEngReqs (engHandle core) (y.id + 2)) s
  let s := s.updCore core fun k =>
    { k with fifo := k.fifo.filter fun y => !y.laterOf x, copyq := k.copyq.filter fun y => !y.laterOf x }
  (s.dropEngReqs (engHandle core) (x.id + 2)).dropCmd core x.id x.poster.blk

/-! ### Memory as the engines use it -/

/-- The address space of a command. -/
def State.engSpace (s : State) (core : Nat) (x : Cmd) : Space :=
  match x.poster.kpasid with
  | some pasid =>
    let r := (s.byPasid pasid).getD (0, 0xFF)
    ⟨core, x.poster.slot, pasid, r.1.toNat, r.2.toNat, x.poster.proc, .engine core x.id, x.sfr, true, x.poster.blk⟩
  | none => s.spaceOf core x.poster.slot x.poster.proc (.engine core x.id) x.sfr true x.poster.blk

/-- The granules of a list of (address, length), each with the lowest address wanted in it. -/
def chunksOf (need : List (Nat × Nat)) : List (Nat × Nat) :=
  need.foldl (fun m x =>
    if x.2 = 0 then m
    else (List.range ((x.1 + x.2 - 1) / 16 - x.1 / 16 + 1)).foldl (fun m k =>
      let g := x.1 / 16 + k
      let a := max x.1 (16 * g)
      Sparse.put g (min a (Sparse.get a m g)) m) m) []

/-- What reading or writing memory for an engine or a posting comes to: the granules read, a wait for the League, a park,
or an exception. -/
inductive Fetched where
  | ok (vals : List (Nat × Nat))
  | wait
  | park (qs : List (BitVec 16 × Nat)) (all : Bool)
  | fault (code addr : Nat)
  deriving DecidableEq, Repr

/-- Answers awaited or taken: the values of the peers' granules, or the lowest failure once all have answered. -/
def State.peerVals (s : State) (h : BitVec 32) (half : Nat) (inst : LaneTr → Option Nat) (o : MemOp) :
    List LaneTr → Fetched × State
  | [] => (.ok [], s)
  | t :: ts =>
    let q := s.league.reqs.find? fun r => r.under h half && r.lane == t.a.l
    match q with
    | none =>
      let s := s.ask h half t.a.l t.a.va (inst t) (peerPacket o t)
      (.wait, (s.peerVals h half inst o ts).2)
    | some r =>
      let (x, s) := s.peerVals h half inst o ts
      match r.answer, x with
      | none, _ | _, .wait => (.wait, s)
      | some a, x =>
        if a.status ≠ 0 then (.fault (reasonCode a.status.toNat) r.va, s)
        else
          match x with
          | .ok vs => (.ok (Sparse.put t.a.l (a.data.toNat % 2 ^ (8 * o.n)) vs), s)
          | x => (x, s)

/-- The granules of a list of accesses read (R183, engine reads): every page must translate before any is read.
DEDUCED, unsafe: notes/assumptions/43.md. -/
def State.fetchNeed (s : State) (sp : Space) (h : BitVec 32) (half scope : Nat) (need : List (Nat × Nat)) : Fetched × State :=
  let ch := chunksOf need
  let bad := ch.filterMap fun (x : Nat × Nat) =>
    if x.2 ≥ 2 ^ 52 then some (2, Exc.permission, x.2) else if isWindow x.2 then some (3, Exc.permission, x.2) else none
  match worst bad with
  | some (code, a) => (.fault code a, s)
  | none =>
    let o : MemOp := ⟨.read, 16, 0, scope, false, none⟩
    let (f, s) := translateLanes s sp o (ch.map fun (x : Nat × Nat) => (⟨x.1, 16 * x.1, 0, 0⟩ : LaneAcc))
    let low (va : Nat) : Nat := Sparse.get va ch (va / 16)
    match worst (f.bad.map fun x => (x.1, x.2.1, low x.2.2.1)) with
    | some (code, a) =>
      (.fault code a, if code = Exc.dataIntegrity then s.retireParts f.bad else s)
    | none =>
      let (qs, all, s) := s.openRecords sp .read (f.miss.map fun x => (low x.1, x.2))
      if !f.miss.isEmpty then (.park qs all, s)
      else
        let (peer, here) := f.ok.partition fun t => t.leaf.tier == 1
        match s.peerVals h half (fun t => if t.leaf.g then some sp.core else none) o peer with
        | (.ok vs, s) =>
          let (ws, s) := performAll s sp o here
          (.ok (ws.foldl (fun m x => Sparse.put x.1 x.2 m) vs), s)
        | (.fault code a, s) => (.fault code (low a), s)
        | x => x

/-- A byte of the granules read. -/
def granByte (vals : List (Nat × Nat)) (a : Nat) : Byte := byteOf (Sparse.get 0 vals (a / 16)) (a % 16)
/-- Bytes of the granules read. -/
def granBytes (vals : List (Nat × Nat)) (a n : Nat) : List Byte := (List.range n).map fun k => granByte vals (a + k)

/-- Bytes written to memory for a command or an instruction: pieces within granules, each with its length and value; what
goes to peers is asked of the League in a lane's name. -/
def State.storePieces (s : State) (sp : Space) (h : BitVec 32) (half l scope : Nat) (ps : List (Nat × Nat × Nat)) : Fetched × State :=
  let bad := ps.filterMap fun (x : Nat × Nat × Nat) =>
    if x.1 ≥ 2 ^ 52 then some (2, Exc.permission, x.1) else if isWindow x.1 then some (3, Exc.permission, x.1) else none
  match worst bad with
  | some (code, a) => (.fault code a, s)
  | none =>
    let o (n : Nat) : MemOp := ⟨.write, n, 0, scope, false, none⟩
    let (f, s) := translateLanes s sp (o 1) (ps.map fun (x : Nat × Nat × Nat) => (⟨x.2.1, x.1, x.2.2, 0⟩ : LaneAcc))
    match worst (f.bad.map fun x => (x.1, x.2.1, x.2.2.1)) with
    | some (code, a) => (.fault code a, s)
    | none =>
      let (qs, all, s) := s.openRecords sp .write f.miss
      if !f.miss.isEmpty then (.park qs all, s)
      else
        let (peer, here) := f.ok.partition fun t => t.leaf.tier == 1
        let s := here.foldl (fun s t => (performLane s sp (o t.a.l) t).2) s
        let s := peer.foldl (fun s t => s.ask h half l t.a.va none (peerPacket (o t.a.l) t)) s
        (if peer.isEmpty then .ok [] else .wait, s)

/-- A byte list cut at granule bounds. -/
def piecesOf (a : Nat) (bs : List Byte) : List (Nat × Nat × Nat) :=
  if bs.isEmpty then []
  else (List.range ((a + bs.length - 1) / 16 - a / 16 + 1)).map fun k =>
    let lo := max a (16 * (a / 16 + k))
    let hi := min (a + bs.length) (16 * (a / 16 + k) + 16)
    (lo, hi - lo, field bs (lo - a) (hi - lo))

/-- The requests of a command are all answered; the first negative answer. -/
def State.engAnswers (s : State) (h : BitVec 32) (half : Nat) : Fetched :=
  let rs := s.league.reqs.filter fun r => r.under h half
  match negative rs with
  | some (code, a) => .fault code a
  | none => if rs.all fun r => r.answer.isSome then .ok [] else .wait

/-- One added to an 8-byte counter (R145, R152, R155, R346). -/
def State.addOne (s : State) (sp : Space) (h : BitVec 32) (half scope addr : Nat) : Fetched × State :=
  let o : MemOp := ⟨.atomic, 8, 0, scope, true, some (0, 3)⟩
  let a : LaneAcc := ⟨0, addr, 1, 0⟩
  if s.league.reqs.any fun r => r.under h half then (s.engAnswers h half, s)
  else
    match lanesOk s sp.proc o [a] with
    | some (code, x) => (.fault code x, s)
    | none =>
      let (p, s) := access s sp o [a]
      match p.fault with
      | some (code, x) => (.fault code x, s)
      | none =>
        if !p.parked.isEmpty || p.filling then (.park p.parked (!p.filling), s)
        else
          let s := p.peer.foldl (fun s t => s.ask h half 0 addr none (peerPacket o t)) s
          (if p.peer.isEmpty then .ok [] else .wait, s)

/-- The last stage of a command: its counter, where it has one, then its end (R145, R152, R155, R346). -/
def State.countCmd (s : State) (core : Nat) (x : Cmd) (scope : Nat) (counter : Option Nat) : State :=
  let h := engHandle core
  match counter with
  | none => s.dropCmd core x.id x.poster.blk
  | some a =>
    match s.addOne (s.engSpace core x) h (x.id + 2) scope a with
    | (.ok _, s) => (s.dropEngReqs h (x.id + 2)).dropCmd core x.id x.poster.blk
    | (.wait, s) => s.updCmd core x.id fun y => { y with st := .counting }
    -- a miss that finds the buffer full waits for the records that others have opened, then for the next fill (R186)
    | (.park qs _, s) => s.updCmd core x.id fun y => { y with st := .parked qs 4 }
    | (.fault _ _, s) => s.engineFault core x a

/-! ### Entries of the matrix FIFO (R142 to R146) -/

/-- MOD and TY of an entry that multiplies: an MMA, or a follow-on MMA (R153). -/
def Cmd.mma? (x : Cmd) : Option (Nat × Nat) :=
  match x.ins with
  | .mma e => some (e.mod.toNat, e.ty.toNat)
  | .cpy _ => if x.follow then some (bits (x.scal.getD 1 0).toNat 15 0, bits (x.scal.getD 1 0).toNat 19 16) else none
  | _ => none

/-- A tensor shape record (R150). -/
structure Shape where
  base : Nat
  esz : Nat
  ftag : Nat
  swz : Nat
  pad : Nat
  rank : Nat
  ext : List Nat
  st : List Nat
  box : List Nat
  deriving DecidableEq, Repr

/-- A record's fields: boxes of 0 stand for 256, dimensions at or above RANK for 1. -/
def shapeOf (r : List Byte) : Shape :=
  let rank := bits (field r 9 1) 2 0
  let esz := bits (field r 8 1) 7 4
  { base := field r 0 8
    esz := esz
    ftag := bits (field r 8 1) 3 0
    swz := bits (field r 9 1) 7 5
    pad := bits (field r 9 1) 4 3
    rank := rank
    ext := (List.range 5).map fun k => if k < rank then field r (12 + 4 * k) 4 else 1
    st := (List.range 5).map fun k => if k = 0 then 2 ^ esz else field r (26 + 6 * k) 6
    box := (List.range 5).map fun k => if k < rank then (if field r (56 + k) 1 = 0 then 256 else field r (56 + k) 1) else 1 }

namespace Shape
/-- Bytes of an element, of a row and of the box. -/
def es (h : Shape) : Nat := 2 ^ h.esz
def row (h : Shape) : Nat := h.box.getD 0 1 * h.es
def count (h : Shape) : Nat := h.box.foldl (· * ·) 1
def bytes (h : Shape) : Nat := h.count * h.es
end Shape

/-- The geometry of a gather: rows, bytes of a row, stride (R155). -/
def gthrShape (x : Nat) : Nat × Nat × Nat := (bits x 11 0, 16 * bits x 23 12, bits x 63 24)

/-- The destination kind, the channel or tile it selects, and its scalar. -/
def Cmd.dest (x : Cmd) : Nat × Nat × Nat :=
  match x.ins with
  | .cpy e => (e.m 7 2, e.m 9 4, (x.scal.getD 4 0).toNat)
  | .gthr e => (e.m 7 2, e.m 9 4, (x.scal.getD 0 0).toNat)
  | _ => (0, 0, 0)

/-- The bytes a copy or a gather writes (R152, R155). -/
def Cmd.length (x : Cmd) : Nat :=
  match x.ins with
  | .gthr _ => let (n, r, _) := gthrShape (x.scal.getD 6 0).toNat; n * r
  | _ => (shapeOf x.record).bytes

/-- The tiles an entry reads (R144). -/
def Cmd.tileReads (x : Cmd) : List Nat :=
  match x.mma?, x.ins with
  | some (m, _), _ => (if bits m 2 2 = 0 then [bits m 5 3] else []) ++ (if bits m 6 6 = 0 then [bits m 9 7] else [])
  | none, .tilemvSt e => [e.m 0 3]
  | none, _ => []
/-- The tiles of its block that a command on a core writes (R144): by name, or by window addresses (R152, R155, R184). -/
def State.tileWrites (s : State) (core : Nat) (x : Cmd) : List Nat :=
  let copy : List Nat :=
    let (dk, sel, dst) := x.dest
    let off := bits dst 31 0
    if dk = 2 then [sel % 8]
    else if dk = 3 && bits dst 51 44 = 0xFF && bits dst 43 36 = core && bits dst 35 32 = 3 then
      ((List.range 16).filter fun t => off / 16384 ≤ t && t ≤ (off + x.length - 1) / 16384 &&
        (((s.core core).msets[t / 8]?).bind (·.owner)) == x.poster.blk).map (· % 8)
    else []
  match x.ins with
  | .tilemvLd e => [e.m 0 3]
  | .cpy _ => if x.follow then [] else copy
  | .gthr _ => copy
  | _ => []
/-- Two accesses to a tile conflict (R144). -/
def State.tileClash (s : State) (core : Nat) (x y : Cmd) : Bool :=
  (s.tileWrites core y).any (fun t => x.tileReads.contains t || (s.tileWrites core x).contains t) ||
    (s.tileWrites core x).any fun t => y.tileReads.contains t
/-- A command whose accesses to tiles have completed: its data has landed, or only its counter is to come. -/
def Cmd.tilesDone (x : Cmd) : Bool :=
  match x.st with
  | .written | .counting => true
  | .parked _ k => 3 ≤ k
  | _ => false
/-- Every earlier-posted conflicting access of the block has completed (R144). -/
def State.tilesFree (s : State) (core : Nat) (x : Cmd) : Bool :=
  !((s.core core).fifo ++ (s.core core).copyq).any fun y =>
    y.poster.blk == x.poster.blk && y.n < x.n && !y.tilesDone && s.tileClash core x y

/-- A 128-row operand's byte as it stands now: a tile, a descriptor's rows, or the slot of a channel reservation (R137,
R141). -/
def State.operandByte (s : State) (core : Nat) (m : MSet) (src : Option (Desc × Option Resv)) (t i b : Nat) : Byte :=
  match src with
  | none => Sparse.get 0 m.tiles (16384 * t + 128 * i + b)
  | some (d, r) =>
    match r, d.chan with
    | some r, some ch =>
      let off := ((s.chan? core ch).map fun k => k.offset (k.slotOf r)).getD 0
      Sparse.get memDefault (s.core core).scratch (off + 128 * i + b)
    | _, _ => s.clusterByte core (d.addr i b)

/-- The core, offset and cluster scratchpad address of chunk k of row i of an operand outside the tiles. -/
def State.operandChunk (s : State) (core : Nat) (src : Desc × Option Resv) (i k : Nat) : Nat × Nat × Nat :=
  match src.2, src.1.chan with
  | some r, some ch =>
    let off := ((s.chan? core ch).map fun q => q.offset (q.slotOf r)).getD 0 + 128 * i + 16 * k
    (core, off, posOf core * spadSize + off)
  | _, _ =>
    let a := src.1.addr i (16 * k)
    let (q, o) := spadPlace core a
    (q, o, a)

/-- Reading a 128-row operand meets an uncorrectable error (R154, R196): the lowest cluster scratchpad address that does, or
0 for a tile.
DESIGN CHOICE, unsafe: notes/assumptions/87.md. -/
def State.operandError (s : State) (core : Nat) (m : MSet) (src : Option (Desc × Option Resv)) (t : Nat) : Option Nat :=
  match src with
  | none => if m.bad.contains t then some 0 else none
  | some d =>
    let bad := (List.range 128).flatMap fun i => (List.range 8).filterMap fun k =>
      let (q, o, a) := s.operandChunk core d i k
      if s.spadBad q o 16 then some a else none
    bad.foldl (fun m a => match m with | none => some a | some x => some (min x a)) none

/-- The descriptor of an operand of an entry, with its reservation. -/
def Cmd.desc (x : Cmd) (k : Nat) (skip : Nat) : Option (Desc × Option Resv) :=
  (descOf (x.scal.getD k 0).toNat (x.scal.getD (k + 1) 0).toNat).map fun d =>
    (d, if d.chan.isSome then (x.resv[skip]?).map (·.2) else none)

/-- Element k of a row of a format (R137). -/
def rowElem (f : Nat) (row : Nat) (k : Nat) : Nat := elem (elBits f) k row

/-- The scale byte of block j of row r (R129). -/
def tileScale (regs : List VReg) (r j : Nat) : Nat :=
  elem 8 (j % 4) (lane (regs.getD (2 * (j / 4) + r / 64) VReg.zero).data (r % 64))

/-- One output element of an MMA (R131 to R133). -/
def mmaElem (f g : Nat) (zs : Bool) (scA scB : List VReg) (a b : Nat) (i j acc : Nat) : Nat :=
  let blocks := 1024 / elBits f / 32
  if f = 11 then
    (List.range blocks).foldl (fun acc t =>
      ofInt 32 ((acc : Int) + dotInt ((List.range 32).map fun k => (rowElem f a (32 * t + k), rowElem g b (32 * t + k))))) acc
  else
    (List.range blocks).foldl (fun acc t =>
      let p := dotSum f g zs ((List.range 32).map fun k => (rowElem f a (32 * t + k), rowElem g b (32 * t + k)))
      let p := if scaledFmt f then (p.scaled (tileScale scA i t)).scaled (tileScale scB j t) else p
      Fmt.f32.round .rne false 0 32 (FV.add .rne (Fmt.f32.value acc) p)) acc

/-- The operands of an entry that multiplies: descriptors by their scalars, or the copy's own channel (R153). -/
def Cmd.operands (x : Cmd) : Option (Desc × Option Resv) × Option (Desc × Option Resv) :=
  match x.mma?, x.ins with
  | some (m, _), .mma _ =>
    let a := if bits m 2 2 = 1 then x.desc 2 0 else none
    let used := match a with | some (_, some _) => 1 | _ => 0
    (a, if bits m 6 6 = 1 then x.desc 4 used else none)
  | some (m, _), .cpy e =>
    let own : Option (Desc × Option Resv) := some (⟨some (e.m 9 4), 0, 128, 0⟩, (x.resv[0]?).map (·.2))
    (if bits m 2 2 = 1 then own else none, if bits m 6 6 = 1 then own else none)
  | _, _ => (none, none)

/-- The accumulator an MMA leaves, as bytes (R143). -/
def State.mmaResult (s : State) (core : Nat) (x : Cmd) (m ty : Nat) : List Byte :=
  let k := s.mset core ((s.msetOf core x.poster.blk).getD 0)
  let f := (mulFmt ty (bits m 12 12)).getD 13
  let g := altFmt f (bits m 11 11)
  let (sa, sb) := x.operands
  let row (src : Option (Desc × Option Resv)) (t i : Nat) : Nat := leNat ((List.range 128).map fun b => s.operandByte core k src t i b)
  let as := (List.range 128).map (row sa (bits m 5 3))
  let bs := (List.range 128).map (row sb (bits m 9 7))
  let scA := x.regs.take (scaleRegs f)
  let scB := x.regs.drop (scaleRegs f)
  (List.range 128).flatMap fun i => (List.range 128).flatMap fun j =>
    leBytes 4 (mmaElem f g (bits m 10 10 == 1) scA scB (as.getD i 0) (bs.getD j 0) i j
      (Sparse.get 0 k.accs (16384 * bits m 1 0 + 128 * i + j)).toNat)

/-- The head of a core's FIFO, where it may start (R142, R144, R149). -/
def State.fifoHead (s : State) (core : Nat) : Option Cmd :=
  match (s.core core).fifo with
  | x :: _ => if x.st = .queued && s.granted core x && s.tilesFree core x then some x else none
  | [] => none

/-- The error that an entry which multiplies meets in its operands or its accumulator (R154). -/
def State.mmaError (s : State) (core : Nat) (x : Cmd) (m : Nat) : Option Nat :=
  let k := s.mset core ((s.msetOf core x.poster.blk).getD 0)
  let (sa, sb) := x.operands
  if k.bad.contains (8 + bits m 1 0) then some 0
  else match s.operandError core k sa (bits m 5 3), s.operandError core k sb (bits m 9 7) with
    | some a, some b => some (min a b)
    | a, b => a.orElse fun _ => b

/-- MMA_EXECUTE (R143): the head reads its operands and occupies the array. -/
def State.mmaExecute (s : State) (core : Nat) : State :=
  match s.fifoHead core with
  | none => s
  | some x =>
    match x.mma? with
    | none => s
    | some (m, ty) => match s.mmaError core x m with
      | some a => s.engineFault core x a
      | none => s.updCmd core x.id fun y => { y with st := .fired, buf := s.mmaResult core x m ty }

/-- CMPL of an entry, and the address of its counter with the scope of its addition (R145, R153). -/
def Cmd.counter (x : Cmd) : Option Nat × Nat :=
  let a := (x.scal.getD 0 0).toNat
  match x.ins with
  | .cpy e => (if a = 0 then none else some a, e.m 2 3)
  | .mma e | .accz e | .accwr e | .tilemvLd e | .tilemvSt e => (if Ext.cmpl e = 2 then some a else none, 1)
  | _ => (none, 1)

/-- The end of a FIFO entry's effect (R145): its channel dones, a follow-on's release, its credit, its counter. -/
def State.endEntry (s : State) (core : Nat) (x : Cmd) : State :=
  let s := s.dones core x
  let s := match x.ins with
    | .cpy e => if 2 ≤ e.m 0 2 then s.releaseBy (s.engSpace core x) (e.m 2 3) else s
    | _ => if x.counter.1.isSome then s.releaseBy (s.engSpace core x) 1 else s
  let s := { s with host := { s.host with launches := s.host.launches.map fun (l : Nat × Launch) =>
    (l.1, { l.2 with bars := l.2.bars.map fun (b : Nat × Bar) =>
      (b.1, { b.2 with credits := b.2.credits.filter fun c => c.2.1 ≠ x.id }) }) } }
  s.countCmd core x x.counter.2 x.counter.1

/-- The head of the FIFO whose counter is still to come. -/
def State.fifoCounting (s : State) (core : Nat) (x : Cmd) : State := s.countCmd core x x.counter.2 x.counter.1

/-- MMA_COMPLETE (R145): the accumulator is written and the completion reported. -/
def State.mmaComplete (s : State) (core : Nat) : State :=
  match (s.core core).fifo with
  | [] => s
  | x :: _ =>
    match x.mma? with
    | none => s
    | some (m, ty) =>
      if x.st = .counting then s.fifoCounting core x
      else if x.st ≠ .fired then s
      else
        let a := bits m 1 0
        let f := (mulFmt ty (bits m 12 12)).getD 13
        let s := match s.msetOf core x.poster.blk with
          | some k => s.updMSet core k fun q =>
              let accs := (List.range 16384).foldl (fun t n =>
                Sparse.set 0 t (16384 * a + n) (BitVec.ofNat 32 (field x.buf (4 * n) 4))) q.accs
              MSet.executed { q.renewed (8 + a) with accs := accs } (8 + a) (resultTag f)
          | none => s
        s.endEntry core x

/-- An entry that executes and completes in one event, or ends in an error at an address (R154). -/
def State.entryRun (s : State) (core : Nat) (f : Instr → Option (Nat → State → Except Nat State)) : State :=
  match (s.core core).fifo with
  | [] => s
  | x :: _ =>
    match f x.ins with
    | none => s
    | some g =>
      if x.st = .counting then s.fifoCounting core x
      else match s.fifoHead core, s.msetOf core x.poster.blk with
        | some _, some k => (match g k s with
          | .ok s => s.endEntry core x
          | .error a => s.engineFault core x a)
        | _, _ => s

/-- ACCZ at the head of the FIFO (R146). -/
def State.acczExecute (s : State) (core : Nat) : State :=
  s.entryRun core fun i => match i with
    | .accz e => some fun k s => .ok <| s.updMSet core k fun m =>
        MSet.executed { m.renewed (8 + e.m 0 2) with accs := m.accs.filter fun (x : Nat × Word) => x.1 / 16384 ≠ e.m 0 2 }
          (8 + e.m 0 2) (if e.ty = 4 then 2 else 1)
    | _ => none

/-- ACCWR at the head of the FIFO (R146). -/
def State.accwrExecute (s : State) (core : Nat) : State :=
  match (s.core core).fifo.head? with
  | none => s
  | some x => s.entryRun core fun i => match i with
    | .accwr e => some fun k s => .ok <| s.updMSet core k fun m =>
        let at' := 16384 * e.m 0 2 + 128 * ((x.scal.getD 4 0).toNat % 128)
        let a := x.regs.getD 0 VReg.zero
        let b := x.regs.getD 1 VReg.zero
        let accs := (lanesOf x.act).foldl (fun t l =>
          Sparse.set 0 (Sparse.set 0 t (at' + l) (BitVec.ofNat 32 (lane a.data l))) (at' + 64 + l) (BitVec.ofNat 32 (lane b.data l))) m.accs
        MSet.executed { m with accs := accs } (8 + e.m 0 2) a.tag
    | _ => none

/-- Scratchpad bytes written by an engine: the full-empty bits of the granules are set (R185). -/
def State.engSpad (s : State) (core off : Nat) (bs : List Byte) : State :=
  if bs.isEmpty then s
  else (s.setSpad core off bs).setFe core true
    ((List.range ((off + bs.length - 1) / 16 - off / 16 + 1)).map fun j => (off / 16 + j, true))

/-- TILEMV.ld at the head of the FIFO (R146). -/
def State.tilemvLdExecute (s : State) (core : Nat) : State :=
  match (s.core core).fifo.head? with
  | none => s
  | some x => s.entryRun core fun i => match i with
    | .tilemvLd e => some fun k s =>
        let src := some ((x.desc 2 0).getD (⟨none, 0, 128, 0⟩, none))
        match s.operandError core (s.mset core k) src 0 with
        | some a => .error a
        | none => .ok <| s.updMSet core k fun m =>
          let tiles := (List.range 16384).foldl (fun t n =>
            Sparse.set 0 t (16384 * e.m 0 3 + n) (s.operandByte core m src 0 (n / 128) (n % 128))) m.tiles
          MSet.executed { m.renewed (e.m 0 3) with tiles := tiles } (e.m 0 3) (tagOf ((mulFmt e.ty.toNat (e.m 12 1)).getD 13))
    | _ => none

/-- TILEMV.st at the head of the FIFO (R146). -/
def State.tilemvStExecute (s : State) (core : Nat) : State :=
  match (s.core core).fifo.head? with
  | none => s
  | some x => s.entryRun core fun i => match i with
    | .tilemvSt e => some fun k s =>
        let m := s.mset core k
        let chunk (i c : Nat) : List Byte := (List.range 16).map fun b => Sparse.get 0 m.tiles (16384 * e.m 0 3 + 128 * i + 16 * c + b)
        if m.bad.contains (e.m 0 3) then .error 0
        else match x.desc 2 0 with
        | none => .ok s
        | some d =>
          .ok <| (List.range 128).foldl (fun s i => (List.range 8).foldl (fun s c =>
            let (q, o, _) := s.operandChunk core d i c
            s.engSpad q o (chunk i c)) s) s
    | _ => none

/-! ### CHINIT, CHPUT, CHGET (R147, R148, R339, R340) -/

/-- The channel of a channel instruction. -/
def Ext.chan (e : Ext) : Nat := e.m 0 4

/-- CHINIT (R147). A wave of no block holds no channel, and it raises CHANNEL.
DESIGN CHOICE, unsafe: notes/assumptions/109.md. -/
def chinitBody (e : Ext) (c : Ctx) (s : State) : Res :=
  withOps s [sRun c e.a9.toNat, sRun c e.b9.toNat, sRun c e.c9.toNat] <|
    if c.act true e.pg e.pn = 0 then .next s
    else
      let core := c.who.core
      let ch := Ext.chan e
      let base := bits (c.sVal e.a9.toNat).toNat 23 0
      let size := bits (c.sVal e.b9.toNat).toNat 23 0
      let sc := (c.sVal e.c9.toNat).toNat
      let (n, p, k) := (bits sc 7 0, bits sc 15 8, bits sc 23 16)
      let ok := base % 16 == 0 && size % 16 == 0 && 16 ≤ size && size ≤ spadSize && 1 ≤ n && n ≤ 64 && 1 ≤ p && 1 ≤ k &&
        bits sc 63 24 == 0 && base + n * size ≤ spadSize
      let bound := ((s.core core).fifo ++ (s.core core).copyq).any fun x => x.poster.blk == c.w.id.blk && x.resv.any fun q => q.1 == ch
      let free := match s.chan? core ch with
        | some q => (c.w.id.blk == some q.holder) && q.resv.isEmpty && !bound
        | none => true
      match c.w.id.blk with
      | none => .raise s Exc.channel 0
      | some b =>
        if !ok || !free then .raise s Exc.channel 0
        else
          let new : Chan := ⟨b, base, size, n, p, k, 0, 0, List.replicate n ⟨0, 0, 0, 0⟩, []⟩
          .next (s.updCore core fun q => { q with chans := Sparse.put ch new q.chans })

/-- The number of the waiting reservation the split goes on with, plus one: its own, or after a restore the lowest of its
wave that no path names (R148). -/
def waitingResv (c : Ctx) (k : Chan) (put : Bool) : Nat :=
  if c.progress.k ≠ 0 then c.progress.k
  else
    let claimed (n : Nat) : Bool := c.w.halves.any fun h => (h.base :: h.stack.flatMap (·.paths)).any fun p =>
      match p.prog with | some q => q.k == n + 1 | none => false
    match k.resv.find? fun r => r.put == put && !r.granted && r.wave == some (c.w.id.lvls.getD 1 0) && !claimed r.num with
    | some r => r.num + 1
    | none => 0

/-- A reserve (R148, R340): CHPUT SUB 0, or CHGET SUB 0. -/
def reserveBody (i : Instr) (put : Bool) (e : Ext) (c : Ctx) (s : State) : Res :=
  withOps s [sDst c e.d9.toNat] <|
    if c.act true e.pg e.pn = 0 then .next s
    else
      let core := c.who.core
      let ch := Ext.chan e
      match s.heldChan c ch with
      | none => .raise s Exc.channel 0
      | some k =>
        let mine := waitingResv c k put
        let (r, k) := match if mine = 0 then none else k.find put (mine - 1) with
          | some r => ({ r with granted := k.grantable r }, k)
          | none => k.reserve put (some (c.w.id.lvls.getD 1 0))
        let k := if r.granted then k.grant put r.num else k
        let s := s.updChan core ch fun _ => k
        if r.granted then
          let s := ((s.orderAtomn c true [] 0).acquire core 1).bumpSfr c
          .nextR (s.put c (writeS c (s.mine c) e.d9.toNat (BitVec.ofNat 64 (k.offset (k.slotOf r)))))
        else .wait ((s.setProg c 0 (r.num + 1)).waitOn c i)

/-- A done (R148, R340): CHPUT SUB 1, or CHGET SUB 1. -/
def doneBody (put : Bool) (e : Ext) (c : Ctx) (s : State) : Res :=
  withOps s [sRun c e.a9.toNat] <|
    if c.act true e.pg e.pn = 0 then .next s
    else
      let core := c.who.core
      let ch := Ext.chan e
      match s.heldChan c ch with
      | none => .raise s Exc.channel 0
      | some k =>
        let off := (c.sVal e.a9.toNat).toNat
        let slot := (off - k.base) / k.size
        let starts := k.base ≤ off && (off - k.base) % k.size == 0 && slot < k.n
        match if starts then k.undone put slot (some (c.w.id.lvls.getD 1 0)) else none with
        | none => .raise s Exc.channel 0
        | some r =>
          quietly c s <|
          let s := (s.orderAtomn c true [] 0).releaseBy (c.space s) 1
          .nextR ((s.updChan core ch fun k => k.done r).bumpSfr c)

/-- The splits of a core that wait in a reserve of a kind with a number. -/
def State.reserveWaiter (s : State) (core holder ch : Nat) (r : Resv) : Option Who :=
  ((s.core core).waves.flatMap fun (x : Nat × Wave) =>
    if x.2.id.blk ≠ some holder then []
    else x.2.halves.zipIdx.flatMap fun (h : Half × Nat) => h.1.paths.zipIdx.filterMap fun (p : Path × Nat) =>
      match p.1.wait, p.1.prog with
      | .on (.chputRes e) _, some q => if r.put && Ext.chan e == ch && q.k == r.num + 1 then some (⟨core, x.1, h.2, p.2⟩ : Who) else none
      | .on (.chgetWait e) _, some q => if !r.put && Ext.chan e == ch && q.k == r.num + 1 then some (⟨core, x.1, h.2, p.2⟩ : Who) else none
      | _, _ => none).head?

/-- CHANNEL_RESERVATION_GRANT (R148): the first waiting reservation that can be granted is, an engine's or a wave's. -/
def State.grantNext (s : State) (core ch : Nat) : State :=
  match s.chan? core ch with
  | none => s
  | some k =>
    let can (r : Resv) : Bool := !r.granted && k.grantable r && (r.wave.isNone || (s.reserveWaiter core k.holder ch r).isSome)
    match k.resv.find? can with
    | none => s
    | some r =>
      match s.reserveWaiter core k.holder ch r, r.wave with
      | some a, some _ => s.resume a fun i => match i with
          | .chputRes e => some (some e, reserveBody i true e)
          | .chgetWait e => some (some e, reserveBody i false e)
          | _ => none
      | _, _ => s.updChan core ch fun k => k.grant r.put r.num

/-! ### CPY (R150 to R153) -/

/-- A record within its ranges (R150, R152). -/
def shapeOk (r : List Byte) : Bool :=
  let h := shapeOf r
  h.esz ≤ 4 && h.ftag ≤ 12 && h.swz ≤ 3 && h.pad ≤ 2 && 1 ≤ h.rank && h.rank ≤ 5 && field r 10 2 == 0 && field r 61 3 == 0 &&
    (h.ext.all fun x => 1 ≤ x) && h.row % (16 * 2 ^ h.swz) == 0

/-- The coordinates c0 to c4 (R151). -/
def coords (x : List (BitVec 64)) : List Int :=
  (List.range 5).map fun k => asInt 32 ((x.getD (6 + k / 2) 0).toNat / 2 ^ (32 * (k % 2)))

/-- What element n of a copy is: a read, zeros, or a PAD = 2 miss (R152). -/
inductive CopyElem where
  | at' (a : Nat)
  | zero
  | bad (a : Nat)
  deriving DecidableEq, Repr

/-- Element n of the box (R152). -/
def copyElem (h : Shape) (cs : List Int) (n : Nat) : CopyElem :=
  let xs : List (Int × Nat) := ((List.range 5).foldl (fun (m : List (Int × Nat) × Nat) k =>
    (m.1 ++ [((if k < h.rank then cs.getD k 0 else 0) + ((m.2 % h.box.getD k 1 : Nat) : Int), k)], m.2 / h.box.getD k 1)) ([], n)).1
  let inside := xs.all fun x => 0 ≤ x.1 && x.1 < (h.ext.getD x.2 1 : Int)
  let addr (f : Int → Nat → Int) : Nat :=
    ofInt 64 (xs.foldl (fun t x => t + f x.1 x.2 * (h.st.getD x.2 0 : Int)) (h.base : Int))
  if inside then .at' (addr fun x _ => x)
  else if h.pad = 0 then .zero
  else if h.pad = 1 then .at' (addr fun x k => max 0 (min x ((h.ext.getD k 1 : Int) - 1)))
  else .bad (addr fun x _ => x)

/-- The destination's bytes from the stream of elements: each row's chunks rotated (R152). -/
def swizzle (h : Shape) (bs : List Byte) : List Byte :=
  let l := h.row
  (List.range (h.bytes / 16)).flatMap fun k =>
    let r := 16 * k / l
    let c := 16 * k % l / 16
    (bs.drop (r * l + 16 * (c ^^^ r % 2 ^ h.swz))).take 16

/-- The range of offsets of a window kind (R184). -/
def windowRange (kind : Nat) : Nat :=
  match kind with
  | 0 => spadSize
  | 1 => 2 ^ 22
  | 2 => 2 ^ 19
  | 3 => 2 ^ 18
  | 4 => 0x6000
  | _ => 2 ^ 32

/-- The destination of a copy or gather of n bytes does not fit (R152, R155). -/
def destFault (s : State) (c : Ctx) (dk sel : Nat) (dst n : Nat) : Option (Nat × Nat) :=
  let (base, len) := s.spadOf c
  let off := dst % 2 ^ 24
  match dk with
  | 0 =>
    if off + n > spadSize then some (Exc.engineCommand, 0)
    else if off < base ∨ base + len < off + n then some (Exc.permission, off)
    else none
  | 1 => match s.heldChan c sel with
    | some k => if n ≤ k.size then none else some (Exc.engineCommand, 0)
    | none => some (Exc.channel, 0)
  | 3 =>
    if bits dst 51 44 ≠ 0xFF then some (Exc.invalidOperand, 0)
    else if bits dst 31 0 + n > windowRange (bits dst 35 32) then some (Exc.engineCommand, 0)
    else none
  | _ => none

/-- A destination operand (R138): a scalar for a scratchpad or a window, none for a channel or a tile. -/
def destOk (c : Ctx) (dk code : Nat) : OpOk := if dk = 0 ∨ dk = 3 then sRun c code else OpOk.when (code == 0)

/-- The description of a follow-on MMA keeps the layout and the rules of R153. -/
def followOk (dk : Nat) (d : Nat) : Bool :=
  let m := bits d 15 0
  let ty := bits d 19 16
  let vs := bits d 28 20
  bits d 63 37 == 0 && bits m 13 13 == 0 && bits m 15 14 ≤ 1 && (mulFmt ty (bits m 12 12)).isSome &&
    (bits m 11 11 == 0 || ty == 13 || ty == 14) && !(bits m 2 2 == 1 && bits m 6 6 == 1) &&
    ((bits m 2 2 == 0 && bits m 6 6 == 0) || dk == 1) && (bits m 2 2 == 0 || bits m 5 3 == 0) &&
    (bits m 6 6 == 0 || bits m 9 7 == 0) &&
    (if scaledFmt ((mulFmt ty (bits m 12 12)).getD 13) then vs < 320 else vs == 0)

/-- The checks of R143 on a follow-on MMA: operands, matrix state, tags. -/
def followOps (s : State) (c : Ctx) (d : Nat) : List OpOk :=
  let m := bits d 15 0
  let f := (mulFmt (bits d 19 16) (bits m 12 12)).getD 13
  let g := altFmt f (bits m 11 11)
  let n := 2 * scaleRegs f
  let acc := s.postedTag c.who.core c.w.id.blk (8 + bits m 1 0)
  let tile (src t fmt : Nat) : Bool := src == 1 || s.postedTag c.who.core c.w.id.blk t == tagOf fmt
  [if scaledFmt f then scaleOk c n n (bits d 28 20) else OpOk.yes,
   msetOk s c ((acc == 0 || acc == resultTag f) && tile (bits m 2 2) (bits m 5 3) f && tile (bits m 6 6) (bits m 9 7) g)]

/-- Memory read at posting, as the wave's own accesses (R152, R285): the split waits, parks, raises, or goes on.
DEDUCED, unsafe: notes/assumptions/43.md. -/
def postRead (i : Instr) (scope : Nat) (need : List (Nat × Nat)) (c : Ctx) (s : State) (k : List (Nat × Nat) → State → Res) : Res :=
  let half := c.who.half + 2
  let s := need.foldl (fun s x => s.orderAtomn c false [⟨0, x.1, 0, 0⟩] x.2) s
  match s.fetchNeed (c.space s) c.w.id.handle half scope need with
  | (.ok vals, s) => k vals s
  | (.wait, s) => .wait (s.waitOn c i)
  | (.park qs all, s) => .wait (s.park c qs all)
  | (.fault code x, s) => .raise (s.dropEngReqs c.w.id.handle half) code x

/-- CPY at posting (R152, R153). With FOL its D names a pair, and one that starts at s0 is refused as any such pair is (R138).
DESIGN CHOICE, unsafe: notes/assumptions/108.md. -/
def cpyBody (e : Ext) (c : Ctx) (s : State) : Res :=
  let (dk, sel, fol) := (e.m 7 2, e.m 9 4, e.m 13 1 == 1)
  let (d, a, c9) := (e.d9.toNat, e.a9.toNat, e.c9.toNat)
  withOps s [if fol then descOk c d else sRun c d, sRun c a, destOk c dk e.b9.toNat,
      sRun c c9, sRun c (c9 + 1), sRun c (c9 + 2),
      if dk = 2 then msetOk s c true else OpOk.yes] <|
    if c.act true e.pg e.pn = 0 then .next s
    else if 32 ≤ (s.core c.who.core).copyq.length then .wait (s.waitOn c (.cpy e))
    else
      let rec' := (c.sVal a).toNat
      let cnt := (c.sVal d).toNat
      let desc := (c.sVal (d + 1)).toNat
      if rec' % 64 ≠ 0 then .raise s Exc.misalignedAccess rec'
      else if cnt % 8 ≠ 0 then .raise s Exc.misalignedAccess cnt
      else
        postRead (.cpy e) (e.m 2 3) [(rec', 64)] c s fun vals s =>
          let s := s.dropEngReqs c.w.id.handle (c.who.half + 2)
          let r := granBytes vals rec' 64
          let h := shapeOf r
          let dst := (c.sOr e.b9.toNat).toNat
          let scal := [c.sVal d, if fol then c.sVal (d + 1) else 0, c.sVal a, 0, c.sOr e.b9.toNat, 0, c.sVal c9, c.sVal (c9 + 1),
            c.sVal (c9 + 2)]
          if !shapeOk r || bits (c.sVal (c9 + 2)).toNat 63 32 ≠ 0 ||
              (dk == 2 && !(h.bytes == 16384 && h.row == 128 && h.swz == 0)) then .raise s Exc.engineCommand 0
          else
            match destFault s c dk sel dst h.bytes with
            | some (code, x) => .raise s code x
            | none =>
              if fol && !followOk dk desc then .raise s Exc.engineCommand 0
              else
                withOps s (if fol then followOps s c desc else []) <|
                if fol && (bits desc 2 2 == 1 || bits desc 6 6 == 1) && ((s.heldChan c sel).map (·.size)).getD 0 < 16384 then
                  .raise s Exc.channel 0
                else if fol && bits desc 15 14 == 1 && (s.barRef c (bits desc 36 29)).isNone then .raise s Exc.engineCommand 0
                else
                (if e.m 0 2 % 2 = 1 then quietly c s else id) <|
                  let f := (mulFmt (bits desc 19 16) (bits desc 12 12)).getD 13
                  let regs := if fol && scaledFmt f then (List.range (2 * scaleRegs f)).map fun k => c.w.v (bits desc 28 20 + k) else []
                  let s := if e.m 0 2 % 2 = 1 then ((s.orderAtomn c true [] 0).releaseBy (c.space s) (e.m 2 3)).bumpSfr c else s
                  let (rs, s) := s.reserveAll c.who.core (if dk = 1 then [(sel, true)] else [])
                  let (n, s) := s.post c false (.cpy e) scal regs allLanes r rs
                  let s := if fol && bits desc 15 14 == 1 then s.credit c (bits desc 36 29) n else s
                  .nextR (if fol then s.setPosted c.who.core c.w.id.blk (8 + bits desc 1 0) (resultTag f) else s)

/-! ### The copy engine (R149, R152, R154) -/

/-- The first command of a core's copy queue that has not fired, where it may start (R144, R149). -/
def State.copyHead (s : State) (core : Nat) : Option Cmd :=
  ((s.core core).copyq.find? fun x => x.st == .queued).bind fun x =>
    if s.granted core x && s.tilesFree core x then some x else none

/-- ORD and SCOPE of a copy-queue command. -/
def Cmd.order (x : Cmd) : Nat × Nat :=
  match x.ins with
  | .cpy e | .gthr e | .coll e => (e.m 0 2, e.m 2 3)
  | _ => (0, 1)

/-- A command's reads: what they come to is data for its buffer, a wait, a park or an error. -/
def State.engRead (s : State) (core : Nat) (x : Cmd) (need : List (Nat × Nat)) (k : List (Nat × Nat) → State → State) : State :=
  match s.fetchNeed (s.engSpace core x) (engHandle core) (x.id + 2) x.order.2 need with
  | (.ok vals, s) => k vals s
  | (.wait, s) => s.updCmd core x.id fun y => { y with st := .fired }
  | (.park qs _, s) => s.updCmd core x.id fun y => { y with st := .parked qs 0 }
  | (.fault _ a, s) => s.engineFault core x a

/-- The data of a copy read (R152). -/
def State.copyRead (s : State) (core : Nat) (x : Cmd) : State :=
  let h := shapeOf x.record
  let els := (List.range h.count).map (copyElem h (coords x.scal))
  match els.findSome? fun x => match x with | .bad a => some a | _ => none with
  | some a => s.engineFault core x a
  | none =>
    let need := els.filterMap fun x => match x with | .at' a => some (a, h.es) | _ => none
    s.engRead core x need fun vals s => (s.dropEngReqs (engHandle core) (x.id + 2)).updCmd core x.id fun y =>
      { y with
        st := .landed
        buf := swizzle h (els.flatMap fun x => match x with
          | .at' a => granBytes vals a h.es
          | _ => List.replicate h.es 0) }

/-- The data of a gather read (R155, R372): the index list, then the rows. -/
def State.gatherRead (s : State) (core : Nat) (x : Cmd) : State :=
  let (n, r, stride) := gthrShape (x.scal.getD 6 0).toNat
  let table := (x.scal.getD 2 0).toNat
  let list := (x.scal.getD 4 0).toNat
  let idx := (List.range n).map fun m => (list + 4 * m) % 2 ^ 64
  s.engRead core x (idx.map fun a => (a, 4)) fun vals s =>
    let rows := idx.map fun a => leNat (granBytes vals a 4)
    let need := rows.filterMap fun k => if k = 2 ^ 32 - 1 then none else some ((table + k * stride) % 2 ^ 64, r)
    s.engRead core x need fun vals s => (s.dropEngReqs (engHandle core) (x.id + 2)).updCmd core x.id fun y =>
      { y with
        st := .landed
        buf := rows.flatMap fun k => if k = 2 ^ 32 - 1 then List.replicate r 0 else granBytes vals ((table + k * stride) % 2 ^ 64) r }

/-- A copy or gather fires: its acquire, then its reads (R152, R372). -/
def State.fire (s : State) (core : Nat) (x : Cmd) : State :=
  let s := if x.order.1 % 2 = 1 then s.acquire core x.order.2 else s
  match x.ins with
  | .cpy _ => s.copyRead core x
  | .gthr _ => s.gatherRead core x
  | _ => s

/-- A landed command's data written (R143, R152, R184): none where a window refuses a byte. -/
def State.landData (s : State) (core : Nat) (x : Cmd) : Except Nat State :=
  let (dk, sel, dst) := x.dest
  match dk with
  | 0 => .ok (s.engSpad core (dst % 2 ^ 24) x.buf)
  | 1 => match x.resv.head?, s.chan? core sel with
    | some (_, r), some k => .ok (s.engSpad core (k.offset (k.slotOf r)) x.buf)
    | _, _ => .ok s
  | 2 => match s.msetOf core x.poster.blk with
    | some k =>
      let t := sel % 8
      .ok (s.updMSet core k fun m =>
        MSet.setTag { m.renewed t with tiles := x.buf.zipIdx.foldl (fun q (b : Byte × Nat) => Sparse.set 0 q (16384 * t + b.2) b.1) m.tiles } t
          (BitVec.ofNat 4 (shapeOf x.record).ftag) (s.pendingWriter core x.poster.blk t))
    | none => .ok s
  | _ =>
    let va (k : Nat) : Nat := dst % 2 ^ 52 + k
    match (List.range x.buf.length).find? fun k => dst ≥ 2 ^ 52 || (s.window x.poster.proc (va k)).isNone with
    | some k => .error (dst + k)
    | none => .ok (x.buf.zipIdx.foldl (fun s (b : Byte × Nat) => match s.window x.poster.proc (va b.2) with
        | some (.spad q o) => s.engSpad q o [b.1]
        | some t => s.winWrite t b.1
        | none => s) s)

/-- The counter of a copy-queue command, with a follow-on none of its own (R152, R153, R155, R346). -/
def Cmd.copyCounter (x : Cmd) : Option Nat :=
  let a := match x.ins with
    | .gthr _ => (x.scal.getD 1 0).toNat
    | _ => (x.scal.getD 0 0).toNat
  if a = 0 then none else some a

/-- A command's release and put done, then its counter, or for a follow-on the wait for room in the FIFO. -/
def State.releaseCmd (s : State) (core : Nat) (x : Cmd) : State :=
  let fol := match x.ins with | .cpy e => e.m 13 1 == 1 | _ => false
  let s := if 2 ≤ x.order.1 && !fol then s.releaseBy (s.engSpace core x) x.order.2 else s
  let s := s.dones core x
  if fol then s.updCmd core x.id fun y => { y with st := .written, buf := [] }
  else s.countCmd core x x.order.2 x.copyCounter

/-- COPY_COMPLETE and GATHER_COMPLETE of a command (R152, R372): as far as it can go. -/
def State.completeCopy (s : State) (core : Nat) (x : Cmd) : State :=
  match x.st with
  | .fired => (match x.ins with
    | .cpy _ => s.copyRead core x
    | _ => s.gatherRead core x)
  | .landed => (match s.landData core x with
    | .ok s => s.releaseCmd core x
    | .error a => s.engineFault core x a)
  | .counting => s.countCmd core x x.order.2 x.copyCounter
  | _ => s

/-- A command of a core's copy queue by its number. -/
def State.copyCmd (s : State) (core n : Nat) : Option Cmd := (s.core core).copyq.find? fun x => x.id == n

/-- FOLLOW_ON_MMA_ENTRY (R153): the first copy whose data has landed enters its MMA into the FIFO when there is room. -/
def State.followOn (s : State) (core : Nat) : State :=
  if 64 ≤ (s.core core).fifo.length then s
  else
    match (s.core core).copyq.find? fun x => x.st == .written && (match x.ins with | .cpy _ => true | _ => false) with
    | none => s
    | some x =>
      let d := (x.scal.getD 1 0).toNat
      let own := x.dest.2.1
      let (rs, s) := s.reserveAll core (if bits d 2 2 = 1 ∨ bits d 6 6 = 1 then [(own, false)] else [])
      let (n, s) := s.tick
      let y := { x with n := n, follow := true, st := .queued, resv := rs, buf := [] }
      (s.updCore core fun k => { k with copyq := k.copyq.filter fun z => z.id ≠ x.id, fifo := k.fifo ++ [y] }).wakePosts core

/-! ### GTHR (R155, R371, R372) -/

/-- GTHR at posting. -/
def gthrBody (e : Ext) (c : Ctx) (s : State) : Res :=
  let (d, a, b, c9) := (e.d9.toNat, e.a9.toNat, e.b9.toNat, e.c9.toNat)
  let (dk, sel) := (e.m 7 2, e.m 9 4)
  withOps s [descOk c d, sRun c a, sRun c b, sRun c c9] <|
    if c.act true e.pg e.pn = 0 then .next s
    else if 32 ≤ (s.core c.who.core).copyq.length then .wait (s.waitOn c (.gthr e))
    else
      let dst := (c.sVal d).toNat
      let cnt := (c.sVal (d + 1)).toNat
      let list := (c.sVal b).toNat
      let (n, r, stride) := gthrShape (c.sVal c9).toNat
      if dk = 3 && bits dst 51 44 ≠ 0xFF then .raise s Exc.invalidOperand 0
      else if list % 4 ≠ 0 then .raise s Exc.misalignedAccess list
      else if cnt % 8 ≠ 0 then .raise s Exc.misalignedAccess cnt
      else if n < 1 ∨ 2048 < n ∨ r < 16 ∨ 4096 < r ∨ stride % 16 ≠ 0 then .raise s Exc.engineCommand 0
      else
        match destFault s c dk sel dst (n * r) with
        | some (code, x) => .raise s code x
        | none =>
          if dk = 3 && (dst ≥ 2 ^ 52 || (List.range (n * r)).any fun k => (s.window c.w.id.proc (dst + k)).isNone) then
            .raise s Exc.permission dst
          else
            (if e.m 0 2 % 2 = 1 then quietly c s else id) <|
            let s := if e.m 0 2 % 2 = 1 then ((s.orderAtomn c true [] 0).releaseBy (c.space s) (e.m 2 3)).bumpSfr c else s
            let (rs, s) := s.reserveAll c.who.core (if dk = 1 then [(sel, true)] else [])
            let scal := [c.sVal d, c.sVal (d + 1), c.sVal a, 0, c.sVal b, 0, c.sVal c9, 0, 0]
            .nextR (s.post c false (.gthr e) scal [] allLanes [] rs).2

/-! ### CWAIT (R157, R355) -/

/-- CWAIT: the counter is read each time the split looks; a peer's is asked for again after each answer below the target.
DEDUCED, unsafe: notes/assumptions/43.md. -/
def cwaitBody (e : Ext) (c : Ctx) (s : State) : Res :=
  let b := e.b9.toNat
  withOps s [sRun c e.a9.toNat, if 320 ≤ b ∧ b < 384 then sRun c b else offOk c e.lit b] <|
    let m := c.act true e.pg e.pn
    match lowest m with
    | none => .next s
    | some l =>
      let a : LaneAcc := ⟨l, (c.sVal e.a9.toNat).toNat, 0, 0⟩
      let target := offVal c e.lit b
      let ord := e.m 0 2
      let o : MemOp := ⟨.read, 8, ord, e.m 2 3, ord == 1, none⟩
      let finish' (s : State) : Res := .next (if ord = 1 then (s.acquire c.who.core (e.m 2 3)).bumpSfr c else s)
      let rs := s.reqsOf c
      match negative rs with
      | some (code, x) => .raise (s.dropReqs c) code x
      | none =>
        let got := rs.findSome? fun r => r.value o a.va
        let s := s.dropReqs c
        match got with
        | some v => if target ≤ v then finish' s else
            let (p, s) := access s (c.space s) o [a]
            let (_, s) := s.askLanes c o p.peer
            .wait (s.waitReqs c (.cwait e))
        | none =>
          match lanesOk s (c.space s).proc o [a] with
          | some (code, x) => .raise s code x
          | none =>
            let s := s.orderAtomn c (ord == 1) [a] 8
            let sp := if o.sync then c.syncSpace s else c.space s
            let (p, s) := access s sp o [a]
            match p.fault with
            | some (code, x) => .raise s code x
            | none =>
              if !p.parked.isEmpty || p.filling then .wait (s.park c p.parked (!p.filling))
              else if !p.peer.isEmpty then
                let (vs, s) := s.askLanes c o p.peer
                (match vs with
                | (_, v) :: _ => if target ≤ v then finish' s else .wait (s.waitOn c (.cwait e))
                | [] => .wait (s.waitReqs c (.cwait e)))
              else if target ≤ valAt p.vals l then finish' s
              else .wait (s.waitOn c (.cwait e))

/-! ### COLL (R156, R346, R347) -/

/-- A collective's descriptor (R156). -/
structure CollDesc where
  src : Nat
  dst : Nat
  count : Nat
  tag : Nat
  red : Nat
  ident : Nat
  pairs : Nat
  side : Nat
  deriving DecidableEq, Repr
/-- It is read from its 64 bytes. -/
def collOf (r : List Byte) : CollDesc :=
  ⟨field r 0 8, field r 8 8, field r 16 8, field r 24 1, field r 25 1, field r 26 2, field r 32 8, field r 40 8⟩

/-- The level, its instance and the launch of a participant. -/
def State.collLevel (s : State) (x : Cmd) : Option (Nat × Nat × Nat × Launch) :=
  match x.ins with
  | .coll e =>
    (x.poster.blk.bind s.block?).bind fun b => (s.launch? b.launch).map fun l => (b.launch, e.m 5 3, b.ticket / l.span (e.m 5 3), l)
  | _ => none

/-- The tickets of a level's instance. -/
def Launch.instanceTickets (l : Launch) (k n : Nat) : List Nat := (List.range (l.span k)).map fun j => n * l.span k + j

/-- The ticket of a command's block. -/
def State.ticketOf (s : State) (x : Cmd) : Nat := ((x.poster.blk.bind s.block?).map (·.ticket)).getD 0

/-- The collective commands of this device with a command's identifier and instance, each with its core. -/
def State.collPeers (s : State) (x : Cmd) : List (Nat × Cmd) :=
  s.cores.flatMap fun (k : Nat × Core) => (k.2.copyq.filter fun y =>
    (match y.ins with | .coll _ => true | _ => false) && (collOf y.record).ident == (collOf x.record).ident &&
      (s.collLevel y).map (fun t => (t.1, t.2.1, t.2.2.1)) == (s.collLevel x).map (fun t => (t.1, t.2.1, t.2.2.1))).map fun y => (k.1, y)

/-- One step of a reduction on an element (R156).
DEDUCED, unsafe: notes/assumptions/30.md. -/
def reduceElem (tag red a b : Nat) : Nat :=
  if tag = 1 then
    match red with
    | 0 => (a + b) % 2 ^ 32
    | 1 => if asInt 32 b < asInt 32 a then b else a
    | _ => if asInt 32 a < asInt 32 b then b else a
  else
    let F : Fmt := if tag = 2 then .f32 else .bf16
    let w := if tag = 2 then 32 else 16
    pack w ((List.range (32 / w)).map fun i =>
      let x := F.value (elem w i a)
      let y := F.value (elem w i b)
      F.round .rne false 0 32 (match red with
        | 0 => FV.add .rne x y
        | 1 => FV.minmax false x y
        | _ => FV.minmax true x y))

/-- The contribution of a ticket: what its command here has read, or a free value for a block of another device
(notes/assumptions/30.md). -/
def State.contribution (s : State) (ps : List (Nat × Cmd)) (t bytes : Nat) : List Byte :=
  match ps.find? fun p => s.ticketOf p.2 == t with
  | some p => p.2.buf
  | none => (List.range bytes).map fun k => BitVec.ofNat 8 (Config.which s.free (2 ^ 40 * t + k))

/-- The result of a collective for the participant of a rank (R156; notes/assumptions/30.md for the element counts). -/
def collResult (op tag red count rank : Nat) (parts : List (List Byte)) : List Byte :=
  let fold (from' n : Nat) : List Byte := (List.range n).flatMap fun k =>
    match parts.map fun p => field p (4 * (from' + k)) 4 with
    | [] => []
    | x :: xs => leBytes 4 (xs.foldl (reduceElem tag red) x)
  match op with
  | 0 => fold 0 count
  | 1 => fold (rank * count) count
  | _ => parts.flatMap id

/-- Bytes a participant contributes.
DEDUCED, unsafe: notes/assumptions/30.md. -/
def collBytes (op count n : Nat) : Nat := if op = 1 then 4 * count * n else 4 * count

/-- SUB of a collective. -/
def Cmd.collOp (x : Cmd) : Nat := match x.ins with | .coll e => e.sub.toNat | _ => 0

/-- The tickets of a collective's participants, and those of them that this device runs. -/
def State.collTickets (s : State) (x : Cmd) : List Nat × List Nat :=
  match s.collLevel x with
  | some (_, k, n, l) =>
    let (lo, len) := l.localRange s.peer.toNat
    let all := l.instanceTickets k n
    (all, all.filter fun t => lo ≤ t && t < lo + len)
  | none => ([], [])

/-- The participants' commands on this device have all read their sources. -/
def State.collLanded (s : State) (x : Cmd) : Bool :=
  (s.collTickets x).2.all fun t => (s.collPeers x).any fun p => s.ticketOf p.2 == t && p.2.st == .landed

/-- The participants' commands on this device disagree on SUB, element count, element tag or reduction (R347). -/
def State.collDiffers (s : State) (x : Cmd) : Bool :=
  let d := collOf x.record
  (s.collPeers x).any fun p =>
    let q := collOf p.2.record
    p.2.collOp != x.collOp || q.count != d.count || q.tag != d.tag || q.red != d.red

/-- The error of a disagreement, in every participant (R347). -/
def State.collRefuse (s : State) (x : Cmd) : State := (s.collPeers x).foldl (fun s p => s.engineFault p.1 p.2 0) s

/-- The participants' commands of a reduction or gather have all read their sources: results, or the error of a
disagreement (R347). -/
def State.collCombine (s : State) (x : Cmd) : State :=
  match s.collLevel x with
  | none => s
  | some (_, k, n, l) =>
    if !s.collLanded x then s
    else if s.collDiffers x then s.collRefuse x
    else
      let d := collOf x.record
      let (all, local') := s.collTickets x
      let parts := all.map fun t => s.contribution (s.collPeers x) t (collBytes x.collOp d.count all.length)
      let ps := s.collPeers x
      let s := if local'.length = all.length then s else { s with free := s.free + 1 }
      ps.foldl (fun s p => s.updCmd p.1 p.2.id fun y =>
        { y with st := .written, buf := collResult x.collOp d.tag d.red d.count (s.ticketOf p.2 - n * l.span k) parts }) s

/-- The source of a reduction or gather read. -/
def State.collRead (s : State) (core : Nat) (x : Cmd) : State :=
  let d := collOf x.record
  let n := ((s.collLevel x).map fun t => (t.2.2.2).span t.2.1).getD 1
  let bytes := collBytes x.collOp d.count n
  s.engRead core x [(d.src, bytes)] fun vals s =>
    (s.dropEngReqs (engHandle core) (x.id + 2)).updCmd core x.id fun y => { y with st := .landed, buf := granBytes vals d.src bytes }

/-- The destination of a completed participant written, then its release and its counter (R346). -/
def State.collWrite (s : State) (core : Nat) (x : Cmd) (ps : List (Nat × Nat × Nat)) : State :=
  let h := engHandle core
  let half := x.id + 2
  let done (s : State) : State :=
    let s := s.dropEngReqs h half
    let s := match x.poster.blk with | some b => s.updBlock b fun k => { k with idem := false } | none => s
    s.releaseCmd core x
  if s.league.reqs.any fun r => r.under h half then
    match s.engAnswers h half with
    | .ok _ => done s
    | .fault _ a => s.engineFault core x a
    | _ => s
  else
    match s.storePieces (s.engSpace core x) h half 0 x.order.2 ps with
    | (.ok _, s) => done s
    | (.wait, s) => s
    | (.park qs _, s) => s.updCmd core x.id fun y => { y with st := .parked qs 3 }
    | (.fault _ a, s) => s.engineFault core x a


/-! ### Shuffles (R285 to R287); packet formats in notes/assumptions/28.md -/

/-- A send entry (R285). -/
structure SendEntry where
  tag : Nat
  peer : Nat
  len : Nat
  addr : Nat
  off : Nat
  deriving DecidableEq, Repr

/-- Send entry k of a list that starts at byte a. -/
def sendEntry (bs : List Byte) (a : Nat) : SendEntry :=
  ⟨field bs a 4, bits (field bs (a + 4) 2) 8 0, field bs (a + 6) 2, field bs (a + 8) 8, field bs (a + 16) 8⟩
/-- Its ranges. -/
def sendOk (bs : List Byte) (a : Nat) : Bool :=
  let e := sendEntry bs a
  bits (field bs (a + 4) 2) 15 9 == 0 && 16 ≤ e.len && e.len ≤ 4096 && e.len % 16 == 0 && field bs (a + 24) 8 == 0

/-- A command's send list: it follows the descriptor in the record kept at posting. -/
def Cmd.sends (x : Cmd) : List SendEntry :=
  (List.range (collOf x.record).count).map fun k => sendEntry x.record (64 + 32 * k)
/-- The pair ID of a tag in the pairing table kept after the send list; 0 where it has none. -/
def Cmd.pairOf (x : Cmd) (tag : Nat) : Nat :=
  let a := 64 + 32 * (collOf x.record).count
  ((List.range ((x.record.length - a) / 8)).findSome? fun k =>
    let v := field x.record (a + 8 * k) 8
    if bits v 31 0 = tag then some (bits v 51 32) else none).getD 0

/-- Segments of a block. -/
def segCount (len : Nat) : Nat := (len + 255) / 256
/-- The header words of a segment.
DESIGN CHOICE, unsafe: notes/assumptions/28.md. -/
def segWords (tag pair ident len seg : Nat) : Nat := tag + pair * 2 ^ 32 + 2 ^ 64 * (ident + len * 2 ^ 32 + seg * 2 ^ 48)
/-- An uncoded segment (R286): its offset's low 40 bits stand in OFFSET, the others in word 4.
DESIGN CHOICE, unsafe: notes/assumptions/28.md. -/
def segPacket (src : BitVec 9) (ident : Nat) (e : SendEntry) (pair seg : Nat) (bs : List Byte) : Packet :=
  { Packet.plain 0x10 src (BitVec.ofNat 9 e.peer) 0 with
    ndata := flits bs.length
    lenm1 := BitVec.ofNat 8 (bs.length - 1)
    offset := BitVec.ofNat 40 e.off
    ext := BitVec.ofNat 384 (segWords e.tag pair ident e.len seg + 2 ^ 128 * (e.off / 2 ^ 40 % 2 ^ 24))
    data := dataOf bs }

/-- A segment's tag, pair ID, collective, block length and number. -/
structure SegHead where
  tag : Nat
  pair : Nat
  ident : Nat
  len : Nat
  seg : Nat
  deriving DecidableEq, Repr
/-- They stand in words 2 and 3. -/
def Packet.seg (p : Packet) : SegHead :=
  let a := (Packet.word p 2).toNat
  let b := (Packet.word p 3).toNat
  ⟨bits a 31 0, bits a 51 32, bits b 15 0, bits b 47 32, bits b 63 48⟩

/-- The receive offset of an uncoded segment. -/
def Packet.recvOff (p : Packet) : Nat := p.offset.toNat + 2 ^ 40 * bits (Packet.word p 4).toNat 23 0
/-- A coded packet is its second flow's receiver's. -/
def Packet.second (p : Packet) : Bool := (Packet.word p 6).getLsbD 63
/-- The part of a coded packet that its receiver decodes, and the sender and receive offset of that part. -/
def Packet.codedFor (p : Packet) : SegHead × Nat × Nat :=
  let ends := (Packet.word p 6).toNat
  if Packet.second p then (Packet.seg { p with ext := p.ext >>> 128 }, bits ends 35 27, (Packet.word p 7).toNat)
  else (Packet.seg p, bits ends 26 18, p.offset.toNat + 2 ^ 40 * bits ends 59 36)

/-- The shuffle of a command of this device. -/
def State.collEntry (s : State) (core id : Nat) : Option Coll := s.league.colls.find? fun k => k.cmds.contains (core, id)
/-- It is changed. -/
def State.updColl (s : State) (core id : Nat) (f : Coll → Coll) : State :=
  { s with league := { s.league with colls := s.league.colls.map fun k => if k.cmds.contains (core, id) then f k else k } }

/-- The shuffle commands of this device with an identifier, fired or not, each with its core. -/
def State.shuffles (s : State) (ident : Nat) : List (Nat × Cmd) :=
  s.cores.flatMap fun (k : Nat × Core) => (k.2.copyq.filter fun y =>
    (match y.ins with | .coll _ => true | _ => false) && 3 ≤ y.collOp && (collOf y.record).ident == ident).map fun y => (k.1, y)

/-- The local participant that receives a block: a send entry names a peer, not a participant of it, so that where a device
has several the receiver is free, the same for every segment of the block. None until that participant's command has fired.
DESIGN CHOICE, safe: notes/assumptions/45.md. -/
def State.collReceiver (s : State) (ident tag : Nat) : Option (Nat × Cmd) :=
  match (s.shuffles ident).head? with
  | none => none
  | some (_, y) =>
    let local' : List Nat := match s.collLevel y with
      | some (_, k, n, l) =>
        let (lo, len) := l.localRange s.peer.toNat
        (l.instanceTickets k n).filter fun t => lo ≤ t && t < lo + len
      | none => []
    let t := local'.getD (Config.which (2 ^ 16 * tag + ident) 287 % local'.length) 0
    (s.shuffles ident).find? fun x => s.ticketOf x.2 == t && (s.collEntry x.1 x.2.id).isSome

/-- The local participant that sent a segment to a peer and awaits its answer. -/
def State.collSender (s : State) (ident peer tag seg : Nat) : Option (Nat × Cmd) :=
  (s.shuffles ident).find? fun x => match s.collEntry x.1 x.2.id with
    | some k => k.unacked.contains (peer, tag, seg)
    | none => false

/-- The segments of a block's data. -/
def segBytes (bs : List Byte) (seg : Nat) : List Byte := (bs.drop (256 * seg)).take 256

/-- Each send entry with the offset of its data in the command's buffer. -/
def Cmd.sendData (x : Cmd) : List (SendEntry × List Byte) :=
  (x.sends.foldl (fun (m : List (SendEntry × List Byte) × Nat) e => (m.1 ++ [(e, (x.buf.drop m.2).take e.len)], m.2 + e.len)) ([], 0)).1

/-- The peer a ticket runs on (R38). -/
def State.peerOf (s : State) (x : Cmd) (t : Nat) : Nat :=
  match s.collLevel x with
  | some (_, _, _, l) =>
    let top := l.nlvl - 1
    if Level.domain (l.level top) = 5 then bits (field l.record 104 8) 8 0 + t / l.span (top - 1) else s.peer.toNat
  | none => s.peer.toNat

/-- The shuffle is the one that the participant of a ticket takes part in here. -/
def State.collOf' (s : State) (ident dst : Nat) (k : Coll) : Bool :=
  k.ident == ident && k.cmds.any fun p => (s.copyCmd p.1 p.2).any fun x => s.ticketOf x == dst

/-- A participant hears that another is done; what it hears before its own command has fired is kept.
DESIGN CHOICE, unsafe: notes/assumptions/28.md. -/
def State.heardDone (s : State) (ident dst from' : Nat) : State :=
  if s.league.colls.any (s.collOf' ident dst) then
    let f (k : Coll) : Coll :=
      if s.collOf' ident dst k && !k.doneFrom.contains from' then { k with doneFrom := from' :: k.doneFrom } else k
    { s with league := { s.league with colls := s.league.colls.map f } }
  else if s.league.dones.contains (ident, dst, from') then s
  else { s with league := { s.league with dones := s.league.dones ++ [(ident, dst, from')] } }

/-- A sender whose segments are all acknowledged says so to every other participant (R287).
DESIGN CHOICE, unsafe: notes/assumptions/28.md. -/
def State.sendDone (s : State) (core : Nat) (x : Cmd) : State :=
  match s.collEntry core x.id with
  | none => s
  | some k =>
    if k.doneSent || !k.unacked.isEmpty then s
    else
      let me := s.ticketOf x
      let s := s.updColl core x.id fun k => { k with doneSent := true }
      (s.collTickets x).1.foldl (fun s t =>
        if t = me then s
        else if s.peerOf x t = s.peer.toNat then s.heardDone k.ident t me
        else s.trySend { Packet.plain 0x15 s.peer (BitVec.ofNat 9 (s.peerOf x t)) 0 with
          ext := BitVec.ofNat 384 (k.ident + 2 ^ 64 * (me + 2 ^ 64 * t)) }) s

/-- A shuffle starts: its blocks are read, and every segment is sent (R286). -/
def State.shuffleRead (s : State) (core : Nat) (x : Cmd) : State :=
  s.engRead core x (x.sends.map fun e => (e.addr, e.len)) fun vals s =>
    let s := s.dropEngReqs (engHandle core) (x.id + 2)
    let y := { x with st := .landed, buf := x.sends.flatMap fun e => granBytes vals e.addr e.len }
    let s := s.updCmd core x.id fun _ => y
    let ident := (collOf x.record).ident
    let segs := y.sendData.flatMap fun (q : SendEntry × List Byte) => (List.range (segCount q.1.len)).map fun k => (q.1, k, segBytes q.2 k)
    let (heard, others) := s.league.dones.partition fun d => d.1 == ident && d.2.1 == s.ticketOf y
    let k : Coll := ⟨[(core, x.id)], ident, segs.map fun q => (q.1.peer, q.1.tag, q.2.1), heard.map (·.2.2), [], [], [], false⟩
    let s := { s with league := { s.league with colls := s.league.colls ++ [k], dones := others } }
    let s := segs.foldl (fun s q =>
      s.trySend (segPacket s.peer ident q.1 (if x.collOp = 4 then x.pairOf q.1.tag else 0) q.2.1 q.2.2)) s
    s.sendDone core y

/-- Entries of the oldest other coded shuffles leave the side cache, lowest tag first (R285).
DESIGN CHOICE, safe: notes/assumptions/45.md. -/
def evictSide (ident : Nat) (proc : BitVec 32) : Nat → List Side → List Side
  | 0, xs => xs
  | n + 1, xs =>
    let old := xs.filter fun x => !(x.ident == ident && x.proc == proc)
    match old.foldl (fun m x => match m with
      | none => some x
      | some y => if x.ord < y.ord ∨ (x.ord = y.ord ∧ x.tag.toNat < y.tag.toNat) then some x else some y) (none : Option Side) with
    | some y => evictSide ident proc n (xs.erase y)
    | none => xs

/-- COLL at posting (R156, R285, R347). -/
def collBody (e : Ext) (c : Ctx) (s : State) : Res :=
  let (d, a) := (e.d9.toNat, e.a9.toNat)
  let op := e.sub.toNat
  let nlvl := (((c.w.id.blk.bind s.block?).bind fun b => s.launch? b.launch).map Launch.nlvl).getD 0
  withOps s [sRun c d, sRun c a, OpOk.when (e.m 5 3 < nlvl)] <|
    if c.act true e.pg e.pn = 0 then .next s
    else if 32 ≤ (s.core c.who.core).copyq.length then .wait (s.waitOn c (.coll e))
    else
      let at' := (c.sVal a).toNat
      let i : Instr := .coll e
      let sc := e.m 2 3
      if at' % 64 ≠ 0 then .raise s Exc.misalignedAccess at'
      else
        postRead i sc [(at', 64)] c s fun vals s =>
          let r := granBytes vals at' 64
          let q := collOf r
          let bad (s : State) : Res := .raise (s.dropEngReqs c.w.id.handle (c.who.half + 2)) Exc.engineCommand 0
          let again := (s.core c.who.core).copyq.any fun x => x.poster.blk == c.w.id.blk && x.record.length ≥ 64 &&
            (match x.ins with | .coll _ => (collOf x.record).ident == q.ident | _ => false)
          let enter (s : State) (record : List Byte) (side : List Side) : Res :=
            let s := s.dropEngReqs c.w.id.handle (c.who.half + 2)
            (if e.m 0 2 % 2 = 1 then quietly c s else id) <|
            let s := if e.m 0 2 % 2 = 1 then ((s.orderAtomn c true [] 0).releaseBy (c.space s) sc).bumpSfr c else s
            let (n, s) := s.post c false i [c.sVal d, 0, c.sVal a, 0, 0, 0, 0, 0, 0] [] allLanes record []
            let new := side.map fun x => { x with ord := n }
            let kept := evictSide q.ident (c.process s) (s.league.side.length + new.length - 8192) s.league.side
            .nextR { s with league := { s.league with side := (kept ++ new).take 8192 } }
          if !([1, 2, 4].contains q.tag) || (op ≤ 1 && 2 < q.red) || field r 28 4 ≠ 0 || field r 48 16 ≠ 0 || again then bad s
          else if op ≤ 2 then enter s r []
          else
            postRead i sc [(q.src, 32 * q.count)] c s fun vals s =>
              let sends := granBytes vals q.src (32 * q.count)
              if !((List.range q.count).all fun k => sendOk sends (32 * k)) then bad s
              else if op = 3 then enter s (r ++ sends) []
              else
                postRead i sc [(q.pairs, 8), (q.side, 32)] c s fun vals s =>
                  let np := field (granBytes vals q.pairs 8) 0 2
                  let hd := granBytes vals q.side 32
                  let ns := field hd 0 2
                  if 8192 < np || 8192 < ns || field hd 2 6 ≠ 0 || field hd 20 12 ≠ 0 then bad s
                  else
                    postRead i sc [(q.pairs + 8, 8 * np), (q.side + 32, 16 * ns)] c s fun vals s =>
                      let pt := granBytes vals (q.pairs + 8) (8 * np)
                      let st := granBytes vals (q.side + 32) (16 * ns)
                      let pairsOk := (List.range np).all fun k => let v := field pt (8 * k) 8; bits v 63 52 == 0 && 1 ≤ bits v 51 32
                      let sidesOk := (List.range ns).all fun k => field st (16 * k + 6) 2 == 0
                      if !pairsOk || !sidesOk then bad s
                      else enter s (r ++ sends ++ pt) ((List.range ns).map fun k =>
                        ⟨q.ident, BitVec.ofNat 32 (field st (16 * k) 4), field st (16 * k + 4) 2,
                          BitVec.ofNat 64 (field st (16 * k + 8) 8), 0, (c.poster s).proc⟩)

/-- A switch's packet on its way: it keeps its plane. -/
def State.forward (s : State) (p : Packet) : State := { s with league := { s.league with netOut := s.league.netOut ++ [p] } }

/-- The XOR of two segments, one packet for each receiver: words 2 and 3 are the first flow's, 4 and 5 the other's, word 6
their receivers and senders, the upper bits of the first's offset and which flow is the receiver's own, word 7 the other's
offset.
DESIGN CHOICE, unsafe: notes/assumptions/28.md. -/
def codedPackets (x y : Packet) : List Packet :=
  let len := max x.lenm1.toNat y.lenm1.toNat + 1
  let ends := x.dst.toNat + y.dst.toNat * 2 ^ 9 + x.src.toNat * 2 ^ 18 + y.src.toNat * 2 ^ 27 + Packet.recvOff x / 2 ^ 40 * 2 ^ 36
  let e (own : Nat) : BitVec 384 :=
    BitVec.ofNat 384 (x.ext.toNat % 2 ^ 128 + 2 ^ 128 * (y.ext.toNat % 2 ^ 128) + 2 ^ 256 * (ends + own * 2 ^ 63) +
      2 ^ 320 * Packet.recvOff y)
  let data := BitVec.ofNat 2048 ((x.data.toNat % 2 ^ (8 * (x.lenm1.toNat + 1))) ^^^ (y.data.toNat % 2 ^ (8 * (y.lenm1.toNat + 1))))
  let p : Packet := { x with type := 0x11, lenm1 := BitVec.ofNat 8 (len - 1), ndata := flits len, data := data }
  [{ p with ext := e 0 }, { p with ext := e 1, dst := y.dst }]

/-- The same flow key: plane, collective, pair ID, segment (R286). -/
def sameKey (x y : Packet) : Bool :=
  x.plane == y.plane && (Packet.seg x).ident == (Packet.seg y).ident && (Packet.seg x).pair == (Packet.seg y).pair &&
    (Packet.seg x).seg == (Packet.seg y).seg

/-- A segment that has left the switch, kept for its key alone: type 0x11, without data. -/
def passedSegment (p : Packet) : Packet := { p with type := 0x11, data := 0 }

/-- SHUFFLE_SEGMENT_SWITCH (R286): the second segment of a key within 2 µs of the first is sent with it as one; a third, and
any later one, meets no one.
DESIGN CHOICE, safe: notes/assumptions/45.md. -/
def State.switchSegment (s : State) (p : Packet) : State :=
  if p.type ≠ 0x10 then s
  else
    let segs := s.league.sw.segs
    let put (l : List (Nat × Packet)) : State := { s with league := { s.league with sw := { s.league.sw with segs := l } } }
    if (Packet.seg p).pair = 0 then s.forward p
    else
      match segs.filter fun (x : Nat × Packet) => sameKey x.2 p with
      | [] => put (segs ++ [(s.now, p)])
      | [(t, x)] =>
        if x.type == 0x10 && s.now ≤ t + 2000 then
          (codedPackets x p).foldl State.forward (put ((segs.filter fun y => y ≠ (t, x)) ++ [(t, passedSegment x), (s.now, passedSegment p)]))
        else put (segs ++ [(s.now, p)])
      | _ => s.forward p

/-- SHUFFLE_PAIR_TIMEOUT (R286): waiting segment n of a plane is forwarded uncoded. -/
def State.pairTimeout (s : State) (plane n : Nat) : State :=
  match ((s.league.sw.segs.filter fun (x : Nat × Packet) => x.2.plane.toNat == plane && x.2.type == 0x10))[n]? with
  | some (t, x) =>
    if t + 2000 < s.now then
      { s with league := { s.league with sw := { s.league.sw with segs :=
          (s.league.sw.segs.filter fun y => y ≠ (t, x)) ++ [(t, passedSegment x)] } } }.forward x
    else s
  | none => s

/-- The answer to a segment: an acknowledgement (0x04) or a segment negative (0x12) that names it in words 2 and 3.
DESIGN CHOICE, unsafe: notes/assumptions/28.md. -/
def segAnswer (type : Nat) (src dst : BitVec 9) (h : SegHead) : Packet :=
  { Packet.plain type src dst 0 with
    ext := BitVec.ofNat 384 (h.tag + 2 ^ 63 + 2 ^ 64 * (h.ident + h.seg * 2 ^ 48)) }

/-- What handling a received segment comes to: it is done with, or it is held until later. -/
inductive SegDone where
  | gone (s : State)
  | keep (s : State)

/-- The number under which the requests of a segment's data are kept. -/
def segHalf (x : Cmd) (h : SegHead) : Nat := 2 ^ 64 * (x.id + 1) + 2 ^ 16 * h.tag + h.seg

/-- A segment's data written at a participant's receive base, then what follows (R287): it is kept until the write can be
made, and where the base lies in a peer's memory until that peer has answered. -/
def State.writeSegment (s : State) (core : Nat) (x : Cmd) (off : Nat) (h : SegHead) (bs : List Byte) (k : State → State) : SegDone :=
  let a := ((collOf x.record).dst + off + 256 * h.seg) % 2 ^ 64
  let (e, half) := (engHandle core, segHalf x h)
  let (f, s) := if s.league.reqs.any fun r => r.under e half then (s.engAnswers e half, s)
    else s.storePieces (s.engSpace core x) e half 0 x.order.2 (piecesOf a bs)
  match f with
  | .ok _ => .gone (k (s.dropEngReqs e half))
  | .wait | .park _ _ => .keep s
  | .fault _ b => .gone ((s.dropEngReqs e half).engineFault core x b)

/-- The receipt of an uncoded segment (R287). -/
def State.takeUncoded (s : State) (p : Packet) : SegDone :=
  let h := Packet.seg p
  match s.collReceiver h.ident h.tag with
  | none => .keep s
  | some (core, x) =>
    s.writeSegment core x (Packet.recvOff p) h (Packet.bytes p (p.lenm1.toNat + 1)) fun s =>
      let t := BitVec.ofNat 32 h.tag
      (s.updColl core x.id fun k => { k with received := if k.received.contains t then k.received else t :: k.received }).trySend
        (segAnswer 0x04 s.peer p.src h)

/-- The coded segments that fill the 8 MiB decode buffer: those received and not yet decoded (R287).
DESIGN CHOICE, safe: notes/assumptions/45.md. -/
def State.decodeFull (s : State) : Bool := 32768 ≤ (s.league.held.filter fun p => p.type == 0x11).length

/-- The receipt of a coded segment (R287): decoded with the partner's block from the side cache, or answered negative.
DESIGN CHOICE, safe: notes/assumptions/45.md. -/
def State.takeCoded (s : State) (p : Packet) : SegDone :=
    let (mine, from', off) := Packet.codedFor p
    let other := if Packet.second p then Packet.seg p else Packet.seg { p with ext := p.ext >>> 128 }
    match s.collReceiver mine.ident mine.tag with
    | none => .keep s
    | some (core, x) =>
      let t := BitVec.ofNat 32 mine.tag
      let no (s : State) : SegDone :=
        .gone <| (s.updColl core x.id fun k => { k with fallback := if k.fallback.contains t then k.fallback else t :: k.fallback }).trySend
          (segAnswer 0x12 s.peer (BitVec.ofNat 9 from') mine)
      match s.league.side.find? fun y => y.ident = mine.ident && y.tag.toNat = other.tag with
      | none => no s
      | some y =>
        let a := (y.addr.toNat + 256 * mine.seg) % 2 ^ 64
        let n := min 256 (y.len - 256 * mine.seg)
        let half := 2 ^ 63 + segHalf x mine
        match s.fetchNeed (s.engSpace core x) (engHandle core) half x.order.2 [(a, n)] with
        | (.ok vals, s) =>
          let len := min 256 (mine.len - 256 * mine.seg)
          let m := leBytes len ((p.data.toNat ^^^ leNat (granBytes vals a n)) % 2 ^ (8 * len))
          s.writeSegment core x off mine m fun s =>
            ((s.dropEngReqs (engHandle core) half).updColl core x.id fun k =>
              { k with coded := if k.coded.contains t then k.coded else t :: k.coded }).trySend
              (segAnswer 0x04 s.peer (BitVec.ofNat 9 from') mine)
        | (.fault _ b, s) => .gone ((s.dropEngReqs (engHandle core) half).engineFault core x b)
        | (_, s) => .keep s

/-- The segments received that are still to be written are tried again, in the order they came. -/
def State.retrySegments (s : State) : State :=
  s.league.held.foldl (fun (s : State) p =>
    match if p.type = 0x11 then s.takeCoded p else s.takeUncoded p with
    | .gone s => s
    | .keep s => { s with league := { s.league with held := s.league.held ++ [p] } })
    { s with league := { s.league with held := [] } }

/-- UNCODED_SEGMENT_RECEIPT (R287). -/
def State.uncodedSegment (s : State) (p : Packet) : State :=
  if p.type ≠ 0x10 || p.dst ≠ s.peer then s
  else match s.takeUncoded p with
    | .gone s => s
    | .keep s => { s with league := { s.league with held := s.league.held ++ [p] } }

/-- CODED_SEGMENT_RECEIPT (R287): one that finds the decode buffer full is answered negative.
DESIGN CHOICE, safe: notes/assumptions/45.md. -/
def State.codedSegment (s : State) (p : Packet) : State :=
  if p.type ≠ 0x11 || p.dst ≠ s.peer then s
  else if s.decodeFull then
    let (h, from', _) := Packet.codedFor p
    let t := BitVec.ofNat 32 h.tag
    let s := match s.collReceiver h.ident h.tag with
      | some (core, x) => s.updColl core x.id fun k => { k with fallback := if k.fallback.contains t then k.fallback else t :: k.fallback }
      | none => s
    s.trySend (segAnswer 0x12 s.peer (BitVec.ofNat 9 from') h)
  else match s.takeCoded p with
    | .gone s => s
    | .keep s => { s with league := { s.league with held := s.league.held ++ [p] } }

/-- A segment's acknowledgement at its sender (R287). -/
def State.segmentAck (s : State) (p : Packet) : State :=
  let h := Packet.seg p
  match s.collSender h.ident p.src.toNat h.tag h.seg with
  | none => s
  | some (core, x) =>
    (s.updColl core x.id fun k => { k with unacked := k.unacked.filter fun u => u ≠ (p.src.toNat, h.tag, h.seg) }).sendDone core x

/-- SEGMENT_NEGATIVE_RECEIPT (R287): the segment goes out again uncoded, with pair ID 0. -/
def State.segmentNegative (s : State) (p : Packet) : State :=
  let h := Packet.seg p
  if p.type ≠ 0x12 || p.dst ≠ s.peer then s
  else match s.collSender h.ident p.src.toNat h.tag h.seg with
  | none => s
  | some (_, x) =>
    match x.sendData.find? fun (q : SendEntry × List Byte) => q.1.tag = h.tag && q.1.peer = p.src.toNat with
    | some (e, bs) => s.trySend (segPacket s.peer h.ident e 0 h.seg (segBytes bs h.seg))
    | none => s

/-- SHUFFLE_DONE_RECEIPT (R287). -/
def State.shuffleDone (s : State) (p : Packet) : State :=
  if p.type = 0x15 && p.dst == s.peer then
    s.heardDone ((Packet.word p 2).toNat) ((Packet.word p 4).toNat) ((Packet.word p 3).toNat)
  else s

/-- The completion record of a coded shuffle: blocks decoded, fallen back, and received uncoded (R287). -/
def Coll.counts (k : Coll) : List Byte :=
  let tags := (k.coded ++ k.received ++ k.fallback).eraseDups
  let coded := tags.filter fun t => !k.fallback.contains t && !k.received.contains t
  leBytes 4 coded.length ++ leBytes 4 k.fallback.length ++ leBytes 4 (tags.length - coded.length - k.fallback.length)

/-- A shuffle's command has all it waits for (R287). -/
def State.shuffleReady (s : State) (core : Nat) (x : Cmd) : Option Coll :=
  (s.collEntry core x.id).bind fun k =>
    let mine := s.league.held.any fun p =>
      let h := if p.type = 0x11 then (Packet.codedFor p).1 else Packet.seg p
      (s.collReceiver h.ident h.tag).map (fun y => (y.1, y.2.id)) == some (core, x.id)
    if !mine && k.doneSent && (s.collTickets x).1.all fun t => t == s.ticketOf x || k.doneFrom.contains t then some k else none

/-- COLL_COMPLETE of a command (R156, R287, R346): as far as it can go. -/
def State.collComplete (s : State) (core : Nat) (x : Cmd) : State :=
  let d := collOf x.record
  let at' := if x.collOp ≤ 2 then d.dst else d.side + 8
  match x.st with
  | .fired => if x.collOp ≤ 2 then s.collRead core x else (s.shuffleRead core x).retrySegments
  | .landed =>
    if x.collOp ≤ 2 then
      let s := s.collCombine x
      match s.copyCmd core x.id with
      | some y => if y.st = .written then s.collWrite core y (piecesOf at' y.buf) else s
      | none => s
    else
      if s.collLanded x && s.collDiffers x then s.collRefuse x
      else
      let s := s.retrySegments
      match s.shuffleReady core x with
      | some k =>
        let y := { x with st := .written, buf := if x.collOp = 4 then k.counts else [] }
        let s := { s with league := { s.league with
          colls := s.league.colls.filter fun q => !q.cmds.contains (core, x.id)
          side := s.league.side.filter fun q => q.ord ≠ x.id } }
        (s.updCmd core x.id fun _ => y).collWrite core y (piecesOf at' y.buf)
      | none => s
  | .written => s.collWrite core x (piecesOf at' x.buf)
  | .counting => s.countCmd core x x.order.2 x.copyCounter
  | _ => s

/-! ### Fault responses for commands (R154, R188) -/

/-- The commands of a die's cores parked on a record, with the address that met it. -/
def State.cmdsOn (s : State) (die : Nat) (seq : BitVec 16) : List (Nat × Cmd × Nat) :=
  s.cores.flatMap fun (x : Nat × Core) =>
    if unitDie x.1 ≠ die then []
    else (x.2.fifo ++ x.2.copyq).filterMap fun y => match y.st with
      | .parked qs _ => (qs.lookup seq).map fun a => (x.1, y, a)
      | _ => none

/-- A response with ACT = 1 (R188): the splits parked on the record raise, and the commands, but for those that an earlier
one's error has discarded (R154).
DEDUCED, unsafe: notes/assumptions/42.md. -/
def State.raiseRecord (s : State) (die : Nat) (seq : BitVec 16) : State :=
  (s.cmdsOn die seq).foldl (fun s x =>
    let k := s.core x.1
    if (k.copyq ++ k.fifo).any fun y => y.id == x.2.1.id then s.engineFault x.1 x.2.1 x.2.2 else s) (s.raiseParked die seq)
/-- MMA (R143). -/
def execMma (e : Ext) (s : State) : Host.Outcome State Fault Refusal :=
  runWave (.mma e) (some e) (mmaBody e) s

/-- ACCRD (R311). -/
def execAccrd (e : Ext) (s : State) : Host.Outcome State Fault Refusal :=
  runWave (.accrd e) (some e) (accrdBody e) s

/-- ACCWR (R312). -/
def execAccwr (e : Ext) (s : State) : Host.Outcome State Fault Refusal :=
  runWave (.accwr e) (some e) (accwrBody e) s

/-- ACCZ (R313). -/
def execAccz (e : Ext) (s : State) : Host.Outcome State Fault Refusal :=
  runWave (.accz e) (some e) (acczBody e) s

/-- TILEMV LD (R427). -/
def execTilemvLd (e : Ext) (s : State) : Host.Outcome State Fault Refusal :=
  runWave (.tilemvLd e) (some e) (tilemvBody (.tilemvLd e) true e) s

/-- TILEMV ST (R427). -/
def execTilemvSt (e : Ext) (s : State) : Host.Outcome State Fault Refusal :=
  runWave (.tilemvSt e) (some e) (tilemvBody (.tilemvSt e) false e) s

/-- CHINIT (R147). -/
def execChinit (e : Ext) (s : State) : Host.Outcome State Fault Refusal :=
  runWave (.chinit e) (some e) (chinitBody e) s

/-- CHPUT RES (R148). -/
def execChputRes (e : Ext) (s : State) : Host.Outcome State Fault Refusal :=
  runWave (.chputRes e) (some e) (reserveBody (.chputRes e) true e) s

/-- CHPUT DONE (R148). -/
def execChputDone (e : Ext) (s : State) : Host.Outcome State Fault Refusal :=
  runWave (.chputDone e) (some e) (doneBody true e) s

/-- CHGET WAIT (R148). -/
def execChgetWait (e : Ext) (s : State) : Host.Outcome State Fault Refusal :=
  runWave (.chgetWait e) (some e) (reserveBody (.chgetWait e) false e) s

/-- CHGET DONE (R148). -/
def execChgetDone (e : Ext) (s : State) : Host.Outcome State Fault Refusal :=
  runWave (.chgetDone e) (some e) (doneBody false e) s

/-- CPY (R152). -/
def execCpy (e : Ext) (s : State) : Host.Outcome State Fault Refusal :=
  runWave (.cpy e) (some e) (cpyBody e) s

/-- GTHR (R371). -/
def execGthr (e : Ext) (s : State) : Host.Outcome State Fault Refusal :=
  runWave (.gthr e) (some e) (gthrBody e) s

/-- CWAIT (R157). -/
def execCwait (e : Ext) (s : State) : Host.Outcome State Fault Refusal :=
  runWave (.cwait e) (some e) (cwaitBody e) s

/-- COLL (R346). -/
def execColl (e : Ext) (s : State) : Host.Outcome State Fault Refusal :=
  runWave (.coll e) (some e) (collBody e) s

/-- CHANNEL_RESERVATION_GRANT (R148). -/
def execChannelReservationGrant (core ch : Nat) (s : State) : Host.Outcome State Fault Refusal :=
  .next (s.grantNext core ch)

/-- MMA_EXECUTE (R143). -/
def execMmaExecute (core : Nat) (s : State) : Host.Outcome State Fault Refusal :=
  .next (s.mmaExecute core)

/-- MMA_COMPLETE (R145). -/
def execMmaComplete (core : Nat) (s : State) : Host.Outcome State Fault Refusal :=
  .next (s.mmaComplete core)

/-- ACCZ_EXECUTE (R146). -/
def execAcczExecute (core : Nat) (s : State) : Host.Outcome State Fault Refusal :=
  .next (s.acczExecute core)

/-- ACCWR_EXECUTE (R146). -/
def execAccwrExecute (core : Nat) (s : State) : Host.Outcome State Fault Refusal :=
  .next (s.accwrExecute core)

/-- TILEMV_LD_EXECUTE (R146). -/
def execTilemvLdExecute (core : Nat) (s : State) : Host.Outcome State Fault Refusal :=
  .next (s.tilemvLdExecute core)

/-- TILEMV_ST_EXECUTE (R146). -/
def execTilemvStExecute (core : Nat) (s : State) : Host.Outcome State Fault Refusal :=
  .next (s.tilemvStExecute core)

/-- COPY_FIRE (R152). -/
def execCopyFire (core : Nat) (s : State) : Host.Outcome State Fault Refusal :=
  .next (match s.copyHead core with
    | some x => (match x.ins with
      | .cpy _ => s.fire core x
      | .coll _ => (s.fire core x).collComplete core { x with st := .fired }
      | _ => s)
    | none => s)

/-- COPY_COMPLETE (R152). -/
def execCopyComplete (core n : Nat) (s : State) : Host.Outcome State Fault Refusal :=
  .next (match s.copyCmd core n with
    | some x => (match x.ins with | .cpy _ => s.completeCopy core x | _ => s)
    | none => s)

/-- FOLLOW_ON_MMA_ENTRY (R153). -/
def execFollowOnMmaEntry (core : Nat) (s : State) : Host.Outcome State Fault Refusal :=
  .next (s.followOn core)

/-- GATHER_FIRE (R372). -/
def execGatherFire (core : Nat) (s : State) : Host.Outcome State Fault Refusal :=
  .next (match s.copyHead core with
    | some x => (match x.ins with | .gthr _ => s.fire core x | _ => s)
    | none => s)

/-- GATHER_COMPLETE (R372). -/
def execGatherComplete (core n : Nat) (s : State) : Host.Outcome State Fault Refusal :=
  .next (match s.copyCmd core n with
    | some x => (match x.ins with | .gthr _ => s.completeCopy core x | _ => s)
    | none => s)

/-- COLL_COMPLETE (R346). -/
def execCollComplete (core n : Nat) (s : State) : Host.Outcome State Fault Refusal :=
  .next (match s.copyCmd core n with
    | some x => (match x.ins with | .coll _ => s.collComplete core x | _ => s)
    | none => s)

/-- CWAIT_SATISFIED (R157). -/
def execCwaitSatisfied (w : Who) (s : State) : Host.Outcome State Fault Refusal :=
  .next (s.resume w fun i => match i with
    | .cwait e => some (some e, cwaitBody e)
    | _ => none)

/-- FBRESP_RAISE (R188, R304). -/
def execFbrespRaise (die : Nat) (seq : BitVec 16) (s : State) : Host.Outcome State Fault Refusal :=
  .next (s.unlessMin fun s => s.raiseRecord die seq)

/-- SHUFFLE_SEGMENT_SWITCH (R286). -/
def execShuffleSegmentSwitch (p : Packet) (s : State) : Host.Outcome State Fault Refusal :=
  .next (s.switchSegment p)

/-- SHUFFLE_PAIR_TIMEOUT (R286). -/
def execShufflePairTimeout (plane n : Nat) (s : State) : Host.Outcome State Fault Refusal :=
  .next (s.pairTimeout plane n)

/-- UNCODED_SEGMENT_RECEIPT (R287). -/
def execUncodedSegmentReceipt (p : Packet) (s : State) : Host.Outcome State Fault Refusal :=
  .next (s.recv p fun s => s.uncodedSegment p)

/-- CODED_SEGMENT_RECEIPT (R287). -/
def execCodedSegmentReceipt (p : Packet) (s : State) : Host.Outcome State Fault Refusal :=
  .next (s.recv p fun s => s.codedSegment p)

/-- SEGMENT_NEGATIVE_RECEIPT (R287). -/
def execSegmentNegativeReceipt (p : Packet) (s : State) : Host.Outcome State Fault Refusal :=
  .next (s.recv p fun s => s.segmentNegative p)

/-- SHUFFLE_DONE_RECEIPT (R287). -/
def execShuffleDoneReceipt (p : Packet) (s : State) : Host.Outcome State Fault Refusal :=
  .next (s.recv p fun s => s.shuffleDone p)

end Sys2Proof.Machine
end

