-- ==== Sys2Proof/Machine/Fabric.lean ====
section
/-!
DEFINITION. The League: RLD, RST, RATOM and RMCST (R277, R278, R282, R283), the exporter's answers (R275), multicast at
the switch and at its members (R283, R284), timeouts (R272), invalidates (R281), peer-set barriers (R289), links (R269,
R271, R273), and the window table (R274, R276).
-/

namespace Sys2Proof.Machine

/-! ### Remote accesses (R277, R278) -/

/-- A remote access's operands: the form, SZ or the type's size, and its packet. -/
structure Remote where
  o : MemOp
  dataBytes : Nat
  deriving DecidableEq, Repr

/-- A peer operand: a vector read as z32, or a scalar (R277). -/
def peerOk (c : Ctx) (code : Nat) : OpOk := if code < 320 then vRun c.w code 1 1 (tagOk 1) else sRun c code

/-- The packet of a lane's remote access.
DEDUCED, unsafe: notes/assumptions/20.md. -/
def remotePacket (o : MemOp) (peer off x y : Nat) : Packet :=
  { Packet.plain (match o.acc with | .write => 3 | .atomic => 5 | _ => 1) 0 (BitVec.ofNat 9 peer) 0 with
    offset := BitVec.ofNat 40 off
    lenm1 := BitVec.ofNat 8 (o.n - 1)
    ndata := if o.acc = .read then 0 else 1
    atop := BitVec.ofNat 3 ((o.atom.getD (0, 0)).1)
    atty := BitVec.ofNat 3 ((o.atom.getD (0, 0)).2)
    data := BitVec.ofNat 2048 (x + 2 ^ (8 * o.n) * y) }

/-- A lane of a remote access: lane, peer, offset, operands. -/
structure RemLane where
  l : Nat
  peer : Nat
  off : Nat
  x : Nat
  y : Nat
  deriving DecidableEq, Repr

/-- The checks of a pass (R278): misaligned, or outside a peer's 2^40 bytes, each at the lowest offset that fails (R253).
DEDUCED, unsafe: notes/assumptions/22.md. -/
def passFault (n : Nat) (pass : List RemLane) : Option (Nat × Nat) :=
  worst (pass.filterMap fun a =>
    if a.off % n ≠ 0 then some (1, Exc.misalignedAccess, a.off)
    else if a.off ≥ 2 ^ 40 then some (2, Exc.permission, a.off) else none)

/-- A pass has completed (R278): its acquire, and, for an atomic or a store, the region it closes and the flag it clears
(R259, R263, R409, R417). -/
def State.passDone (s : State) (c : Ctx) (i : Instr) (o : MemOp) (close last : Bool) : State :=
  let s := if o.ord % 2 = 1 then s.acquire c.who.core 5 else s
  let s := if o.sync then s.bumpSfr c else s
  if close && !last then (s.closeRegion c (nextPc c i)).clearIdem c else s

/-- The passes of a remote access, one for each distinct peer in ascending order (R278).
DEDUCED, unsafe: notes/assumptions/22.md. -/
def runRemote (i : Instr) (o : MemOp) (close : Bool) (ls : List RemLane) (put : List (Nat × Nat) → Wave → Wave)
    (c : Ctx) (s : State) : Res :=
  if ls.isEmpty then .next s
  else
    let rs := s.reqsOf c
    let got := rs.filterMap fun r => match r.answer with
      | some a => if a.status = 0 then some (r.lane, a.data.toNat % 2 ^ (8 * o.n)) else none
      | none => none
    let s := s.dropReqs c
    let s := s.put c (put got (s.mine c))
    let done := c.progress.done ||| valMask got
    match negative rs with
    | some (code, a) => .raise (s.setProg c done 0) code a
    | none =>
      let left := ls.filter fun a => !done.getLsbD a.l
      let s := if got.isEmpty then s else s.passDone c i o close left.isEmpty
      if left.isEmpty then if close then .nextR s else .next s
      else
        let p := left.foldl (fun m a => min m a.peer) (2 ^ 32)
        let pass := left.filter fun a => a.peer = p
        let s := s.setProg c done 0
        if p > 511 then .raise s Exc.remoteAccess 0
        else
          match passFault o.n pass with
          | some (code, a) => .raise s code a
          | none =>
            (if 2 ≤ o.ord then quietly c s else id) <|
            let s := if o.sync then s.orderAtomn c true [] 0 else s
            let s := if 2 ≤ o.ord then s.releaseBy (c.syncSpace s) 5 else s
            let s := pass.foldl (fun s a => s.ask c.w.id.handle c.who.half a.l (a.peer * 2 ^ 40 + a.off) none (remotePacket o a.peer a.off a.x a.y)) s
            .wait (s.waitReqs c i)

/-- The lanes of a remote access.
DEDUCED, unsafe: notes/assumptions/22.md. -/
def remLanes (c : Ctx) (e : Ext) (x y : Nat → Nat) : List RemLane :=
  (lanesOf (c.active e.pg e.pn)).map fun l =>
    ⟨l, opVal c none 1 e.a9.toNat l % 2 ^ 32, opVal c none 8 e.b9.toNat l, x l, y l⟩

/-- A vector data operand of an access size.
DEDUCED, unsafe: notes/assumptions/23.md. -/
def vecDataOk (c : Ctx) (sz code : Nat) : OpOk := vRun c.w code (szRegs sz) (szRegs sz) (fun _ => true)

/-- RLD (R277, R278, R415).
DEDUCED, unsafe: notes/assumptions/23.md. -/
def rldBody (e : Ext) (c : Ctx) (s : State) : Res :=
  let sz := e.m 9 3
  withOps s [(vecDataOk c sz e.d9.toNat).dst, peerOk c e.a9.toNat, vRun c.w e.b9.toNat 2 2 (fun _ => true)] <|
    runRemote (.rld e) ⟨.read, szBytes sz, e.m 0 2, 5, e.m 0 2 == 1, none⟩ false (remLanes c e (fun _ => 0) fun _ => 0)
      (loadInto c sz e.d9.toNat 0) c s

/-- RST (R277, R278, R417). -/
def rstBody (e : Ext) (c : Ctx) (s : State) : Res :=
  let sz := e.m 9 3
  withOps s [peerOk c e.a9.toNat, vRun c.w e.b9.toNat 2 2 (fun _ => true), vecDataOk c sz e.c9.toNat] <|
    runRemote (.rst e) ⟨.write, szBytes sz, e.m 0 2, 5, e.m 0 2 == 2, none⟩ true
      (remLanes c e (dataVal c sz e.c9.toNat) fun _ => 0) (fun _ w => w) c s

/-- RATOM (R277, R278, R409).
DEDUCED, unsafe: notes/assumptions/23.md. -/
def ratomBody (e : Ext) (c : Ctx) (s : State) : Res :=
  let ty := e.ty.toNat
  let op := e.sub.toNat
  let k := tyRegs ty
  let d := e.d9.toNat
  let x := e.c9.toNat
  let regs := if op = 7 then 2 * k else k
  withOps s [if d = 320 then OpOk.yes else vDst c k d, peerOk c e.a9.toNat, vRun c.w e.b9.toNat 2 2 (fun _ => true),
      vRun c.w x regs regs (tagOk ty)] <|
    let put (vals : List (Nat × Nat)) (w : Wave) : Wave :=
      if d = 320 then w else writeDst c w ty d (tagOf ty) (valMask vals) (valAt vals)
    runRemote (.ratom e) ⟨.atomic, tyBits ty / 8, e.m 0 2, 5, true, some (op, ty)⟩ true
      (remLanes c e (fun l => opVal c none ty x l) fun l => if op = 7 then opVal c none ty (x + k) l else 0) put c s

/-- The line RMCST sends: byte k is byte k mod 4 of vC in lane k div 4 (R282).
DESIGN CHOICE, unsafe: notes/assumptions/24.md. -/
def mcastLine (c : Ctx) (code n : Nat) : List Byte :=
  (List.range n).map fun k => byteOf (lane (c.w.v code).data (k / 4)) (k % 4)

/-- RMCST (R282, R283).
DEDUCED, unsafe: notes/assumptions/22.md. -/
def rmcstBody (e : Ext) (c : Ctx) (s : State) : Res :=
  let d := e.d9.toNat
  withOps s [sDst c d, sRun c e.a9.toNat, sRun c e.b9.toNat, vRun c.w e.c9.toNat 1 1 (fun _ => true)] <|
    let g := (c.sVal e.a9.toNat).toNat
    let off := (c.sVal e.b9.toNat).toNat
    let n := 16 * (e.m 9 4 + 1)
    if g ≥ 2 ^ 12 ∨ off ≥ 2 ^ 40 ∨ off % 16 ≠ 0 ∨ off % 256 + n > 256 then .raise s Exc.invalidOperand 0
    else
      let act := c.active e.pg e.pn
      if act = 0 then .next s
      else
        match s.reqsOf c with
        | r :: _ =>
          let s := s.dropReqs c
          let v := match r.answer with | some a => Packet.word a 2 | none => 0
          -- only with a release is it a synchronisation operation (R201)
          let s := s.put c (writeS c (s.mine c) d v)
          .nextR (if e.m 0 2 = 2 then s.bumpSfr c else s)
        | [] =>
          if (s.planeFor (off / 256 % 32)).isNone then .raise s Exc.remoteAccess off
          else
            (if e.m 0 2 = 2 then quietly c s else id) <|
            let s := if e.m 0 2 = 2 then (s.orderAtomn c true [] 0).releaseBy (c.syncSpace s) 5 else s
            let p : Packet :=
              { Packet.plain 7 0 0 0 with
                group := BitVec.ofNat 12 g
                offset := BitVec.ofNat 40 off
                lenm1 := BitVec.ofNat 8 (n - 1)
                ndata := flits n
                ext := act.setWidth 384
                data := dataOf (mcastLine c e.c9.toNat n) }
            let l := (lowest act).getD 0
            -- a multicast never goes to the device itself: the sender's own bit is ignored
            let tag := s.league.nextTag % 4096
            let p := { p with tag := BitVec.ofNat 12 tag, src := s.peer }
            let s := s.trySend p
            let r : Req := ⟨tag, c.w.id.handle, c.who.half, l, p, s.now, false, false, none, none, off, false⟩
            let s := { s with league := { s.league with reqs := s.league.reqs ++ [r], nextTag := tag + 1 } }
            .wait (s.waitReqs c (.rmcst e))

/-! ### Requests and answers -/

/-- A request answered (R275). -/
def State.answerRequest (s : State) (types : List Nat) (p : Packet) : State :=
  if types.contains p.type.toNat && p.dst == s.peer then
    s.recv p fun s =>
      let (a, s) := s.serve p
      s.trySend a
  else s

/-- REMOTE_READ_REQUEST (R275). -/
def execRemoteReadRequest (p : Packet) (s : State) : Host.Outcome State Fault Refusal := .next (s.answerRequest [1] p)
/-- REMOTE_WRITE_REQUEST (R275). -/
def execRemoteWriteRequest (p : Packet) (s : State) : Host.Outcome State Fault Refusal := .next (s.answerRequest [3] p)
/-- REMOTE_ATOMIC_REQUEST (R275). -/
def execRemoteAtomicRequest (p : Packet) (s : State) : Host.Outcome State Fault Refusal := .next (s.answerRequest [5] p)

/-- The request a local answer with reason 7 goes to after 100 µs (R272).
DEDUCED, unsafe: notes/assumptions/71.md. -/
def State.timedOut (s : State) (tag : Nat) : Option Req :=
  s.league.reqs.find? fun r =>
    r.tag == tag && r.answer.isNone && !r.suspended && s.now ≥ r.at' + 100000

/-- REQUEST_TIMEOUT (R272): what an RMCST writes to sD then, the manual does not say.
DEDUCED, unsafe: notes/assumptions/71.md. -/
def execRequestTimeout (tag : Nat) (s : State) : Host.Outcome State Fault Refusal :=
  .next <| match s.timedOut tag with
    | some r => { s with free := s.free + 1 }.answerReq
        { Packet.plain (r.pkt.type.toNat + 1) r.pkt.dst s.peer tag with
          status := 7, ext := if r.pkt.type = 7 then BitVec.ofNat 384 (Config.which s.free 272 % 2 ^ 64) else 0 }
    | none => s

/-! ### Multicast at the switch (R283, R284) -/

/-- sD of an RMCST (R283): positive members, and the negative ones with their reasons.
DEDUCED, unsafe: notes/assumptions/25.md. -/
def mcastResult (pos : Nat) (neg : List (Nat × Nat)) : Nat :=
  let lo := neg.foldl (fun m x => min m x.1) 512
  let reason := ((neg.find? fun x => x.1 = lo).map (·.2)).getD 0
  pos + neg.length * 2 ^ 16 + (if neg.isEmpty then 0 else lo * 2 ^ 32 + 2 ^ 41 + reason * 2 ^ 48)

/-- The aggregated acknowledgement, with sD in word 2 (notes/assumptions/24.md). -/
def mcastAck (dst : BitVec 9) (plane tag v : Nat) : Packet :=
  { Packet.plain 8 0 dst tag with ext := BitVec.ofNat 384 v, plane := BitVec.ofNat 5 plane }

/-- A packet leaves the switch. -/
def State.emit (s : State) (p : Packet) : State := { s with league := { s.league with netOut := s.league.netOut ++ [p] } }
/-- The switches changed. -/
def State.updSw (s : State) (f : Switch → Switch) : State := { s with league := { s.league with sw := f s.league.sw } }

/-- MULTICAST_WRITE (R283, R284): the switch sends one copy to each member of the group but the sender. -/
def execMulticastWrite (p : Packet) (s : State) : Host.Outcome State Fault Refusal :=
  .next <|
    if p.type ≠ 7 then s
    else match Sparse.get? (p.plane.toNat * 4096 + p.group.toNat) s.league.sw.groups with
      | none => s.emit (mcastAck p.src p.plane.toNat p.tag.toNat (2 ^ 63))
      | some map =>
        let ms := (List.range 512).filter fun k => map.getLsbD k && k != p.src.toNat
        if ms.isEmpty then s.emit (mcastAck p.src p.plane.toNat p.tag.toNat 0)
        else
          let s := s.updSw fun w => { w with mcasts := w.mcasts ++ [⟨p.plane.toNat, p.tag.toNat, p.src.toNat, ms, 0, [], s.now⟩] }
          ms.foldl (fun s k => s.emit { p with dst := BitVec.ofNat 9 k }) s

/-- A member's answer counted; the last one sends the acknowledgement (R283).
DEDUCED, unsafe: notes/assumptions/25.md. -/
def State.countMember (s : State) (plane tag src peer status : Nat) : State :=
  match s.league.sw.mcasts.find? fun m => m.plane = plane && m.tag = tag && m.src = src && m.waiting.contains peer with
  | none => s
  | some m =>
    let m' : Mcast := { m with
      waiting := m.waiting.filter (· ≠ peer)
      pos := if status = 0 then m.pos + 1 else m.pos
      neg := if status = 0 then m.neg else m.neg ++ [(peer, status)] }
    if m'.waiting.isEmpty then
      (s.updSw fun w => { w with mcasts := w.mcasts.erase m }).emit
        (mcastAck (BitVec.ofNat 9 m.src) plane tag (mcastResult m'.pos m'.neg))
    else s.updSw fun w => { w with mcasts := w.mcasts.map fun x => if x = m then m' else x }

/-- MULTICAST_COPY_RECEIPT (R283): this device is a member. -/
def execMulticastCopyReceipt (p : Packet) (s : State) : Host.Outcome State Fault Refusal :=
  .next <|
    if p.type = 7 && p.dst == s.peer then
      s.recv p fun s =>
        let (a, s) := s.serve p
        (s.trySend { a with plane := p.plane }).countMember p.plane.toNat p.tag.toNat p.src.toNat s.peer.toNat a.status.toNat
    else s

/-- MULTICAST_MEMBER_TIMEOUT (R272).
DEDUCED, unsafe: notes/assumptions/25.md. -/
def execMulticastMemberTimeout (plane tag peer : Nat) (s : State) : Host.Outcome State Fault Refusal :=
  .next <| match s.league.sw.mcasts.find? fun m =>
      m.plane = plane && m.tag = tag && m.waiting.contains peer && s.now ≥ m.at' + 20000 with
    | some m => s.countMember plane tag m.src peer 7
    | none => s

/-- REMOTE_RESPONSE_RECEIPT (R278): an answer to a request of this device; a member's answer to a multicast reaches the
switch, and that of a segment its sender. -/
def execRemoteResponseReceipt (p : Packet) (s : State) : Host.Outcome State Fault Refusal :=
  .next <|
    if p.type = 8 then s.countMember p.plane.toNat p.tag.toNat p.dst.toNat p.src.toNat p.status.toNat
    else if p.type = 4 && p.dst == s.peer && (Packet.word p 2).getLsbD 63 then s.recv p fun s => s.segmentAck p
    else if p.dst == s.peer && (p.type = 2 || p.type = 4 || p.type = 6) then s.recv p fun s => s.answerReq p
    else s

/-- AGGREGATED_ACK_RECEIPT (R283). -/
def execAggregatedAckReceipt (p : Packet) (s : State) : Host.Outcome State Fault Refusal :=
  .next (if p.type = 8 && p.dst == s.peer then s.recv p fun s => s.answerReq p else s)

/-- GROUP_TABLE_WRITE (R284): V in bit 0 of word 2, the map in the first data flit (notes/assumptions/24.md). -/
def execGroupTableWrite (p : Packet) (s : State) : Host.Outcome State Fault Refusal :=
  .next <|
    if p.type = 0x14 && s.league.sw.managers.contains p.src.toNat then
      let k := p.plane.toNat * 4096 + p.group.toNat
      s.updSw fun w => { w with groups :=
        if (Packet.word p 2).getLsbD 0 then Sparse.put k (p.data.setWidth 512) w.groups else Sparse.del k w.groups }
    else s

/-! ### Invalidates (R281) -/

/-- The cached lines of a page of a peer, and the translations to it, discarded on every core. -/
def State.dropPeerPage (s : State) (peer page : Nat) : State :=
  let lo := peerGran (peer * 2 ^ 40 + page * 4096)
  let s := { s with mem := { s.mem with copies := s.mem.copies.map fun (u : Nat × List (Nat × Copy)) =>
    (u.1, u.2.filter fun (x : Nat × Copy) => !(lo ≤ x.1 && x.1 < lo + 256)) } }
  let pa := peer * 2 ^ 40 + page * 4096
  { s with cores := s.cores.map fun (x : Nat × Core) =>
      (x.1, { x.2 with tlb := x.2.tlb.filter fun (t : Nat × Nat × BitVec 64) =>
        let l : Leaf := ⟨t.2.2, t.2.1⟩
        !(l.tier == 1 && l.pfn * 4096 ≤ pa && pa < l.pfn * 4096 + 2 ^ l.size) }) }

/-- INVALIDATE_RECEIPT (R281): importer's side. -/
def execInvalidateReceipt (p : Packet) (s : State) : Host.Outcome State Fault Refusal :=
  .next <|
    if p.type = 9 && p.dst == s.peer then
      s.recv p fun s =>
      let s := s.dropPeerPage p.src.toNat (p.offset.toNat / 4096)
      let rs := s.league.reqs.map fun (r : Req) =>
        if r.pkt.type = 1 && r.pkt.dst == p.src && r.answer.isNone then { r with marked := true } else r
      let ack := { Packet.plain 0x0A s.peer p.src p.tag.toNat with offset := p.offset }
      { s with league := { s.league with reqs := rs, acks := s.league.acks ++ [ack] } }.payAcks
    else s

/-- The TLBINV whose invalidates are done goes on. -/
def State.wakeInval (s : State) (h : BitVec 32) : State :=
  if s.league.invs.any fun v => v.handle = h then s
  else s.mapWaves fun _ _ w => if w.id.handle = h then
      w.release fun i => match i with | .tlbinv _ => true | _ => false
    else w

/-- An importer no longer stands in the way of an invalidate. -/
def State.importerDone (s : State) (peer : Nat) (page : BitVec 40) : State :=
  let hs := (s.league.invs.filter fun v => v.page = page && v.left.contains peer).map (·.handle)
  let s := { s with league := { s.league with invs := (s.league.invs.map fun v =>
    if v.page = page then { v with left := v.left.filter (· ≠ peer) } else v).filter fun v => !v.left.isEmpty } }
  hs.foldl State.wakeInval s

/-- INVALIDATE_ACK_RECEIPT (R281). -/
def execInvalidateAckReceipt (p : Packet) (s : State) : Host.Outcome State Fault Refusal :=
  .next (if p.type = 0x0A && p.dst == s.peer then
      s.recv p fun s => s.importerDone p.src.toNat (BitVec.ofNat 40 (p.offset.toNat / 4096)) else s)

/-- The valid windows that cover a page of the window space (R274). -/
def State.windowsOver (s : State) (page : Nat) : List (Nat × Win) :=
  (s.league.windows.map fun (x : Nat × BitVec 256) => (x.1, Win.mk x.2.toNat)).filter fun x =>
    x.2.valid && x.2.covers (page * 4096)

/-- IMPORTER_CLOSE_TIMEOUT (R281). -/
def execImporterCloseTimeout (peer : Nat) (page : BitVec 40) (s : State) : Host.Outcome State Fault Refusal :=
  .next <|
    if s.league.invs.any fun v => v.page = page && v.left.contains peer && s.now ≥ v.at' + 1000000 then
      let ws := (s.windowsOver page.toNat).map fun x => (x.1, peer)
      let hs := (s.league.invs.filter fun v => v.page = page && v.left.contains peer).map (·.handle)
      -- the TLBINV answers 1 for a closed importer (R429)
      let s := s.mapWaves fun _ _ w => if hs.contains w.id.handle then
          w.mapPaths fun p => match p.wait with
            | .on (.tlbinv _) _ => { p with prog := p.prog.map fun g => { g with k := g.k / 4 * 4 + 2 } }
            | _ => p
        else w
      ({ s with league := { s.league with closed := s.league.closed ++ ws.filter fun x => !s.league.closed.contains x } }).importerDone
        peer page
    else s

/-! ### Peer-set barriers (R289) -/

/-- The kind, key, phase and set of a packet of type 0x13 (notes/assumptions/27.md). -/
def setKind (p : Packet) : Nat := (Packet.word p 2).toNat / 2 ^ 32
def setKey (p : Packet) : Nat := (Packet.word p 2).toNat % 2 ^ 32
def setPhase (p : Packet) : Nat := (Packet.word p 3).toNat % 2 ^ 32
def setBase (p : Packet) : Nat := (Packet.word p 3).toNat / 2 ^ 32 % 2 ^ 16
def setCount (p : Packet) : Nat := (Packet.word p 3).toNat / 2 ^ 48

/-- PEER_BARRIER_ARRIVAL (R289). -/
def execPeerBarrierArrival (p : Packet) (s : State) : Host.Outcome State Fault Refusal :=
  .next (if p.type = 0x13 && (setKind p == 3 || setKind p == 6) && p.dst == s.peer then
      s.recv p fun s => s.peerArrive p.src.toNat (setKey p) (setBase p) (setCount p) (setPhase p) (setKind p == 6) else s)

/-- PEER_BARRIER_RELEASE (R289). -/
def execPeerBarrierRelease (p : Packet) (s : State) : Host.Outcome State Fault Refusal :=
  .next (if p.type = 0x13 && setKind p = 4 && p.dst == s.peer then
      s.recv p fun s => s.peerRelease (setKey p) (setBase p) (setCount p) (setPhase p) else s)

/-! ### Links (R269, R271, R273) -/

/-- LINK_VERSION_MISMATCH (R273): the packet is dropped, and the link is down until it has been trained again. -/
def execLinkVersionMismatch (port : Nat) (s : State) : Host.Outcome State Fault Refusal :=
  .next (s.updPort port fun p => { p with up := false })
/-- FLIT_RETRANSMIT (R271): the flit arrives in the end; nothing else changes. -/
def execFlitRetransmit (_port : Nat) (s : State) : Host.Outcome State Fault Refusal := .next s
/-- RESERVED_PACKET_DROP (R271). -/
def execReservedPacketDrop (_p : Packet) (s : State) : Host.Outcome State Fault Refusal := .next s
/-- PORT_DOWN (R269). -/
def execPortDown (port : Nat) (s : State) : Host.Outcome State Fault Refusal :=
  .next (s.updPort port fun p => { p with up := false })
/-- A link as it comes out of training (R269, R273, R306): it runs at version 1, the only one the part supports, where the
equaliser adapts, the other end's range of versions holds it and the switch reports the strapped peer number, and stays
down otherwise. -/
def Link.port (l : Link) (peer : BitVec 9) : Port :=
  if l.good && decide (l.lo ≤ 1) && decide (1 ≤ l.hi) && l.index == peer.toNat then ⟨true, 1⟩ else ⟨false, 0⟩

/-- LINK_RETRAINED (R273); minimal mode does not serve the League (R304). -/
def execLinkRetrained (port : Nat) (versions : Nat × Nat) (index : Nat) (s : State) : Host.Outcome State Fault Refusal :=
  .next (s.unlessMin fun s => s.updPort port fun _ => Link.port ⟨true, versions.1, versions.2, index⟩ s.board.peer)

/-! ### The window table (R274, R276) -/

/-- 64 bits of a window entry written; a rewritten entry opens to its importers again (R276, R281).
DEDUCED, safe: notes/assumptions/70.md. -/
def State.windowWrite (s : State) (i word : Nat) (v : BitVec 64) : State :=
  if i < 256 && word < 4 then
    let old := (Sparse.get 0 s.league.windows i).toNat
    let new := old - elem 64 word old * 2 ^ (64 * word) + v.toNat * 2 ^ (64 * word)
    { s with league := { s.league with
        windows := Sparse.set 0 s.league.windows i (BitVec.ofNat 256 new)
        closed := s.league.closed.filter fun x => x.1 ≠ i } }
  else s

/-- WINDOW_ENTRY_WRITE (R276); minimal mode does not serve the window table (R304). -/
def execWindowEntryWrite (i word : Nat) (v : BitVec 64) (s : State) : Host.Outcome State Fault Refusal :=
  .next (s.unlessMin fun s => s.windowWrite i word v)

/-- WINDOW_ENTRY_READBACK (R276): every request accepted under the old value has performed, since a request performs in
the step that accepts it.
DEDUCED, safe: notes/assumptions/70.md. -/
def execWindowEntryReadback (_i _word : Nat) (s : State) : Host.Outcome State Fault Refusal := .next s

/-- RLD (R415). -/
def execRld (e : Ext) (s : State) : Host.Outcome State Fault Refusal :=
  runWave (.rld e) (some e) (rldBody e) s

/-- RST (R417). -/
def execRst (e : Ext) (s : State) : Host.Outcome State Fault Refusal :=
  runWave (.rst e) (some e) (rstBody e) s

/-- RATOM (R409). -/
def execRatom (e : Ext) (s : State) : Host.Outcome State Fault Refusal :=
  runWave (.ratom e) (some e) (ratomBody e) s

/-- RMCST (R283). -/
def execRmcst (e : Ext) (s : State) : Host.Outcome State Fault Refusal :=
  runWave (.rmcst e) (some e) (rmcstBody e) s

end Sys2Proof.Machine
end

