-- ==== Sys2Proof/Machine/Kernel.lean ====
section
/-!
DEFINITION. The hardware kernel's instructions (R226 to R229): WCREATE (R230), ports and page grants (R234 to R237, R288),
wait sets and timers (R238 to R240), names (R237, R396), and their events.
-/

namespace Sys2Proof.Machine

/-! ### Handles and results (R222, R227, R228) -/

/-- The handle a scalar operand holds.
DEDUCED, unsafe: notes/assumptions/46.md. -/
def Ctx.handle (c : Ctx) (code : Nat) : BitVec 32 := (c.sVal code).setWidth 32

/-- The reason an operand handle is refused, with its field, as KTADDR holds it (R222, R228); `tdi` for the port of PSEND,
which only needs the sender's TDI. -/
def State.handleFault (s : State) (c : Ctx) (h : BitVec 32) (types : List Nat) (field' : Nat) (tdi : Bool) : Option Nat :=
  match s.named h with
  | none => some (1 + 256 * field')
  | some o =>
    if !types.contains o.body.type then some (2 + 256 * field')
    else
      let p := c.process s
      let mine := o.owner.toNat == hIndex p
      let same := match s.named p with | some q => q.tdi == o.tdi | none => false
      if mine || (tdi && same) then none else some (3 + 256 * field')

/-- A result: status, auxiliary value, handle or value (R227). -/
def kernResult (status aux v : Nat) : BitVec 64 := BitVec.ofNat 64 (status % 2 ^ 16 * 2 ^ 48 + aux % 2 ^ 16 * 2 ^ 32 + v % 2 ^ 32)

/-- A kernel-object instruction completes with a result in sD; it is a synchronisation operation of its wave, after the
wave's pending atomics, and closes the region (R201, R204, R259). -/
def kernDone (e : Ext) (c : Ctx) (s : State) (r : BitVec 64) : Res :=
  let s := s.orderAtomn c true [] 0
  .nextR ((s.put c (writeS c (s.mine c) e.d9.toNat r)).bumpSfr c)

/-- Bytes written to memory by the issuing instruction (R235, R399): the split waits for peers' acknowledgements, parks or
raises, each time in the state `back` makes of it, or goes on. Requests already made stand where they are the same.
DEDUCED, unsafe: notes/assumptions/46.md. -/
def storeAt (i : Instr) (c : Ctx) (s : State) (a : Nat) (bs : List Byte) (back : State → State) (k : State → Res) : Res :=
  let (h, half, m) := (c.w.id.handle, c.who.half + 4, c.path.mask)
  let ps := piecesOf a bs
  let mine := s.league.reqs.filter fun (r : Req) => r.of h half m
  let same (r : Req) : Bool :=
    ps.any fun x => x.1 == r.va && r.pkt.lenm1.toNat + 1 == x.2.1 && r.pkt.data == BitVec.ofNat 2048 x.2.2
  let s' := s.giveUp fun (r : Req) => r.of h half m
  if !mine.isEmpty && mine.all same then
    if mine.any fun r => r.answer.isNone then .wait ((back s).waitOn c i)
    else match negative mine with
      | some (code, x) => .raise (back s') code x
      | none => k s'
  else
    match s'.storePieces (c.space s') h half ((lowest m).getD 0) 0 ps with
    | (.ok _, s) => k s
    | (.wait, s) => .wait ((back s).waitOn c i)
    | (.park qs all, s) => .wait ((back s).park c qs all)
    | (.fault code x, s) => .raise (back s) code x

/-- The split was waiting in this instruction (R229). -/
def Ctx.waited (c : Ctx) : Option Nat :=
  match c.path.wait with
  | .on _ n => some n
  | _ => none

/-- A handle that fails its check: an object deleted while the instruction waited gives status 4, otherwise OBJECT. -/
def refuse (e : Ext) (c : Ctx) (s : State) (why : Nat) : Res :=
  if c.waited.isSome && why % 256 == 1 then kernDone e c s (kernResult 4 0 0) else .raise s Exc.object why

/-! ### Waiters (R229) -/

/-- The kinds of waits on objects. -/
inductive KWait where
  | send | recv | wset
  deriving DecidableEq, Repr

/-- The wait an instruction makes, with its form. -/
def kwaitOf : Instr → Option (KWait × Ext)
  | .psend e => some (.send, e)
  | .precv e => some (.recv, e)
  | .wswait e => some (.wset, e)
  | _ => none

/-- The resident splits that wait on an object in a kind of wait and could go on, with their numbers. -/
def State.kernWaits (s : State) (k : KWait) (h : BitVec 32) : List (Who × Nat) :=
  s.cores.flatMap fun (x : Nat × Core) => x.2.waves.flatMap fun (y : Nat × Wave) =>
    if y.2.traps ≠ 0 then []
    else y.2.halves.zipIdx.flatMap fun (q : Half × Nat) => q.1.paths.zipIdx.filterMap fun (p : Path × Nat) => match p.1.wait with
      | .on i n => match kwaitOf i with
        | some (j, e) =>
          if j = k ∧ p.1.running ∧ !p.1.arrived ∧ (y.2.s q.2 (e.a9.toNat - 320)).setWidth 32 = h then
            some ((⟨x.1, y.1, q.2, p.2⟩ : Who), n)
          else none
        | none => none
      | _ => none

/-- No waiter of the kind began to wait before this split. -/
def State.firstInLine (s : State) (c : Ctx) (k : KWait) (h : BitVec 32) (remote : List RemoteSender) : Bool :=
  let n := c.waited.getD s.next
  ((s.kernWaits k h).all fun x => n ≤ x.2) && remote.all fun r => n ≤ r.n

/-- The waiting splits of an object end with status 4 (R236, R397).
DEDUCED, unsafe: notes/assumptions/46.md. -/
def State.closeWaits (s : State) (k : KWait) (h : BitVec 32) : State :=
  (s.kernWaits k h).foldl (fun s x => s.resume x.1 fun i => (kwaitOf i).map fun q =>
    (some q.2, fun c s => kernDone q.2 c s (kernResult 4 0 0))) s

/-! ### Ports -/

/-- A port's queued messages, capacity and storage. -/
def State.port? (s : State) (h : BitVec 32) : Option (Nat × BitVec 64 × List Msg × List RemoteSender) :=
  match s.named h with
  | some ⟨_, _, _, _, .port cap st _ ms rs⟩ => some (cap, st, ms, rs)
  | _ => none
/-- A port's queue changed; its message storage holds the messages from its first slot on (R224, R398).
DEDUCED, unsafe: notes/assumptions/46.md. -/
def State.setPort (s : State) (h : BitVec 32) (ms : List Msg) (rs : List RemoteSender) : State :=
  match s.port? h with
  | some (_, st, _, _) =>
    let s := s.updObj (hIndex h) fun o => match o.body with
      | .port cap st nm _ _ => { o with body := .port cap st nm ms rs }
      | _ => o
    s.setBytes st.toNat (ms.flatMap (·.bytes))
  | none => s

/-- A message's 128-byte slot (R234): the message, the sender's process index, the grants. -/
def slotBytes (msg : List Byte) (proc : Nat) (grants : List (Nat × Nat)) : List Byte :=
  msg ++ leBytes 8 (proc + grants.length * 2 ^ 20) ++
    ((List.range 4).flatMap fun k => leBytes 8 (match grants[k]? with | some (va, n) => va / 4096 + n * 2 ^ 40 | none => 0)) ++
    List.replicate 24 0
/-- The sender's process index and the grants of a slot. -/
def Msg.proc (m : Msg) : Nat := bits (field m.bytes 64 8) 19 0
def Msg.grants (m : Msg) : List (Nat × Nat) :=
  (List.range (bits (field m.bytes 64 8) 22 20)).map fun k =>
    let g := field m.bytes (72 + 8 * k) 8
    (bits g 39 0 * 4096, bits g 49 40)

/-- The answer to a port message: 0 queued, 1 full, 4 closed, 15 held (notes/assumptions/29.md). -/
def portAnswer (src dst : BitVec 9) (tag status : Nat) : Packet :=
  { Packet.plain 0x0B src dst tag with ext := BitVec.ofNat 384 (2 ^ 63 + status * 2 ^ 48) }

/-- Remote senders that come before every local one are served while the port has room (R229, R288). -/
def State.serveRemote : Nat → State → BitVec 32 → State
  | 0, s, _ => s
  | fuel + 1, s, h =>
    match s.port? h with
    | some (cap, _, ms, r :: rs) =>
      let first := rs.foldl (fun (m : RemoteSender) x => if x.n < m.n then x else m) r
      if ms.length < cap && (s.kernWaits .send h).all fun x => first.n ≤ x.2 then
        let s := s.setPort h (ms ++ [⟨s.now, first.bytes⟩]) ((r :: rs).erase first)
        State.serveRemote fuel (s.trySend (portAnswer s.peer (BitVec.ofNat 9 first.src) first.tag 0)) h
      else s
    | _ => s

/-! ### Page grants (R234, R235) -/

/-- The leaf entry of an address, valid or not, under valid tables: its level, address and value. -/
def leafSlot (s : State) (va : Nat) : Nat → Nat → Option (Nat × Nat × Nat)
  | 0, base =>
    let a := base + 8 * walkIndex 0 va
    some (0, a, s.num a 8)
  | lvl + 1, base =>
    let a := base + 8 * walkIndex (lvl + 1) va
    let e := s.num a 8
    if bits e 7 7 = 1 && lvl < 2 then some (lvl + 1, a, e)
    else if e % 2 = 0 || badTable (lvl + 1) e then none
    else leafSlot s va lvl (bits e 51 12 * 4096)

/-- The address of the entry for a virtual address at a level, every table above present. -/
def entryAt (s : State) (va want : Nat) : Nat → Nat → Option Nat
  | 0, base => if want = 0 then some (base + 8 * walkIndex 0 va) else none
  | lvl + 1, base =>
    let a := base + 8 * walkIndex (lvl + 1) va
    let e := s.num a 8
    if want = lvl + 1 then some a
    else if e % 2 = 0 || badTable (lvl + 1) e || (bits e 7 7 = 1) then none
    else entryAt s va want lvl (bits e 51 12 * 4096)

/-- The page-table root of the process at an index. -/
def State.rootAt (s : State) (i : Nat) : Nat :=
  match s.obj? i with
  | some ⟨_, _, _, _, .process _ r _ _⟩ => r.toNat
  | _ => 0

/-- The grant entries read: start and number of units; none where a field is out of range. -/
def grantsOf (bs : List Byte) (n : Nat) : Option (List (Nat × Nat)) :=
  let gs := (List.range n).map fun k => (field bs (16 * k) 8, field bs (16 * k + 8) 4, field bs (16 * k + 12) 4)
  if gs.all fun g => g.1 % 4096 == 0 && g.1 < 2 ^ 52 && 1 ≤ g.2.1 && g.2.1 ≤ 512 && g.2.2 == 0 then
    some (gs.map fun g => (g.1, g.2.1))
  else none

/-- The units of a grant. -/
def unitsOf (g : Nat × Nat) : List Nat := (List.range g.2).map fun k => g.1 + 4096 * k

/-- Every unit is covered by a leaf entry that may be granted, whole pages, no overlap (R234). -/
def State.grantsOk (s : State) (root : Nat) (gs : List (Nat × Nat)) : Bool :=
  (gs.all fun g => (unitsOf g).all fun va => match leafSlot s va 3 root with
    | some (lvl, _, e) =>
      let l : Leaf := ⟨BitVec.ofNat 64 e, lvl⟩
      let page := va / 2 ^ l.size * 2 ^ l.size
      l.bit 0 && !l.malformed && l.tier == 0 && !l.g && !l.c && decide (g.1 ≤ page) && decide (page + 2 ^ l.size ≤ g.1 + 4096 * g.2)
    | none => false) &&
  gs.zipIdx.all fun a => gs.zipIdx.all fun b =>
    a.2 == b.2 || a.1.1 + 4096 * a.1.2 ≤ b.1.1 || b.1.1 + 4096 * b.1.2 ≤ a.1.1

/-- The distinct leaf entries of grants. -/
def State.grantEntries (s : State) (root : Nat) (gs : List (Nat × Nat)) : List (Nat × Nat × Nat) :=
  ((gs.flatMap unitsOf).filterMap fun va => leafSlot s va 3 root).eraseDups

/-- Translations of a process's pages dropped at every core. -/
def State.dropTlb (s : State) (pasid : BitVec 20) (vas : List Nat) : State :=
  { s with cores := s.cores.map fun (x : Nat × Core) =>
    (x.1, { x.2 with tlb := x.2.tlb.filter fun (t : Nat × Nat × BitVec 64) => !vas.any fun va => t.1 == tlbKey pasid va }) }

/-- The sender's entries get V = 0, the rest kept, and its translations go (R234). -/
def State.takePages (s : State) (root : Nat) (pasid : BitVec 20) (gs : List (Nat × Nat)) : State :=
  ((s.grantEntries root gs).foldl (fun s x => s.setNum x.2.1 8 (x.2.2 - x.2.2 % 2)) s).dropTlb pasid (gs.flatMap unitsOf)
/-- They get V = 1 again (R236). -/
def State.givePages (s : State) (root : Nat) (gs : List (Nat × Nat)) : State :=
  (s.grantEntries root gs).foldl (fun s x => s.setNum x.2.1 8 (x.2.2 - x.2.2 % 2 + 1)) s

/-- The moves of a grant to a target: the sender's entry, its value, and the receiver's entry; none where R235 refuses. -/
def State.moves (s : State) (rootS rootR : Nat) (g : Nat × Nat) (target : Nat) : Option (List (Nat × Nat × Nat)) :=
  let ms := (unitsOf g).map fun va =>
    match leafSlot s va 3 rootS with
    | some (lvl, a, e) =>
      let l : Leaf := ⟨BitVec.ofNat 64 e, lvl⟩
      (match entryAt s (target + (va - g.1)) lvl 3 rootR with
      | some b => if s.num b 8 % 2 = 0 ∧ target % 2 ^ l.size = 0 then some (a, e, b) else none
      | none => none)
    | none => none
  if target < 2 ^ 52 && target % 4096 == 0 && ms.all (·.isSome) then some (ms.filterMap id).eraseDups else none

/-- Entries moved put back as they stood before, with the receiver's translations of the targets dropped. -/
def State.unmove (s before : State) (ms : List (Nat × Nat × Nat)) (pasid : BitVec 20) (vas : List Nat) : State :=
  (ms.foldl (fun s x => (s.setNum x.2.2 8 (before.num x.2.2 8)).setNum x.1 8 x.2.1) s).dropTlb pasid vas

/-- One grant moved (R235): each page mapped for the receiver with the sender's leaf bits and V = 1, then the sender's entries
zero. -/
def State.moveGrant (s : State) (ms : List (Nat × Nat × Nat)) : State :=
  let leaf (x : Nat × Nat × Nat) : Nat := let e := s.num x.1 8; e - e % 2 + 1
  ms.foldl (fun t x => t.setNum x.1 8 0) (ms.foldl (fun t x => t.setNum x.2.2 8 (leaf x)) s)
/-- A message's grants moved, one after another (R12, R235). -/
def State.movePages (s : State) (ms : List (List (Nat × Nat × Nat))) : State := ms.foldl State.moveGrant s

/-! ### PSEND and PRECV (R234, R235, R405, R407) -/

/-- The peer, handle and epoch of a remote port. -/
def State.rport? (s : State) (h : BitVec 32) : Option (Nat × BitVec 32 × Nat) :=
  match s.named h with
  | some ⟨_, _, _, _, .rport p r n⟩ => some (p, r, n)
  | _ => none

/-- The status of a remote port message's answer (R234). -/
def remoteStatus (a : Packet) : Nat := if a.status = 7 then 6 else bits (Packet.word a 2).toNat 51 48

/-- PSEND through a remote port (R288): it completes when the target has queued the message. The message names the epoch
of the peer that its handle comes from.
DESIGN CHOICE, unsafe: notes/assumptions/29.md. -/
def psendRemote (e : Ext) (peer : Nat) (r : BitVec 32) (epoch : Nat) (msg : List Byte) (c : Ctx) (s : State) : Res :=
  let rs := s.reqsOf c
  let s := if rs.any Req.withdrawn then s.dropReqs c else s
  match (s.reqsOf c).findSome? (·.answer) with
  | some a => kernDone e c (s.dropReqs c) (kernResult (remoteStatus a) 0 0)
  | none =>
    if !(s.reqsOf c).isEmpty then .wait (s.waitReqs c (.psend e))
    else if s.hasReqs c.w.id.handle then .wait (s.waitOn c (.psend e))
    else
      let s := (s.orderAtomn c true [] 0).releaseBy (c.space s) 5
      let p : Packet := { Packet.plain 0x0B 0 (BitVec.ofNat 9 peer) 0 with
        ndata := 1
        lenm1 := 63
        ext := BitVec.ofNat 384 (r.toNat + (if e.m 0 1 = 1 then 2 ^ 32 else 0) + 2 ^ 64 * hIndex (c.process s) + 2 ^ 128 * epoch)
        data := dataOf msg }
      .wait ((s.ask c.w.id.handle c.who.half ((lowest c.path.mask).getD 0) 0 none p).waitReqs c (.psend e))

/-- PSEND (R234). -/
def psendBody (e : Ext) (c : Ctx) (s : State) : Res :=
  let n := e.m 1 3
  let (a, b, g) := (e.a9.toNat, e.b9.toNat, e.c9.toNat)
  withOps s [sDst c e.d9.toNat, sRun c a, sRun c b, if n = 0 then OpOk.yes else sRun c g] <|
    if c.act true e.pg e.pn = 0 then .next s
    else
      let h := c.handle a
      match s.handleFault c h [3, 7] 0 true with
      | some why => refuse e c s why
      | none =>
        let at' := (c.sVal b).toNat
        let gt := (c.sOr g).toNat
        if (s.rport? h).isSome && n ≠ 0 then .raise s Exc.object 7
        else if at' % 64 ≠ 0 || (n ≠ 0 && gt % 16 ≠ 0) then .raise s Exc.object (4 + 256 * 3)
        else
          postRead (.psend e) 0 ((at', 64) :: (if n = 0 then [] else [(gt, 16 * n)])) c s fun vals s =>
            let s := s.dropEngReqs c.w.id.handle (c.who.half + 2)
            let msg := granBytes vals at' 64
            match s.rport? h, s.port? h with
            | some (peer, r, epoch), _ => psendRemote e peer r epoch msg c s
            | none, none => refuse e c s 1
            | none, some (cap, _, ms, rs) =>
              let p := c.process s
              let root := s.rootAt (hIndex p)
              match grantsOf (granBytes vals gt (16 * n)) n with
              | none => .raise s Exc.object (4 + 256 * 3)
              | some gs =>
                if !s.grantsOk root gs then .raise s Exc.object (5 + 256 * 3)
                else if cap ≤ ms.length && e.m 0 1 = 1 then kernDone e c s (kernResult 1 0 0)
                else if cap ≤ ms.length || !s.firstInLine c .send h rs then .wait (s.waitOn c (.psend e))
                else if s.hasReqs c.w.id.handle then .wait (s.waitOn c (.psend e))
                else
                  let s := (s.orderAtomn c true [] 0).releaseBy (c.space s) 4
                  let pasid := match s.process? p with | some (x, _, _, _) => x | none => 0
                  let s := s.takePages root pasid gs
                  let s := s.setPort h (ms ++ [⟨s.now, slotBytes msg (hIndex p) gs⟩]) rs
                  kernDone e c (s.serveRemote 64 h) (kernResult 0 0 0)

/-- The moves of a message's grants to their targets. -/
def State.allMoves (s : State) (m : Msg) (rootR : Nat) (targets : List Nat) : Option (List (List (Nat × Nat × Nat))) :=
  let ms := (m.grants.zip targets).map fun (x : (Nat × Nat) × Nat) => s.moves (s.rootAt m.proc) rootR x.1 x.2
  if ms.all (·.isSome) then some (ms.filterMap id) else none

/-- PRECV (R235): one moment for the mapping, the message and the dequeue. -/
def precvBody (e : Ext) (c : Ctx) (s : State) : Res :=
  let (a, b, g) := (e.a9.toNat, e.b9.toNat, e.c9.toNat)
  withOps s [sDst c e.d9.toNat, sRun c a, sRun c b, if g = 0 then OpOk.yes else sRun c g] <|
    if c.act true e.pg e.pn = 0 then .next s
    else
      let h := c.handle a
      match s.handleFault c h [3, 7] 0 false with
      | some why => refuse e c s why
      | none =>
        let at' := (c.sVal b).toNat
        let tt := (c.sOr g).toNat
        match s.port? h with
        | none => .raise s Exc.object 7
        | some (_, _, ms, rs) =>
          if at' % 64 ≠ 0 then .raise s Exc.object (4 + 256 * 3)
          else
            match ms with
            | [] => if e.m 0 1 = 1 then kernDone e c s (kernResult 1 0 0) else .wait (s.waitOn c (.precv e))
            | m :: rest =>
              if !s.firstInLine c .recv h [] then .wait (s.waitOn c (.precv e))
              else
                let k := m.grants.length
                if k ≠ 0 && g = 0 then .raise s Exc.object (6 + 256 * 2)
                else
                  postRead (.precv e) 0 (if k = 0 then [] else [(tt, 8 * k)]) c s fun vals s =>
                    let s := s.dropEngReqs c.w.id.handle (c.who.half + 2)
                    let targets := (List.range k).map fun j => leNat (granBytes vals (tt + 8 * j) 8)
                    match s.allMoves m (s.rootAt (hIndex (c.process s))) targets with
                    | none => .raise s Exc.object (6 + 256 * 2)
                    | some moves =>
                      -- the grants are mapped before the message is written (R235)
                      let before := s
                      let vas := (m.grants.zip targets).flatMap fun x => unitsOf (x.2, x.1.2)
                      let back (s : State) : State := s.unmove before moves.flatten (c.space s).pasid vas
                      storeAt (.precv e) c (s.movePages moves) at' (m.bytes.take 64) back fun s =>
                        let s := (s.setPort h rest rs).serveRemote 64 h
                        kernDone e c (s.acquire c.who.core 4) (kernResult 0 0 k)

/-! ### WCREATE (R230, R434) -/

/-- WCREATE. -/
def wcreateBody (e : Ext) (c : Ctx) (s : State) : Res :=
  withOps s [sDst c e.d9.toNat, sRun c e.a9.toNat] <|
    if c.act true e.pg e.pn = 0 then .next s
    else
      let at' := (c.sVal e.a9.toNat).toNat
      if at' % 16 ≠ 0 then .raise s Exc.object (4 + 256 * 3)
      else
        postRead (.wcreate e) 0 [(at', 80)] c s fun vals s =>
          let s := s.dropEngReqs c.w.id.handle (c.who.half + 2)
          let t := granBytes vals at' 80
          let entry := field t 0 8
          let sc := BitVec.ofNat 32 (field t 64 4)
          let place := bits (field t 68 1) 5 4
          if entry % 64 ≠ 0 || bits (field t 68 1) 7 6 ≠ 0 || field t 69 11 ≠ 0 then .raise s Exc.object (4 + 256 * 3)
          else
            let bad := if sc = 0 then none else match s.named sc with
              | none => some (1 + 256 * 3)
              | some o => if o.body.type = 6 then none else some (2 + 256 * 3)
            match bad with
            | some why => .raise s Exc.object why
            | none =>
              quietly c s <|
              let s := (s.orderAtomn c true [] 0).releaseBy (c.space s) 4
              let own := if c.w.priv then (s.core c.who.core).ctl.ksc else c.w.id.sc
              let n : NewWave :=
                { proc := c.process s, sc := if sc = 0 then own else sc, entry := BitVec.ofNat 64 entry
                  args := (List.range 7).map fun k => BitVec.ofNat 64 (field t (8 + 8 * k) 8)
                  hold := BitVec.ofNat 4 (bits (field t 68 1) 3 0), placement := BitVec.ofNat 2 place
                  cluster := s.homeCluster c.who.core place, core := c.who.core, kind := .single
                  handles := none }
              match s.makeWave n with
              | none => kernDone e c s (kernResult 2 0 0)
              | some (h, s) => kernDone e c s (kernResult 0 0 h.toNat)

/-! ### OBJNEW and OBJDEL (R236, R237, R397, R398) -/

/-- The storage of an object-table entry (R398).
DESIGN CHOICE, unsafe: notes/assumptions/16.md. -/
def State.entryStorage (s : State) (i : Nat) : Nat := s.kern.entryBase.toNat + 8192 * i

/-- An object of the caller's process made at the lowest free index. -/
def State.newObj (s : State) (c : Ctx) (body : Nat → Body) : Option (BitVec 32 × State) :=
  s.freeIndex.map fun i =>
    let gen := ((s.obj? i).map (·.gen)).getD 0
    let p := c.process s
    let tdi := ((s.named p).map (·.tdi)).getD 0xFF
    (mkHandle (body i).type gen i, s.setObj i ⟨gen, BitVec.ofNat 20 (hIndex p), 0, tdi, body i⟩)

/-- OBJNEW.
DEDUCED, unsafe: notes/assumptions/46.md. -/
def objnewBody (e : Ext) (c : Ctx) (s : State) : Res :=
  let t := e.m 0 4
  let (a, b) := (e.a9.toNat, e.b9.toNat)
  withOps s ([sDst c e.d9.toNat] ++ if t = 3 then [sRun c a, sRun c b] else [OpOk.when (a == 0), OpOk.when (b == 0)]) <|
    if c.act true e.pg e.pn = 0 then .next s
    else
      let cap := (c.sOr a).toNat
      let name := c.sOr b
      if t = 3 && (cap < 1 || 64 < cap) then .raise s Exc.object 4
      else if t = 3 && name ≠ 0 && bits name.toNat 63 55 ≠ s.peer.toNat then .raise s Exc.object (4 + 256)
      else
        let body (i : Nat) : Body :=
          if t = 3 then .port cap (BitVec.ofNat 64 (s.entryStorage i)) name [] []
          else if t = 4 then .wset (BitVec.ofNat 64 (s.entryStorage i)) (List.replicate 64 0)
          else .timer (2 ^ 64 - 1) 0 0 0
        match s.newObj c body with
        | none => kernDone e c s (kernResult 2 0 0)
        | some (h, s') =>
          if t = 3 && name ≠ 0 && s.kern.names.any fun x => x.1 == name then kernDone e c s (kernResult 5 0 0)
          else
            let s' := if t = 3 && name ≠ 0 then { s' with kern := { s'.kern with names := s'.kern.names ++ [(name, h)] } } else s'
            kernDone e c s' (kernResult 0 0 h.toNat)

/-- Every wait-set slot that holds an object is emptied. -/
def State.leaveSets (s : State) (h : BitVec 32) : State :=
  { s with kern := { s.kern with objs := s.kern.objs.map fun (x : Nat × Obj) => (x.1, match x.2.body with
      | .wset a ms => { x.2 with body := .wset a (ms.map fun m => if m = h then 0 else m) }
      | _ => x.2) } }

/-- An ended wave that no wait set holds any more is freed, one of a block once the block has ended (R236, R435). -/
def State.freeEnded (s : State) (h : BitVec 32) : State :=
  match s.named h with
  | some ⟨_, _, _, _, .wave _ _ _ _ (some id) (some _) _⟩ =>
    if s.blockOver id.blk && !s.inWset h then s.freeObj (hIndex h) else s
  | _ => s

/-- A port deleted, in one step (R236). -/
def State.closePort (s : State) (h : BitVec 32) : State :=
  match s.port? h with
  | none => s
  | some (_, _, ms, rs) =>
    let s := ms.foldl (fun s m => s.givePages (s.rootAt m.proc) m.grants) s
    let s := (s.closeWaits .send h).closeWaits .recv h
    let s := rs.foldl (fun s r => s.trySend (portAnswer s.peer (BitVec.ofNat 9 r.src) r.tag 4)) s
    let s := { s with kern := { s.kern with names := s.kern.names.filter fun x => x.2 ≠ h } }
    s.freeObj (hIndex h)

/-- OBJDEL. -/
def objdelBody (e : Ext) (c : Ctx) (s : State) : Res :=
  withOps s [sDst c e.d9.toNat, sRun c e.a9.toNat] <|
    if c.act true e.pg e.pn = 0 then .next s
    else
      let h := c.handle e.a9.toNat
      match s.handleFault c h [2, 3, 4, 5, 7] 0 false, s.named h with
      | some why, _ => .raise s Exc.object why
      | none, none => .raise s Exc.object 1
      | none, some o =>
        match o.body with
        | .port .. => kernDone e c (s.closePort h) (kernResult 0 0 0)
        | .wset _ ms => kernDone e c (ms.foldl State.freeEnded ((s.closeWaits .wset h).freeObj (hIndex h))) (kernResult 0 0 0)
        | .wave _ _ _ _ _ none _ => kernDone e c s (kernResult 7 0 0)
        | .rport .. => kernDone e c (s.freeObj (hIndex h)) (kernResult 0 0 0)
        | _ => kernDone e c ((s.leaveSets h).freeObj (hIndex h)) (kernResult 0 0 0)

/-! ### Timers (R240, R426) -/

/-- A timer's expiries that are due at a time: one for each deadline up to it (R240). -/
def Body.expired (b : Body) (now : Nat) : Body :=
  match b with
  | .timer d p n r =>
    if now < d || d == 2 ^ 64 - 1 then .timer d p n r
    else
      let k := if p = 0 then 1 else (now - d) / p + 1
      .timer (if p = 0 then 2 ^ 64 - 1 else min (d + k * p) (2 ^ 64 - 1)) p (min 255 (n + k)) (if n = 0 then d else r)
  | b => b
/-- An object's expiry, if it is a timer that is due. -/
def State.expire (s : State) (i : Nat) : State := s.updObj i fun o => { o with body := o.body.expired s.now }
/-- Every expiry that is due (R239, R240). -/
def State.expireDue (s : State) : State :=
  { s with kern := { s.kern with objs := s.kern.objs.map fun (x : Nat × Obj) => (x.1, { x.2 with body := x.2.body.expired s.now }) } }

/-! ### Wait sets (R238, R239, R435, R436) -/

/-- The ready time of a member; none while it is not ready (R238). -/
def State.memberReady (s : State) (h : BitVec 32) : Option Nat :=
  match s.named h with
  | some o => match o.body with
    | .port _ _ _ (m :: _) _ => some m.at'
    | .timer _ _ n r => if n = 0 then none else some r
    | .wave _ _ _ _ _ t _ => t
    | _ => none
  | none => none

/-- The member array of a wait set: for each slot the handle, zero, and the ready time (R224). -/
def State.memberArray (s : State) (ms : List (BitVec 32)) : List Byte :=
  ms.flatMap fun m => leBytes 8 m.toNat ++ leBytes 8 ((s.memberReady m).getD 0)

/-- A wait set's members changed; its member array is written (R224, R398). -/
def State.setMembers (s : State) (h : BitVec 32) (ms : List (BitVec 32)) : State :=
  match s.named h with
  | some ⟨_, _, _, _, .wset a _⟩ =>
    let s := s.updObj (hIndex h) fun o => { o with body := .wset a ms }
    s.setBytes a.toNat (s.memberArray ms)
  | _ => s

/-- The member arrays of all wait sets follow their members and the members' readiness (R224, R238). -/
def State.syncSets (s : State) : State :=
  s.kern.objs.foldl (fun s (x : Nat × Obj) => match x.2.body with
    | .wset a ms =>
      let bs := s.memberArray ms
      if s.bytes a.toNat bs.length = bs then s else s.setBytes a.toNat bs
    | _ => s) s

/-- WSADD. -/
def wsaddBody (e : Ext) (c : Ctx) (s : State) : Res :=
  let b := e.b9.toNat
  withOps s [sDst c e.d9.toNat, sRun c e.a9.toNat, sRun c b] <|
    if c.act true e.pg e.pn = 0 then .next s
    else
      let h := c.handle e.a9.toNat
      let m := if b = 320 then 0 else c.handle b
      let why := (s.handleFault c h [4] 0 false).orElse fun _ =>
        if b = 320 then none
        else if (s.rport? m).isSome then some (7 + 256) else s.handleFault c m [2, 3, 5] 1 false
      match why, s.named h with
      | some why, _ => .raise s Exc.object why
      | none, some ⟨_, _, _, _, .wset _ ms⟩ =>
        let k := e.m 0 6
        let old := ms.getD k 0
        let s := s.setMembers h (updAt (fun _ => m) k ms)
        kernDone e c (if old = m then s else s.freeEnded old) (kernResult 0 0 old.toNat)
      | none, _ => .raise s Exc.object 2

/-- The ready member of the earliest ready time, the lowest slot on a tie: its slot and time (R239). -/
def State.readyMember (s : State) (ms : List (BitVec 32)) : Option (Nat × Nat) :=
  let rs := ms.zipIdx.filterMap fun (x : BitVec 32 × Nat) => (s.memberReady x.1).map fun t => (x.2, t)
  rs.foldl (fun (m : Option (Nat × Nat)) x => match m with
    | none => some x
    | some y => if x.2 < y.2 then some x else some y) none

/-- What WSWAIT does to the member it returns (R238, R239): an ended wave is freed, one of a block once the block has ended
(R236, R435). -/
def State.consumeMember (s : State) (set : BitVec 32) (slot : Nat) (ms : List (BitVec 32)) : State :=
  let m := ms.getD slot 0
  match s.named m with
  | some ⟨_, _, _, _, .timer d p n r⟩ => s.updObj (hIndex m) fun o => { o with body := .timer d p (n - 1) (r + p) }
  | some ⟨_, _, _, _, .wave _ _ _ _ (some id) (some _) _⟩ =>
    let s := s.setMembers set (updAt (fun _ => 0) slot ms)
    if s.blockOver id.blk then (s.leaveSets m).freeObj (hIndex m) else s
  | _ => s

/-- WSWAIT: it takes its turn among the waiters where a member is ready (R229). -/
def wswaitBody (e : Ext) (c : Ctx) (s : State) : Res :=
  let s := s.expireDue
  withOps s [sDst c e.d9.toNat, sRun c e.a9.toNat] <|
    if c.act true e.pg e.pn = 0 then .next s
    else
      let h := c.handle e.a9.toNat
      match s.handleFault c h [4] 0 false, s.named h with
      | some why, _ => refuse e c s why
      | none, some ⟨_, _, _, _, .wset _ ms⟩ =>
        (match s.readyMember ms with
        | some (k, _) =>
          if s.firstInLine c .wset h [] then kernDone e c (s.consumeMember h k ms) (kernResult 0 k (ms.getD k 0).toNat)
          else .wait (s.waitOn c (.wswait e))
        | none => if e.m 0 1 = 1 then kernDone e c s (kernResult 1 0 0) else .wait (s.waitOn c (.wswait e)))
      | none, _ => .raise s Exc.object 2

/-- TARM, and TCANCEL (R240, R426): an expiry of the same tick comes first, the pending count is reported and cleared.
DEDUCED, unsafe: notes/assumptions/46.md. -/
def timerBody (e : Ext) (arm : Bool) (c : Ctx) (s : State) : Res :=
  withOps s ([sDst c e.d9.toNat, sRun c e.a9.toNat] ++ if arm then [sRun c e.b9.toNat, sRun c e.c9.toNat] else []) <|
    if c.act true e.pg e.pn = 0 then .next s
    else
      let h := c.handle e.a9.toNat
      match s.handleFault c h [5] 0 false with
      | some why => .raise s Exc.object why
      | none =>
        let s := s.expire (hIndex h)
        match s.named h with
        | some ⟨_, _, _, _, .timer _ p n _⟩ =>
          let d := if arm then (c.sVal e.b9.toNat).toNat else 2 ^ 64 - 1
          let d := if d ≤ s.now then s.now + 1 else d
          let p := if arm then (c.sVal e.c9.toNat).toNat else p
          kernDone e c (s.updObj (hIndex h) fun o => { o with body := .timer d p 0 0 }) (kernResult 0 0 n)
        | _ => .raise s Exc.object 2

/-! ### Names (R237, R396) -/

/-- NSLOOKUP: it does not close the region. -/
def nslookupBody (e : Ext) (c : Ctx) (s : State) : Res :=
  withOps s [sDst c e.d9.toNat, sRun c e.a9.toNat] <|
    if c.act true e.pg e.pn = 0 then .next s
    else
      let name := c.sVal e.a9.toNat
      let peer := bits name.toNat 63 55
      let done (s : State) (st v : Nat) : Res :=
        let s := s.orderAtomn c true [] 0
        .next ((s.put c (writeS c (s.mine c) e.d9.toNat (kernResult st 0 v))).bumpSfr c)
      if peer = s.peer.toNat then
        match s.kern.names.find? fun x => x.1 == name with
        | none => done s 3 0
        | some (_, h) =>
          let mine := (s.named (c.process s)).map (·.tdi)
          if (s.named h).map (·.tdi) = mine && mine.isSome then done s 0 h.toNat else done s 3 0
      else
        match (s.reqsOf c).findSome? (·.answer) with
        | some a =>
          let s := s.dropReqs c
          if a.status = 7 then done s 6 0
          else
            let w := (Packet.word a 2).toNat
            if bits w 63 48 ≠ 0 then done s (bits w 63 48) 0
            else match s.newObj c (fun _ => .rport peer (BitVec.ofNat 32 w) (Packet.word a 3).toNat) with
              | none => done s 2 0
              | some (h, s) => done s 0 h.toNat
        | none =>
          if !(s.reqsOf c).isEmpty then .wait (s.waitReqs c (.nslookup e))
          else
            -- the wave's pending atomics come first (R204, R213)
            let s := s.orderAtomn c true [] 0
            let p : Packet := { Packet.plain 0x0C 0 (BitVec.ofNat 9 peer) 0 with ext := BitVec.ofNat 384 name.toNat }
            .wait ((s.ask c.w.id.handle c.who.half ((lowest c.path.mask).getD 0) 0 none p).waitReqs c (.nslookup e))

/-! ### Events -/

/-- A name's home device resolves a lookup (R237): the port's owner must export a window to the asker. The reply names the
device's epoch (R288).
DESIGN CHOICE, unsafe: notes/assumptions/29.md. -/
def State.nameLookup (s : State) (p : Packet) : State :=
  if p.type ≠ 0x0C || p.dst ≠ s.peer then s
  else
    let name := Packet.word p 2
    let pasidOf (h : BitVec 32) : Option (BitVec 20) := ((s.named h).bind fun o => s.obj? o.owner.toNat).bind fun o =>
      match o.body with | .process q _ _ _ => some q | _ => none
    let seen (h : BitVec 32) : Bool := match pasidOf h with
      | some q => s.league.windows.any fun (x : Nat × BitVec 256) =>
          let w : Win := ⟨x.2.toNat⟩
          w.valid && w.pasid == q && w.imports p.src.toNat
      | none => false
    let ans := match s.kern.names.find? fun x => x.1 == name with
      | some (_, h) => if seen h then h.toNat else 3 * 2 ^ 48
      | none => 3 * 2 ^ 48
    s.trySend { Packet.plain 0x0D s.peer p.src p.tag.toNat with ext := BitVec.ofNat 384 (ans + 2 ^ 64 * s.boot.epoch) }

/-- A held message asked back by its sender (R229, R288): nothing where it has been queued already.
DESIGN CHOICE, unsafe: notes/assumptions/29.md. -/
def State.giveBack (s : State) (p : Packet) : State :=
  let h := BitVec.ofNat 32 (Packet.word p 2).toNat
  match s.port? h with
  | none => s
  | some (_, _, ms, rs) =>
    let mine (r : RemoteSender) : Bool := r.src == p.src.toNat && r.tag == p.tag.toNat
    if rs.any mine then
      (s.setPort h ms (rs.filter fun r => !mine r)).trySend (portAnswer s.peer p.src p.tag.toNat 14) |>.serveRemote 64 h
    else s

/-- A message from a remote PSEND (R288): queued, held as a waiting sender, or answered; a handle of another epoch names no
port.
DESIGN CHOICE, unsafe: notes/assumptions/29.md. -/
def State.portMessage (s : State) (p : Packet) : State :=
  let w := (Packet.word p 2).toNat
  if p.type ≠ 0x0B || p.dst ≠ s.peer || bits w 63 63 = 1 then s
  else if bits w 33 33 = 1 then s.giveBack p
  else
    let h := BitVec.ofNat 32 w
    let ans (s : State) (k : Nat) : State := s.trySend (portAnswer s.peer p.src p.tag.toNat k)
    match if (Packet.word p 4).toNat = s.boot.epoch then s.port? h else none with
    | none => ans s 4
    | some (cap, _, ms, rs) =>
      let slot := slotBytes (Packet.bytes p 64) ((Packet.word p 3).toNat % 2 ^ 20) []
      let first := (s.kernWaits .send h).length + rs.length
      if ms.length < cap && first = 0 then ans (s.setPort h (ms ++ [⟨s.now, slot⟩]) rs) 0
      -- with NB it is refused where those who wait before it fill the port (R229, R234)
      else if bits w 32 32 = 1 && cap ≤ ms.length + first then ans s 1
      else
        let (n, s) := s.tick
        ans (s.setPort h ms (rs ++ [⟨n, p.src.toNat, p.tag.toNat, slot⟩])) 15

/-- A request's wave is on its way out of its slot, or its instruction has been given up: a message held for it is asked back
(R229, R288). -/
def State.unwanted (s : State) (r : Req) : Bool :=
  r.orphan || match s.resident r.handle with
    | some (c, k) => ((s.wave? c k).map (·.stopping)).getD false
    | none => false

/-- The answer to a remote PSEND (R288): a first answer that holds the message suspends the timeout.
DESIGN CHOICE, unsafe: notes/assumptions/29.md. -/
def State.portMessageAnswer (s : State) (p : Packet) : State :=
  let w := (Packet.word p 2).toNat
  if p.type ≠ 0x0B || p.dst ≠ s.peer || bits w 63 63 = 0 then s
  else if bits w 51 48 = 15 then
    let held (r : Req) : Bool := r.answer.isNone && r.tag == p.tag.toNat && r.pkt.dst == p.src && r.pkt.type == 0x0B
    let hold (r : Req) : Req := if held r then { r with suspended := true } else r
    let s := { s with league := { s.league with reqs := s.league.reqs.map hold } }
    s.withdraw fun r => held r && s.unwanted r
  else s.answerReq p

/-- WCREATE (R230). -/
def execWcreate (e : Ext) (s : State) : Host.Outcome State Fault Refusal :=
  runWave (.wcreate e) (some e) (wcreateBody e) s

/-- PSEND (R234). -/
def execPsend (e : Ext) (s : State) : Host.Outcome State Fault Refusal :=
  runWave (.psend e) (some e) (psendBody e) s

/-- PRECV (R235). -/
def execPrecv (e : Ext) (s : State) : Host.Outcome State Fault Refusal :=
  runWave (.precv e) (some e) (precvBody e) s

/-- OBJNEW (R398). -/
def execObjnew (e : Ext) (s : State) : Host.Outcome State Fault Refusal :=
  runWave (.objnew e) (some e) (objnewBody e) s

/-- OBJDEL (R397). -/
def execObjdel (e : Ext) (s : State) : Host.Outcome State Fault Refusal :=
  runWave (.objdel e) (some e) (objdelBody e) s

/-- WSADD (R238). -/
def execWsadd (e : Ext) (s : State) : Host.Outcome State Fault Refusal :=
  runWave (.wsadd e) (some e) (wsaddBody e) s

/-- WSWAIT (R239). -/
def execWswait (e : Ext) (s : State) : Host.Outcome State Fault Refusal :=
  runWave (.wswait e) (some e) (wswaitBody e) s

/-- TARM (R240). -/
def execTarm (e : Ext) (s : State) : Host.Outcome State Fault Refusal :=
  runWave (.tarm e) (some e) (timerBody e true) s

/-- TCANCEL (R240). -/
def execTcancel (e : Ext) (s : State) : Host.Outcome State Fault Refusal :=
  runWave (.tcancel e) (some e) (timerBody e false) s

/-- NSLOOKUP (R237). -/
def execNslookup (e : Ext) (s : State) : Host.Outcome State Fault Refusal :=
  runWave (.nslookup e) (some e) (nslookupBody e) s

/-- KERNEL_OBJECT_WAKE (R229). -/
def execKernelObjectWake (w : Who) (s : State) : Host.Outcome State Fault Refusal :=
  .next (s.resume w fun i => match i with
    | .psend e => some (some e, psendBody e)
    | .precv e => some (some e, precvBody e)
    | .wswait e => some (some e, wswaitBody e)
    | _ => none)

/-- TIMER_EXPIRY (R240). -/
def execTimerExpiry (obj : Nat) (s : State) : Host.Outcome State Fault Refusal :=
  .next (s.expire obj)

/-- PORT_MESSAGE_RECEIPT (R288). -/
def execPortMessageReceipt (p : Packet) (s : State) : Host.Outcome State Fault Refusal :=
  .next (s.recv p fun s => s.portMessage p)

/-- PORT_MESSAGE_ANSWER_RECEIPT (R288). -/
def execPortMessageAnswerReceipt (p : Packet) (s : State) : Host.Outcome State Fault Refusal :=
  .next (s.recv p fun s => s.portMessageAnswer p)

/-- NAME_LOOKUP_RECEIPT (R237). -/
def execNameLookupReceipt (p : Packet) (s : State) : Host.Outcome State Fault Refusal :=
  .next (s.recv p fun s => s.nameLookup p)

/-- NAME_REPLY_RECEIPT (R237). -/
def execNameReplyReceipt (p : Packet) (s : State) : Host.Outcome State Fault Refusal :=
  .next (if p.type = 0x0D && p.dst == s.peer then s.recv p fun s => s.answerReq p else s)

end Sys2Proof.Machine
end

