-- ==== Sys2Proof/Machine/System.lean ====
section
/-!
DEFINITION. SRD (R54, R421) and the privileged instructions: CRD and CWR (R249 to R254, R298, R349, R350), RFT (R413,
R414), CTXSV and CTXLD (R351, R352) with the matrix state image (R266, R267), TLBINV (R428, R429), IDLE (R373, R374),
OBJRD and OBJWR (R399, R400), PWRACQ and PWRREL (R408), MGSIG (R386), and the events that wake them.
-/

namespace Sys2Proof.Machine

/-! ### SRD -/

/-- The value of a special register in a lane (R54). The management core has no core, cluster or die index: those are
free values there.
DESIGN CHOICE, safe: notes/assumptions/47.md. -/
def srdVal (c : Ctx) (s : State) (k l : Nat) : Nat :=
  let core := c.who.core
  let place (n : Nat) : Nat := if core = mgmtCore then Config.which s.free k else n
  let inHalf := if c.w.id.gang then l % 32 else l
  match k with
  | 0 | 2 => inHalf
  | 1 => c.who.slot
  | 3 => if c.w.id.gang then 2 * c.w.id.lvls.getD 1 0 + c.who.half else c.w.id.lvls.getD 1 0
  | 10 => place core % 2 ^ 7
  | 11 => place (clusterOf core) % 2 ^ 5
  | 12 => place (dieOf core) % 2 ^ 2
  | 13 => s.peer.toNat
  | 14 => s.now
  | 15 => c.w.cyclesAt s.now
  | 16 => c.w.regcnt.toNat
  | 17 => c.w.tid l
  | _ => c.w.id.lvls.getD (k - 2) 0

/-- SRD (R421). -/
def srdBody (e : Ext) (c : Ctx) (s : State) : Res :=
  let d := e.d9.toNat
  let k := e.m 0 6
  let wide := k = 14 || k = 15
  withOps s [if 384 ≤ d then OpOk.when false else dstOk c e.u (if wide then 2 else 1) d] <|
    let w := writeDst c (s.mine c) (if wide then 3 else 1) d (if wide then 11 else 1) (c.act e.u e.pg e.pn) (srdVal c s k)
    .next (({ s with free := s.free + 1 }).put c w)

/-! ### Operands of the privileged instructions -/

/-- A scalar, a constant or the literal, as 64 bits. -/
def uOpOk (c : Ctx) (lit : Option (BitVec 64)) (code : Nat) : OpOk :=
  OpOk.when (scalarOk c.w code || (388 ≤ code && code < 416 && (constBits 8 code).isSome) || (code == 511 && lit.isSome))

/-- The reason a wave handle is refused (R228): reasons 1 and 2. -/
def State.waveFault (s : State) (h : BitVec 32) : Option Nat :=
  match s.named h with
  | none => some 1
  | some o => if o.body.type = 2 then none else some 2

/-- A privileged instruction's result in sD. -/
def sysDone (e : Ext) (c : Ctx) (s : State) (v : Nat) : Res :=
  .next (s.put c (writeS c (s.mine c) e.d9.toNat (BitVec.ofNat 64 v)))

/-! ### Control registers (R249 to R254, R298) -/

/-- KTOKEN (R298). -/
def State.ktoken (s : State) (core : Nat) : Nat :=
  poolSize s.board.watts * 2 ^ 16 + s.poolFree % 256 * 2 ^ 8 + (s.core core).ctl.held % 256

/-- A control register's 64 bits: RES bits read zero, and on the management core every register but KTCODE, KTPC and KTADDR
does (R249, R350). KTCODE, KTPC and KTADDR show the oldest record (R254). -/
def State.ctlReg (s : State) (core k : Nat) : BitVec 64 :=
  let q := (s.core core).trapQ.head?
  let t := (s.core core).ctl
  match k with
  | 4 => (q.map (·.code)).getD 0
  | 5 => (((q.map fun (r : TrapRec) => r.pc).getD 0).extractLsb' 0 52).setWidth 64
  | 6 => (q.map (·.addr)).getD 0
  | _ =>
    if core = mgmtCore then 0
    else match k with
      | 0 => (BitVec.ofBool t.intlk).setWidth 64
      | 1 => t.kproc.setWidth 64
      | 2 => t.kpasid.setWidth 64
      | 3 => (0 : BitVec 12) ++ t.ktvec ++ (0 : BitVec 6)
      | 7 => t.ksc.setWidth 64
      | 8 => (0 : BitVec 16) ++ t.drain ++ t.window
      | 9 => t.thr.setWidth 64
      | 10 => t.temp.setWidth 64
      | 11 => t.droop.setWidth 64
      | 12 => BitVec.ofNat 64 (s.ktoken core)
      | _ => 0

/-- A write to a control register (R350): RW fields only; a write to KTCODE pops the oldest record (R254). -/
def State.writeCtl (s : State) (core k : Nat) (v : BitVec 64) : State :=
  if k = 4 then s.updCore core fun q => { q with trapQ := q.trapQ.tail }
  else if core = mgmtCore then s
  else s.updCore core fun q =>
    { q with ctl := match k with
      | 0 => { q.ctl with intlk := v.getLsbD 0 }
      | 1 => { q.ctl with kproc := v.setWidth 32 }
      | 2 => { q.ctl with kpasid := v.setWidth 20 }
      | 3 => { q.ctl with ktvec := v.extractLsb' 6 46 }
      | 7 => { q.ctl with ksc := v.setWidth 32 }
      | 8 => { q.ctl with drain := v.extractLsb' 32 16, window := v.setWidth 32 }
      | 9 => { q.ctl with thr := v.setWidth 3 }
      | _ => q.ctl }

/-- CRD (R349). -/
def crdBody (e : Ext) (c : Ctx) (s : State) : Res :=
  withOps s [sDst c e.d9.toNat] (sysDone e c s (s.ctlReg c.who.core (e.m 0 12)).toNat)

/-- CWR (R349). -/
def cwrBody (e : Ext) (c : Ctx) (s : State) : Res :=
  withOps s [uOpOk c e.lit e.a9.toNat] (.next (s.writeCtl c.who.core (e.m 0 12) (c.uVal e.lit 8 e.a9.toNat)))

/-! ### RFT (R413, R414) -/

/-- What RFT gives a wave (R414): the verdict, with INCHAIN no RETRY and no CONTINUE; or CONTINUE on an engine command's record
that a wave of no block took at posting, past the posting instruction. -/
def rftDue (e : Ext) (w : Wave) (v : Nat) (pc : Dword) : Due :=
  let v := if e.m 0 1 = 1 && 2 ≤ v then 1 else v
  match if e.m 1 1 = 1 && v = 3 && w.id.blk.isNone then w.trap.filter fun r => r.posting else none with
  | some r => r.past
  | none => ⟨v, if w.id.gang then e.m 2 1 else 0, (w.trap.map (·.path)).getD 0, pc, e.m 3 1 = 1, []⟩

/-- RFT.
DEDUCED, unsafe: notes/assumptions/85.md. -/
def rftBody (e : Ext) (c : Ctx) (s : State) : Res :=
  let v := (c.uVal e.lit 8 e.b9.toNat).toNat
  let pc := c.sVal e.c9.toNat
  withOps s [sDst c e.d9.toNat, sRun c e.a9.toNat, uOpOk c e.lit e.b9.toNat, sRun c e.c9.toNat] <|
    if v > 3 || bits pc.toNat 63 52 ≠ 0 then .raise s Exc.invalidOperand 0
    else
      let h := c.handle e.a9.toNat
      match s.waveFault h with
      | some why => .raise s Exc.object why
      | none =>
        match s.resident h, s.waveOf h with
        | some (core, slot), some w =>
          if core ≠ c.who.core || w.traps = 0 then sysDone e c s 1
          else
            let d := rftDue e w v pc
            let post := w.trap.filter fun r => r.posting
            -- the waves that a command's record has trapped resume where they stopped
            let async := e.m 1 1 = 1 && d.v = 3 && (w.id.blk.isSome || post.isNone)
            let sp := s.waveSpace core slot w
            -- a trap return is a transfer of control: its target is checked before anything changes (R80)
            transferIn sp w.id.codeBase c s (w.returnsTo (s.afterPc sp) d.v d.half d.pc (d.reread || async)) fun s =>
              sysDone e c (if async then s.engineGo h w.id.blk post else s.giveVerdict core slot d) 0
        | _, _ => sysDone e c s 1

/-! ### TLBINV (R428, R429) -/

/-- A translation's page holds a byte of a range. -/
def pageMeets (key : Nat) (lvl : Nat) (pte : BitVec 64) (lo hi : Nat) : Bool :=
  let size := Leaf.size ⟨pte, lvl⟩
  let base := key % 2 ^ 40 * 4096 / 2 ^ size * 2 ^ size
  base < hi && lo < base + 2 ^ size

/-- The translations and instruction lines of a range of a PASID discarded at a core (R191): a line goes with the page that
holds it. -/
def State.dropPages (s : State) (core : Nat) (pasid : BitVec 20) (lo hi : Nat) : State :=
  let gone := (s.core core).tlb.filter fun (t : Nat × Nat × BitVec 64) =>
    t.1 / 2 ^ 40 == pasid.toNat && pageMeets t.1 t.2.1 t.2.2 lo hi
  let hit (a : Nat) : Bool := (a < hi && lo < a + 64) || gone.any fun t => pageMeets t.1 t.2.1 t.2.2 a (a + 64)
  s.updCore core fun k =>
    { k with
      tlb := k.tlb.filter fun (t : Nat × Nat × BitVec 64) => !gone.contains t
      icache := k.icache.filter fun (x : Nat × BitVec 512) =>
        !(x.1 / 2 ^ 46 == pasid.toNat && hit (x.1 % 2 ^ 46 * 64)) }

/-- The size, as a power of two, of the page that holds an address: by the tables as they stand, valid or not, or by a
translation that a core still holds (R429). -/
def State.pageBits (s : State) (pasid : BitVec 20) (va : Nat) : Nat :=
  let walked := match s.byPasid pasid with
    | some (root, _) => (leafSlot s va 3 root.toNat).map fun (x : Nat × Nat × Nat) => Leaf.size ⟨BitVec.ofNat 64 x.2.2, x.1⟩
    | none => none
  s.cores.foldl (fun m (x : Nat × Core) => x.2.tlb.foldl (fun m (t : Nat × Nat × BitVec 64) =>
    if t.1 / 2 ^ 40 == pasid.toNat && pageMeets t.1 t.2.1 t.2.2 va (va + 1) then max m (Leaf.size ⟨t.2.2, t.2.1⟩) else m) m)
    (walked.getD 12)

/-- A request comes from one of some cores: from an engine or a resident wave there, or from a wave that has left its core. -/
def State.fromCores (s : State) (cores : List Nat) (r : Req) : Bool :=
  let at' (k : Nat) : Bool := r.handle == engHandle k || (s.core k).waves.any fun (x : Nat × Wave) => x.2.id.handle == r.handle
  cores.any at' || !(s.cores.any fun (x : Nat × Core) => at' x.1)

/-- A store to a peer by a core of those given, sent no later than a time, has not been acknowledged (R191). -/
def State.storesOpen (s : State) (cores : List Nat) (t : Nat) : Bool :=
  s.league.reqs.any fun r => r.answer.isNone && (r.pkt.type == 3 || r.pkt.type == 5) && r.at' ≤ t && s.fromCores cores r

/-- The invalidates of a range at scope sys (R281, R429): each page of the window space with its importers.
DEDUCED, safe: notes/assumptions/53.md. -/
def State.invalidates (s : State) (pasid : BitVec 20) (lo hi : Nat) : List (Nat × List Nat) :=
  s.league.windows.flatMap fun (x : Nat × BitVec 256) =>
    let w : Win := ⟨x.2.toNat⟩
    if !w.valid || w.pasid != pasid then []
    else
      let a := max lo w.vaBase
      let b := min hi (w.vaBase + w.size)
      let ps := ((List.range 512).filter fun p => w.imports p && p != s.peer.toNat)
      if b ≤ a || ps.isEmpty then []
      else (List.range ((b - 1) / 4096 - a / 4096 + 1)).map fun k => ((w.base + (a / 4096 * 4096 - w.vaBase)) / 4096 + k, ps)

/-- One invalidate sent to its importers. -/
def State.sendInval (s : State) (h : BitVec 32) (x : Nat × List Nat) : State :=
  let s := x.2.foldl (fun s p =>
    s.trySend { Packet.plain 9 s.peer (BitVec.ofNat 9 p) 0 with offset := BitVec.ofNat _ (x.1 * 4096) }) s
  { s with league := { s.league with invs := s.league.invs ++ [⟨BitVec.ofNat 40 x.1, x.2, s.now, h⟩] } }

/-- TLBINV.
DEDUCED, unsafe: notes/assumptions/34.md; DEDUCED, safe: notes/assumptions/53.md. -/
def tlbinvBody (e : Ext) (c : Ctx) (s : State) : Res :=
  let va := (c.sVal e.a9.toNat).toNat
  let n := (c.sVal e.b9.toNat).toNat
  let all := e.m 5 1 = 1
  withOps s [sDst c e.d9.toNat, sRun c e.a9.toNat, sRun c e.b9.toNat] <|
    if !all && (va % 4096 ≠ 0 || 2 ^ 52 ≤ va || n < 1 || 2 ^ 20 < n) then .raise s Exc.invalidOperand 0
    else
      let h := c.w.id.handle
      let mine (s : State) : Bool := s.league.invs.any fun v => v.handle = h
      let core := c.who.core
      let scope := e.m 2 3
      let cores := (core :: s.unitCores scope core).eraseDups
      -- the progress of a TLBINV under way: four times its device time, and sD + 1
      let go (s : State) (k : Nat) : Res :=
        if mine s then .wait ((s.setProg c 0 k).waitOn c (.tlbinv e))
        else if s.storesOpen cores (k / 4) then .wait (s.setProg c 0 k)
        else sysDone e c s (k % 4 - 1)
      if c.progress.k ≠ 0 then go s c.progress.k
      else
        let (lo, hi) := if all then (0, 2 ^ 52) else (va, va + 4096 * n)
        let pasid := (s.core core).ctl.kpasid
        let up := 2 ^ s.pageBits pasid lo
        let top := 2 ^ s.pageBits pasid (hi - 1)
        -- the stores issued under the old translations perform at the scope
        let s := cores.foldl (fun s k => (s.core k).waves.foldl (fun s (x : Nat × Wave) => s.drainAtomn k x.1) s) s
        let s := s.drainOrphans fun k => cores.contains k
        let s := cores.foldl (fun s k => s.release k scope) s
        let s := cores.foldl (fun s k => s.dropPages k pasid lo hi) s
        let s := if scope ≠ 5 then s
          else (s.invalidates pasid (lo / up * up) ((hi + top - 1) / top * top)).foldl (fun s x => s.sendInval h x) s
        go s (4 * s.now + 1)

/-! ### IDLE and MGSIG (R373, R374, R386) -/

/-- The events latched at a core (R374): those stored, a signal that is queued, and the deadline that the IDLE itself names.
DEDUCED, unsafe: notes/assumptions/48.md. -/
def State.latchedAt (s : State) (core deadline : Nat) : Nat :=
  let k := s.core core
  let m := core == mgmtCore
  pack 1 [b2n (!m && k.latched.getLsbD 0), b2n (!m && k.latched.getLsbD 1), b2n (!k.sigQ.isEmpty),
    b2n (deadline != 0 && deadline ≤ s.now), b2n (m && k.latched.getLsbD 4), b2n (m && k.latched.getLsbD 5)]

/-- IDLE. -/
def idleWaitBody (e : Ext) (c : Ctx) (s : State) : Res :=
  let d := e.d9.toNat
  withOps s [OpOk.when (scalarOk c.w d && scalarOk c.w (d + 1) && d % 2 == 0 && d != 320), sRun c e.a9.toNat] <|
    let core := c.who.core
    let ev := s.latchedAt core (c.sVal e.a9.toNat).toNat
    if ev = 0 then .wait (s.waitOn c (.idle e))
    else
      let s := s.updCore core fun k => { k with latched := 0 }
      match (s.core core).sigQ with
      | (payload, src) :: rest =>
        let s := ((s.updCore core fun k => { k with sigQ := rest }).acquire core 4).bumpSfr c
        let w := writeS c (s.mine c) d (BitVec.ofNat 64 (ev + 256 * src.toNat))
        .next (s.put c (writeS c w (d + 1) payload))
      | [] => .next (s.put c (writeS c (s.mine c) d (BitVec.ofNat 64 ev)))

/-- MGSIG. -/
def mgsigBody (e : Ext) (c : Ctx) (s : State) : Res :=
  let t := (c.sVal e.a9.toNat).toNat
  withOps s [sDst c e.d9.toNat, sRun c e.a9.toNat, sRun c e.b9.toNat] <|
    if !(t < 128 || t = 255) then .raise s Exc.invalidOperand 0
    else if 16 ≤ (s.core t).sigQ.length then sysDone e c s 1
    else quietly c s <|
      let s := (s.orderAtomn c true [] 0).releaseBy (c.space s) 4
      sysDone e c ((s.signal t (c.sVal e.b9.toNat) c.who.core).bumpSfr c) 0

/-! ### PWRACQ and PWRREL (R408) -/

/-- The tokens held by a core's blocks change (R408): the management core counts none. -/
def State.addHeld (s : State) (core n : Nat) (take : Bool) : State :=
  if core = mgmtCore then s
  else s.updCore core fun k => { k with ctl := { k.ctl with held := if take then k.ctl.held + n else k.ctl.held - n } }

/-- PWRACQ: the waiters are served in order. -/
def pwracqBody (e : Ext) (c : Ctx) (s : State) : Res :=
  let n := (c.uVal e.lit 8 e.a9.toNat).toNat
  let core := c.who.core
  withOps s [sDst c e.d9.toNat, uOpOk c e.lit e.a9.toNat] <|
    if n > poolSize s.board.watts then .raise s Exc.invalidOperand 0
    else if n = 0 then sysDone e c s (s.poolFree % 256)
    else
      let q := if c.waited.isSome then s.tokWait else s.tokWait ++ [.agent core]
      if q.head? = some (.agent core) && n ≤ s.poolFree then
        let s := { s with tokWait := q.tail, poolFree := s.poolFree - n }
        sysDone e c (s.addHeld core n true) (s.poolFree % 256)
      else .wait (({ s with tokWait := q }).waitOn c (.pwracq e))

/-- PWRREL.
DEDUCED, unsafe: notes/assumptions/48.md. -/
def pwrrelBody (e : Ext) (c : Ctx) (s : State) : Res :=
  let n := (c.uVal e.lit 8 e.a9.toNat).toNat
  let core := c.who.core
  withOps s [sDst c e.d9.toNat, uOpOk c e.lit e.a9.toNat] <|
    if core ≠ mgmtCore && n > (s.core core).ctl.held then .raise s Exc.invalidOperand 0
    else
      let s := { s with poolFree := s.poolFree + n }
      sysDone e c (s.addHeld core n false) (s.poolFree % 256)

/-! ### Descriptors (R223, R224, R399, R400) -/

/-- Every split of a wave that runs waits in a kernel-object instruction (R229). -/
def Wave.kernWaiting (w : Wave) : Bool :=
  let ps := (w.halves.flatMap Half.paths).filter fun p => p.running && !p.arrived
  !ps.isEmpty && ps.all fun p => match p.wait with | .on i _ => (kwaitOf i).isSome | _ => false

/-- STATE of an entry (R224).
DEDUCED, unsafe: notes/assumptions/38.md. -/
def State.stateOf (s : State) (o : Obj) : Nat :=
  match o.body with
  | .wave _ _ (some (c, k)) _ _ none _ =>
    match s.wave? c k with
    | some w => if w.kernWaiting then 2 else 1
    | none => 1
  | .wave _ _ _ _ _ (some _) _ => 3
  | _ => o.state.toNat

/-- What is fixed of a wave that an entry names. -/
def State.waveIdOf (s : State) (b : Body) : Option WaveId :=
  match b with
  | .wave _ _ (some (c, k)) _ _ _ _ => (s.wave? c k).map (·.id)
  | .wave _ _ none (some w) _ _ _ => some w.id
  | .wave _ _ none none id _ _ => id
  | _ => none

/-- The contents of an entry after its header, from byte 8 on (R224). -/
def State.bodyBytes (s : State) (b : Body) : List Byte :=
  let z (n : Nat) : List Byte := List.replicate n 0
  match b with
  | .process pasid root trap sc => leBytes 8 pasid.toNat ++ leBytes 8 root.toNat ++ leBytes 8 trap.toNat ++ leBytes 4 sc.toNat
  | .wave image ready .. =>
    match s.waveIdOf b with
    | some id => leBytes 8 image.toNat ++ leBytes 4 id.sc.toNat ++ leBytes 1 id.placement.toNat ++
        leBytes 3 (id.home % 128 + b2n id.pinned * 2 ^ 15) ++ leBytes 8 ready
    | none => leBytes 8 image.toNat ++ z 8 ++ leBytes 8 ready
  | .port cap st nm ms _ => [BitVec.ofNat 8 cap, BitVec.ofNat 8 ms.length] ++ z 6 ++ leBytes 8 st.toNat ++ leBytes 8 nm.toNat
  | .wset a _ => leBytes 8 a.toNat
  | .timer d p n _ => leBytes 8 d ++ leBytes 8 p ++ leBytes 1 n
  | .sctx p b d dl left i .. => leBytes 8 p ++ leBytes 8 b ++ leBytes 8 d ++ leBytes 8 dl ++ leBytes 8 left ++ leBytes 1 i
  | .rport p h _ => leBytes 2 p ++ z 2 ++ leBytes 4 h.toNat
  | .free => []

/-- The 128 bytes of an entry. -/
def State.entryBytes (s : State) (i : Nat) : List Byte :=
  match s.obj? i with
  | none => List.replicate 128 0
  | some o =>
    let hdr := o.body.type * 2 ^ 60 + o.gen.toNat * 2 ^ 52 + o.owner.toNat * 2 ^ 32 + s.stateOf o * 2 ^ 8 + o.tdi.toNat
    let bs := leBytes 8 hdr ++ s.bodyBytes o.body
    bs ++ List.replicate (128 - bs.length) 0

/-- A TDI field (R223): a virtual function's TDI 1 to 16, or 0xFF (R290).
DEDUCED, unsafe: notes/assumptions/52.md. -/
def tdiOk (t : Nat) : Bool := (1 ≤ t && t ≤ 16) || t == 0xFF

/-- The checks of a buffer for OBJWR (R223, R224, R400): RES fields zero, fields in range. -/
def entryOk (bs : List Byte) : Bool :=
  let hdr := field bs 0 8
  let zero (a b : Nat) : Bool := field bs a (b - a) == 0
  bits hdr 31 16 == 0 && bits hdr 63 60 ≤ 7 &&
    match bits hdr 63 60 with
    | 0 => true
    | 3 => tdiOk (bits hdr 7 0) && 1 ≤ field bs 8 1 && field bs 8 1 ≤ 64 && field bs 9 1 ≤ field bs 8 1 && zero 10 16 && zero 32 128
    | 4 => tdiOk (bits hdr 7 0) && zero 16 128
    | 5 => tdiOk (bits hdr 7 0) && zero 25 128
    | 7 => tdiOk (bits hdr 7 0) && field bs 8 2 < 512 && zero 10 12 && zero 16 128
    | 1 => tdiOk (bits hdr 7 0) && field bs 8 8 < 2 ^ 20 && zero 36 128
    | 2 => tdiOk (bits hdr 7 0) && bits hdr 15 8 ≤ 3 && field bs 20 1 < 4 && bits (field bs 21 3) 14 7 == 0 &&
        bits (field bs 21 3) 23 16 == 0 && zero 32 128
    | 6 => tdiOk (bits hdr 7 0) && 1 ≤ field bs 16 8 && field bs 16 8 ≤ field bs 8 8 && field bs 24 8 ≤ field bs 8 8 && zero 49 128
    | _ => true

/-- The indexes of the live scheduling contexts. -/
def State.contexts (s : State) : List Nat :=
  s.kern.objs.filterMap fun (x : Nat × Obj) => match x.2.body with | .sctx _ _ _ _ _ i _ _ _ => some i | _ => none

/-- A handle of the process at an index. -/
def State.processAt (s : State) (i : Nat) : BitVec 32 := mkHandle 1 (((s.obj? i).map (·.gen)).getD 0) i

/-- A live wave, or a launch that has not finished, uses a scheduling context (R400). -/
def State.contextUsed (s : State) (h : BitVec 32) (idx : Nat) : Bool :=
  (s.kern.objs.any fun (x : Nat × Obj) => match s.waveIdOf x.2.body with | some id => id.sc == h | none => false) ||
    s.host.launches.any fun (x : Nat × Launch) => x.2.st != .closed && bits (field x.2.record 0 8) 31 24 == idx

/-- A wave of an entry whose image is still to be loaded (R400). -/
def WaveId.unloaded (id : WaveId) (i now : Nat) : Wave :=
  Wave.fresh id 0 [] (fun l => i * 64 + l) [Half.fresh 0 allLanes false] now

/-- A wave as an entry written by OBJWR describes it, its image still to be loaded (R400).
DEDUCED, unsafe: notes/assumptions/52.md. -/
def State.describedWave (s : State) (i : Nat) (gen : BitVec 8) (bs : List Byte) : Wave :=
  let id : WaveId :=
    { handle := mkHandle 2 gen i, proc := s.processAt (bits (field bs 0 8) 51 32), sc := BitVec.ofNat 32 (field bs 16 4)
      kind := .single, blk := none, lvls := List.replicate 8 0, gang := false, codeBase := 0
      placement := BitVec.ofNat 2 (field bs 20 1), home := field bs 21 2 % 128, pinned := bits (field bs 21 2) 15 15 == 1
      made := s.kern.made, handles := none }
  id.unloaded i s.now

/-- The id of a wave object replaced by OBJWR. -/
def WaveId.described (id : WaveId) (bs : List Byte) : WaveId :=
  { id with
    sc := BitVec.ofNat 32 (field bs 16 4), placement := BitVec.ofNat 2 (field bs 20 1), home := field bs 21 2 % 128
    pinned := bits (field bs 21 2) 15 15 == 1 }

/-- What OBJWR makes of a free entry: the entry, and the value of sD. -/
def State.newEntry (s : State) (i : Nat) (gen : BitVec 8) (bs : List Byte) : Option (Obj × Nat) :=
  let hdr := field bs 0 8
  let t := bits hdr 63 60
  let h := (mkHandle t gen i).toNat
  let o (owner : Nat) (b : Body) : Obj := ⟨gen, BitVec.ofNat 20 owner, BitVec.ofNat 8 (bits hdr 15 8), BitVec.ofNat 8 (bits hdr 7 0), b⟩
  if t = 1 then
    some (o i (.process (BitVec.ofNat 20 (field bs 8 8)) (BitVec.ofNat 64 (field bs 16 8)) (BitVec.ofNat 64 (field bs 24 8))
      (BitVec.ofNat 32 (field bs 32 4))), h)
  else if t = 2 then
    let w := s.describedWave i gen bs
    let ended := if bits hdr 15 8 = 3 then some s.now else none
    some (o (bits hdr 51 32) (.wave (BitVec.ofNat 64 (field bs 8 8)) (field bs 24 8) none
      (if ended.isSome then none else some w) (some w.id) ended none), h)
  else
    let used := s.contexts
    let idx := ((List.range 257).find? fun k => !used.contains k).getD 256
    let (p, b, d) := (field bs 8 8, field bs 16 8, field bs 24 8)
    if idx < 256 then some (o (bits hdr 51 32) (.sctx p b d (s.now + d) b idx (s.now + p) 0 false), h + idx * 2 ^ 32) else none

/-- What OBJWR makes of a live entry of the same type: every field but TYPE, GEN and OWNER. A wave whose STATE is written as 3
has ended, and one whose STATE is written as another has not.
DEDUCED, unsafe: notes/assumptions/52.md. -/
def Obj.replaced (o : Obj) (i now : Nat) (bs : List Byte) : Obj :=
  let hdr := field bs 0 8
  { o with
    state := BitVec.ofNat 8 (bits hdr 15 8)
    tdi := BitVec.ofNat 8 (bits hdr 7 0)
    body := match o.body with
      | .process .. => .process (BitVec.ofNat 20 (field bs 8 8)) (BitVec.ofNat 64 (field bs 16 8))
          (BitVec.ofNat 64 (field bs 24 8)) (BitVec.ofNat 32 (field bs 32 4))
      | .sctx _ _ _ _ _ i r k u => .sctx (field bs 8 8) (field bs 16 8) (field bs 24 8) (field bs 32 8) (field bs 40 8) i r k u
      | .wave _ _ at' w id e t =>
        let id := ((w.map fun (x : Wave) => x.id).or id).map fun (x : WaveId) => x.described bs
        let (a, r) := ((BitVec.ofNat 64 (field bs 8 8) : BitVec 64), field bs 24 8)
        if bits hdr 15 8 = 3 then .wave a r at' none id (some (e.getD now)) none
        else
          let w := match w, id with
            | some x, some d => some { x with id := d }
            | _, d => d.map fun d => d.unloaded i now
          .wave a r at' w id none t
      | b => b }

/-- The effect of OBJWR (R400): the value of sD, or OBJECT with a reason. -/
def State.writeEntry (s : State) (i : Nat) (bs : List Byte) : (Nat × State) ⊕ Nat :=
  let t := bits (field bs 0 8) 63 60
  let busy : (Nat × State) ⊕ Nat := .inl (7 * 2 ^ 48, s)
  let o := (s.obj? i).getD ⟨0, 0, 0, 0, .free⟩
  match o.body with
  | .free =>
    if t = 0 then .inl (0, s)
    else if t = 1 || t = 2 || t = 6 then
      if t = 1 && s.boot.pasidDown == some (BitVec.ofNat 20 (field bs 8 8)) then .inr (4 + 256 * 3)
      else match s.newEntry i o.gen bs with
        | some (x, v) =>
          let s := if t = 2 then { s with kern := { s.kern with made := s.kern.made + 1 } } else s
          .inl (v, s.setObj i x)
        | none => .inl (2 * 2 ^ 48, s)
    else .inr 2
  | .process .. =>
    if t = 1 then .inl (0, s.setObj i (o.replaced i s.now bs))
    else if t = 0 then
      if s.kern.objs.any fun (x : Nat × Obj) => x.1 != i && x.2.body.type != 0 && x.2.owner.toNat == i then busy
      else .inl (0, s.freeObj i)
    else .inr 2
  | .sctx _ _ _ _ _ idx _ _ _ =>
    if t = 6 then .inl (0, s.setObj i (o.replaced i s.now bs))
    else if t = 0 then (if s.contextUsed (mkHandle 6 o.gen i) idx then busy else .inl (0, s.freeObj i))
    else .inr 2
  | .wave .. =>
    let st := s.stateOf o
    if st = 1 || st = 2 then busy
    else if t = 2 then
      let s := if bits (field bs 0 8) 15 8 = 3 then s.unqueue (.inl (mkHandle 2 o.gen i)) else s
      .inl (0, s.setObj i (o.replaced i s.now bs))
    else .inr 2
  | _ => .inr 2

/-- The entry index and buffer of OBJRD and OBJWR checked. -/
def entryArgs (e : Ext) (c : Ctx) (s : State) (k : Nat → Nat → Res) : Res :=
  withOps s [sDst c e.d9.toNat, sRun c e.a9.toNat, sRun c e.b9.toNat] <|
    let i := (c.sVal e.a9.toNat).toNat
    let buf := (c.sVal e.b9.toNat).toNat
    if i = 0 || 2 ^ 20 ≤ i then .raise s Exc.invalidOperand 0
    else if buf % 64 ≠ 0 then .raise s Exc.misalignedAccess buf
    else k i buf

/-- OBJRD. -/
def objrdBody (e : Ext) (c : Ctx) (s : State) : Res :=
  entryArgs e c s fun i buf => storeAt (.objrd e) c s buf (s.entryBytes i) id fun s => sysDone e c (s.bumpSfr c) 0

/-- OBJWR.
DEDUCED, unsafe: notes/assumptions/52.md. -/
def objwrBody (e : Ext) (c : Ctx) (s : State) : Res :=
  entryArgs e c s fun i buf =>
    postRead (.objwr e) 0 [(buf, 128)] c s fun vals s =>
      let s := s.dropEngReqs c.w.id.handle (c.who.half + 2)
      let bs := granBytes vals buf 128
      if !entryOk bs then .raise s Exc.object (4 + 256 * 3)
      else match s.writeEntry i bs with
        | .inr why => .raise s Exc.object why
        | .inl (v, s) => sysDone e c (s.bumpSfr c) v

/-! ### The matrix state image (R158, R266, R267) -/

/-- A command that has not fired (R158). -/
def Cmd.unfired (x : Cmd) : Bool :=
  match x.st with
  | .queued => true
  | _ => false

/-- A command of the block has fired and not completed: a save waits for it (R158).
DEDUCED, safe: notes/assumptions/50.md. -/
def State.firedWork (s : State) (core blk : Nat) : Bool :=
  ((s.core core).fifo ++ (s.core core).copyq).any fun x => x.poster.blk == some blk && !x.unfired

/-- The matrix state, channels and unfired commands of a block. -/
def State.engines (s : State) (core blk : Nat) : BlkImage where
  mset := (s.core core).msets.find? fun m => m.owner == some blk
  chans := (s.core core).chans.filter fun (x : Nat × Chan) => x.2.holder = blk
  fifo := (s.core core).fifo.filter fun x => x.poster.blk == some blk && x.unfired
  copyq := (s.core core).copyq.filter fun x => x.poster.blk == some blk && x.unfired

/-- They leave the core: the set and the channels are free. -/
def State.dropEngines (s : State) (core blk : Nat) : State :=
  let s := s.updCore core fun k =>
    { k with
      msets := k.msets.map fun m => if m.owner = some blk then MSet.fresh none else m
      chans := k.chans.filter fun (x : Nat × Chan) => x.2.holder ≠ blk
      fifo := k.fifo.filter fun x => !(x.poster.blk == some blk && x.unfired)
      copyq := k.copyq.filter fun x => !(x.poster.blk == some blk && x.unfired) }
  s.updBlock blk fun k => { k with mset := none }

/-- Commands posted again in order (R267): each keeps the number it was posted under and takes a new place. -/
def State.repost (s : State) (core : Nat) (fifo : Bool) (xs : List Cmd) : State :=
  xs.foldl (fun s x =>
    let (n, s) := s.tick
    s.updCore core fun k =>
      if fifo then { k with fifo := k.fifo ++ [{ x with n := n }] } else { k with copyq := k.copyq ++ [{ x with n := n }] }) s

/-- The core can take a block's matrix state: a free set if it has one, its channels free, room for its commands. -/
def State.enginesFit (s : State) (core : Nat) (im : BlkImage) : Bool :=
  let k := s.core core
  (im.mset.isNone || k.msets.any fun m => m.owner.isNone) && (im.chans.all fun (x : Nat × Chan) => (Sparse.get? x.1 k.chans).isNone) &&
    k.fifo.length + im.fifo.length ≤ 64 && k.copyq.length + im.copyq.length ≤ 32

/-- A block's matrix state, channels and commands restored at a core; its credits follow its commands (R145). -/
def State.putEngines (s : State) (core blk : Nat) (im : BlkImage) : State :=
  let free := (s.core core).msets.findIdx? fun m => m.owner.isNone
  let s := match im.mset, free with
    | some m, some i => (s.updCore core fun k => { k with msets := updAt (fun _ => { m with owner := some blk }) i k.msets }).updBlock blk
        fun k => { k with mset := some i }
    | _, _ => s
  let s := s.updCore core fun k => { k with chans := im.chans.foldl (fun m (x : Nat × Chan) => Sparse.put x.1 x.2 m) k.chans }
  let ids := (im.fifo ++ im.copyq).map (·.id)
  let s := match s.block? blk with
    | some b => s.updLaunch b.launch fun l => { l with bars := l.bars.map fun (x : Nat × Bar) =>
        (x.1, { x.2 with credits := x.2.credits.map fun (y : Nat × Nat × Nat) => if ids.contains y.2.1 then (core, y.2) else y }) }
    | none => s
  (s.repost core true im.fifo).repost core false im.copyq

/-- A command has a tensor shape record: it is a CPY. -/
def Cmd.shaped (x : Cmd) : Bool := match x.ins with | .cpy _ => true | _ => false
/-- The registers a command read at posting are scales: not those that an ACCWR writes. -/
def Cmd.scaled (x : Cmd) : Bool := match x.ins with | .accwr _ => false | _ => true

/-- A command record (R266). A command with two channel reservations shows the first.
DESIGN CHOICE, unsafe: notes/assumptions/51.md. -/
def Cmd.bytes (x : Cmd) : List Byte :=
  let ws := encode x.ins
  let regs := if x.scaled then x.regs else []
  let shape := if x.shaped then x.record else []
  ((List.range 5).flatMap fun k => leBytes 4 (ws.getD k 0).toNat) ++ leBytes 4 ((x.resv.head?.map fun q => q.2.num).getD 0) ++
    leBytes 8 x.pc.toNat ++ ((List.range 9).flatMap fun k => leBytes 8 (x.scal.getD k 0).toNat) ++ List.replicate 88 0 ++
    ((List.range 64).map fun k => shape.getD k 0) ++
    (List.range 8).flatMap fun k => leBytes 256 ((regs.getD k VReg.zero).data.toNat)

/-- A channel record (R266).
DESIGN CHOICE, unsafe: notes/assumptions/51.md. -/
def Chan.bytes (k : Chan) : List Byte :=
  let waiting := k.resv.filterMap fun r => if r.granted then none else r.wave.map fun i => (i, r)
  leBytes 4 k.base ++ leBytes 4 k.size ++ ([BitVec.ofNat 8 k.n, BitVec.ofNat 8 k.p, BitVec.ofNat 8 k.c, 0] : List Byte) ++ leBytes 4 k.pr ++
    leBytes 4 k.gr ++ List.replicate 44 0 ++
    ((List.range 64).flatMap fun i =>
      let x := k.slots.getD i ⟨0, 0, 0, 0⟩
      leBytes 4 x.fills ++ leBytes 4 x.empties ++ leBytes 2 x.pc ++ leBytes 2 x.gc) ++
    ((List.range 62).flatMap fun i => match waiting[i]? with
      | some (w, r) => leBytes 1 w ++ leBytes 3 (b2n !r.put) ++ leBytes 4 r.num
      | none => leBytes 8 0xFF00) ++
    List.replicate 720 0

/-- A matrix state image (R266, R267). -/
def BlkImage.matrix (im : BlkImage) : List Byte :=
  let m := im.mset.getD (MSet.fresh none)
  let held := pack 1 ((List.range 16).map fun n => b2n (Sparse.get? n im.chans).isSome)
  let hdr := 2 ^ 56 + im.fifo.length * 2 ^ 49 + im.copyq.length * 2 ^ 43 + held
  let cmds := im.fifo ++ im.copyq
  let z (n : Nat) : List Byte := List.replicate n 0
  leBytes 8 hdr ++ z 56 ++ ((List.range 64).map fun n => ((m.tags.getD n 0).setWidth 8 : Byte)) ++
    ((List.range 16).flatMap fun n => match Sparse.get? n im.chans with
      | some k => Chan.bytes k
      | none => z 2048) ++
    Sparse.range (0 : Byte) m.tiles 0 131072 ++ ((Sparse.range (0 : Word) m.accs 0 65536).flatMap fun (v : Word) => leBytes 4 v.toNat) ++
    cmds.flatMap Cmd.bytes ++ z ((96 - cmds.length) * 2304)

/-- The size of a matrix state image. -/
def matrixSize : Nat := 0x9E080

/-- A command read back from its record; what the record does not hold comes from the command that was saved, or is what a
posting by the wave given leaves. A CPY among the FIFO records is a follow-on MMA (R153).
DESIGN CHOICE, unsafe: notes/assumptions/51.md. -/
def readCmd (bs : List Byte) (old : Option Cmd) (poster : Poster) (fifo : Bool) : Option Cmd :=
  match decode (bs.take 20) with
  | .error _ => none
  | .ok (i, _) =>
    let old := match old with | some x => if x.ins = i then some x else none | none => none
    let base : Cmd := old.getD ⟨0, 0, i, 0, poster, allLanes, [], [], [], [], .queued, [], false, 0⟩
    some { base with
      pc := BitVec.ofNat 64 (field bs 0x18 8)
      scal := (List.range 9).map fun k => BitVec.ofNat 64 (field bs (0x20 + 8 * k) 8)
      resv := base.resv.zipIdx.map fun q => if q.2 = 0 then (q.1.1, { q.1.2 with num := field bs 0x14 4 }) else q.1
      follow := base.shaped && fifo
      record := if base.shaped then (bs.drop 0xC0).take 64 else base.record
      regs := if base.scaled then
          (List.range 8).map fun k => ⟨BitVec.ofNat 2048 (field bs (0x100 + 256 * k) 256), (base.regs.getD k VReg.zero).tag⟩
        else base.regs }

/-- A channel read back from its record, with the reservations the record does not hold.
DESIGN CHOICE, unsafe: notes/assumptions/51.md. -/
def readChan (bs : List Byte) (old : Option Chan) (blk : Nat) : Chan :=
  let n := field bs 8 1
  let kept := ((old.map (·.resv)).getD []).filter fun r => r.granted || r.wave.isNone
  let waiting : List Resv := (List.range 62).filterMap fun i =>
    let a := 0x340 + 8 * i
    if field bs (a + 1) 1 ≤ 1 then some ⟨field bs (a + 1) 1 == 0, field bs (a + 4) 4, false, some (field bs a 1)⟩ else none
  { holder := blk, base := field bs 0 4, size := field bs 4 4, n := n, p := field bs 9 1, c := field bs 10 1
    pr := field bs 0xC 4, gr := field bs 0x10 4
    slots := (List.range n).map fun i =>
      let a := 0x40 + 12 * i
      ⟨field bs a 4, field bs (a + 4) 4, field bs (a + 8) 2, field bs (a + 10) 2⟩
    resv := kept ++ waiting }

/-- A matrix state image read back (R267); none where it is refused. -/
def readMatrix (bs : List Byte) (old : BlkImage) (blk : Nat) (poster : Poster) : Option BlkImage :=
  let hdr := field bs 0 8
  let nf := bits hdr 55 49
  let nc := bits hdr 48 43
  if bits hdr 63 56 ≠ 1 || nf + nc > 96 || nf > 64 || nc > 32 || bits hdr 42 16 ≠ 0 || field bs 8 56 ≠ 0 then none
  else
    let cmd (k : Nat) (o : Option Cmd) : Option Cmd := readCmd ((bs.drop (0x68080 + 2304 * k)).take 2304) o poster (k < nf)
    let fifo := (List.range nf).map fun k => cmd k old.fifo[k]?
    let copyq := (List.range nc).map fun k => cmd (nf + k) old.copyq[k]?
    if (fifo ++ copyq).any (·.isNone) then none
    else
      let tags : List (BitVec 4) := (List.range 12).map fun n => BitVec.ofNat 4 (field bs (0x40 + n) 1)
      let m : MSet :=
        { owner := some blk
          tiles := (List.range 131072).foldl (fun t k => Sparse.set 0 t k (BitVec.ofNat 8 (field bs (0x8080 + k) 1))) []
          accs := (List.range 65536).foldl (fun t k => Sparse.set 0 t k (BitVec.ofNat 32 (field bs (0x28080 + 4 * k) 4))) []
          tags := tags
          posted := (old.mset.map (·.posted)).getD tags
          bad := [] }
      some { old with
        mset := some m
        chans := (List.range 16).filterMap fun n =>
          if hdr / 2 ^ n % 2 = 1 then
            some (n, readChan ((bs.drop (0x80 + 2048 * n)).take 2048) (Sparse.get? n old.chans) blk)
          else none
        fifo := fifo.filterMap id
        copyq := copyq.filterMap id }

/-! ### CTXSV and CTXLD (R351, R352) -/

/-- Every other wave of a block is non-resident or trapped (R352). -/
def State.blockStopped (s : State) (blk : Nat) (h : BitVec 32) : Bool :=
  (s.blockWaves blk).all fun x => x.2.2.id.handle == h || x.2.2.traps != 0

/-- The matrix state image of a wave's block written, the set and the channels freed (R352); a wave of no block has none. -/
def State.saveMatrix (s : State) (core : Nat) (blk : Option Nat) (at' : Nat) : State :=
  match blk with
  | none => s
  | some b =>
    let im := s.engines core b
    let s := (s.dropEngines core b).setBytes at' im.matrix
    s.updBlock b fun k => { k with image := some im }

/-- CTXSV: it takes effect at a chain boundary of the wave, once the answers it awaits from the League have come (R278) and
the commands of its block that have fired are done (R158); until then the instruction is tried again.
DEDUCED, safe: notes/assumptions/50.md. -/
def ctxsvBody (e : Ext) (c : Ctx) (s : State) : Res :=
  let keep := e.m 0 1 = 1
  let mst := e.m 1 1 = 1
  let (b, g) := (e.b9.toNat, e.c9.toNat)
  withOps s [sDst c e.d9.toNat, sRun c e.a9.toNat, { sRun c b with valid := (sRun c b).valid && (keep || b == 320) },
      if mst then sRun c g else OpOk.yes] <|
    let h := c.handle e.a9.toNat
    match s.waveFault h with
    | some why => .raise s Exc.object why
    | none =>
      match s.resident h, s.waveOf h with
      | some (core, slot), some w =>
        if core ≠ c.who.core then sysDone e c s 1
        else
          let stopped := match w.id.blk with | some k => s.blockStopped k h | none => true
          let fired := match w.id.blk with | some k => mst && s.firedWork core k | none => false
          if (keep && w.traps = 0) || (mst && !stopped) then .raise s Exc.invalidOperand 0
          else if !s.stoppable core slot || fired then .wait (if keep then s.askBack h else s.haltWave core slot)
          else
            let at' := (c.sVal b).toNat
            let done (s : State) : Res :=
              sysDone e c (if mst then s.saveMatrix core w.id.blk (c.sVal g).toNat else s) 0
            if !keep then
              let s := s.saveWave core slot
              done (if w.traps = 0 && w.id.blk.isNone then s.readyWave h else s)
            else if b = 320 then done (s.keepImage h)
            else
              -- the image is that of the wave as it stands at the first attempt, whatever time the store takes
              let t := if c.progress.k ≠ 0 then c.progress.k - 1 else s.now
              let w := ((s.halt core slot).wave? core slot).getD w
              storeAt (.ctxsv e) c (s.setProg c 0 (t + 1)) at' (w.image t) id fun s => done (s.halt core slot)
      | _, _ => sysDone e c s 1

/-- An image loaded into a slot, its matrix state with it.
DEDUCED, unsafe: notes/assumptions/40.md. -/
def ctxldLoad (e : Ext) (h : BitVec 32) (bs : List Byte) (c : Ctx) (s : State) : Res :=
  let core := c.who.core
  match s.named h with
  | some ⟨_, _, _, _, .wave _ _ none (some w) _ none _⟩ =>
    let blk := if e.m 1 1 = 1 then w.id.blk else none
    let poster : Poster := ⟨h, 0, w.id.lvls.getD 1 0, w.id.proc, w.id.sc, w.id.blk, w.id.gang, 0, core, none⟩
    let old : BlkImage := ((blk.bind s.block?).bind (·.image)).getD ⟨none, [], [], []⟩
    let im : Option (Option BlkImage) := match blk with
      | none => some none
      | some b => (readMatrix (s.bytes (c.sVal e.c9.toNat).toNat matrixSize) old b poster).map some
    match imageOk bs, im with
    | true, some im =>
      let fits := match im with | some x => s.enginesFit core x | none => true
      match if core = mgmtCore then none else s.freeSlot core with
      | some slot =>
        if !s.poolFor core (headerHold (field bs 0 8)) || !fits then sysDone e c s 1
        else match (s.unqueue (.inl h)).loadIn core slot h bs with
          | none => .raise s Exc.invalidOperand 0
          | some s =>
            let s := s.updWave core slot fun w =>
              if e.m 0 1 = 1 then { w with traps := 0, trap := none, due := [] } else { w with traps := max 1 w.traps }
            let s := match blk, im with
              | some b, some x => (s.putEngines core b x).updBlock b fun k => { k with core := core, image := none }
              | _, _ => s
            sysDone e c s (slot * 256)
      | none => sysDone e c s 1
    | _, _ => .raise s Exc.invalidOperand 0
  | _ => sysDone e c s 1

/-- CTXLD: a wave that is resident or has ended has no image to load, and sD ← 1.
DEDUCED, unsafe: notes/assumptions/40.md. -/
def ctxldBody (e : Ext) (c : Ctx) (s : State) : Res :=
  let b := e.b9.toNat
  withOps s [sDst c e.d9.toNat, sRun c e.a9.toNat, sRun c b, if e.m 1 1 = 1 then sRun c e.c9.toNat else OpOk.yes] <|
    let h := c.handle e.a9.toNat
    match s.waveFault h, s.named h with
    | some why, _ => .raise s Exc.object why
    | none, some ⟨_, _, _, _, .wave image _ _ _ _ _ _⟩ =>
      if b = 320 then
        let hold := headerHold (s.num image.toNat 8)
        ctxldLoad e h (s.bytes image.toNat (imageSize (holdCount hold))) c s
      else
        let at' := (c.sVal b).toNat
        postRead (.ctxld e) 0 [(at', 8)] c s fun vals s =>
          let n := imageSize (holdCount (headerHold (leNat (granBytes vals at' 8))))
          postRead (.ctxld e) 0 [(at', n)] c s fun vals s =>
            ctxldLoad e h (granBytes vals at' n) c (s.dropEngReqs c.w.id.handle (c.who.half + 2))
    | none, _ => sysDone e c s 1

/-! ### Events -/

/-- The split of a core's slot-0 wave that waits in an instruction of a kind. -/
def State.agentWait (s : State) (core : Nat) (f : Instr → Bool) : Option Who :=
  (s.wave? core 0).bind fun w => w.halves.zipIdx.findSome? fun (h : Half × Nat) => h.1.paths.zipIdx.findSome? fun (p : Path × Nat) =>
    match p.1.wait with
    | .on i _ => if f i then some (⟨core, 0, h.2, p.2⟩ : Who) else none
    | _ => none

/-- The agent that waits for tokens goes on when they are free (R297, R408). -/
def State.grantAgent (s : State) (core : Nat) : State :=
    match s.agentWait core fun i => match i with | .pwracq _ => true | _ => false with
    | some a => s.resume a fun i => match i with
      | .pwracq e => some (some e, pwracqBody e)
      | _ => none
    | none => s

/-- IDLE returns when an event is latched (R374). -/
def State.wakeIdle (s : State) (core : Nat) : State :=
  match s.agentWait core fun i => match i with | .idle _ => true | _ => false with
  | some a => s.resume a fun i => match i with
    | .idle e => some (some e, idleWaitBody e)
    | _ => none
  | none => s

/-- An outstanding instruction of a wave has written its results (R95): later reads see them. -/
def State.retire' (s : State) (core slot n : Nat) : State :=
  s.updWave core slot fun w => { w with pend := w.pend.eraseIdx n }

/-- SRD (R421). -/
def execSrd (e : Ext) (s : State) : Host.Outcome State Fault Refusal :=
  runWave (.srd e) (some e) (srdBody e) s

/-- CRD (R350). -/
def execCrd (e : Ext) (s : State) : Host.Outcome State Fault Refusal :=
  runWave (.crd e) (some e) (crdBody e) s

/-- CWR (R350). -/
def execCwr (e : Ext) (s : State) : Host.Outcome State Fault Refusal :=
  runWave (.cwr e) (some e) (cwrBody e) s

/-- KTCODE POP (R254). -/
def execKtcodePop (e : Ext) (s : State) : Host.Outcome State Fault Refusal :=
  runWave (.ktcodePop e) (some e) (cwrBody e) s

/-- KMODE INTLK WRITE (R94). -/
def execKmodeIntlkWrite (e : Ext) (s : State) : Host.Outcome State Fault Refusal :=
  runWave (.kmodeIntlkWrite e) (some e) (cwrBody e) s

/-- RFT (R414). -/
def execRft (e : Ext) (s : State) : Host.Outcome State Fault Refusal :=
  runWave (.rft e) (some e) (rftBody e) s

/-- CTXSV (R352). -/
def execCtxsv (e : Ext) (s : State) : Host.Outcome State Fault Refusal :=
  runWave (.ctxsv e) (some e) (ctxsvBody e) s

/-- CTXLD (R351). -/
def execCtxld (e : Ext) (s : State) : Host.Outcome State Fault Refusal :=
  runWave (.ctxld e) (some e) (ctxldBody e) s

/-- TLBINV (R429). -/
def execTlbinv (e : Ext) (s : State) : Host.Outcome State Fault Refusal :=
  runWave (.tlbinv e) (some e) (tlbinvBody e) s

/-- IDLE (R374). -/
def execIdle (e : Ext) (s : State) : Host.Outcome State Fault Refusal :=
  runWave (.idle e) (some e) (idleWaitBody e) s

/-- OBJRD (R400). -/
def execObjrd (e : Ext) (s : State) : Host.Outcome State Fault Refusal :=
  runWave (.objrd e) (some e) (objrdBody e) s

/-- OBJWR (R400). -/
def execObjwr (e : Ext) (s : State) : Host.Outcome State Fault Refusal :=
  runWave (.objwr e) (some e) (objwrBody e) s

/-- PWRACQ (R408). -/
def execPwracq (e : Ext) (s : State) : Host.Outcome State Fault Refusal :=
  runWave (.pwracq e) (some e) (pwracqBody e) s

/-- PWRREL (R408). -/
def execPwrrel (e : Ext) (s : State) : Host.Outcome State Fault Refusal :=
  runWave (.pwrrel e) (some e) (pwrrelBody e) s

/-- MGSIG (R386). -/
def execMgsig (e : Ext) (s : State) : Host.Outcome State Fault Refusal :=
  runWave (.mgsig e) (some e) (mgsigBody e) s

/-- IDLE_WAKE (R374). -/
def execIdleWake (core : Nat) (s : State) : Host.Outcome State Fault Refusal :=
  .next (s.wakeIdle core)

/-- REGISTER_RESULTS_WRITTEN (R95). -/
def execRegisterResultsWritten (core slot n : Nat) (s : State) : Host.Outcome State Fault Refusal :=
  .next (s.retire' core slot n)

end Sys2Proof.Machine
end

