-- ==== Sys2Proof/Machine/Blocks.lean ====
section
/-!
DEFINITION. Blocks and residency: the units a launch binds (R38), placing a block (R296), the kernel unit's choice and
refill (R231 to R233), scheduling contexts (R241), pre-emption and restore (R46, R47, R246, R262 to R265, R459).
-/

namespace Sys2Proof.Machine

/-! ### What a launch record says of its blocks (R34, R38, R40, R294) -/

/-- The handle of a launch's process. -/
def Launch.proc (l : Launch) : BitVec 32 := BitVec.ofNat 32 (field l.record 4 4)
/-- SCX. -/
def Launch.scx (l : Launch) : Nat := bits (field l.record 0 8) 31 24
/-- ENTRY. -/
def Launch.entry (l : Launch) : Nat := field l.record 8 8
/-- The word of bytes 112 to 119. -/
def Launch.res (l : Launch) : Nat := field l.record 112 8
/-- REGS. -/
def Launch.regs (l : Launch) : BitVec 4 := BitVec.ofNat 4 (bits l.res 3 0)
/-- SPAD, in bytes. -/
def Launch.spad (l : Launch) : Nat := 16 * bits l.res 21 4
/-- MSTATE. -/
def Launch.mstate (l : Launch) : Bool := bits l.res 22 22 == 1
/-- TOKENS. -/
def Launch.tokens (l : Launch) : Nat := bits l.res 30 23
/-- IDEM. -/
def Launch.idem (l : Launch) : Bool := bits l.res 31 31 == 1
/-- HINT, in microseconds. -/
def Launch.hint (l : Launch) : Nat := bits l.res 47 32
/-- A ganged launch: level 0 has extent 32 (R34), which R36 allows exactly where the code object's GANG flag is set
(`Launch.levelsOk`). -/
def Launch.gang (l : Launch) : Bool := Level.extent (l.level 0) == 32
/-- The native waves of a block. -/
def Launch.waves (l : Launch) : Nat :=
  let n := Level.extent (l.level 1)
  if l.gang then (n + 1) / 2 else n

/-- The cores of the rectangle, ascending (R40). -/
def Launch.cores (l : Launch) : List Nat :=
  let (c, r, w, h) := (field l.record 96 1, field l.record 97 1, field l.record 98 1, field l.record 99 1)
  (List.range 128).filter fun k => c ≤ k % 16 && k % 16 < c + w && r ≤ k / 16 && k / 16 < r + h

/-- The core, cluster or die of a core, by DOMAIN 1, 2 or 3. -/
def unitOf (dom core : Nat) : Nat := if dom = 1 then core else if dom = 2 then clusterOf core else dieOf core
/-- The units of a kind in the rectangle, ascending (R38). -/
def Launch.units (l : Launch) (dom : Nat) : List Nat := (List.range 128).filter fun u => l.cores.any fun k => unitOf dom k == u

/-- The levels that bind instances (R38). -/
def Launch.binding (l : Launch) : List Nat :=
  (List.range l.nlvl).filter fun k => 2 ≤ k && 1 ≤ Level.domain (l.level k) && Level.domain (l.level k) ≤ 3

/-- A core lies inside every unit a ticket is bound to, and inside the rectangle (R38, R40). -/
def Launch.allows (l : Launch) (t core : Nat) : Bool :=
  l.cores.contains core && l.binding.all fun k =>
    let d := Level.domain (l.level k)
    let us := l.units d
    us.getD (t / l.span k % us.length) 128 == unitOf d core

/-- A core's counter: the position of its unit at the lowest binding level, or 0 (R296). -/
def Launch.counterOf (l : Launch) (core : Nat) : Nat :=
  match l.binding.head? with
  | none => 0
  | some k =>
    let d := Level.domain (l.level k)
    ((l.units d).findIdx? fun u => u = unitOf d core).getD 0

/-- The number of tickets bound to a counter's unit, and the c-th of them (R296): instances lie at every U-th place. -/
def Launch.bound (l : Launch) (peer u c : Nat) : Nat × Nat :=
  let (lo, len) := l.localRange peer
  match l.binding.head? with
  | none => (len, lo + c)
  | some k =>
    let n := (l.units (Level.domain (l.level k))).length
    let span := l.span k
    let first := lo / span
    let skip := (u + n - first % n) % n
    let insts := len / span
    (span * (if skip < insts then (insts - skip + n - 1) / n else 0), (first + skip + n * (c / span)) * span + c % span)

/-- The scheduling context of an index. -/
def State.contextAt (s : State) (idx : Nat) : Option (Nat × Obj) :=
  s.kern.objs.find? fun (x : Nat × Obj) => match x.2.body with | .sctx _ _ _ _ _ i _ _ _ => i == idx | _ => false
/-- Its handle. -/
def State.contextHandle (s : State) (idx : Nat) : BitVec 32 :=
  match s.contextAt idx with
  | some (i, o) => mkHandle 6 o.gen i
  | none => 0

/-! ### What a core offers (R61, R246, R296, R459) -/

/-- The free slots of a core in which a block's waves may be placed: no other block takes the slots of a draining one
(R265). -/
def State.blockSlots (s : State) (core : Nat) : List Nat :=
  let kept := s.host.blocks.flatMap fun (x : Nat × Block) =>
    if x.2.st = .placed && x.2.core = core && x.2.drainUntil.isSome then x.2.slots else []
  ((List.range 31).map (· + 1)).filter fun k => (s.wave? core k).isNone && !kept.contains k &&
    !((s.core core).draining.any fun d => d.slot == k && d.blk == 0)

/-- A scratchpad range of a core belongs to no block. -/
def State.spadFree (s : State) (core base len : Nat) : Bool :=
  base + len ≤ spadSize && s.host.blocks.all fun (x : Nat × Block) =>
    let b := x.2
    !(b.st == .placed && b.core == core && base < b.spadBase + b.spadLen && b.spadBase < base + len && len != 0)

/-- Where a new allocation starts: the manual does not say which free range is taken.
DESIGN CHOICE, safe: notes/assumptions/55.md. -/
def State.spadChoice (s : State) (core len : Nat) : Option Nat :=
  let first := 16 * (Config.which s.free 379 % (spadSize / 16))
  if len = 0 then some 0
  else if s.spadFree core first len then some first
  else ((List.range (spadSize / 16)).map (16 * ·)).find? fun a => s.spadFree core a len

/-- Tokens can be granted at once: none waits before (R297).
DEDUCED, safe: notes/assumptions/58.md. -/
def State.tokensFree (s : State) (n : Nat) : Bool := n = 0 || (s.tokWait.isEmpty && n ≤ s.poolFree)

/-- A core of the launch has room for a new block of it: slots, extended blocks, scratchpad and matrix set (R296). -/
def State.placeRoom (s : State) (l : Launch) (core : Nat) : Bool :=
  l.waves ≤ (s.blockSlots core).length && l.waves * holdCount l.regs ≤ (s.core core).spare && (s.spadChoice core l.spad).isSome &&
    (!l.mstate || (s.core core).msets.any (·.owner.isNone))
/-- It has room for one, and the pool can grant its tokens (R246). -/
def State.placeFits (s : State) (l : Launch) (core : Nat) : Bool :=
  s.placeRoom l core && (!l.mstate || s.tokensFree l.tokens)

/-- The saved waves of a block. -/
def State.savedWaves (s : State) (b : Block) : List Wave := b.waves.filterMap s.waveOf

/-- A core can take a waiting block (R246): saved, or flushed and to be placed anew. -/
def State.blockFits (s : State) (k core : Nat) : Bool :=
  match s.block? k with
  | none => false
  | some b =>
    match s.launch? b.launch with
    | none => false
    | some l =>
      l.allows b.ticket core &&
        match b.st, b.image with
        | .flushed, _ => s.placeFits l core
        | .saved, some im =>
          let ws := s.savedWaves b
          ws.length ≤ (s.blockSlots core).length && (ws.map fun w => holdCount (s.imageHold w.id.handle)).sum ≤ (s.core core).spare &&
            s.spadFree core b.spadBase b.spadLen && s.enginesFit core im && s.tokensFree (if l.mstate then l.tokens else 0)
        | _, _ => false

/-! ### Placing a block (R26, R34, R53, R55, R185, R294, R296, R379) -/

/-- A wave of a block as it is placed: j its number among the block's native waves. -/
def placedWave (s : State) (l : Launch) (blk t core j : Nat) (h : BitVec 32) (base : Nat) : Wave :=
  let n := Level.extent (l.level 1)
  let id : WaveId :=
    { handle := h, proc := l.proc, sc := s.contextHandle l.scx, kind := .block, blk := some blk
      lvls := [0, j] ++ ((List.range 6).map fun k => l.index t (k + 2)), gang := l.gang
      codeBase := BitVec.ofNat 64 l.entry, placement := 0, home := core, pinned := false, made := s.kern.made, handles := none }
  let tid (x : Nat) : Nat :=
    t % 2 ^ 21 * 2 ^ 11 + if l.gang then (2 * j + x / 32) * 32 + x % 32 else j * 64 + x
  let args : List (BitVec 64) := [BitVec.ofNat 64 (field l.record 16 8), BitVec.ofNat 64 t, BitVec.ofNat 64 base]
  let pc : Dword := BitVec.ofNat 64 l.entry
  if l.gang then
    let absent := n ≤ 2 * j + 1
    let second := if absent then 0 else halfLanes true 1
    let w := Wave.fresh id l.regs args tid [Half.fresh pc (halfLanes true 0) false, Half.fresh pc second absent] s.now
    let w := args.zipIdx.foldl (fun (w : Wave) x => w.setS 1 (x.2 + 1) x.1) w
    { w with exited := if absent then halfLanes true 1 else 0 }
  else Wave.fresh id l.regs args tid [Half.fresh pc allLanes false] s.now

/-- One wave of a block placed in a slot, with its object. -/
def State.placeOne (s : State) (l : Launch) (blk t core slot j base : Nat) : State :=
  match s.freeIndex with
  | none => s
  | some i =>
    let gen := ((s.obj? i).map (·.gen)).getD 0
    let h := mkHandle 2 gen i
    let w := placedWave s l blk t core j h base
    let tdi := ((s.named l.proc).map (·.tdi)).getD 0xFF
    let s := { s with kern := { s.kern with made := s.kern.made + 1 } }
    let s := s.setObj i ⟨gen, BitVec.ofNat 20 (hIndex l.proc), 1, tdi,
      .wave (BitVec.ofNat 64 (s.imageAddr i)) s.now (some (core, slot)) none none none none⟩
    let s := s.updCore core fun k => { k with pool := k.pool - holdCount l.regs }
    let s := (s.flushUnit core (waveUnit core slot) fun _ => true).setWave core slot w
    s.updBlock blk fun b => { b with waves := b.waves ++ [h] }

/-- A block's tokens taken by the agent of its core (R296, R297).
DEDUCED, safe: notes/assumptions/58.md. -/
def State.takeTokens (s : State) (core n : Nat) : State := ({ s with poolFree := s.poolFree - n }).addHeld core n true

/-- Every granule of a scratchpad range empty (R185). -/
def Core.emptied (k : Core) (base len : Nat) : Core :=
  let out (g : Nat) : Bool := !(base ≤ 16 * g && 16 * g < base + len)
  { k with
    fe := k.fe.filter fun (x : Nat × Bool) => out x.1
    feWoke := k.feWoke.filter fun (x : Nat × Nat) => out x.1
    feQuiet := k.feQuiet.filter fun (x : Nat × Nat) => out x.1 }

/-- A block placed on a core (R296): what it holds reads as R53, R55 and R185 say. -/
def State.placeBlock (s : State) (l : Launch) (blk core : Nat) : State :=
  match s.block? blk with
  | none => s
  | some b =>
    let base := (s.spadChoice core l.spad).getD 0
    let slots := (s.blockSlots core).take l.waves
    let tok := if l.mstate then l.tokens else 0
    let s := ((s.acquire core 4).takeTokens core tok).updCore core fun k => k.emptied base l.spad
    let set := if l.mstate then (s.core core).msets.findIdx? fun m => m.owner.isNone else none
    let s := match set with
      | some i => s.updCore core fun k => { k with msets := updAt (fun _ => MSet.fresh (some blk)) i k.msets }
      | none => s
    let s := s.updBlock blk fun b =>
      { b with
        core := core, st := .placed, waves := [], spadBase := base, spadLen := l.spad, mset := set, tokens := tok
        idem := l.idem, placedAt := s.now, drainUntil := none, leaving := none, slots := slots, image := none }
    let s := { s with free := s.free + 1 }
    slots.zipIdx.foldl (fun s x => s.placeOne l blk b.ticket core x.1 x.2 base) s

/-- Entries of the object table are free for n waves. -/
def State.roomFor (s : State) (n : Nat) : Bool :=
  (s.kern.objs.filter fun (x : Nat × Obj) => x.2.body.type != 0).length + n ≤ 2 ^ 20 - 1

/-- Where the ticket counters of a launch lie, under key slot 0 (R296).
DESIGN CHOICE, unsafe: notes/assumptions/26.md. -/
def counterAddr (li u : Nat) : Nat := 0x7800000000 + li % 2 ^ 20 * 1024 + 8 * u
/-- A ticket counter (R296). -/
def State.counter (s : State) (li u : Nat) : Nat := s.num (counterAddr li u) 8

/-- The thermal weight of a core's agent (R296).
DEDUCED, safe: notes/assumptions/92.md. -/
def State.thermalWeight (s : State) (core : Nat) : Nat :=
  let k := (s.core core).ctl
  min 7 ((k.temp.toNat - 680) / 16 + k.droop.toNat / 4)

/-- The agent of a core has claimed a ticket and waits for its tokens. -/
def State.claiming (s : State) (core : Nat) : Bool :=
  s.host.blocks.any fun (x : Nat × Block) => x.2.st == .claimed && x.2.core == core

/-- The claim of a core's agent: its ATOM.add.acq_rel.pkg on the counter, and the block of the ticket that it names, placed at
once where the pool grants its tokens, or else when they come (R296). It counts for the agents that wait for others' claims.
DEDUCED, safe: notes/assumptions/92.md. -/
def State.claimNow (s : State) (core li : Nat) (l : Launch) : State :=
  let u := l.counterOf core
  let c := s.counter li u
  let (count, t) := l.bound s.peer.toNat u c
  let s := ((s.release core 4).setNum (counterAddr li u) 8 (c + 1)).acquire core 4
  let tick (x : ClaimWait) : ClaimWait := if l.counterOf x.core = u then { x with left := x.left - 1 } else x
  let s := s.updLaunch li fun l => { l with waits := (l.waits.filter fun x => x.core ≠ core).map tick }
  if count ≤ c then s.updLaunch li fun l => { l with stopped := core :: l.stopped }
  else
    let b := s.host.nextBlock
    let blk : Block :=
      { launch := li, ticket := t, core := core, st := .claimed, waves := [], spadBase := 0, spadLen := 0, mset := none
        tokens := 0, idem := l.idem, placedAt := s.now, enq := s.now, drainUntil := none, leaving := none, slots := []
        engErr := false, engHeld := 0, faulted := false, image := none }
    let s := { s with host := { s.host with nextBlock := b + 1, blocks := Sparse.put b blk s.host.blocks } }
    if l.mstate && !s.tokensFree l.tokens then { s with tokWait := s.tokWait ++ [.block b] } else s.placeBlock l b core

/-- BLOCK_PLACEMENT: the agent of a core goes on with its loop for a launch (R296): nothing while the launch is not open, the
core has no room for a block, its agent waits for tokens or has stopped; a wait for other agents' claims begins, goes on, or
is over; or it claims.
DEDUCED, safe: notes/assumptions/92.md. -/
def State.claim (s : State) (core li : Nat) : State :=
  match s.launch? li with
  | none => s
  | some l =>
    if l.st ≠ .running || !l.cores.contains core || l.stopped.contains core || s.claiming core || !s.placeRoom l core ||
        !s.roomFor l.waves then s
    else
      match l.waits.find? fun x => x.core = core, s.thermalWeight core with
      | none, 0 => s.claimNow core li l
      | none, w => s.updLaunch li fun l => { l with waits := l.waits ++ [⟨core, w, s.now⟩] }
      | some x, _ => if x.left = 0 || x.since + 1000 ≤ s.now then s.claimNow core li l else s

/-- The waiter at the head of the pool's waiters goes on when its tokens are free (R297, R408): a claimed block is placed,
where its core still has room.
DEDUCED, safe: notes/assumptions/58.md. -/
def State.grantTokens (s : State) : State :=
  match s.tokWait with
  | [] => s
  | .agent core :: _ => s.grantAgent core
  | .block b :: rest =>
    match (s.block? b).bind fun k => (s.launch? k.launch).map fun l => (k, l) with
    | some (k, l) =>
      if k.st ≠ .claimed then { s with tokWait := rest }
      else if l.tokens ≤ s.poolFree && s.placeRoom l k.core && s.roomFor l.waves then { s with tokWait := rest }.placeBlock l b k.core
      else s
    | none => { s with tokWait := rest }

/-! ### Restoring a block (R265, R459) -/

/-- The pages under key slot 0 that the agents hold for a block: its matrix state image, then its scratchpad bytes, then the
full-empty bits of their granules (R266, R459).
DESIGN CHOICE, unsafe: notes/assumptions/26.md. -/
def blockPages (blk : Nat) : Nat := 0x7000000000 + blk % 4096 * 0x800000
def spadPages (blk : Nat) : Nat := blockPages blk + 0x100000
def fePages (blk : Nat) : Nat := blockPages blk + 0x400000

/-- A block has matrix state to be saved: its set, a channel or a command. -/
def BlkImage.some' (im : BlkImage) : Bool := im.mset.isSome || !im.chans.isEmpty || !im.fifo.isEmpty || !im.copyq.isEmpty

/-- What the pages of a saved block hold: its matrix state, its scratchpad bytes and the granules that are full; none where
the image is refused (R267). -/
def State.readBlock (s : State) (blk : Nat) (b : Block) (old : BlkImage) : Option (BlkImage × List Byte × List Nat) :=
  let poster : Poster := ⟨0, 0, 0, 0, 0, some blk, false, 0, b.core, none⟩
  let im := if old.some' then
      (readMatrix (s.bytes (blockPages blk) matrixSize) old blk poster).map fun (x : BlkImage) =>
        { x with mset := if old.mset.isSome then x.mset else none }
    else some old
  let fe := leNat (s.bytes (fePages blk) ((b.spadLen / 16 + 7) / 8))
  im.map fun im => (im, s.bytes (spadPages blk) b.spadLen, (List.range (b.spadLen / 16)).filter fun g => fe.testBit g)

/-- Slots for n waves among free ones: the manual does not say which (R265).
DESIGN CHOICE, safe: notes/assumptions/55.md. -/
def slotChoice (free : Nat) : Nat → List Nat → List Nat
  | 0, _ => []
  | n + 1, ks =>
    let i := Config.which (free + n) 265 % ks.length
    (ks[i]?).toList ++ slotChoice free n (ks.eraseIdx i)

/-- A saved block restored whole onto a core, each wave in any free slot (R233, R265, R444). -/
def State.restoreBlock (s : State) (blk core : Nat) : State :=
  match (s.block? blk).bind fun b => (s.launch? b.launch).map fun l => (b, l) with
  | none => s
  | some (b, l) =>
    match b.image.bind fun im => s.readBlock blk b im with
    | none => s
    | some (im, bytes, full) =>
      let tok := if l.mstate then l.tokens else 0
      let slots := slotChoice s.free b.waves.length (s.blockSlots core)
      let s := ({ s with free := s.free + b.waves.length }.takeTokens core tok).updCore core fun k =>
        let k := k.emptied b.spadBase b.spadLen
        { k with
          scratch := Sparse.setRange memDefault k.scratch b.spadBase bytes
          badSpad := k.badSpad.filter fun g => !(b.spadBase ≤ 16 * g && 16 * g < b.spadBase + b.spadLen)
          fe := full.foldl (fun m g => Sparse.put (b.spadBase / 16 + g) true m) k.fe }
      let s := s.updBlock blk fun b =>
        { b with core := core, st := .placed, tokens := tok, placedAt := s.now, drainUntil := none, leaving := none, slots := slots
                 image := none }
      let s := s.putEngines core blk im
      (b.waves.zip slots).foldl (fun s (x : BitVec 32 × Nat) =>
        (s.loadIn core x.2 x.1 (s.imageBytes x.1)).getD s) s

/-- A waiting block taken by a core: restored, or started again from its entry. -/
def State.takeBlock (s : State) (blk core : Nat) : State :=
  match s.block? blk with
  | none => s
  | some b =>
    match b.st, s.launch? b.launch with
    | .flushed, some l => if s.roomFor l.waves then (s.unqueue (.inr blk)).placeBlock l blk core else s
    | .saved, _ => (s.unqueue (.inr blk)).restoreBlock blk core
    | _, _ => s

/-! ### Waves that wait outside (R229, R232, R233) -/

/-- When a wave began to wait: the device time at which its STATE became 2 (R232). -/
def Wave.waitSince (w : Wave) (now : Nat) : Nat := w.waitAt.getD now

/-- The kernel-object instruction a split waits in could go on.
DEDUCED, safe: notes/assumptions/56.md. -/
def State.couldGo (s : State) (w : Wave) (half : Nat) (p : Path) : Bool :=
  match p.wait with
  | .on i _ => match kwaitOf i with
    | some (k, e) =>
      let h := (w.s half (e.a9.toNat - 320)).setWidth 32
      match k, s.named h with
      | .send, some ⟨_, _, _, _, .port cap _ _ ms _⟩ => ms.length < cap
      | .recv, some ⟨_, _, _, _, .port _ _ _ ms _⟩ => !ms.isEmpty
      | .wset, some ⟨_, _, _, _, .wset _ ms⟩ => (s.readyMember ms).isSome
      | _, _ => true
    | none => true
  | _ => true

/-- A wave that waited when it was evicted and could go on now.
DEDUCED, safe: notes/assumptions/56.md. -/
def State.nowReady (s : State) (w : Wave) : Bool :=
  w.traps == 0 && w.halves.zipIdx.any fun (h : Half × Nat) => h.1.paths.any fun p => p.running && !p.arrived && s.couldGo w h.2 p

/-- The evicted waves that wait no longer, by the order in which they began to wait.
DEDUCED, safe: notes/assumptions/56.md. -/
def State.nowReadyWaves (s : State) : List (BitVec 32) :=
  let ws : List (Nat × BitVec 32) := s.kern.objs.filterMap fun (x : Nat × Obj) => match x.2.body with
    | .wave _ _ none (some w) _ none _ =>
      if x.2.state = 2 && w.id.blk.isNone && s.nowReady w then some (w.waitSince s.now, w.id.handle) else none
    | _ => none
  (ws.insertionSort fun a b => a.1 ≤ b.1).map (·.2)

/-- They join their lists, with every step (R233).
DEDUCED, safe: notes/assumptions/56.md. -/
def State.joinLists (s : State) : State := s.nowReadyWaves.foldl State.readyWave s

/-- A resident wave of no block leaves its slot (R232, R241): a trapped one joins no list, one that waits in a kernel-object
instruction joins its list once it could go on, any other joins it at once. -/
def State.evict (s : State) (core slot : Nat) : State :=
  match s.wave? core slot with
  | none => s
  | some w =>
    let h := w.id.handle
    let s := (s.forgetReqs h 0).forgetReqs h 1
    let s := s.saveWave core slot
    if w.traps ≠ 0 || w.id.blk.isSome then s
    else if w.kernWaiting then
      s.updWaveObj h (fun a b c x d e t => .wave a b c (x.map fun (y : Wave) => { y with halves := w.halves }) d e t) (some 2)
    else s.readyWave h

/-! ### The kernel unit's choice (R231, R232) -/

/-- The cores of a cluster. -/
def clusterCores (cl : Nat) : List Nat := (List.range 4).map (coreAt cl)

/-- An entry may run on a core, as its placement or its units allow. -/
def State.mayRun (s : State) (x : BitVec 32 ⊕ Nat) (core : Nat) : Bool :=
  match x with
  | .inl h => match s.waveOf h with | some w => w.id.allows core | none => false
  | .inr b => match (s.block? b).bind fun k => (s.launch? k.launch).map fun l => (k, l) with
    | some (k, l) => l.allows k.ticket core
    | none => false

/-- A core can take an entry (R232): a free slot and the blocks it needs. -/
def State.canTake (s : State) (x : BitVec 32 ⊕ Nat) (core : Nat) : Bool :=
  s.mayRun x core &&
    match x with
    | .inl h => match s.waveOf h with
      | some _ => (s.freeSlot core).isSome && s.poolFor core (s.imageHold h)
      | none => false
    | .inr b => s.blockFits b core

/-- The entries of a cluster's lists, with their ready times. -/
def State.clusterQueue (s : State) (cl : Nat) : List ((BitVec 32 ⊕ Nat) × Nat) :=
  (s.kern.runq.filter fun (r : Nat × List ((BitVec 32 ⊕ Nat) × Nat)) => r.1 / 256 = cl).flatMap fun r => r.2

/-- An entry has one of the cluster's 4096 nodes: no 4096 others became ready before it (R231). -/
def State.noded (s : State) (cl : Nat) (x : (BitVec 32 ⊕ Nat) × Nat) : Bool :=
  let q := s.clusterQueue cl
  let at' := (q.findIdx? fun y => y.1 == x.1).getD 0
  q.length ≤ 4096 || (q.zipIdx.countP fun y => y.1.2 < x.2 || (y.1.2 == x.2 && y.2 < at')) < 4096

/-- The entries of a cluster's list for a context, those with nodes. -/
def State.entries (s : State) (cl idx : Nat) : List (BitVec 32 ⊕ Nat) :=
  ((Sparse.get [] s.kern.runq (256 * cl + idx)).filter (s.noded cl)).map (·.1)

/-- The contexts a kernel unit looks at: live, with remaining budget, by deadline and then index (R232): deadline, index. -/
def State.funded (s : State) : List (Nat × Nat) :=
  s.kern.objs.filterMap fun (x : Nat × Obj) => match x.2.body with
    | .sctx _ _ _ dl left i _ _ u => if left ≠ 0 && !u then some (dl, i) else none
    | _ => none

/-- The earliest of some contexts. -/
def earliest (xs : List (Nat × Nat)) : Option (Nat × Nat) :=
  xs.foldl (fun (m : Option (Nat × Nat)) x => match m with
    | none => some x
    | some y => if x.1 < y.1 ∨ (x.1 = y.1 ∧ x.2 < y.2) then some x else some y) none

/-- The entry a cluster's kernel unit chooses, with the cores that can take it (R232): among the entries that some core can
take. -/
def State.chosen (s : State) (cl : Nat) : Option ((BitVec 32 ⊕ Nat) × List Nat) :=
  let cores := clusterCores cl
  let able (i : Nat) : Option (BitVec 32 ⊕ Nat) := (s.entries cl i).find? fun x => cores.any (s.canTake x)
  (earliest (s.funded.filter fun x => (able x.2).isSome)).bind fun x => (able x.2).map fun y => (y, cores.filter (s.canTake y))

/-- The deadline of a context by its handle. -/
def State.deadlineOf (s : State) (sc : BitVec 32) : Nat :=
  match s.named sc with
  | some ⟨_, _, _, _, .sctx _ _ _ dl _ _ _ _ _⟩ => dl
  | _ => 2 ^ 64

/-- The resident waves made by WCREATE on some cores: core, slot, wave. -/
def State.createdOn (s : State) (cores : List Nat) : List (Nat × Nat × Wave) :=
  cores.flatMap fun k => ((s.core k).waves.filter fun (x : Nat × Wave) => x.1 ≠ 0 && x.2.id.blk.isNone).map fun x => (k, x.1, x.2)

/-- The wave that gives up its slot for an entry no core can take (R232): the one that has waited longest in a kernel-object
instruction, or else the one of the latest deadline, where that is later than the entry's. -/
def State.victim (s : State) (cores : List Nat) (dl : Nat) : Option (Nat × Nat) :=
  let ws := s.createdOn cores
  let waiting := ws.filter fun x => x.2.2.kernWaiting && x.2.2.traps == 0
  match waiting.foldl (fun (m : Option (Nat × Nat × Wave)) x => match m with
      | none => some x
      | some y => if x.2.2.waitSince s.now < y.2.2.waitSince s.now then some x else some y) none with
  | some x => some (x.1, x.2.1)
  | none =>
    match ws.foldl (fun (m : Option (Nat × Nat × Wave)) x => match m with
        | none => some x
        | some y => if s.deadlineOf x.2.2.id.sc > s.deadlineOf y.2.2.id.sc then some x else some y) none with
    | some x => if s.deadlineOf x.2.2.id.sc > dl then some (x.1, x.2.1) else none
    | none => none

/-- One of several cores: the manual does not say which.
DESIGN CHOICE, safe: notes/assumptions/55.md. -/
def State.anyOf (s : State) (cores : List Nat) : Nat := cores.getD (Config.which s.free 232 % cores.length) 0

/-- A free slot of a core for a wave's refill: any (R233).
DESIGN CHOICE, safe: notes/assumptions/55.md. -/
def State.anySlot (s : State) (core : Nat) : Option Nat :=
  (slotChoice s.free 1 (((List.range 31).map (· + 1)).filter fun k =>
    (s.wave? core k).isNone && !((s.core core).draining.any fun d => d.slot == k && d.blk == 0))).head?

/-- An entry of the run queues becomes resident on a core. -/
def State.takeEntry (s : State) (x : BitVec 32 ⊕ Nat) (core : Nat) : State :=
  match x with
  | .inr b => s.takeBlock b core
  | .inl h =>
    match s.anySlot core, s.named h with
    | some slot, some ⟨_, _, _, _, .wave a _ _ _ _ _ _⟩ =>
      let bs := s.bytes a.toNat (imageSize (holdCount (headerHold (s.num a.toNat 8))))
      ((s.unqueue (.inl h)).loadIn core slot h bs).getD s
    | _, _ => s

/-- A wave of no block is saved at the next boundary: now, if it stands at one (R68, R232, R241). -/
def State.evictSoon (s : State) (core slot : Nat) : State :=
  if s.stoppable core slot then s.evict core slot else s.haltWave core slot

/-- The waves that were to be evicted and have come to a boundary. -/
def State.evictHalted (s : State) : State :=
  let ws := (s.createdOn (s.cores.map fun (x : Nat × Core) => x.1)).filter fun x => x.2.2.stopping && s.stoppable x.1 x.2.1
  ws.foldl (fun s x => s.evict x.1 x.2.1) s

/-- The entries of a cluster in the order of R232, each with its context's deadline. -/
def State.ordered (s : State) (cl : Nat) : List (Nat × (BitVec 32 ⊕ Nat)) :=
  (s.funded.insertionSort fun a b => a.1 < b.1 ∨ (a.1 = b.1 ∧ a.2 ≤ b.2)).flatMap fun x => (s.entries cl x.2).map fun y => (x.1, y)

/-- A cluster's kernel unit at work (R232, R233): the entry it chooses becomes resident, or a slot is freed for the first entry
for which one can be; an entry for which a wave is already on its way out waits for that. -/
def State.dispatch (s : State) (cl : Nat) : State :=
  let s := s.evictHalted.joinLists
  match s.chosen cl with
  | some (x, cores) =>
    let k := s.anyOf cores
    ({ s with free := s.free + 1 }).takeEntry x k
  | none =>
    let out (x : Nat × (BitVec 32 ⊕ Nat)) : Option (Nat × Nat) :=
      let cores := (clusterCores cl).filter (s.mayRun x.2)
      if (s.createdOn cores).any fun y => y.2.2.stopping then none else s.victim cores x.1
    match (s.ordered cl).findSome? out with
    | some (core, slot) => s.evictSoon core slot
    | none => s

/-- WAVE_REFILL: the entry the unit chose is a wave, and a core that can take it takes it (R233). -/
def State.refill (s : State) (i core : Nat) : State :=
  match s.chosen (clusterOf core) with
  | some (.inl h, cores) => if hIndex h = i && cores.contains core then s.takeEntry (.inl h) core else s
  | _ => s

/-- BLOCK_RESTORE: the entry the unit chose is a saved block, and a core that can take it takes it (R459). -/
def State.restoreChosen (s : State) (blk core : Nat) : State :=
  match s.chosen (clusterOf core) with
  | some (.inr b, cores) =>
    if b = blk && cores.contains core && ((s.block? b).map (·.st)) == some .saved then s.takeEntry (.inr b) core else s
  | _ => s

/-! ### Pre-emption (R262 to R265) -/

/-- The manners of R264. -/
inductive Manner where
  | drain | flush | save
  deriving DecidableEq, Repr

/-- A wave of the block is trapped. -/
def State.trappedIn (s : State) (b : Block) : Bool :=
  b.engErr || b.waves.any fun h => match s.waveOf h with | some w => w.traps != 0 | none => false

/-- The manner the agent chooses (R264, R268).
DEDUCED, safe: notes/assumptions/57.md. -/
def State.manner (s : State) (b : Block) (noDrain : Bool) : Manner :=
  let h := ((s.launch? b.launch).map Launch.hint).getD 0
  let drain := 1000 * (s.core b.core).ctl.drain.toNat
  let t := s.now - b.placedAt
  if s.trappedIn b then .save
  else if h ≠ 0 && 1000 * h ≤ drain + t && !noDrain then .drain
  else if b.idem && t ≤ drain then .flush
  else .save

/-- The slots a block's waves hold now. -/
def State.slotsOf (s : State) (b : Block) : List Nat := b.waves.filterMap fun h => (s.resident h).map (·.2)

/-- The block can leave now: its waves at chain boundaries with no answer awaited, its fired commands done (R158, R262).
DEDUCED, safe: notes/assumptions/50.md. -/
def State.canLeave (s : State) (blk : Nat) (b : Block) : Bool :=
  !s.firedWork b.core blk && (s.slotsOf b).all (s.stoppable b.core)

/-- The context handle of a block. -/
def State.blockSc (s : State) (b : Block) : BitVec 32 :=
  match s.launch? b.launch with
  | some l => s.contextHandle l.scx
  | none => 0

/-- A block's tokens go back to the pool (R297). -/
def State.giveTokens (s : State) (blk : Nat) : State :=
  match s.block? blk with
  | some b => (({ s with poolFree := s.poolFree + b.tokens }).addHeld b.core b.tokens false).updBlock blk fun b => { b with tokens := 0 }
  | none => s

/-- A block's matrix state, scratchpad bytes and full-empty bits written to its pages (R266, R459). -/
def State.writeBlock (s : State) (blk : Nat) (b : Block) (im : BlkImage) : State :=
  let k := s.core b.core
  let full := (List.range (b.spadLen / 16)).map fun g => b2n (Sparse.get false k.fe (b.spadBase / 16 + g))
  let s := if im.some' then s.setBytes (blockPages blk) im.matrix else s
  (s.setBytes (spadPages blk) (Sparse.range memDefault k.scratch b.spadBase b.spadLen)).setBytes (fePages blk)
    (leBytes ((b.spadLen / 16 + 7) / 8) (pack 1 full))

/-- SAVE (R265, R266, R459). -/
def State.saveBlock (s : State) (blk : Nat) : State :=
  match s.block? blk with
  | none => s
  | some b =>
    let core := b.core
    let s := b.waves.foldl (fun s h => (s.forgetReqs h 0).forgetReqs h 1) s
    let s := (s.slotsOf b).foldl (fun s k => s.saveWave core k) s
    let im := s.engines core blk
    let s := s.writeBlock blk b im
    let s := (s.dropEngines core blk).giveTokens blk
    let s := s.updBlock blk fun b => { b with st := .saved, enq := s.now, drainUntil := none, leaving := none, slots := [], image := some im }
    s.enqueue (clusterOf core) (s.blockSc b) (.inr blk)

/-- FLUSH-AND-RESTART (R265, R324): the waves are discarded, the unfired commands with their credits. -/
def State.flushBlock (s : State) (blk : Nat) : State :=
  match s.block? blk with
  | none => s
  | some b =>
    let core := b.core
    let ids := ((s.core core).fifo ++ (s.core core).copyq).filterMap fun x =>
      if x.poster.blk = some blk && x.unfired then some x.id else none
    let hs := b.waves.map BitVec.toNat
    let s := b.waves.foldl (fun s h => match s.resident h with
      | some (c, k) => (s.vacate c k).freeObj (hIndex h)
      | none => s.freeObj (hIndex h)) s
    let s := s.updLaunch b.launch fun l => { l with bars := l.bars.map fun (x : Nat × Bar) => (x.1, { x.2 with
      counts := x.2.counts.filter fun (y : Nat × Nat) => !hs.contains (y.1 / 2)
      credits := x.2.credits.filter fun (y : Nat × Nat × Nat) => !ids.contains y.2.1 }) }
    let s := (s.dropEngines core blk).giveTokens blk
    let s := s.updBlock blk fun b =>
      { b with st := .flushed, waves := [], spadLen := 0, enq := s.now, drainUntil := none, leaving := none, slots := [] }
    s.enqueue (clusterOf core) (s.blockSc b) (.inr blk)

/-- A block must leave (R262): its agent chooses the manner, without the DRAIN line where `noDrain`.
DEDUCED, safe: notes/assumptions/57.md. -/
def State.mustLeave (s : State) (blk : Nat) (noDrain : Bool) : State :=
  match s.block? blk with
  | some b =>
    if b.st = .placed then
      (s.updBlock blk fun b => { b with leaving := some (noDrain || b.leaving == some true), drainUntil := if noDrain then none else b.drainUntil }).updCore b.core
        fun k => { k with latched := k.latched ||| 2 }
    else s
  | none => s

/-- What the agent does with a block that must leave, when it chooses the manner given (R264, R265). -/
def State.leave (s : State) (blk : Nat) (m : Manner) : State :=
  match s.block? blk with
  | none => s
  | some b =>
    match b.leaving with
    | none => s
    | some noDrain =>
      if b.st ≠ .placed || s.manner b noDrain ≠ m then s
      else match m with
        | .drain =>
          let s := (s.slotsOf b).foldl (fun s k => s.updWave b.core k fun w => { w with stopping := false }) s
          s.updBlock blk fun k =>
            { k with leaving := none, drainUntil := some (s.now + 1000 * (s.core b.core).ctl.drain.toNat) }
        | .save => if s.canLeave blk b then s.saveBlock blk else (s.slotsOf b).foldl (fun s k => s.haltWave b.core k) s
        | .flush => if s.canLeave blk b then s.flushBlock blk else (s.slotsOf b).foldl (fun s k => s.haltWave b.core k) s

/-- The drain limit passes (R265): the agent chooses again without the DRAIN line. -/
def State.drainLimit (s : State) (blk : Nat) : State :=
  match s.block? blk with
  | some b => match b.drainUntil with
    | some t => if t ≤ s.now then s.mustLeave blk true else s
    | none => s
  | none => s

/-! ### The swap (R46, R47, R246) -/

/-- The length of a core's progress window in nanoseconds: that of the window in progress (R350). -/
def State.windowNs (s : State) (core : Nat) : Nat := (s.core core).winNs

/-- The length that KPROG gives a progress window, at 1.3 cycles a nanosecond (R20, R252). -/
def Core.nextNs (k : Core) : Nat := max 4096 k.ctl.window.toNat * 10 / 13

/-- A core's next progress window begins where one has ended: KPROG acts from it on (R47, R350). -/
def Core.turnWindow (k : Core) (now : Nat) : Core :=
  if now < k.winEnd then k
  else if k.nextNs = k.winNs then { k with winEnd := k.winEnd + ((now - k.winEnd) / k.winNs + 1) * k.winNs }
  else { k with winNs := k.nextNs, winEnd := now + k.nextNs }

/-- The progress windows of every core. -/
def State.turnWindows (s : State) : State :=
  { s with cores := s.cores.map fun (x : Nat × Core) => (x.1, x.2.turnWindow s.now) }

/-- The block that a swap takes from a core: the one whose waves have gone longest without issuing, by lowest slot on a tie
(R47). -/
def State.idlest (s : State) (core : Nat) : Option Nat :=
  let cand : List (Nat × Nat × Nat) := s.host.blocks.filterMap fun (x : Nat × Block) =>
    let ks := s.slotsOf x.2
    if x.2.st = .placed && x.2.core = core && x.2.drainUntil.isNone && x.2.leaving.isNone && !ks.isEmpty then
      some (ks.foldl (fun m k => max m (((s.wave? core k).map (·.lastIssue)).getD 0)) 0, ks.foldl min 32, x.1)
    else none
  (cand.foldl (fun (m : Option (Nat × Nat × Nat)) x => match m with
    | none => some x
    | some y => if x.1 < y.1 ∨ (x.1 = y.1 ∧ x.2.1 < y.2.1) then some x else some y) none).map fun x => x.2.2

/-- The state with the resources of a block returned, to ask what could then be placed (R246). -/
def State.without (s : State) (blk : Nat) : State :=
  match s.block? blk with
  | none => s
  | some b =>
    let s := (s.slotsOf b).foldl (fun s k => s.vacate b.core k) s
    ((s.dropEngines b.core blk).giveTokens blk).updBlock blk fun b => { b with st := .ended, spadLen := 0 }

/-- The waiting blocks of a cluster whose contexts have budget, by enqueue time (R246). -/
def State.waitingBlocks (s : State) (cl : Nat) : List Nat :=
  let bs : List (Nat × Nat) := s.funded.flatMap fun c => (Sparse.get [] s.kern.runq (256 * cl + c.2)).filterMap fun x =>
    match x.1 with | .inr b => some (x.2, b) | .inl _ => none
  (bs.insertionSort fun a b => a.1 ≤ b.1).map (·.2)

/-- The device time at which no wave of a core has issued for one progress window (R46). -/
def State.swapDue (s : State) (core : Nat) : Nat := (s.core core).lastIssue + s.windowNs core

/-- The cores that hold a block while blocks wait in their cluster's run queue (R46). -/
def State.swapCores (s : State) : List Nat :=
  s.cores.filterMap fun (x : Nat × Core) =>
    if (x.2.waves.any fun (y : Nat × Wave) => y.2.id.blk.isSome) && !(s.waitingBlocks (clusterOf x.1)).isEmpty then some x.1 else none

/-- The swap of a core whose waves have not issued for a window while blocks wait: its idlest block leaves, for the waiting
block of the earliest enqueue time that then fits. -/
def State.swap (s : State) (core : Nat) : State :=
  if s.now < s.swapDue core || (s.core core).swapping.isSome then s
  else match s.idlest core with
    | none => s
    | some blk =>
      let free := s.without blk
      if (s.waitingBlocks (clusterOf core)).any fun w => free.blockFits w core then
        (s.mustLeave blk false).updCore core fun k => { k with swapping := some blk }
      else s

/-- The block of a swap has left its core, or has ended: the waiting block that the swap is for takes its place (R246). -/
def State.fulfilSwap (s : State) (core : Nat) : State :=
  match (s.core core).swapping with
  | none => s
  | some blk =>
    if (s.block? blk).any fun b => b.st == .placed && b.core == core then s
    else
      let s := s.updCore core fun k => { k with swapping := none }
      match (s.waitingBlocks (clusterOf core)).find? fun w => w != blk && s.blockFits w core with
      | some w => s.takeBlock w core
      | none => s

/-! ### Scheduling contexts (R241) -/

/-- A context's releases that are due at a time, up to the last of them. -/
def Body.released (b : Body) (now : Nat) : Body :=
  match b with
  | .sctx p b d dl left idx r k u =>
    if now < r then .sctx p b d dl left idx r k u
    else
      let n := (now - r) / p
      .sctx p b d (r + n * p + d) b idx (r + (n + 1) * p) (k + n + 1) false
  | b => b
/-- A period release. -/
def State.periodRelease (s : State) (i : Nat) : State := s.updObj i fun o => { o with body := o.body.released s.now }
/-- The clusters of which an entry has waited for a progress window or longer: the kernel unit gives it a slot where R232 has one
(R46). -/
def State.overdue (s : State) : List Nat :=
  (s.kern.runq.filterMap fun (r : Nat × List ((BitVec 32 ⊕ Nat) × Nat)) =>
    if r.2.any fun x => x.2 + s.windowNs (coreAt (r.1 / 256) 0) ≤ s.now then some (r.1 / 256) else none).eraseDups

/-- What the promises of progress ask for at the device time reached: every swap that is due, and an entry for every cluster in
which one has waited long (R46). -/
def State.progress (s : State) : State := s.overdue.foldl State.dispatch (s.swapCores.foldl State.swap s)

/-- There is work for a core (R374): a launch has tickets that it may claim, or a saved block may be restored there. -/
def State.workFor (s : State) (core : Nat) : Bool :=
  (s.host.launches.any fun (x : Nat × Launch) =>
    let l := x.2
    let u := l.counterOf core
    let c := s.counter x.1 u
    l.st == .running && l.cores.contains core && !l.stopped.contains core && decide (c < (l.bound s.peer.toNat u c).1)) ||
  s.kern.runq.any fun (r : Nat × List ((BitVec 32 ⊕ Nat) × Nat)) =>
    r.1 / 256 == clusterOf core && r.2.any fun x => match x.1 with | .inr b => s.blockFits b core | .inl _ => false

/-- Each core latches work that has come up for it (R374).
DEDUCED, unsafe: notes/assumptions/48.md. -/
def State.noteWork (s : State) : State :=
  { s with cores := s.cores.map fun (x : Nat × Core) =>
      let now := s.workFor x.1
      (x.1, { x.2 with latched := if now && !x.2.work then x.2.latched ||| 2 else x.2.latched, work := now }) }

/-- Every release that is due (R241). -/
def State.releaseDue (s : State) : State :=
  { s with kern := { s.kern with objs := s.kern.objs.map fun (x : Nat × Obj) => (x.1, { x.2 with body := x.2.body.released s.now }) } }

/-- A budget that has reached 0: the context is suspended and OVERRUN with its index goes to the management core, once; its
waves are saved as each comes to a boundary, and its blocks must leave.
DEDUCED, unsafe: notes/assumptions/48.md. -/
def State.overrun (s : State) (i : Nat) : State :=
  match s.obj? i with
  | some ⟨gen, owner, st, tdi, .sctx p b d dl 0 idx r k u⟩ =>
    let s := if u then s
      else
        let s := s.setObj i ⟨gen, owner, st, tdi, .sctx p b d dl 0 idx r k true⟩
        let s := { s with kern := { s.kern with overruns := s.kern.overruns ++ [idx] } }
        s.updCore mgmtCore fun q => { q with latched := q.latched ||| 32 }
    let h := mkHandle 6 gen i
    let ws := (s.createdOn (s.cores.map fun (x : Nat × Core) => x.1)).filter fun x => x.2.2.id.sc == h
    let s := ws.foldl (fun s x => s.evictSoon x.1 x.2.1) s
    s.host.blocks.foldl (fun s (x : Nat × Block) =>
      if x.2.st = .placed && s.blockSc x.2 == h && x.2.leaving != some true then s.mustLeave x.1 true else s) s
  | _ => s

/-- The contexts without budget, each with what follows (R241). -/
def State.overruns (s : State) : State :=
  s.kern.objs.foldl (fun s (x : Nat × Obj) => match x.2.body with
    | .sctx _ _ _ _ 0 _ _ _ _ => s.overrun x.1
    | _ => s) s

/-- TOKEN_GRANT (R297). -/
def execTokenGrant (s : State) : Host.Outcome State Fault Refusal :=
  .next (s.grantTokens)

/-- BLOCK_PLACEMENT (R296). -/
def execBlockPlacement (core launch : Nat) (s : State) : Host.Outcome State Fault Refusal :=
  .next (s.claim core launch)

/-- KERNEL_DISPATCH (R232). -/
def execKernelDispatch (cluster : Nat) (s : State) : Host.Outcome State Fault Refusal :=
  .next (s.dispatch cluster)

/-- WAVE_REFILL (R233). -/
def execWaveRefill (obj core : Nat) (s : State) : Host.Outcome State Fault Refusal :=
  .next (s.refill obj core)

/-- BLOCK_RESTORE (R459). -/
def execBlockRestore (blk core : Nat) (s : State) : Host.Outcome State Fault Refusal :=
  .next (s.restoreChosen blk core)

/-- PREEMPT_DRAIN (R265).
DEDUCED, safe: notes/assumptions/57.md. -/
def execPreemptDrain (blk : Nat) (s : State) : Host.Outcome State Fault Refusal :=
  .next (s.leave blk .drain)

/-- PREEMPT_SAVE (R265).
DEDUCED, safe: notes/assumptions/57.md. -/
def execPreemptSave (blk : Nat) (s : State) : Host.Outcome State Fault Refusal :=
  .next (s.leave blk .save)

/-- PREEMPT_FLUSH_RESTART (R265).
DEDUCED, safe: notes/assumptions/57.md. -/
def execPreemptFlushRestart (blk : Nat) (s : State) : Host.Outcome State Fault Refusal :=
  .next (s.leave blk .flush)

/-- DRAIN_LIMIT_EXPIRY (R265). -/
def execDrainLimitExpiry (blk : Nat) (s : State) : Host.Outcome State Fault Refusal :=
  .next (s.drainLimit blk)

/-- PROGRESS_WINDOW_SWAP (R246). -/
def execProgressWindowSwap (core : Nat) (s : State) : Host.Outcome State Fault Refusal :=
  .next (s.swap core)

/-- SC_PERIOD_RELEASE (R241). -/
def execScPeriodRelease (obj : Nat) (s : State) : Host.Outcome State Fault Refusal :=
  .next (s.periodRelease obj)

/-- SC_BUDGET_EXHAUSTED (R241). -/
def execScBudgetExhausted (obj : Nat) (s : State) : Host.Outcome State Fault Refusal :=
  .next (s.overrun obj)

/-- CONGESTION_LEVEL_CHANGE (R194). -/
def execCongestionLevelChange (ctl : Nat) (level : BitVec 2) (s : State) : Host.Outcome State Fault Refusal :=
  .next ({ s with mem := { s.mem with congest := updAt (fun _ => level) ctl s.mem.congest } })

end Sys2Proof.Machine
end

