-- ==== Sys2Proof/Machine/Launch.lean ====
section
/-!
DEFINITION. The host's side: queues and packets (R291 to R293), the checks of a launch record and the exchange of a peer
set (R36, R38, R40 to R43, R294), completion records (R295, R461), the mailbox (R299 to R301), TDISP and region keys
(R302, R303), measurements (R307), and the registers behind BAR0 (R188, R274, R290, R308).
-/

namespace Sys2Proof.Machine

/-! ### Queues (R291, R292) -/

/-- The key of a queue of a function. -/
def ringKey (fn q : Nat) : Nat := 64 * fn + q
/-- A queue. -/
def State.queue (s : State) (fn q : Nat) : Queue := Sparse.get Queue.reset s.host.queues (ringKey fn q)
/-- A queue changed. -/
def State.updQueue (s : State) (fn q : Nat) (f : Queue → Queue) : State :=
  { s with host := { s.host with queues := Sparse.put (ringKey fn q) (f (s.queue fn q)) s.host.queues } }

/-- The sizes of a ring: powers of two from 2 to 4096. -/
def ringSizeOk (n : Nat) : Bool := (List.range 12).any fun k => n == 2 ^ (k + 1)

/-- QHEAD advances past the finished packets before the oldest one not finished. -/
def Queue.settle (k : Queue) : Queue :=
  let done := k.pkts.takeWhile (·.finished)
  { k with pkts := k.pkts.drop done.length, head := (k.head + done.countP (·.ring)) % k.size }

/-- A packet of a queue changed. -/
def State.updPkt (s : State) (fn q n : Nat) (f : QPkt → QPkt) : State :=
  s.updQueue fn q fun k => Queue.settle { k with pkts := k.pkts.map fun p => if p.n = n then f p else p }
/-- A packet finishes. -/
def State.finishPkt (s : State) (fn q n : Nat) : State := s.updPkt fn q n fun p => { p with started := true, finished := true }
/-- A packet that is discarded as malformed finishes at once and sets BADPKT (R43, R293). -/
def State.badPkt (s : State) (fn q n : Nat) : State :=
  (s.finishPkt fn q n).updQueue fn q fun k => { k with stat := k.stat ||| 2 }

/-- The type of a packet. -/
def QPkt.type (p : QPkt) : Nat := field p.bytes 0 1
/-- A launch with ORD set. -/
def QPkt.ord (p : QPkt) : Bool := p.type == 1 && bits (field p.bytes 0 8) 17 17 == 1

/-- The packet that starts next, if it may (R293): the oldest one not started, unless a wait packet before it has not
finished, or it is a launch with ORD set and an earlier packet has not.
DEDUCED, unsafe: notes/assumptions/60.md. -/
def Queue.startable (k : Queue) : Option QPkt :=
  match k.pkts.findIdx? fun p => !p.started && !p.finished with
  | none => none
  | some i =>
    let before := (k.pkts.take i).filter fun p => !p.finished
    match k.pkts[i]? with
    | some p => if before.any (fun x => x.type == 2) || (p.ord && !before.isEmpty) then none else some p
    | none => none

/-- Step 1 of R300: EN = 0, every packet not started and every started wait packet is discarded. -/
def State.stopQueue (s : State) (fn q : Nat) : State :=
  s.updQueue fn q fun k => Queue.settle
    { k with en := false, pkts := k.pkts.map fun p => if !p.started || p.type == 2 then { p with finished := true } else p }

/-- QUEUE_ENABLE: a write that sets EN, ignored while QSIZE holds no size; packets still outstanding from before hold no ring
slot any longer.
DEDUCED, unsafe: notes/assumptions/59.md. -/
def State.enableQueue (s : State) (fn q : Nat) : State :=
  let k := s.queue fn q
  if k.en || !ringSizeOk k.size then s
  else s.updQueue fn q fun k =>
    { k with en := true, tail := 0, devTail := 0, head := 0, pkts := k.pkts.map fun p => { p with ring := false } }

/-- The packet in a ring slot.
DEDUCED, unsafe: notes/assumptions/59.md. -/
def State.ringSlot (s : State) (k : Queue) (slot : Nat) : List Byte :=
  Sparse.range memDefault s.mem.host (k.base.toNat + 128 * slot) 128

/-- QTAIL_WRITE (R292): the packets admitted and copied, or the write refused whole. -/
def State.writeTail (s : State) (fn q t : Nat) : State :=
  let k := s.queue fn q
  if !k.en then s
  else
    let n := (t + k.size - k.devTail) % k.size
    let used := k.pkts.countP fun p => !p.finished
    if t ≥ k.size || (k.devTail + k.size - k.head) % k.size + n > k.size - 1 || n > 64 - used then
      s.updQueue fn q fun k => { k with stat := k.stat ||| 1 }
    else
      let new := (List.range n).map fun i =>
        (⟨s.next + i, true, s.ringSlot k ((k.devTail + i) % k.size), false, false, []⟩ : QPkt)
      ({ s with next := s.next + n }).updQueue fn q fun k => { k with tail := t, devTail := t, pkts := k.pkts ++ new }

/-! ### The device's own accesses in a process's address space -/

/-- The TDI field of a function's processes (R223, R290). -/
def tdiOf (fn : Nat) : Nat := if fn = 0 then 0xFF else fn
/-- A handle names a process of the function's TDI. -/
def State.procOf (s : State) (fn : Nat) (h : BitVec 32) : Bool :=
  match s.named h with
  | some ⟨_, _, _, tdi, .process _ _ _ _⟩ => tdi.toNat == tdiOf fn
  | _ => false

/-- The device in a process's address space, a party of the host's side (R198).
DEDUCED, unsafe: notes/assumptions/61.md. -/
def State.hostSpace (s : State) (proc : BitVec 32) : Space := s.spaceOf mgmtCore 0 proc .host 0 false none

/-- One access of the device: its value, a wait for the League, a park or a failure.
DEDUCED, unsafe: notes/assumptions/61.md. -/
def State.devAccess (s : State) (sp : Space) (h : BitVec 32) (half : Nat) (o : MemOp) (a : LaneAcc) : Fetched × State :=
  match s.league.reqs.find? fun r => r.under h half with
  | some r =>
    match s.engAnswers h half with
    | .wait => (.wait, s)
    | .ok _ => (.ok [(0, ((r.answer.map fun (a : Packet) => a.data).getD 0).toNat % 2 ^ (8 * o.n))], s.dropEngReqs h half)
    | x => (x, s.dropEngReqs h half)
  | none =>
    match lanesOk s sp.proc o [a] with
    | some (code, x) => (.fault code x, s)
    | none =>
      let (p, s) := access s sp o [a]
      match p.fault with
      | some (code, x) => (.fault code x, s)
      | none =>
        if !p.parked.isEmpty || p.filling then (.park p.parked (!p.filling), s)
        else
          let s := p.peer.foldl (fun s t => s.ask h half 0 a.va none (peerPacket o t)) s
          (if p.peer.isEmpty then .ok p.vals else .wait, s)

/-- The names under which queues and launches ask the League. -/
def queueHandle (fn q : Nat) : BitVec 32 := BitVec.ofNat 32 (0xD0000000 + ringKey fn q)
def launchHandle : BitVec 32 := 0xC0000000

/-! ### Packets that are no launches (R293) -/

/-- PROC and the address of a wait packet. -/
def QPkt.waitProc (p : QPkt) : BitVec 32 := BitVec.ofNat 32 (field p.bytes 4 4)
def QPkt.waitAddr (p : QPkt) : Nat := field p.bytes 8 8
/-- A well-formed wait packet. -/
def State.waitOk (s : State) (fn : Nat) (p : QPkt) : Bool :=
  field p.bytes 1 3 == 0 && field p.bytes 16 112 == 0 && p.waitAddr % 16 == 0 && s.procOf fn p.waitProc

/-- The next packet starts when it is of the kind asked for. -/
def State.startPkt (s : State) (fn q : Nat) (is : QPkt → Bool) (k : QPkt → State → State) : State :=
  match (s.queue fn q).startable with
  | some p => if is p then k p s else s
  | none => s

/-- The wait packet of a queue that has started. -/
def Queue.waiting (k : Queue) : Option QPkt := k.pkts.find? fun p => p.started && !p.finished && p.type == 2

/-- WAIT_PACKET_FINISH: the record is read as an acquire at sys scope.
DEDUCED, unsafe: notes/assumptions/61.md. -/
def State.finishWait (s : State) (fn q : Nat) : State :=
  match (s.queue fn q).waiting with
  | none => s
  | some p =>
    if !p.parked.isEmpty || !s.procOf fn p.waitProc then s
    else
      match s.devAccess (s.hostSpace p.waitProc) (queueHandle fn q) (p.n + 2) ⟨.read, 8, 1, 5, true, none⟩ ⟨0, p.waitAddr, 0, 0⟩ with
      | (.ok vs, s) => if elem 1 63 (valAt vs 0) = 1 then s.finishPkt fn q p.n else s
      | (.park qs _, s) => s.updPkt fn q p.n fun p => { p with parked := qs }
      | (_, s) => s

/-! ### The checks of a launch record (R36, R38, R40 to R43, R294) -/

/-- Word 0, PEERS and ROUTE of a record. -/
def Launch.head (l : Launch) : Nat := field l.record 0 8
def Launch.peers (l : Launch) : Nat := field l.record 104 8
def Launch.route (l : Launch) : Nat := field l.record 120 8
def Launch.signalAddr (l : Launch) : Nat := field l.record 24 8

/-- R40. -/
def Launch.rectOk (l : Launch) : Bool :=
  let (c, r, w, h) := (field l.record 96 1, field l.record 97 1, field l.record 98 1, field l.record 99 1)
  c % 2 == 0 && r % 2 == 0 && w % 2 == 0 && h % 2 == 0 && 2 ≤ w && 2 ≤ h && c + w ≤ 16 && r + h ≤ 8

/-- R36, in gang mode or not.
DEDUCED, unsafe: notes/assumptions/63.md.
DEDUCED, unsafe: notes/assumptions/54.md. -/
def Launch.levelsOk (l : Launch) (gang : Bool) : Bool :=
  let n := l.nlvl
  let e (k : Nat) : Nat := l.level k
  Level.domain (e 0) == 0 && !Level.bar (e 0) && Level.extent (e 0) == (if gang then 32 else 64) &&
    Level.domain (e 1) == 1 && Level.extent (e 1) ≤ (if gang then 62 else 31) &&
    (List.range n).all fun k =>
      1 ≤ Level.extent (e k) && Level.domain (e k) ≤ Level.scope (e k) && Level.scope (e k) ≤ 5 && bits (e k) 63 41 == 0 &&
        (k == 0 || Level.domain (e (k - 1)) ≤ Level.domain (e k)) &&
        (Level.domain (e k) != 5 || (k + 1 == n && l.peerCount != 0 && Level.extent (e k) == l.peerCount)) &&
        (List.range k).all fun j => !(Level.bar (e j) && Level.bar (e k) && Level.bbase (e j) == Level.bbase (e k))

/-- A core of a unit. -/
def coreOfUnit (dom u : Nat) : Nat :=
  if dom = 1 then u else if dom = 2 then coreAt u 0 else u / 2 * 64 + u % 2 * 8

/-- R38: for every ticket of this device the unit bound at a lower level lies inside the one bound at a higher level.
DEDUCED, unsafe: notes/assumptions/63.md. -/
def Launch.bindOk (l : Launch) (peer : Nat) : Bool :=
  let (lo, len) := l.localRange peer
  let unit (k t : Nat) : Nat :=
    let us := l.units (Level.domain (l.level k))
    us.getD (t / l.span k % us.length) 0
  let pairs := l.binding.flatMap fun k => (l.binding.filter fun j => j < k).map fun j => (j, k)
  pairs.all fun p => (List.range len).all fun i =>
    unitOf (Level.domain (l.level p.2)) (coreOfUnit (Level.domain (l.level p.1)) (unit p.1 (lo + i))) == unit p.2 (lo + i)

/-- The peer set of a record is one this device may claim (R41). -/
def Launch.setOk (l : Launch) (peer : Nat) : Bool :=
  1 ≤ l.peerCount && l.peerBase + l.peerCount ≤ 512 && l.peerBase ≤ peer && peer < l.peerBase + l.peerCount

/-- The status of the first check before the routing table that fails; 0 where none does (R43, R294).
DEDUCED, unsafe: notes/assumptions/63.md. -/
def State.recordStatus (s : State) (l : Launch) : Nat :=
  if !(bits l.head 11 8 == 1 && 2 ≤ l.nlvl && l.nlvl ≤ 8 && s.procOf l.fn l.proc && (s.contextAt l.scx).isSome &&
      l.levelsOk ((s.codeOf l.proc (BitVec.ofNat 64 l.entry)).any (·.gang)) &&
      (!l.rectOk || l.bindOk s.peer.toNat)) then 1
  else if (l.mstate && l.tokens == 0) || l.tokens > poolSize s.board.watts || bits l.res 21 4 > 0x30000 ||
      bits l.head 23 18 != 0 || bits l.res 63 48 != 0 ||
      (l.peerCount != 0 && (bits l.peers 15 9 != 0 || bits l.peers 31 26 != 0)) then 7
  else if l.entry % 64 ≠ 0 ∨ l.entry ≥ 2 ^ 52 then 8
  else if !l.rectOk || field l.record 100 4 != 0 then 2
  else if !(if l.peerCount = 0 then l.peers == 0 else l.setOk s.peer.toNat) then 3
  else 0

/-- The dies a rectangle covers. -/
def Launch.dies (l : Launch) : List Nat := l.units 3

/-- An entry of a routing table over some dies (R42): its ends are two of them; neighbours have V = 0, diagonal dies V = 1
and a neighbour of both. -/
def routeEntryOk (dies : List Nat) (x : Nat) : Bool :=
  let (src, dst, via, v) := (bits x 1 0, bits x 3 2, bits x 5 4, bits x 6 6)
  bits x 31 7 == 0 && src != dst && dies.contains src && dies.contains dst &&
    (if src + dst = 3 then v == 1 && via != src && via != dst else v == 0)
/-- A diagonal entry that takes its horizontal link first. -/
def routeHorizontal (x : Nat) : Bool := bits x 1 0 / 2 == bits x 5 4 / 2

/-- The routing table over some dies (R42), header and entries. -/
def routeOk (dies : List Nat) (bs : List Byte) : Bool :=
  let n := dies.length * (dies.length - 1)
  let es := (List.range n).map fun k => field bs (8 + 4 * k) 4
  let diag := es.filter fun x => bits x 6 6 == 1
  field bs 0 8 == n + 256 && es.all (routeEntryOk dies) &&
    ((List.range n).all fun i => (List.range i).all fun j => es.getD i 0 % 16 != es.getD j 0 % 16) &&
    (diag.all routeHorizontal || diag.all fun x => !routeHorizontal x)

/-! ### The exchange of a peer set (R41) -/

/-- The level entries of a record, those at or above the level count zero. -/
def Launch.levelBytes (l : Launch) : List Byte :=
  let z (n : Nat) : List Byte := List.replicate n 0
  let bs := (l.record.drop 32).take (8 * min 8 l.nlvl)
  bs ++ z (64 - bs.length)

/-- A packet of the exchange: type 0x13 with its kind (0 arrival, 1 release, 2 refusal, 5 failed arrival), the key and the set
in words 2 and 3, and an arrival's level entries as data (notes/assumptions/27.md). -/
def launchPacket (kind : Nat) (dst key base count : Nat) (levels : List Byte) : Packet :=
  { Packet.plain 0x13 0 (BitVec.ofNat 9 dst) 0 with
    ext := BitVec.ofNat 384 (key % 2 ^ 32 + kind * 2 ^ 32 + (base + count * 2 ^ 16) * 2 ^ 64)
    ndata := flits levels.length, data := dataOf levels }

/-- A launch whose record is to be written with a status. -/
def State.endLaunch (s : State) (li status : Nat) : State :=
  s.updLaunch li fun l => { l with st := .ending [], raised := false, status := status }

/-- The number of ticket counters of a launch (R296). -/
def Launch.counterCount (l : Launch) : Nat :=
  match l.binding.head? with
  | none => 1
  | some k => (l.units (Level.domain (l.level k))).length

/-- Every ticket counter of a launch set to a value. -/
def State.setCounters (s : State) (li v : Nat) : State :=
  let n := ((s.launch? li).map Launch.counterCount).getD 0
  (List.range n).foldl (fun s u => s.setNum (counterAddr li u) 8 v) s

/-- A launch is accepted: its counters stand at 0, and its agents may claim (R43, R296). -/
def State.startLaunch (s : State) (li : Nat) : State :=
  (s.setCounters li 0).updLaunch li fun l => { l with st := .running }

/-- A launch that has sent its arrival waits for an answer no longer: 20 ms have passed (R41). -/
def Launch.unanswered (l : Launch) (now : Nat) : Bool := l.st == .arriving && decide (l.since + 20000000 ≤ now)

/-- An answer of the lowest peer reaches this device, a release or a refusal; after 20 ms it comes too late. -/
def State.launchAnswer (s : State) (key base count : Nat) (ok : Bool) : State :=
  match s.host.launches.find? fun (x : Nat × Launch) =>
      x.2.st == .arriving && !x.2.unanswered s.now && x.2.key == key && x.2.peerBase == base && x.2.peerCount == count with
  | some (li, _) => if ok then s.startLaunch li else s.endLaunch li 3
  | none => s

/-- The lowest peer answers some members of a set. -/
def State.answerSet (s : State) (e : PeerSet) (ms : List Nat) (ok : Bool) : State :=
  ms.foldl (fun s m =>
    if m = s.peer.toNat then s.launchAnswer e.key e.base e.count ok
    else s.trySend { launchPacket (if ok then 1 else 2) m e.key e.base e.count [] with src := s.peer }) s

/-- The lowest peer waits no longer for a set's arrivals: 10 ms have passed since the first (R41). -/
def PeerSet.expired (e : PeerSet) (now : Nat) : Bool := decide (e.since + 10000000 ≤ now)

/-- The 10 ms of some sets are over: those whose arrivals have not failed are refused.
DEDUCED, unsafe: notes/assumptions/64.md. -/
def State.refuseLate (s : State) (key : Nat → Bool) : State :=
  let late (e : PeerSet) : Bool := key e.key && e.expired s.now
  let es := s.host.peerSets.filter late
  let s := { s with host := { s.host with peerSets := s.host.peerSets.filter fun e => !late e } }
  es.foldl (fun s e => if e.failed then s else s.answerSet e ((List.range e.count).map (e.base + ·)) false) s

/-- An arrival at the lowest peer: matching launches have the same key, peer set and level entries; sets whose 10 ms are over
are refused first.
DEDUCED, unsafe: notes/assumptions/64.md. -/
def State.launchArrive (s : State) (src key base count : Nat) (levels : List Byte) (failed : Bool) : State :=
  if src < base ∨ base + count ≤ src ∨ 512 < base + count then s
  else
    let s := s.refuseLate fun _ => true
    let same (e : PeerSet) : Bool :=
      e.key == key && e.base == base && e.count == count && (failed || e.failed || e.levels == levels)
    let old : PeerSet := (s.host.peerSets.find? same).getD ⟨key, base, count, levels, [], false, s.now⟩
    let e := { old with members := if old.members.contains src then old.members else src :: old.members, failed := old.failed || failed }
    let whole := e.members.length ≥ count
    let rest := s.host.peerSets.filter fun x => x ≠ old
    let s := { s with host := { s.host with peerSets := if whole then rest else e :: rest } }
    let all := (List.range count).map (base + ·)
    if old.failed then s.answerSet e [src] false
    else if failed then s.answerSet e all false
    else if whole then s.answerSet e all true
    else s

/-- The lowest peer's 10 ms have passed since the first arrival.
DEDUCED, unsafe: notes/assumptions/64.md. -/
def State.launchArrivalTimeout (s : State) (key : Nat) : State := s.refuseLate fun k => k == key

/-- A member's 20 ms have passed since it sent its arrival. -/
def State.launchAnswerTimeout (s : State) (li : Nat) : State :=
  match s.launch? li with
  | some l => if l.unanswered s.now then s.endLaunch li 3 else s
  | none => s

/-- The device times at which a set's 10 ms or a launch's 20 ms are over (R41). -/
def State.setDues (s : State) : List Nat :=
  (s.host.peerSets.map fun e => e.since + 10000000) ++ s.host.launches.filterMap fun (x : Nat × Launch) =>
    if x.2.st == .arriving then some (x.2.since + 20000000) else none

/-- What is over at the device time reached (R41). -/
def State.endSets (s : State) : State :=
  s.host.launches.foldl (fun s (x : Nat × Launch) => s.launchAnswerTimeout x.1) (s.refuseLate fun _ => true)

/-- A launch's own checks are over: 0 accepts it, or sends its arrival where it claims a peer set.
DEDUCED, unsafe: notes/assumptions/64.md. -/
def State.judged (s : State) (li status : Nat) : State :=
  match s.launch? li with
  | none => s
  | some l =>
    if l.setOk s.peer.toNat then
      let s := if status = 0 then s.updLaunch li fun l => { l with st := .arriving, since := s.now } else s.endLaunch li status
      if l.peerBase = s.peer.toNat then s.launchArrive l.peerBase l.key l.peerBase l.peerCount l.levelBytes (status != 0)
      else s.trySend { launchPacket (if status = 0 then 0 else 5) l.peerBase l.key l.peerBase l.peerCount l.levelBytes with src := s.peer }
    else if status = 0 then s.startLaunch li
    else s.endLaunch li status

/-- The checks of a launch, with its routing table read where it needs one (R42, R43): a read that misses parks.
DEDUCED, unsafe: notes/assumptions/61.md. -/
def State.checkLaunch (s : State) (li : Nat) : State :=
  match s.launch? li with
  | none => s
  | some l =>
    let done (s : State) (status : Nat) : State := (s.dropEngReqs launchHandle (li + 2)).judged li status
    if l.st != .checking [] then s
    else
      let early := s.recordStatus l
      let dies := l.dies
      let n := dies.length * (dies.length - 1)
      if early ≠ 0 then done s early
      else if dies.length = 1 then done s (if l.route = 0 then 0 else 4)
      else if l.route = 0 || l.raised then done s 4
      else
        match s.fetchNeed (s.hostSpace l.proc) launchHandle (li + 2) 5 [(l.route, 8 + 4 * n)] with
        | (.ok vs, s) => done s (if routeOk dies (granBytes vs l.route (8 + 4 * n)) then 0 else 4)
        | (.wait, s) => s
        | (.park qs all, s) => s.updLaunch li fun l => { l with st := .checking (if all then qs else []) }
        | (.fault _ _, s) => done s 4

/-- LAUNCH_PACKET: a launch whose checks were held up goes on, or the next packet, a launch, starts. -/
def State.launchPkt (s : State) (fn q : Nat) : State :=
  match s.host.launches.find? fun (x : Nat × Launch) => x.2.fn == fn && x.2.q == q && x.2.st == .checking [] with
  | some (li, _) => s.checkLaunch li
  | none => s.startPkt fn q (fun p => p.type == 1) fun p s =>
    if field p.bytes 24 8 % 16 ≠ 0 then s.badPkt fn q p.n
    else
      let li := s.host.nextLaunch
      let l : Launch :=
        { fn := fn, q := q, pkt := p.n, record := p.bytes, st := .checking [], raised := false, waits := [], stopped := [], ended := 0
          status := 0, since := s.now, bars := [] }
      let s := s.updPkt fn q p.n fun p => { p with started := true }
      ({ s with host := { s.host with nextLaunch := li + 1, launches := Sparse.put li l s.host.launches } }).checkLaunch li

/-! ### Completion (R293, R295, R461) -/

/-- Every ticket has been claimed, or its counter closed, and every block has ended. -/
def State.launchOver (s : State) (li : Nat) (l : Launch) : Bool :=
  ((List.range l.counterCount).all fun u => (l.bound s.peer.toNat u 0).1 ≤ s.counter li u) &&
    s.host.blocks.all fun (x : Nat × Block) => x.2.launch != li || x.2.st == .ended

/-- The launch is over: its packet finishes, and the interrupt it asked for is raised (R294).
DEDUCED, unsafe: notes/assumptions/62.md. -/
def State.closeLaunch (s : State) (li : Nat) : State :=
  match s.launch? li with
  | none => s
  | some l =>
    let s := (s.updLaunch li fun l => { l with st := .closed }).finishPkt l.fn l.q l.pkt
    if bits l.head 16 16 = 1 then
      let k := ringKey l.fn l.q
      { s with host := { s.host with msix := Sparse.put k (Sparse.get 0 s.host.msix k + 1) s.host.msix } }
    else s

/-- Requests of waves and commands that have ended are unanswered: a record waits for them (R461), whatever launch they were
of. A message held at a full port is none of them.
DEDUCED, unsafe: notes/assumptions/61.md. -/
def State.strays (s : State) : Bool := s.league.reqs.any fun r => r.orphan && !r.suspended

/-- The completion record of R295. -/
def Launch.completion (l : Launch) (time : Nat) : Nat :=
  2 ^ 63 + l.ended % 2 ^ 32 * 2 ^ 16 + l.status + time * 2 ^ 64

/-- LAUNCH_COMPLETION_RECORD: the atomics still pending of waves that have ended perform, their stores to peers have been
answered, every dirty copy of the rectangle's cores is pushed to its home (R461); then the record is written as a release at
sys scope, in one piece. Where no record can be written the launch ends without one.
DEDUCED, unsafe: notes/assumptions/61.md. -/
def State.completeLaunch (s : State) (li : Nat) : State :=
  match s.launch? li with
  | none => s
  | some l =>
    if !(l.st == .ending [] || (l.st == .running && s.launchOver li l)) || s.strays then s
    else
      let s := l.cores.foldl (fun s k => s.release k 5) (s.drainOrphans l.cores.contains)
      if l.signalAddr = 0 || l.raised || !s.procOf l.fn l.proc then s.closeLaunch li
      else
        match s.devAccess (s.hostSpace l.proc) launchHandle (li + 2) ⟨.write, 16, 2, 5, true, none⟩
            ⟨0, l.signalAddr, l.completion s.now, 0⟩ with
        | (.ok _, s) => s.closeLaunch li
        | (.wait, s) => s.updLaunch li fun l => { l with st := .ending [] }
        | (.park qs all, s) => s.updLaunch li fun l => { l with st := .ending (if all then qs else []) }
        | (.fault _ _, s) => s.closeLaunch li

/-! ### Queue destruction and teardown (R300, R301) -/

/-- Steps 1 and 2 of R300: the counters of each launch that runs are closed, and one still in its checks ends as aborted. -/
def State.destroyQueue (s : State) (fn q : Nat) : State :=
  let s := s.stopQueue fn q
  s.host.launches.foldl (fun s (x : Nat × Launch) =>
    if x.2.fn = fn && x.2.q = q then
      match x.2.st with
      | .running => (s.setCounters x.1 (2 ^ 63)).updLaunch x.1 fun l => { l with status := if l.status = 6 then 6 else 5 }
      | .checking _ | .arriving => (s.dropEngReqs launchHandle (x.1 + 2)).endLaunch x.1 5
      | _ => s
    else s) s

/-- Every record of a queue is written. -/
def State.queueDone (s : State) (key : Nat) : Bool :=
  s.host.launches.all fun (x : Nat × Launch) => ringKey x.2.fn x.2.q != key || x.2.st == .closed

/-! ### The mailbox (R299) -/

/-- The response of the mailbox. -/
def State.respond (s : State) (cmd status value : Nat) : State :=
  let z (n : Nat) : List Byte := List.replicate n 0
  let bs : List Byte := [BitVec.ofNat 8 cmd, BitVec.ofNat 8 status] ++ z 6 ++ leBytes 8 value ++ z 48
  { s with boot := { s.boot with resp := Sparse.setRange memDefault [] 0 bs, doorbell := false } }

/-- A request waits to be served: the mailbox is open, and no command is in progress.
DEDUCED, unsafe: notes/assumptions/67.md. -/
def State.mailReady (s : State) : Bool :=
  s.boot.doorbell && (s.boot.step == 8 || s.boot.min) && !s.boot.destroying.any (·.2) && s.boot.pasidDown.isNone

/-- The command of the request. -/
def State.mailCmd (s : State) : Nat := (Sparse.get 0 s.boot.req 0).toNat

/-- A command served with its n arguments: one of VERSION and BOOTCLR in minimal mode, and a request that is zero where it
must be. -/
def State.mail (s : State) (cmd n : Nat) (k : List Nat → State → State) : State :=
  if !s.mailReady || s.mailCmd != cmd then s
  else if s.boot.min && cmd != 1 && cmd != 6 then s.respond cmd 2 0
  else
    let bs : List Byte := Sparse.range memDefault s.boot.req 0 64
    if field bs 2 6 ≠ 0 ∨ field bs (8 + 8 * n) (56 - 8 * n) ≠ 0 then s.respond cmd 1 0
    else k ((List.range n).map fun i => field bs (8 + 8 * i) 8) s

/-- VERSION. -/
def State.mailVersion (s : State) : State :=
  s.mail 1 1 fun xs s =>
    let v := min (xs.getD 0 0) 1
    ({ s with boot := { s.boot with version := v } }).respond 1 0 v

/-- QDESTROY. -/
def State.mailDestroy (s : State) : State :=
  s.mail 2 2 fun xs s =>
    let (fn, q) := (xs.getD 0 0, xs.getD 1 0)
    if fn ≤ 16 && q < 64 then
      let s := s.destroyQueue fn q
      { s with boot := { s.boot with destroying := s.boot.destroying ++ [(ringKey fn q, true)] } }
    else s.respond 2 1 0

/-- QDESTROY_ANSWER: every record of a queue being destroyed is written. -/
def State.destroyAnswer (s : State) : State :=
  match s.boot.destroying.find? fun x => s.queueDone x.1 with
  | none => s
  | some x =>
    let s := { s with boot := { s.boot with destroying := s.boot.destroying.erase x } }
    let s := if x.2 then s.respond 2 0 0 else s
    s.updQueue (x.1 / 64) (x.1 % 64) fun k => { k with stat := k.stat ||| 4 }

/-- A handle names a process of a PASID. -/
def State.ofPasid (s : State) (p : BitVec 20) (h : BitVec 32) : Bool :=
  match s.process? h with
  | some (x, _) => x == p
  | none => false

/-- PASIDDOWN (R301): the queues that hold a launch of the PASID that has not finished are disabled.
DEDUCED, unsafe: notes/assumptions/67.md. -/
def State.mailPasidDown (s : State) : State :=
  s.mail 3 1 fun xs s =>
    let x := xs.getD 0 0
    if x ≥ 2 ^ 20 then s.respond 3 1 0
    else
      let p := BitVec.ofNat 20 x
      let ks := (s.host.queues.filter fun (y : Nat × Queue) => y.2.pkts.any fun k =>
        k.type == 1 && !k.finished && s.ofPasid p (BitVec.ofNat 32 (field k.bytes 4 4))).map fun y => y.1
      let s := ks.foldl (fun s k => s.destroyQueue (k / 64) (k % 64)) s
      { s with boot := { s.boot with
          destroying := s.boot.destroying ++ ks.map fun k => (k, false)
          pasidDown := some p } }

/-- A translation request of a PASID is outstanding in a translation unit, an agent's under KPASID among them (R249).
DEDUCED, unsafe: notes/assumptions/67.md. -/
def State.filling (s : State) (p : BitVec 20) : Bool :=
  s.cores.any fun (x : Nat × Core) =>
    (x.2.waves.any fun (y : Nat × Wave) => (s.waveSpace x.1 y.1 y.2).pasid == p && y.2.halves.any fun h =>
      h.paths.any fun k => k.wait == .filling) ||
    (x.2.fifo ++ x.2.copyq).any fun (c : Cmd) =>
      (s.engSpace x.1 c).pasid == p && (match c.st with | .parked [] _ => true | _ => false)

/-- PASIDDOWN_ANSWER: they have drained. -/
def State.pasidAnswer (s : State) : State :=
  match s.boot.pasidDown with
  | some p => if s.filling p then s else ({ s with boot := { s.boot with pasidDown := none } }).respond 3 0 0
  | none => s

/-- PREEMPT: every block of the process must leave under R264.
DEDUCED, unsafe: notes/assumptions/67.md. -/
def State.mailPreempt (s : State) : State :=
  s.mail 5 1 fun xs s =>
    let x := xs.getD 0 0
    let h := BitVec.ofNat 32 x
    if x ≥ 2 ^ 32 || (s.process? h).isNone then s.respond 5 1 0
    else
      let s := s.host.blocks.foldl (fun s (b : Nat × Block) =>
        if b.2.st == .placed && ((s.launch? b.2.launch).map Launch.proc) == some h then s.mustLeave b.1 false else s) s
      s.respond 5 0 0

/-- BOOTCLR: the attempt count in the EEPROM is cleared.
DEDUCED, unsafe: notes/assumptions/67.md. -/
def State.mailBootclr (s : State) : State :=
  s.mail 6 0 fun _ s =>
    if s.board.eeWritable then ({ s with board := { s.board with eeCount := 0 } }).respond 6 0 0 else s.respond 6 2 0

/-- A command the device does not know. -/
def State.mailUnknown (s : State) : State :=
  if s.mailReady && !((1 ≤ s.mailCmd) && s.mailCmd ≤ 6) then s.respond s.mailCmd (if s.boot.min then 2 else 3) 0 else s

/-! ### TDISP and region keys (R182, R302, R303) -/

/-- A TDI, 1 to 16. -/
def State.tdi? (s : State) (n : Nat) : Option Tdi := if n = 0 then none else s.host.tdis[n - 1]?
/-- A TDI changed. -/
def State.updTdi (s : State) (n : Nat) (f : Tdi → Tdi) : State :=
  { s with host := { s.host with tdis := updAt f (n - 1) s.host.tdis } }

/-- A process handle of a TDI. -/
def State.ofTdi (s : State) (n : Nat) (h : BitVec 32) : Bool :=
  match s.named h with
  | some ⟨_, _, _, tdi, .process _ _ _ _⟩ => tdi.toNat == n
  | _ => false

/-- A TDI leaves RUN (R303), in one step.
DESIGN CHOICE, unsafe: notes/assumptions/12.md; DEDUCED, unsafe: notes/assumptions/65.md; DEDUCED, unsafe: notes/assumptions/66.md. -/
def State.leaveRun (s : State) (n : Nat) : State :=
  let s := s.host.queues.foldl (fun s (x : Nat × Queue) => if x.1 / 64 = n then s.stopQueue n (x.1 % 64) else s) s
  let blks := s.host.blocks.filter fun (x : Nat × Block) =>
    x.2.st != .ended && (((s.launch? x.2.launch).map fun l => s.ofTdi n l.proc).getD false)
  let hs := s.kern.objs.filterMap fun (x : Nat × Obj) =>
    let h := mkHandle 2 x.2.gen x.1
    match s.waveOf h with
    | some w => if s.ofTdi n w.id.proc then some h else none
    | none => none
  let s := blks.foldl (fun s x => s.killBlock x.1) s
  let s := hs.foldl (fun s h => if (s.waveOf h).isSome then s.endHandle h else s) s
  let ls := s.host.launches.filter fun (x : Nat × Launch) => x.2.fn = n && x.2.st != .closed
  let s := ls.foldl (fun s x => ((s.dropEngReqs launchHandle (x.1 + 2)).updLaunch x.1 fun l => { l with st := .closed }).finishPkt n
    x.2.q x.2.pkt) s
  let slots := ((s.tdi? n).map (·.slots)).getD []
  let clear (m : BitVec 64) (k : Nat) : BitVec 64 := m &&& ~~~(BitVec.ofNat 64 (2 ^ k))
  let s := { s with mem := { s.mem with
      keyHeld := slots.foldl clear s.mem.keyHeld
      keys := s.mem.keys.filter fun (x : Nat × BitVec 512) => !slots.contains x.1
      granKey := s.mem.granKey.filter fun (x : Nat × Nat) => !slots.contains x.2 } }
  s.updTdi n fun t => { t with slots := [] }

/-- A TDI moves to ERROR from CONFIG_LOCKED or RUN. -/
def State.tdiError (s : State) (n : Nat) : State :=
  match (s.tdi? n).map Tdi.st with
  | some .run => (s.leaveRun n).updTdi n fun t => { t with st := .error }
  | some .locked => s.updTdi n fun t => { t with st := .error }
  | _ => s

/-- What concerns a TDI: minimal mode serves no virtual function (R304).
DEDUCED, unsafe: notes/assumptions/67.md. -/
def State.onTdi (s : State) (k : State → State) : State := s.unlessMin k

/-- LOCK_INTERFACE. -/
def State.tdiLock (s : State) (n : Nat) : State :=
  match (s.tdi? n).map Tdi.st with
  | some .unlocked => s.updTdi n fun t => { t with st := .locked }
  | _ => s

/-- START_INTERFACE: the TDI's key slots are written to all eight controllers (R15).
DEDUCED, unsafe: notes/assumptions/65.md. -/
def State.tdiStart (s : State) (n : Nat) : State :=
  match s.tdi? n with
  | some ⟨.locked, slots, _⟩ =>
    let s := { s with mem := { s.mem with
      keyHeld := slots.foldl (fun (m : BitVec 64) k => m ||| BitVec.ofNat 64 (2 ^ k)) s.mem.keyHeld } }
    s.updTdi n fun t => { t with st := .run }
  | _ => s

/-- STOP_INTERFACE. -/
def State.tdiStop (s : State) (n : Nat) : State :=
  match (s.tdi? n).map Tdi.st with
  | some .run => (s.leaveRun n).updTdi n fun t => { t with st := .unlocked }
  | some _ => s.updTdi n fun t => { t with st := .unlocked }
  | none => s

/-- GET_DEVICE_INTERFACE_REPORT: the BAR0 range, the bound granules and the hash of the log (notes/assumptions/49.md: its
form, and where the VF's BAR0 lies). -/
def State.tdiReport (s : State) (n : Nat) : State :=
  match s.tdi? n with
  | none => s
  | some t =>
    let grans := (s.mem.granKey.filter fun (x : Nat × Nat) => t.slots.contains x.2).map fun x => x.1
    let bs : List Byte := leBytes 8 (Config.which n 290) ++ leBytes 8 0x100000 ++ leBytes 8 grans.length ++
      grans.flatMap (fun g => leBytes 8 g) ++ leBytes 64 (Config.logHash s.boot.log).toNat
    s.updTdi n fun t => { t with report := bs }

/-- The key slots that are free. -/
def State.freeSlots (s : State) : List Nat :=
  ((List.range 63).map (· + 1)).filter fun k => !s.host.tdis.any fun t => t.slots.contains k

/-- REGBIND (R303): the manual does not say which free slot is taken.
DESIGN CHOICE, unsafe: notes/assumptions/12.md; DEDUCED, unsafe: notes/assumptions/65.md. -/
def State.mailRegbind (s : State) : State :=
  s.mail 4 3 fun xs s =>
    let (n, first, count) := (xs.getD 0 0, xs.getD 1 0, xs.getD 2 0)
    let grans := (List.range (min count (2 ^ 18))).map (first + ·)
    match s.tdi? n with
    | none => s.respond 4 1 0
    | some t =>
      if count = 0 || first + count > 2 ^ 18 || grans.any fun g => (Sparse.get? g s.mem.granKey).isSome then s.respond 4 1 0
      else if t.st ≠ .unlocked || s.freeSlots.isEmpty then s.respond 4 2 0
      else
        let slot := s.freeSlots.getD (Config.which s.free 303 % s.freeSlots.length) 1
        let s := { s with mem := { s.mem with
            granKey := grans.foldl (fun m g => Sparse.put g slot m) s.mem.granKey
            keys := Sparse.put slot (Config.key s.free) s.mem.keys }
                          free := s.free + 1 }
        (s.updTdi n fun t => { t with slots := t.slots ++ [slot] }).respond 4 0 0

/-- GET_MEASUREMENTS (R307): the log with its signature under the identity key. -/
def State.measure (s : State) : State :=
  { s with boot := { s.boot with signed := s.boot.log ++ [Config.signature s.boot.log] } }

/-! ### Registers (R11, R188, R274, R290, R291, R299, R308) -/

/-- QBASE_WRITE: ignored while EN = 1; a change of it is a change of the TDI's configuration (R302). -/
def State.writeBase (s : State) (fn q : Nat) (v : BitVec 64) : State :=
  let k := s.queue fn q
  if k.en then s
  else
    let s := s.updQueue fn q fun k => { k with base := v }
    if k.base ≠ v then s.tdiError fn else s

/-- QSIZE_WRITE: ignored while EN = 1 or for a value that is no ring size; bits 63:13 are RES. -/
def State.writeSize (s : State) (fn q : Nat) (v : BitVec 64) : State :=
  let n := v.toNat % 2 ^ 13
  if (s.queue fn q).en || !ringSizeOk n then s else s.updQueue fn q fun k => { k with size := n }

/-- QSTAT_CLEAR: W1C. -/
def State.clearStat (s : State) (fn q : Nat) (v : BitVec 64) : State :=
  s.updQueue fn q fun k => { k with stat := k.stat &&& ~~~(v.setWidth 3) }

/-- The queue registers of a function exist and the device serves them (R290, R304). -/
def State.hasQueue (s : State) (fn q : Nat) : Bool := fn ≤ 16 && q < 64 && !s.boot.min

/-- An event of a queue that exists. -/
def State.onQueue (s : State) (fn q : Nat) (k : State → State) : State := if s.hasQueue fn q then k s else s

/-- A response word written to a die's fault buffer (R188). -/
def State.fbResponse (s : State) (die : Nat) (v : BitVec 64) : State :=
  if v.getLsbD 16 then
    s.raiseRecord die (v.setWidth 16)
  else s.walkAgain die (v.setWidth 16)

/-- The doorbell of the mailbox rung (R299): an event that the management core latches (R374). -/
def State.ring (s : State) : State :=
  { s with boot := { s.boot with doorbell := true } }.updCore mgmtCore fun k => { k with latched := k.latched ||| 16 }

/-- Eight bytes written at an offset of a function's BAR0: RW fields take the value, RES bits and other offsets ignore it.
DEDUCED, unsafe: notes/assumptions/59.md. -/
def State.writeBar (s : State) (fn off : Nat) (v : BitVec 64) : State :=
  let q := (off - 0x30000) / 64
  if off % 8 ≠ 0 then s
  else if 0x30000 ≤ off && off < 0x31000 then
    s.onQueue fn q fun s =>
      match (off - 0x30000) % 64 with
      | 0x00 => s.writeBase fn q v
      | 0x08 => s.writeSize fn q v
      | 0x10 => s.writeTail fn q (v.toNat % 2 ^ 12)
      | 0x20 => if v.getLsbD 0 then s.enableQueue fn q else s.updQueue fn q fun k => { k with en := false }
      | 0x28 => s.clearStat fn q v
      | _ => s
  else if fn ≠ 0 then s
  else if off < 0x40 then { s with boot := { s.boot with req := Sparse.setRange memDefault s.boot.req off (leBytes 8 v.toNat) } }
  else if off = 0x40 then if v = 1 then s.ring else s
  else if s.boot.min then s
  else if 0x10000 ≤ off && off < 0x10100 then
    let die := (off - 0x10000) / 0x40
    match (off - 0x10000) % 0x40 with
    | 0x18 => if v = 1 then s.fbpop die else s
    | 0x20 => s.fbResponse die v
    | _ => s
  else if 0x20000 ≤ off && off < 0x22000 then s.windowWrite ((off - 0x20000) / 32) ((off - 0x20000) / 8 % 4) v
  else s

/-- BOOTSTAT (R308). -/
def State.bootstat (s : State) : BitVec 64 :=
  s.boot.ldown ++ s.boot.attempt ++ s.boot.step ++ s.boot.reason ++ (0 : BitVec 7) ++ BitVec.ofBool s.boot.min

/-- The words of a fault record (R187). -/
def FaultRec.word0 (r : FaultRec) : BitVec 64 :=
  (0 : BitVec 12) ++ r.vpage ++ BitVec.ofNat 3 r.kind ++ BitVec.ofNat 2 r.wlvl ++ BitVec.ofNat 7 r.core
def FaultRec.word1 (r : FaultRec) : BitVec 64 :=
  r.pasid ++ (0 : BitVec 12) ++ r.seq ++ BitVec.ofBool r.eng ++ (0 : BitVec 10) ++ BitVec.ofNat 5 r.wslot

/-- A register of a fault buffer (R188). -/
def FaultBuf.reg (b : FaultBuf) (off : Nat) : BitVec 64 :=
  let left := b.recs.filter fun r => !r.popped
  match off with
  | 0x00 => BitVec.ofNat 64 left.length
  | 0x08 => (left.head?.map FaultRec.word0).getD 0
  | 0x10 => (left.head?.map FaultRec.word1).getD 0
  | _ => 0

/-- A window entry as it is read: a RES field reads zero (R9, R274). -/
def winShown (v : BitVec 256) : BitVec 256 :=
  let keep (hi lo : Nat) : Nat := 2 ^ (hi + 1) - 2 ^ lo
  v &&& BitVec.ofNat 256 (keep 63 59 + keep 39 21 + keep 115 85 + keep 167 128 + keep 210 192)

/-- What a read of eight bytes at an offset of a function's BAR0 returns (R290).
DEDUCED, safe: notes/assumptions/70.md. -/
def State.readBar (s : State) (fn off : Nat) : BitVec 64 :=
  if 0x30000 ≤ off && off < 0x31000 then
    let k := s.queue fn ((off - 0x30000) / 64)
    match (off - 0x30000) % 64 with
    | 0x00 => k.base
    | 0x08 => BitVec.ofNat 64 k.size
    | 0x10 => BitVec.ofNat 64 k.tail
    | 0x18 => BitVec.ofNat 64 k.head
    | 0x20 => (BitVec.ofBool k.en).setWidth 64
    | 0x28 => k.stat.setWidth 64
    | _ => 0
  else if fn ≠ 0 then 0
  else if off < 0x40 then BitVec.ofNat 64 (leNat (Sparse.range memDefault s.boot.req off 8))
  else if off = 0x40 then (BitVec.ofBool s.boot.doorbell).setWidth 64
  else if 0x80 ≤ off && off < 0xC0 then BitVec.ofNat 64 (leNat (Sparse.range memDefault s.boot.resp (off - 0x80) 8))
  else if off = 0x100 then s.bootstat
  else if 0x10000 ≤ off && off < 0x10100 then
    ((s.mem.fbuf[(off - 0x10000) / 0x40]?).map fun b => b.reg ((off - 0x10000) % 0x40)).getD 0
  else if 0x20000 ≤ off && off < 0x22000 then
    (winShown (Sparse.get 0 s.league.windows ((off - 0x20000) / 32))).extractLsb' (64 * ((off - 0x20000) / 8 % 4)) 64
  else 0

/-- A packet of type 0x13 that has come to this device, of some kind. -/
def State.onLaunchPacket (s : State) (p : Packet) (kinds : List Nat) (k : Nat → Nat → Nat → Nat → State → State) : State :=
  let w := (Packet.word p 2).toNat
  let set := (Packet.word p 3).toNat
  if p.type = 0x13 && p.dst == s.peer && kinds.contains (w / 2 ^ 32) then
    s.recv p (k (w / 2 ^ 32) (w % 2 ^ 32) (set % 2 ^ 16) (set / 2 ^ 16 % 2 ^ 16))
  else s

/-- QBASE_WRITE (R291). -/
def execQbaseWrite (fn q : Nat) (v : BitVec 64) (s : State) : Host.Outcome State Fault Refusal :=
  .next (s.onQueue fn q fun s => s.writeBase fn q v)

/-- QSIZE_WRITE (R291). -/
def execQsizeWrite (fn q : Nat) (v : BitVec 64) (s : State) : Host.Outcome State Fault Refusal :=
  .next (s.onQueue fn q fun s => s.writeSize fn q v)

/-- QUEUE_ENABLE (R291). -/
def execQueueEnable (fn q : Nat) (s : State) : Host.Outcome State Fault Refusal :=
  .next (s.onQueue fn q fun s => s.enableQueue fn q)

/-- QTAIL_WRITE (R292). -/
def execQtailWrite (fn q : Nat) (v : BitVec 64) (s : State) : Host.Outcome State Fault Refusal :=
  .next (s.onQueue fn q fun s => s.writeTail fn q (v.toNat % 2 ^ 12))

/-- QSTAT_CLEAR (R291). -/
def execQstatClear (fn q : Nat) (v : BitVec 64) (s : State) : Host.Outcome State Fault Refusal :=
  .next (s.onQueue fn q fun s => s.clearStat fn q v)

/-- REGISTER_WRITE (R11). -/
def execRegisterWrite (fn off : Nat) (v : BitVec 64) (s : State) : Host.Outcome State Fault Refusal :=
  .next (s.writeBar fn off v)

/-- NOOP_PACKET (R293). -/
def execNoopPacket (fn q : Nat) (s : State) : Host.Outcome State Fault Refusal :=
  .next (s.onQueue fn q fun s => s.startPkt fn q (fun p => p.type == 0) fun p s => s.finishPkt fn q p.n)

/-- LAUNCH_PACKET (R43). -/
def execLaunchPacket (fn q : Nat) (s : State) : Host.Outcome State Fault Refusal :=
  .next (s.onQueue fn q fun s => s.launchPkt fn q)

/-- WAIT_PACKET (R293). -/
def execWaitPacket (fn q : Nat) (s : State) : Host.Outcome State Fault Refusal :=
  .next (s.onQueue fn q fun s => s.startPkt fn q (fun p => p.type == 2 && s.waitOk fn p) fun p s =>
    s.updPkt fn q p.n fun p => { p with started := true })

/-- WAIT_PACKET_FINISH (R293). -/
def execWaitPacketFinish (fn q : Nat) (s : State) : Host.Outcome State Fault Refusal :=
  .next (s.onQueue fn q fun s => s.finishWait fn q)

/-- RESERVED_PACKET (R293). -/
def execReservedPacket (fn q : Nat) (s : State) : Host.Outcome State Fault Refusal :=
  .next (s.onQueue fn q fun s => s.startPkt fn q (fun p => p.type ≥ 3 || (p.type == 2 && !s.waitOk fn p)) fun p s =>
    s.badPkt fn q p.n)

/-- LAUNCH_COMPLETION_RECORD (R461). -/
def execLaunchCompletionRecord (launch : Nat) (s : State) : Host.Outcome State Fault Refusal :=
  .next (s.completeLaunch launch)

/-- LAUNCH_ARRIVAL_RECEIPT (R41). -/
def execLaunchArrivalReceipt (p : Packet) (s : State) : Host.Outcome State Fault Refusal :=
  .next (s.onLaunchPacket p [0, 5] fun kind key base count s =>
    s.launchArrive p.src.toNat key base count (Packet.bytes p 64) (kind == 5))

/-- LAUNCH_RELEASE_RECEIPT (R41). -/
def execLaunchReleaseReceipt (p : Packet) (s : State) : Host.Outcome State Fault Refusal :=
  .next (s.onLaunchPacket p [1] fun _ key base count s => s.launchAnswer key base count true)

/-- LAUNCH_REFUSAL_RECEIPT (R41). -/
def execLaunchRefusalReceipt (p : Packet) (s : State) : Host.Outcome State Fault Refusal :=
  .next (s.onLaunchPacket p [2] fun _ key base count s => s.launchAnswer key base count false)

/-- LAUNCH_ARRIVAL_TIMEOUT (R41). -/
def execLaunchArrivalTimeout (key : BitVec 32) (s : State) : Host.Outcome State Fault Refusal :=
  .next (s.launchArrivalTimeout key.toNat)

/-- LAUNCH_ANSWER_TIMEOUT (R41). -/
def execLaunchAnswerTimeout (launch : Nat) (s : State) : Host.Outcome State Fault Refusal :=
  .next (s.launchAnswerTimeout launch)

/-- MAILBOX_VERSION (R299). -/
def execMailboxVersion (s : State) : Host.Outcome State Fault Refusal :=
  .next (s.mailVersion)

/-- QDESTROY (R300). -/
def execQdestroy (s : State) : Host.Outcome State Fault Refusal :=
  .next (s.mailDestroy)

/-- QDESTROY_ANSWER (R300). -/
def execQdestroyAnswer (s : State) : Host.Outcome State Fault Refusal :=
  .next (s.destroyAnswer)

/-- PASIDDOWN (R301). -/
def execPasiddown (s : State) : Host.Outcome State Fault Refusal :=
  .next (s.mailPasidDown)

/-- PASIDDOWN_ANSWER (R301). -/
def execPasiddownAnswer (s : State) : Host.Outcome State Fault Refusal :=
  .next (s.pasidAnswer)

/-- REGBIND (R303). -/
def execRegbind (s : State) : Host.Outcome State Fault Refusal :=
  .next (s.mailRegbind)

/-- PREEMPT (R299). -/
def execPreempt (s : State) : Host.Outcome State Fault Refusal :=
  .next (s.mailPreempt)

/-- BOOTCLR (R299). -/
def execBootclr (s : State) : Host.Outcome State Fault Refusal :=
  .next (s.mailBootclr)

/-- MAILBOX_UNKNOWN_COMMAND (R299). -/
def execMailboxUnknownCommand (s : State) : Host.Outcome State Fault Refusal :=
  .next (s.mailUnknown)

/-- LOCK_INTERFACE (R302). -/
def execLockInterface (tdi : Nat) (s : State) : Host.Outcome State Fault Refusal :=
  .next (s.onTdi fun s => s.tdiLock tdi)

/-- GET_DEVICE_INTERFACE_REPORT (R302). -/
def execGetDeviceInterfaceReport (tdi : Nat) (s : State) : Host.Outcome State Fault Refusal :=
  .next (s.onTdi fun s => s.tdiReport tdi)

/-- START_INTERFACE (R302). -/
def execStartInterface (tdi : Nat) (s : State) : Host.Outcome State Fault Refusal :=
  .next (s.onTdi fun s => s.tdiStart tdi)

/-- STOP_INTERFACE (R302). -/
def execStopInterface (tdi : Nat) (s : State) : Host.Outcome State Fault Refusal :=
  .next (s.onTdi fun s => s.tdiStop tdi)

/-- TDI_CONFIG_CHANGE (R302). -/
def execTdiConfigChange (tdi : Nat) (s : State) : Host.Outcome State Fault Refusal :=
  .next (s.onTdi fun s => s.tdiError tdi)

/-- IDE_INTEGRITY_FAILURE (R290). -/
def execIdeIntegrityFailure (tdi : Nat) (s : State) : Host.Outcome State Fault Refusal :=
  .next (s.onTdi fun s => s.tdiError tdi)

/-- GET_MEASUREMENTS (R307). -/
def execGetMeasurements (s : State) : Host.Outcome State Fault Refusal :=
  .next (s.measure)

end Sys2Proof.Machine
end

