-- ==== Sys2Proof/Machine/Boot.lean ====
section
/-!
DEFINITION. Power-on reset and the boot sequence of the management core (R304 to R306, R308), and the temperature of a die
(R298).
-/

namespace Sys2Proof.Machine

/-- What a slot-0 wave at rest waits in: IDLE of s2 with mask s0.
DEDUCED, unsafe: notes/assumptions/9.md. -/
def restIdle : Instr :=
  .idle { u := true, d9 := 322, a9 := 320, pg := 0, b9 := 0, c9 := 0, pn := false, nw := false, ch := false, stall := 0, sbs := 0
          ty := 0, wait := 0, sub := 0, mod := 0, lit := none }

/-- The wave in slot 0 of a core as boot starts it, at rest; the management core's has one lane (R101, R304;
notes/assumptions/9.md). -/
def agentWave (core : Nat) (now : Nat) : Wave :=
  let id : WaveId :=
    { handle := agentHandle core, proc := 0, sc := 0, kind := if core = mgmtCore then .mgmt else .agent, blk := none
      lvls := List.replicate 8 0, gang := false, codeBase := 0, placement := 0, home := core, pinned := true
      made := 0, handles := none }
  let m := slotZeroLanes core
  let w := { Wave.fresh id 0 [] (fun l => l) [Half.fresh 0 m false] now with exited := ~~~m }
  w.updHalf 0 fun h => { h with base := { h.base with wait := .on restIdle 0 } }

/-- The device after a reset, before the ROM runs: the board, the host's memory and the switches are not part of what is reset;
the straps give the peer number and the pool (R23, R297); the mask ROM stays, and the restarts are counted (R288).
DEDUCED, unsafe: notes/assumptions/68.md. -/
def State.cleared (s : State) : State :=
  { State.reset with
    peer := s.board.peer
    poolFree := poolSize s.board.watts
    board := s.board
    mem := { State.reset.mem with host := s.mem.host }
    league := { State.reset.league with sw := s.league.sw }
    boot := { State.reset.boot with rom := s.boot.rom, epoch := s.boot.epoch + 1 }
    next := s.next
    agenda := s.agenda
    cur := s.cur
    free := s.free }

/-- The hash of a bank: of all its bytes, those not listed zero (R14, R304). -/
def Bank.hash (b : Bank) : BitVec 512 := Config.sha512 b.size (b.cells.filter fun x => x.1 < b.size)

/-- The measurement log entries 1 to 3: the ROM, the EEPROM image and the strap bytes. -/
def Board.measured (b : Board) (rom : Bank) : List (BitVec 512) :=
  [rom.hash, Config.measurement (2 * (b.eeCount * 8 + b.eeReason)),
   Config.measurement (1 + 2 * (b.watts * 512 + b.peer.toNat))]

/-- Step 6: a port that fails stays down (R306).
DEDUCED, unsafe: notes/assumptions/68.md. -/
def Board.ports (b : Board) : List Port := b.links.map fun l => l.port b.peer
/-- LDOWN. -/
def ldown (ps : List Port) : BitVec 32 := BitVec.ofNat 32 (pack 1 (ps.map fun p => b2n !p.up))

/-- The registers of a stack's controller that training writes, in their order (R305). -/
def trainSteps : List TrainStep := [.impedance, .commandBus, .writeLevel, .readEye, .pattern]

/-- The pattern of a channel, read back (R305).
DESIGN CHOICE, safe: notes/assumptions/91.md. -/
def Board.readBack (b : Board) (ch : Nat) : BitVec 64 := Config.trainPattern ch ^^^ Sparse.get 0 b.chanErr ch
/-- A stack of 32 channels trains: every channel reads back what was written (R305). -/
def Board.stackGood (b : Board) (stack : Nat) : Bool :=
  (List.range 32).all fun c => b.readBack (32 * stack + c) == Config.trainPattern (32 * stack + c)

/-- HBM4 training of the stacks, up to the first that fails (R305): whether all train.
DEDUCED, unsafe: notes/assumptions/68.md. -/
def State.train (s : State) : State × Bool :=
  let good := (List.range 8).takeWhile s.board.stackGood
  let done := (List.range 8).take (good.length + 1)
  ({ s with boot := { s.boot with trained := done.flatMap fun k => trainSteps.map fun x => (k, x) } }, good.length = 8)

/-- Slot 0 of a core started. -/
def State.startAgent (s : State) (k : Nat) : State := s.setWave k 0 (agentWave k s.now)
/-- Step 7: slot 0 of every core, and the management core. -/
def State.startAgents (s : State) : State := (List.range 128 ++ [mgmtCore]).foldl State.startAgent s

/-- POWER_ON_RESET: the steps of R304.
DEDUCED, unsafe: notes/assumptions/68.md. -/
def State.powerOn (s : State) : State :=
  let s := s.cleared
  let b := s.board
  let minimal (attempt step reason : Nat) : State :=
    -- minimal mode serves the management core
    State.startAgent { s with boot := { s.boot with
        min := true, attempt := BitVec.ofNat 8 attempt, step := BitVec.ofNat 8 step, reason := BitVec.ofNat 8 reason } } mgmtCore
  let failed (s : State) (reason : Nat) : State := { s with board := { b with eeCount := b.eeCount + 1, eeReason := reason } }
  if !b.eeReadable then minimal 0 0 1
  else if 3 ≤ b.eeCount then minimal b.eeCount 1 b.eeReason
  else if !b.eeWritable then minimal b.eeCount 1 1
  else if !b.pufStable then failed s 2
  else
    let (s, trained) := s.train
    if !trained then failed s 3
    else if !b.coresGood.all id then failed s 4
    else
    let s := { s with board := { b with eeCount := 0 }
                      league := { s.league with ports := b.ports } }
    ({ s with boot := { s.boot with
        ldown := ldown b.ports
        attempt := BitVec.ofNat 8 (b.eeCount + 1)
        step := 8
        reason := BitVec.ofNat 8 b.eeReason
        log := { b with eeCount := b.eeCount + 1 }.measured s.boot.rom } }).startAgents

/-- The temperature of a die, that of its hottest core, in units of 0.125 °C (R298).
DEDUCED, unsafe: notes/assumptions/90.md. -/
def State.dieTemp (s : State) (die : Nat) : Nat :=
  ((List.range 128).filter fun k => dieOf k = die).foldl (fun m k => max m (s.core k).ctl.temp.toNat) 0

/-- THR of every agent of a die changed. -/
def State.throttle (s : State) (die : Nat) (f : BitVec 3 → BitVec 3) : State :=
  ((List.range 128).filter fun k => dieOf k = die).foldl (fun s k =>
    s.updCore k fun c => { c with ctl := { c.ctl with thr := f c.ctl.thr } }) s

/-- A die at 105 °C: THR rises by 1, up to 7 (R298).
DEDUCED, unsafe: notes/assumptions/90.md. -/
def State.tempHigh (s : State) (die : Nat) : State :=
  if 840 ≤ s.dieTemp die then s.throttle die fun t => if t = 7 then 7 else t + 1 else s
/-- A millisecond of a die below 95 °C: THR falls by 1 (R298).
DEDUCED, unsafe: notes/assumptions/90.md. -/
def State.tempCool (s : State) (die : Nat) : State :=
  if s.dieTemp die < 760 then s.throttle die fun t => if t = 0 then 0 else t - 1 else s

/-- POWER_ON_RESET (R304). -/
def execPowerOnReset (s : State) : Host.Outcome State Fault Refusal :=
  .next (s.powerOn)

/-- TEMP_HIGH (R298). -/
def execTempHigh (die : Nat) (s : State) : Host.Outcome State Fault Refusal :=
  .next (s.tempHigh die)

/-- TEMP_COOL_TICK (R298). -/
def execTempCoolTick (die : Nat) (s : State) : Host.Outcome State Fault Refusal :=
  .next (s.tempCool die)

end Sys2Proof.Machine
end

