-- ==== Sys2Proof/Machine/Dispatch.lean ====
section
/-!
DEFINITION. The dispatch: one arm per constructor of Instr.
-/

namespace Sys2Proof.Machine

/-- Executes an instruction, at the split `State.cur` where it is a wave's. -/
def exec (i : Instr) (s : State) : Host.Outcome State Fault Refusal :=
  match i with
  | .nop => Sys2Proof.Machine.execNop s
  | .addReg f => Sys2Proof.Machine.execAddReg f s
  | .addImm f => Sys2Proof.Machine.execAddImm f s
  | .addLit f => Sys2Proof.Machine.execAddLit f s
  | .addExt e => Sys2Proof.Machine.execAddExt e s
  | .subReg f => Sys2Proof.Machine.execSubReg f s
  | .subImm f => Sys2Proof.Machine.execSubImm f s
  | .subLit f => Sys2Proof.Machine.execSubLit f s
  | .subExt e => Sys2Proof.Machine.execSubExt e s
  | .mulReg f => Sys2Proof.Machine.execMulReg f s
  | .mulImm f => Sys2Proof.Machine.execMulImm f s
  | .mulLit f => Sys2Proof.Machine.execMulLit f s
  | .mulExt e => Sys2Proof.Machine.execMulExt e s
  | .mulhReg f => Sys2Proof.Machine.execMulhReg f s
  | .mulhImm f => Sys2Proof.Machine.execMulhImm f s
  | .mulhLit f => Sys2Proof.Machine.execMulhLit f s
  | .mulhExt e => Sys2Proof.Machine.execMulhExt e s
  | .divReg f => Sys2Proof.Machine.execDivReg f s
  | .divImm f => Sys2Proof.Machine.execDivImm f s
  | .divLit f => Sys2Proof.Machine.execDivLit f s
  | .divExt e => Sys2Proof.Machine.execDivExt e s
  | .minReg f => Sys2Proof.Machine.execMinReg f s
  | .minImm f => Sys2Proof.Machine.execMinImm f s
  | .minLit f => Sys2Proof.Machine.execMinLit f s
  | .minExt e => Sys2Proof.Machine.execMinExt e s
  | .maxReg f => Sys2Proof.Machine.execMaxReg f s
  | .maxImm f => Sys2Proof.Machine.execMaxImm f s
  | .maxLit f => Sys2Proof.Machine.execMaxLit f s
  | .maxExt e => Sys2Proof.Machine.execMaxExt e s
  | .andReg f => Sys2Proof.Machine.execAndReg f s
  | .andImm f => Sys2Proof.Machine.execAndImm f s
  | .andLit f => Sys2Proof.Machine.execAndLit f s
  | .andExt e => Sys2Proof.Machine.execAndExt e s
  | .orReg f => Sys2Proof.Machine.execOrReg f s
  | .orImm f => Sys2Proof.Machine.execOrImm f s
  | .orLit f => Sys2Proof.Machine.execOrLit f s
  | .orExt e => Sys2Proof.Machine.execOrExt e s
  | .xorReg f => Sys2Proof.Machine.execXorReg f s
  | .xorImm f => Sys2Proof.Machine.execXorImm f s
  | .xorLit f => Sys2Proof.Machine.execXorLit f s
  | .xorExt e => Sys2Proof.Machine.execXorExt e s
  | .andnReg f => Sys2Proof.Machine.execAndnReg f s
  | .andnImm f => Sys2Proof.Machine.execAndnImm f s
  | .andnLit f => Sys2Proof.Machine.execAndnLit f s
  | .andnExt e => Sys2Proof.Machine.execAndnExt e s
  | .shlReg f => Sys2Proof.Machine.execShlReg f s
  | .shlImm f => Sys2Proof.Machine.execShlImm f s
  | .shlLit f => Sys2Proof.Machine.execShlLit f s
  | .shlExt e => Sys2Proof.Machine.execShlExt e s
  | .shrReg f => Sys2Proof.Machine.execShrReg f s
  | .shrImm f => Sys2Proof.Machine.execShrImm f s
  | .shrLit f => Sys2Proof.Machine.execShrLit f s
  | .shrExt e => Sys2Proof.Machine.execShrExt e s
  | .sarReg f => Sys2Proof.Machine.execSarReg f s
  | .sarImm f => Sys2Proof.Machine.execSarImm f s
  | .sarLit f => Sys2Proof.Machine.execSarLit f s
  | .sarExt e => Sys2Proof.Machine.execSarExt e s
  | .popcReg f => Sys2Proof.Machine.execPopcReg f s
  | .popcExt e => Sys2Proof.Machine.execPopcExt e s
  | .clzReg f => Sys2Proof.Machine.execClzReg f s
  | .clzExt e => Sys2Proof.Machine.execClzExt e s
  | .ctzReg f => Sys2Proof.Machine.execCtzReg f s
  | .ctzExt e => Sys2Proof.Machine.execCtzExt e s
  | .movReg f => Sys2Proof.Machine.execMovReg f s
  | .movExt e => Sys2Proof.Machine.execMovExt e s
  | .moviImm f => Sys2Proof.Machine.execMoviImm f s
  | .moviLit f => Sys2Proof.Machine.execMoviLit f s
  | .moviExt e => Sys2Proof.Machine.execMoviExt e s
  | .faddReg f => Sys2Proof.Machine.execFaddReg f s
  | .faddImm f => Sys2Proof.Machine.execFaddImm f s
  | .faddLit f => Sys2Proof.Machine.execFaddLit f s
  | .faddExt e => Sys2Proof.Machine.execFaddExt e s
  | .fsubReg f => Sys2Proof.Machine.execFsubReg f s
  | .fsubImm f => Sys2Proof.Machine.execFsubImm f s
  | .fsubLit f => Sys2Proof.Machine.execFsubLit f s
  | .fsubExt e => Sys2Proof.Machine.execFsubExt e s
  | .fmulReg f => Sys2Proof.Machine.execFmulReg f s
  | .fmulImm f => Sys2Proof.Machine.execFmulImm f s
  | .fmulLit f => Sys2Proof.Machine.execFmulLit f s
  | .fmulExt e => Sys2Proof.Machine.execFmulExt e s
  | .fminReg f => Sys2Proof.Machine.execFminReg f s
  | .fminImm f => Sys2Proof.Machine.execFminImm f s
  | .fminLit f => Sys2Proof.Machine.execFminLit f s
  | .fminExt e => Sys2Proof.Machine.execFminExt e s
  | .fmaxReg f => Sys2Proof.Machine.execFmaxReg f s
  | .fmaxImm f => Sys2Proof.Machine.execFmaxImm f s
  | .fmaxLit f => Sys2Proof.Machine.execFmaxLit f s
  | .fmaxExt e => Sys2Proof.Machine.execFmaxExt e s
  | .frcpReg f => Sys2Proof.Machine.execFrcpReg f s
  | .frcpExt e => Sys2Proof.Machine.execFrcpExt e s
  | .frsqReg f => Sys2Proof.Machine.execFrsqReg f s
  | .frsqExt e => Sys2Proof.Machine.execFrsqExt e s
  | .fsqrtReg f => Sys2Proof.Machine.execFsqrtReg f s
  | .fsqrtExt e => Sys2Proof.Machine.execFsqrtExt e s
  | .fex2Reg f => Sys2Proof.Machine.execFex2Reg f s
  | .fex2Ext e => Sys2Proof.Machine.execFex2Ext e s
  | .flg2Reg f => Sys2Proof.Machine.execFlg2Reg f s
  | .flg2Ext e => Sys2Proof.Machine.execFlg2Ext e s
  | .ffma e => Sys2Proof.Machine.execFfma e s
  | .mad e => Sys2Proof.Machine.execMad e s
  | .bfx e => Sys2Proof.Machine.execBfx e s
  | .bfi e => Sys2Proof.Machine.execBfi e s
  | .cmp e => Sys2Proof.Machine.execCmp e s
  | .sel e => Sys2Proof.Machine.execSel e s
  | .lea e => Sys2Proof.Machine.execLea e s
  | .plog e => Sys2Proof.Machine.execPlog e s
  | .pmov e => Sys2Proof.Machine.execPmov e s
  | .ballot e => Sys2Proof.Machine.execBallot e s
  | .vote e => Sys2Proof.Machine.execVote e s
  | .mprefix e => Sys2Proof.Machine.execMprefix e s
  | .elect p => Sys2Proof.Machine.execElect p s
  | .electExt e => Sys2Proof.Machine.execElectExt e s
  | .cvt e => Sys2Proof.Machine.execCvt e s
  | .bqnt e => Sys2Proof.Machine.execBqnt e s
  | .vdot e => Sys2Proof.Machine.execVdot e s
  | .shfl e => Sys2Proof.Machine.execShfl e s
  | .lscan e => Sys2Proof.Machine.execLscan e s
  | .lred e => Sys2Proof.Machine.execLred e s
  | .bra d => Sys2Proof.Machine.execBra d s
  | .braAbs e => Sys2Proof.Machine.execBraAbs e s
  | .braDisp e => Sys2Proof.Machine.execBraDisp e s
  | .brc e => Sys2Proof.Machine.execBrc e s
  | .bru d neg p => Sys2Proof.Machine.execBru d neg p s
  | .bruAbs e => Sys2Proof.Machine.execBruAbs e s
  | .bruDisp e => Sys2Proof.Machine.execBruDisp e s
  | .call d => Sys2Proof.Machine.execCall d s
  | .callAbs e => Sys2Proof.Machine.execCallAbs e s
  | .callDisp e => Sys2Proof.Machine.execCallDisp e s
  | .ret => Sys2Proof.Machine.execRet s
  | .jmpi e => Sys2Proof.Machine.execJmpi e s
  | .loop e => Sys2Proof.Machine.execLoop e s
  | .loopx e => Sys2Proof.Machine.execLoopx e s
  | .brkl e => Sys2Proof.Machine.execBrkl e s
  | .region => Sys2Proof.Machine.execRegion s
  | .exit => Sys2Proof.Machine.execExit s
  | .yield => Sys2Proof.Machine.execYield s
  | .trap n => Sys2Proof.Machine.execTrap n s
  | .brk => Sys2Proof.Machine.execBrk s
  | .ldReg f => Sys2Proof.Machine.execLdReg f s
  | .ldLit f => Sys2Proof.Machine.execLdLit f s
  | .ldExt e => Sys2Proof.Machine.execLdExt e s
  | .stReg f => Sys2Proof.Machine.execStReg f s
  | .stLit f => Sys2Proof.Machine.execStLit f s
  | .stExt e => Sys2Proof.Machine.execStExt e s
  | .ldlReg f => Sys2Proof.Machine.execLdlReg f s
  | .ldlLit f => Sys2Proof.Machine.execLdlLit f s
  | .ldlExt e => Sys2Proof.Machine.execLdlExt e s
  | .stlReg f => Sys2Proof.Machine.execStlReg f s
  | .stlLit f => Sys2Proof.Machine.execStlLit f s
  | .stlExt e => Sys2Proof.Machine.execStlExt e s
  | .cmpst e => Sys2Proof.Machine.execCmpst e s
  | .expld e => Sys2Proof.Machine.execExpld e s
  | .atom e => Sys2Proof.Machine.execAtom e s
  | .atomn e => Sys2Proof.Machine.execAtomn e s
  | .fence e => Sys2Proof.Machine.execFence e s
  | .fenceo sc => Sys2Proof.Machine.execFenceo sc s
  | .fencer e => Sys2Proof.Machine.execFencer e s
  | .pref e => Sys2Proof.Machine.execPref e s
  | .cflush e => Sys2Proof.Machine.execCflush e s
  | .cinv e => Sys2Proof.Machine.execCinv e s
  | .rld e => Sys2Proof.Machine.execRld e s
  | .rst e => Sys2Proof.Machine.execRst e s
  | .ratom e => Sys2Proof.Machine.execRatom e s
  | .rmcst e => Sys2Proof.Machine.execRmcst e s
  | .cpy e => Sys2Proof.Machine.execCpy e s
  | .mma e => Sys2Proof.Machine.execMma e s
  | .accrd e => Sys2Proof.Machine.execAccrd e s
  | .accwr e => Sys2Proof.Machine.execAccwr e s
  | .accz e => Sys2Proof.Machine.execAccz e s
  | .tilemvLd e => Sys2Proof.Machine.execTilemvLd e s
  | .tilemvSt e => Sys2Proof.Machine.execTilemvSt e s
  | .chinit e => Sys2Proof.Machine.execChinit e s
  | .chputRes e => Sys2Proof.Machine.execChputRes e s
  | .chputDone e => Sys2Proof.Machine.execChputDone e s
  | .chgetWait e => Sys2Proof.Machine.execChgetWait e s
  | .chgetDone e => Sys2Proof.Machine.execChgetDone e s
  | .cwait e => Sys2Proof.Machine.execCwait e s
  | .coll e => Sys2Proof.Machine.execColl e s
  | .gthr e => Sys2Proof.Machine.execGthr e s
  | .bar e => Sys2Proof.Machine.execBar e s
  | .bara e => Sys2Proof.Machine.execBara e s
  | .barw e => Sys2Proof.Machine.execBarw e s
  | .regroupKey e => Sys2Proof.Machine.execRegroupKey e s
  | .regroupHome e => Sys2Proof.Machine.execRegroupHome e s
  | .vgrow e => Sys2Proof.Machine.execVgrow e s
  | .vshrink e => Sys2Proof.Machine.execVshrink e s
  | .wcreate e => Sys2Proof.Machine.execWcreate e s
  | .psend e => Sys2Proof.Machine.execPsend e s
  | .precv e => Sys2Proof.Machine.execPrecv e s
  | .objnew e => Sys2Proof.Machine.execObjnew e s
  | .objdel e => Sys2Proof.Machine.execObjdel e s
  | .wsadd e => Sys2Proof.Machine.execWsadd e s
  | .wswait e => Sys2Proof.Machine.execWswait e s
  | .tarm e => Sys2Proof.Machine.execTarm e s
  | .tcancel e => Sys2Proof.Machine.execTcancel e s
  | .nslookup e => Sys2Proof.Machine.execNslookup e s
  | .srd e => Sys2Proof.Machine.execSrd e s
  | .crd e => Sys2Proof.Machine.execCrd e s
  | .cwr e => Sys2Proof.Machine.execCwr e s
  | .ktcodePop e => Sys2Proof.Machine.execKtcodePop e s
  | .kmodeIntlkWrite e => Sys2Proof.Machine.execKmodeIntlkWrite e s
  | .rft e => Sys2Proof.Machine.execRft e s
  | .ctxsv e => Sys2Proof.Machine.execCtxsv e s
  | .ctxld e => Sys2Proof.Machine.execCtxld e s
  | .tlbinv e => Sys2Proof.Machine.execTlbinv e s
  | .idle e => Sys2Proof.Machine.execIdle e s
  | .objrd e => Sys2Proof.Machine.execObjrd e s
  | .objwr e => Sys2Proof.Machine.execObjwr e s
  | .pwracq e => Sys2Proof.Machine.execPwracq e s
  | .pwrrel e => Sys2Proof.Machine.execPwrrel e s
  | .mgsig e => Sys2Proof.Machine.execMgsig e s
  | .agentRestart core => Sys2Proof.Machine.execAgentRestart core s
  | .trapRecordDelivery core => Sys2Proof.Machine.execTrapRecordDelivery core s
  | .translationFill core slot eng => Sys2Proof.Machine.execTranslationFill core slot eng s
  | .atomnPerform core slot => Sys2Proof.Machine.execAtomnPerform core slot s
  | .fbpop die => Sys2Proof.Machine.execFbpop die s
  | .fbrespWalkAgain die seq => Sys2Proof.Machine.execFbrespWalkAgain die seq s
  | .fbrespRaise die seq => Sys2Proof.Machine.execFbrespRaise die seq s
  | .vgrowGrant core => Sys2Proof.Machine.execVgrowGrant core s
  | .vgrowDeadlockBreak core => Sys2Proof.Machine.execVgrowDeadlockBreak core s
  | .blockDrainDone core => Sys2Proof.Machine.execBlockDrainDone core s
  | .barrierPhaseComplete blk level => Sys2Proof.Machine.execBarrierPhaseComplete blk level s
  | .cwaitSatisfied w => Sys2Proof.Machine.execCwaitSatisfied w s
  | .fullEmptyWake w => Sys2Proof.Machine.execFullEmptyWake w s
  | .fencerComplete w => Sys2Proof.Machine.execFencerComplete w s
  | .kernelObjectWake w => Sys2Proof.Machine.execKernelObjectWake w s
  | .tokenGrant => Sys2Proof.Machine.execTokenGrant s
  | .idleWake core => Sys2Proof.Machine.execIdleWake core s
  | .channelReservationGrant core ch => Sys2Proof.Machine.execChannelReservationGrant core ch s
  | .mmaExecute core => Sys2Proof.Machine.execMmaExecute core s
  | .mmaComplete core => Sys2Proof.Machine.execMmaComplete core s
  | .acczExecute core => Sys2Proof.Machine.execAcczExecute core s
  | .accwrExecute core => Sys2Proof.Machine.execAccwrExecute core s
  | .tilemvLdExecute core => Sys2Proof.Machine.execTilemvLdExecute core s
  | .tilemvStExecute core => Sys2Proof.Machine.execTilemvStExecute core s
  | .copyFire core => Sys2Proof.Machine.execCopyFire core s
  | .copyComplete core n => Sys2Proof.Machine.execCopyComplete core n s
  | .followOnMmaEntry core => Sys2Proof.Machine.execFollowOnMmaEntry core s
  | .gatherFire core => Sys2Proof.Machine.execGatherFire core s
  | .gatherComplete core n => Sys2Proof.Machine.execGatherComplete core n s
  | .collComplete core n => Sys2Proof.Machine.execCollComplete core n s
  | .timerExpiry obj => Sys2Proof.Machine.execTimerExpiry obj s
  | .scPeriodRelease obj => Sys2Proof.Machine.execScPeriodRelease obj s
  | .scBudgetExhausted obj => Sys2Proof.Machine.execScBudgetExhausted obj s
  | .kernelDispatch cluster => Sys2Proof.Machine.execKernelDispatch cluster s
  | .waveRefill obj core => Sys2Proof.Machine.execWaveRefill obj core s
  | .progressWindowSwap core => Sys2Proof.Machine.execProgressWindowSwap core s
  | .preemptDrain blk => Sys2Proof.Machine.execPreemptDrain blk s
  | .drainLimitExpiry blk => Sys2Proof.Machine.execDrainLimitExpiry blk s
  | .preemptSave blk => Sys2Proof.Machine.execPreemptSave blk s
  | .preemptFlushRestart blk => Sys2Proof.Machine.execPreemptFlushRestart blk s
  | .blockRestore blk core => Sys2Proof.Machine.execBlockRestore blk core s
  | .blockPlacement core launch => Sys2Proof.Machine.execBlockPlacement core launch s
  | .congestionLevelChange ctl level => Sys2Proof.Machine.execCongestionLevelChange ctl level s
  | .qbaseWrite fn q v => Sys2Proof.Machine.execQbaseWrite fn q v s
  | .qsizeWrite fn q v => Sys2Proof.Machine.execQsizeWrite fn q v s
  | .queueEnable fn q => Sys2Proof.Machine.execQueueEnable fn q s
  | .qtailWrite fn q v => Sys2Proof.Machine.execQtailWrite fn q v s
  | .qstatClear fn q v => Sys2Proof.Machine.execQstatClear fn q v s
  | .registerWrite fn off v => Sys2Proof.Machine.execRegisterWrite fn off v s
  | .noopPacket fn q => Sys2Proof.Machine.execNoopPacket fn q s
  | .launchPacket fn q => Sys2Proof.Machine.execLaunchPacket fn q s
  | .waitPacket fn q => Sys2Proof.Machine.execWaitPacket fn q s
  | .waitPacketFinish fn q => Sys2Proof.Machine.execWaitPacketFinish fn q s
  | .reservedPacket fn q => Sys2Proof.Machine.execReservedPacket fn q s
  | .launchCompletionRecord launch => Sys2Proof.Machine.execLaunchCompletionRecord launch s
  | .launchArrivalReceipt p => Sys2Proof.Machine.execLaunchArrivalReceipt p s
  | .launchReleaseReceipt p => Sys2Proof.Machine.execLaunchReleaseReceipt p s
  | .launchRefusalReceipt p => Sys2Proof.Machine.execLaunchRefusalReceipt p s
  | .launchArrivalTimeout key => Sys2Proof.Machine.execLaunchArrivalTimeout key s
  | .launchAnswerTimeout launch => Sys2Proof.Machine.execLaunchAnswerTimeout launch s
  | .mailboxVersion => Sys2Proof.Machine.execMailboxVersion s
  | .qdestroy => Sys2Proof.Machine.execQdestroy s
  | .qdestroyAnswer => Sys2Proof.Machine.execQdestroyAnswer s
  | .pasiddown => Sys2Proof.Machine.execPasiddown s
  | .pasiddownAnswer => Sys2Proof.Machine.execPasiddownAnswer s
  | .regbind => Sys2Proof.Machine.execRegbind s
  | .preempt => Sys2Proof.Machine.execPreempt s
  | .bootclr => Sys2Proof.Machine.execBootclr s
  | .windowEntryWrite n word v => Sys2Proof.Machine.execWindowEntryWrite n word v s
  | .windowEntryReadback n word => Sys2Proof.Machine.execWindowEntryReadback n word s
  | .lockInterface tdi => Sys2Proof.Machine.execLockInterface tdi s
  | .getDeviceInterfaceReport tdi => Sys2Proof.Machine.execGetDeviceInterfaceReport tdi s
  | .startInterface tdi => Sys2Proof.Machine.execStartInterface tdi s
  | .stopInterface tdi => Sys2Proof.Machine.execStopInterface tdi s
  | .tdiConfigChange tdi => Sys2Proof.Machine.execTdiConfigChange tdi s
  | .ideIntegrityFailure tdi => Sys2Proof.Machine.execIdeIntegrityFailure tdi s
  | .getMeasurements => Sys2Proof.Machine.execGetMeasurements s
  | .powerOnReset => Sys2Proof.Machine.execPowerOnReset s
  | .tempHigh die => Sys2Proof.Machine.execTempHigh die s
  | .tempCoolTick die => Sys2Proof.Machine.execTempCoolTick die s
  | .remoteReadRequest p => Sys2Proof.Machine.execRemoteReadRequest p s
  | .remoteWriteRequest p => Sys2Proof.Machine.execRemoteWriteRequest p s
  | .remoteAtomicRequest p => Sys2Proof.Machine.execRemoteAtomicRequest p s
  | .remoteResponseReceipt p => Sys2Proof.Machine.execRemoteResponseReceipt p s
  | .requestTimeout tag => Sys2Proof.Machine.execRequestTimeout tag s
  | .multicastWrite p => Sys2Proof.Machine.execMulticastWrite p s
  | .multicastCopyReceipt p => Sys2Proof.Machine.execMulticastCopyReceipt p s
  | .multicastMemberTimeout plane tag peer => Sys2Proof.Machine.execMulticastMemberTimeout plane tag peer s
  | .aggregatedAckReceipt p => Sys2Proof.Machine.execAggregatedAckReceipt p s
  | .groupTableWrite p => Sys2Proof.Machine.execGroupTableWrite p s
  | .invalidateReceipt p => Sys2Proof.Machine.execInvalidateReceipt p s
  | .invalidateAckReceipt p => Sys2Proof.Machine.execInvalidateAckReceipt p s
  | .importerCloseTimeout peer page => Sys2Proof.Machine.execImporterCloseTimeout peer page s
  | .portMessageReceipt p => Sys2Proof.Machine.execPortMessageReceipt p s
  | .nameLookupReceipt p => Sys2Proof.Machine.execNameLookupReceipt p s
  | .nameReplyReceipt p => Sys2Proof.Machine.execNameReplyReceipt p s
  | .shuffleSegmentSwitch p => Sys2Proof.Machine.execShuffleSegmentSwitch p s
  | .shufflePairTimeout plane n => Sys2Proof.Machine.execShufflePairTimeout plane n s
  | .uncodedSegmentReceipt p => Sys2Proof.Machine.execUncodedSegmentReceipt p s
  | .codedSegmentReceipt p => Sys2Proof.Machine.execCodedSegmentReceipt p s
  | .segmentNegativeReceipt p => Sys2Proof.Machine.execSegmentNegativeReceipt p s
  | .shuffleDoneReceipt p => Sys2Proof.Machine.execShuffleDoneReceipt p s
  | .peerBarrierArrival p => Sys2Proof.Machine.execPeerBarrierArrival p s
  | .peerBarrierRelease p => Sys2Proof.Machine.execPeerBarrierRelease p s
  | .linkVersionMismatch port => Sys2Proof.Machine.execLinkVersionMismatch port s
  | .flitRetransmit port => Sys2Proof.Machine.execFlitRetransmit port s
  | .reservedPacketDrop p => Sys2Proof.Machine.execReservedPacketDrop p s
  | .registerResultsWritten core slot n => Sys2Proof.Machine.execRegisterResultsWritten core slot n s
  | .cacheLineWriteBack unit line => Sys2Proof.Machine.execCacheLineWriteBack unit line s
  | .portDown port => Sys2Proof.Machine.execPortDown port s
  | .linkRetrained port versions index => Sys2Proof.Machine.execLinkRetrained port versions index s
  | .portMessageAnswerReceipt p => Sys2Proof.Machine.execPortMessageAnswerReceipt p s
  | .mailboxUnknownCommand => Sys2Proof.Machine.execMailboxUnknownCommand s

end Sys2Proof.Machine
end

