-- ==== Sys2Proof/Machine/Schedule.lean ====
section
/-!
DEFINITION. The model's own fair order (notes/assumptions/3.md): which event or split comes next when the agenda is
empty. The events listed here are those the device takes by itself; what comes from outside (the host, the switches, other
devices) comes by the agenda; what falls due, errors and the sensors come with time.
-/

namespace Sys2Proof.Machine

/-! ### Splits -/

/-- The waves with a ready split, by core and slot. -/
def State.readyWaves (s : State) : List (Nat × Nat × Wave) :=
  s.cores.flatMap fun (x : Nat × Core) => x.2.waves.filterMap fun (y : Nat × Wave) =>
    if (s.readyIn x.1 y.1).isEmpty then none else some (x.1, y.1, y.2)

/-- The wave with a ready split after the one that issued last, in cyclic order of cores and slots; its split is the one
`State.issuer` gives (R32, R46).
DESIGN CHOICE, safe: notes/assumptions/3.md. -/
def State.nextSplit (s : State) : Option Who :=
  let ws := s.readyWaves.map fun x => (⟨x.1, x.2.1, 0, 0⟩ : Who)
  let key (a : Who) : Nat := a.core * 64 + a.slot
  (ws.find? fun a => key s.cur < key a).or ws.head?

/-! ### Time -/

/-- The resident waves that use a scheduling context. -/
def State.usersOf (s : State) (sc : BitVec 32) : Nat :=
  (s.cores.map fun (x : Nat × Core) => x.2.waves.countP fun (y : Nat × Wave) => y.2.id.sc == sc).sum

/-- The budget of every context falls by 1 for each nanosecond of each resident wave that uses it (R241). -/
def State.spendBudgets (s : State) (dt : Nat) : State :=
  { s with kern := { s.kern with objs := s.kern.objs.map fun (x : Nat × Obj) => match x.2.body with
      | .sctx p b d dl left i r k u =>
        (x.1, { x.2 with body := .sctx p b d dl (left - dt * s.usersOf (mkHandle 6 x.2.gen x.1)) i r k u })
      | _ => x } }

/-- What is noted of a resident wave at a device time: that no split of it is ready, from which a promise of progress counts
(R46), and since when its STATE is 2, waiting (R232). -/
def Wave.noted (w : Wave) (ready : Bool) (now : Nat) : Wave :=
  { w with
    idle := !ready
    idleAt := if ready then w.idleAt else now
    waitAt := if w.kernWaiting then some (w.waitAt.getD now) else none }

/-- STATE and the ready time of the object of a resident wave (R224): 2 while the wave waits in a kernel-object instruction;
a wave of which no split was ready has become ready again. -/
def Obj.noted (o : Obj) (w : Wave) (ready : Bool) (now : Nat) : Obj :=
  { o with
    state := if w.kernWaiting then 2 else if o.state = 2 then 1 else o.state
    body := match o.body with
      | .wave a b c v d e t => .wave a (if w.idle && ready then now else b) c v d e t
      | b => b }

/-- What is noted of every resident wave and its object, at the device time that a step begins with. -/
def State.noteWaves (s : State) : State :=
  let ready (c k : Nat) : Bool := !(s.readyIn c k).isEmpty
  let obj (o : Obj) : Obj := match o.body with
    | .wave _ _ (some (c, k)) _ _ none _ => ((s.wave? c k).map fun w => o.noted w (ready c k) s.now).getD o
    | _ => o
  { s with
    kern := { s.kern with objs := s.kern.objs.map fun (x : Nat × Obj) => (x.1, obj x.2) }
    cores := s.cores.map fun (x : Nat × Core) =>
      (x.1, { x.2 with waves := x.2.waves.map fun (y : Nat × Wave) => (y.1, y.2.noted (ready x.1 y.1) s.now) }) }

/-- The device time by which a ready wave has issued (R46, R47). -/
def State.dueBy (s : State) (x : Nat × Nat × Wave) : Nat := max x.2.2.lastIssue x.2.2.idleAt + s.windowNs x.1

/-- The device times at which a timer expires, a context is released, or a budget is spent (R240, R241). -/
def State.dues (s : State) : List Nat :=
  s.kern.objs.filterMap fun (x : Nat × Obj) => match x.2.body with
    | .timer d _ _ _ => some d
    | .sctx _ _ _ _ left _ r _ _ =>
      let n := s.usersOf (mkHandle 6 x.2.gen x.1)
      some (if left = 0 ∨ n = 0 then r else min r (s.now + (left + n - 1) / n))
    | _ => none

/-- The device times still to come at which a swap is due (R46), a new length of a progress window takes effect (R350), or the
exchange of a peer set is over (R41). -/
def State.laterDues (s : State) : List Nat :=
  let windows := s.cores.filterMap fun (x : Nat × Core) => if x.2.nextNs = x.2.winNs then none else some x.2.winEnd
  (s.swapCores.map s.swapDue ++ windows ++ s.setDues).filter fun t => s.now < t

/-- The time that passes with a step: what the implementation takes, but never beyond a time at which something falls due or
by which a ready wave must have issued (R41, R46, R240, R241, R350).
DESIGN CHOICE, safe: notes/assumptions/4.md. -/
def State.span (s : State) : Nat :=
  let d := s.readyWaves.foldl (fun d x => min d (s.dueBy x - s.now)) (Config.elapsed s.free)
  (s.dues ++ s.laterDues).foldl (fun d t => min d (t - s.now)) d

/-- What falls due at the device time reached (R41, R46, R224, R232, R233, R240, R241, R246, R254, R268, R350, R374). Where a
context's release falls on the tick at which its budget ends, the release comes first.
DESIGN CHOICE, safe: notes/assumptions/4.md; DESIGN CHOICE, unsafe: notes/assumptions/111.md. -/
def State.settle (s : State) : State :=
  let s := s.settleWaves.turnWindows.endSets.expireDue.releaseDue.overruns.evictHalted.joinLists.noteWork
  (s.cores.foldl (fun s (x : Nat × Core) => s.fulfilSwap x.1) s).progress.syncSets

/-- A report of the sensors, if one comes (R298).
DESIGN CHOICE, safe: notes/assumptions/69.md. -/
def State.sensed (s : State) : Option (Nat × BitVec 12 × BitVec 4) → State
  | some (core, temp, droop) =>
    if core < 128 then s.updCore core fun k => { k with ctl := { k.ctl with temp := temp, droop := droop } } else s
  | none => s

/-- What the management core does about the temperature of the dies (R298): one that has reached 105 °C since the state u, and
one below 95 °C for each millisecond.
DEDUCED, unsafe: notes/assumptions/90.md. -/
def State.thermal (s u : State) : State :=
  let ms := s.now / 1000000 - u.now / 1000000
  let hot (s : State) : Nat → Bool := fun die => 840 ≤ s.dieTemp die
  let s := ((List.range 4).filter fun die => hot s die && !hot u die).foldl State.tempHigh s
  ((List.range 4).flatMap (List.replicate (min 7 ms))).foldl (fun s die =>
    if s.cores.any fun (x : Nat × Core) => dieOf x.1 = die && x.2.ctl.thr != 0 then s.tempCool die else s) s

/-- Device time passes with a step (R3, R20), and what it brings: what falls due, errors (R195), reports of the sensors. A wave
that must issue now has the next turn (R46).
DESIGN CHOICE, safe: notes/assumptions/4.md. -/
def State.elapse (s : State) : State :=
  let u := s.joinLists.noteWaves
  let dt := u.span
  let s := ({ u with dtime := u.dtime + BitVec.ofNat 64 dt, free := u.free + 1 }.spendBudgets dt).settle
  let s := ((((Config.strike u.free).map s.struck).getD s).sensed (Config.sensor u.free)).thermal u
  let late : List Turn := (s.readyWaves.filter fun x => s.dueBy x ≤ s.now).map fun x => .issue ⟨x.1, x.2.1, 0, 0⟩
  { s with agenda := late ++ late.foldl List.erase s.agenda }

/-! ### Events -/

/-- What the device does by itself: the meaning of an event. -/
abbrev Act : Type := State → Host.Outcome State Fault Refusal

/-- The event that lets a waiting split go on.
DEDUCED, safe: notes/assumptions/73.md. -/
def wakeOf (a : Who) (pc : Dword) : Wait → List Act
  | .filling => [execTranslationFill a.core a.slot false]
  | .on (.ldlExt _) _ | .on (.stlExt _) _ => [execFullEmptyWake a]
  | .on (.fencer _) _ => [execFencerComplete a]
  | .on (.cwait _) _ => [execCwaitSatisfied a]
  | .on (.psend _) _ | .on (.precv _) _ | .on (.wswait _) _ => [execKernelObjectWake a]
  | .on (.idle _) _ => if pc = 0 then [] else [execIdleWake a.core]
  | _ => []

/-- The events of a wave.
DEDUCED, safe: notes/assumptions/73.md. -/
def Wave.events (w : Wave) (core slot : Nat) : List Act :=
  ((List.range w.pend.length).map fun n => execRegisterResultsWritten core slot n) ++
    (if w.atomn.isEmpty then [] else [execAtomnPerform core slot]) ++
    w.halves.zipIdx.flatMap fun (h : Half × Nat) => h.1.paths.zipIdx.flatMap fun (p : Path × Nat) =>
      wakeOf ⟨core, slot, h.2, p.2⟩ p.1.pc p.1.wait

/-- The events of a core's engines. -/
def Core.engineEvents (k : Core) (core : Nat) : List Act :=
  (if k.fifo.isEmpty then []
   else [execMmaExecute core, execMmaComplete core, execAcczExecute core, execAccwrExecute core, execTilemvLdExecute core, execTilemvStExecute core]) ++
  (if k.copyq.isEmpty then [] else [execCopyFire core, execGatherFire core, execTranslationFill core 0 true, execFollowOnMmaEntry core]) ++
  (k.copyq.flatMap fun (x : Cmd) => [execCopyComplete core x.id, execGatherComplete core x.id, execCollComplete core x.id]) ++
  (k.chans.map fun (x : Nat × Chan) => execChannelReservationGrant core x.1)

/-- The events of a core. -/
def Core.events (k : Core) (core : Nat) : List Act :=
  k.engineEvents core ++
  (if k.trapQ.isEmpty then [] else [execTrapRecordDelivery core]) ++
  (if k.agentHalted then [execAgentRestart core] else []) ++
  (if k.poolQ.isEmpty then [] else [execVgrowGrant core, execVgrowDeadlockBreak core]) ++
  (if k.draining.isEmpty then [] else [execBlockDrainDone core]) ++
  (if k.waves.any fun (x : Nat × Wave) => x.2.id.blk.isSome then [execProgressWindowSwap core] else []) ++
  k.waves.flatMap fun (x : Nat × Wave) => x.2.events core x.1

/-- The events of the kernel's objects. -/
def Obj.events (o : Obj) (i : Nat) : List Act :=
  match o.body with
  | .timer _ _ _ _ => [execTimerExpiry i]
  | .sctx _ _ _ _ _ _ _ _ _ => [execScPeriodRelease i, execScBudgetExhausted i]
  | .wave _ _ none (some _) _ _ _ => [execKernelDispatch 0]
  | _ => []

/-- The events of a block. -/
def Block.events (b : Block) (i : Nat) : List Act :=
  match b.st with
  | .placed =>
    ((List.range 8).map fun k => execBarrierPhaseComplete i k) ++
      (if b.leaving.isSome then [execPreemptDrain i, execPreemptSave i, execPreemptFlushRestart i] else []) ++
      (if b.drainUntil.isSome then [execDrainLimitExpiry i] else [])
  | _ => []

/-- The events of a launch. -/
def Launch.events (l : Launch) (i : Nat) : List Act :=
  match l.st with
  | .checking _ => [execLaunchPacket l.fn l.q]
  | .arriving => [execLaunchAnswerTimeout i]
  | .running => (l.cores.map fun k => execBlockPlacement k i) ++ [execLaunchCompletionRecord i]
  | .ending _ => [execLaunchCompletionRecord i]
  | .closed => []

/-- The events of a queue. -/
def Queue.events (k : Queue) (fn q : Nat) : List Act :=
  (match k.startable with
   | some p =>
     if p.type = 0 then [execNoopPacket fn q]
     else if p.type = 1 then [execLaunchPacket fn q]
     else if p.type = 2 then [execWaitPacket fn q, execReservedPacket fn q]
     else [execReservedPacket fn q]
   | none => []) ++
  (if k.waiting.isSome then [execWaitPacketFinish fn q] else [])

/-- The peer-set barriers for which this device's members have all ended, and which it has yet to say (R289, R324). -/
def State.peerBarEvents (s : State) : List Act :=
  s.host.launches.filterMap fun (x : Nat × Launch) =>
    let k := x.2.nlvl - 1
    if x.2.peerCount != 0 && Level.bar (x.2.level k) && Level.domain (x.2.level k) == 5 && !(s.bar x.1 (2 ^ 40 * k)).allOver then
      (s.host.blocks.find? fun (b : Nat × Block) => b.2.launch == x.1 && b.2.st == .ended).map fun b => execBarrierPhaseComplete b.1 k
    else none

/-- The events of the mailbox. -/
def State.mailEvents (s : State) : List Act :=
  (if s.boot.doorbell then [execMailboxVersion, execQdestroy, execPasiddown, execRegbind, execPreempt, execBootclr, execMailboxUnknownCommand] else []) ++
    (if s.boot.destroying.isEmpty then [] else [execQdestroyAnswer]) ++
    (if s.boot.pasidDown.isSome then [execPasiddownAnswer] else [])

/-- The events of the League side. -/
def State.leagueEvents (s : State) : List Act :=
  (s.league.reqs.filterMap fun (r : Req) =>
    if r.answer.isNone then some (execRequestTimeout r.tag) else none) ++
  (s.league.invs.flatMap fun (v : Inval) => v.left.map fun p => execImporterCloseTimeout p v.page) ++
  s.host.peerSets.map fun (e : PeerSet) => execLaunchArrivalTimeout (BitVec.ofNat 32 e.key)

/-- The events the device may take by itself.
DESIGN CHOICE, safe: notes/assumptions/3.md. -/
def State.candidates (s : State) : List Act :=
  if s.boot.step = 0 && !s.boot.min then [execPowerOnReset]
  else
    (s.cores.flatMap fun (x : Nat × Core) => x.2.events x.1) ++
    (s.kern.objs.flatMap fun (x : Nat × Obj) => x.2.events x.1) ++
    (s.kern.runq.filterMap fun (x : Nat × List ((BitVec 32 ⊕ Nat) × Nat)) =>
      if x.2.isEmpty then none else some (execKernelDispatch (x.1 / 256))) ++
    (s.host.blocks.flatMap fun (x : Nat × Block) => x.2.events x.1) ++
    (s.host.launches.flatMap fun (x : Nat × Launch) => x.2.events x.1) ++
    (s.host.queues.flatMap fun (x : Nat × Queue) => x.2.events (x.1 / 64) (x.1 % 64)) ++
    (s.mem.orphans.map fun (o : Orphan) => execAtomnPerform o.core 0) ++
    (if s.tokWait.isEmpty then [] else [execTokenGrant]) ++ s.peerBarEvents ++
    s.mailEvents ++ s.leagueEvents

/-- What comes next. -/
inductive Next where
  | turn (t : Turn)
  | act (f : Act)

/-- The turn that comes next, and the agenda that is left: the agenda's first, or by turns an event and a split.
DESIGN CHOICE, safe: notes/assumptions/3.md. -/
def State.nextTurn (s : State) : Option Next × State :=
  match s.agenda with
  | t :: ts => (some (.turn t), { s with agenda := ts })
  | [] =>
    let es := s.candidates
    let event := (es[s.free / 2 % es.length]?).map Next.act
    let split := s.nextSplit.map fun a => Next.turn (.issue a)
    (if s.free % 2 = 0 then event.or split else split.or event, s)

end Sys2Proof.Machine
end

