-- ==== Sys2Proof/Machine/Step.lean ====
section
/-!
DEFINITION. One step of the machine: one instruction of one split, or one event; and the placing of an instruction
where the next step fetches it.
-/

namespace Sys2Proof.Machine

/-- A turn of a split: it fetches and executes where it is ready, and nothing happens where it is not. -/
def issueTurn (s : State) (a : Who) : Host.Outcome State Fault Refusal :=
  let a := s.issuer a
  match s.ctx? a with
  | none => .next s
  | some c =>
    if c.ready s then
      match s.fetchIns c with
      | .stop s => .next (s.issuing a)
      | .ins i s => exec i (s.issuing a)
    else .next s

/-- A turn: a split's, or an event's (a row without an encoding).
DESIGN CHOICE, safe: notes/assumptions/3.md. -/
def turn (s : State) : Turn → Host.Outcome State Fault Refusal
  | .issue a => issueTurn s a
  | .event i => if encode i = [] then exec i s else .next s

/-- One step: the next turn, and the time it takes.
DESIGN CHOICE, safe: notes/assumptions/3.md. -/
def step (s : State) : Host.Outcome State Fault Refusal :=
  match s.nextTurn with
  | (none, s) => .next s.elapse
  | (some n, s) =>
    match (match n with | .turn t => turn s t | .act f => f s) with
    | .next s => .next s.elapse
    | .fault r => .fault r
    | .refused r => .refused r

/-- The instruction whose bits are w, placed where the next step fetches it.
DESIGN CHOICE, safe: notes/assumptions/1.md. -/
def State.withFetchWord (s : State) (nbits w : Nat) : State :=
  { s.placeProgram (leBytes 20 (w % 2 ^ nbits)) with agenda := [.issue ⟨0, 1, 0, 0⟩], cur := ⟨0, 1, 0, 0⟩ }

end Sys2Proof.Machine
end

