-- ==== Sys2Proof/Safety.lean ====
section
/-!
DEFINITION. The terms claims use: what a well-formed memory is, what a run is, when a split may issue an instruction and
what the end of an instruction leaves.
-/

namespace Sys2Proof.Machine

/-- The canonical form of a memory: addresses strictly rising, no entry equal to what an unlisted address reads as. -/
abbrev Memory.wf (m : List Host.Cell) : Bool := Sparse.wf memDefault m

/-- The memories of a state are in canonical form. -/
def State.memOk (s : State) : Prop := Memory.wf s.mem.hbm = true ∧ Memory.wf s.mem.host = true

/-- A safe run of k steps: every step answers a next state. -/
def safeRun : Nat → State → Prop
  | 0, _ => True
  | k + 1, s => ∃ t, step s = .next t ∧ safeRun k t

/-- The split c of s may issue the instruction i, whose extended form, if it has one, is e: it is the issuing split, it is
ready, its wave awaits no register write, no block that an instruction under way writes has been given back meanwhile (R57),
and i passes the checks of its form and of its mode (R100, R101). -/
structure Issues (i : Instr) (e : Option Ext) (s : State) (c : Ctx) : Prop where
  split : s.ctx? s.cur = some c
  ready : c.ready s = true
  pend : c.w.pend = []
  held : c.midHold s c.w = c.w
  form : formCheck c i e = none

/-- The state after an instruction that fell through its own end: u is what its effect has left; the split's PC, loop
levels, chain and merges follow, and where it is scheduled its writes become outstanding and the earlier ones age (R96). -/
def ended (i : Instr) (e : Option Ext) (c : Ctx) (s u : State) : State :=
  finish i e c (if s.scheduled c then u.track c i e c.w.regs else u) true false

/-- The state after an instruction that fell through its own end and closed its region (R259). -/
def endedRegion (i : Instr) (e : Option Ext) (c : Ctx) (s u : State) : State :=
  finish i e c (if s.scheduled c then u.track c i e c.w.regs else u) true true

/-- The state after an instruction that set its split's PC itself. -/
def jumped (i : Instr) (e : Option Ext) (c : Ctx) (s u : State) : State :=
  finish i e c (if s.scheduled c then u.track c i e c.w.regs else u) false false

end Sys2Proof.Machine
end

