-- ==== Sys2Proof/Certificates/Slice0/Obligations.lean ====
section
/-!
DEFINITION. The statements for the provers. `Sys2Proof.Claims` holds the terms they share.
-/

open Sys2Proof Sys2Proof.Machine

/-! ## Arithmetic -/

namespace Sys2Proof.Claims

/-- An instruction that only writes registers of its wave: where its split may issue it and its operands pass their checks
(R100 steps 4 to 6), it completes, falls through, and leaves the wave that `eff` gives. -/
def Writes (i : Instr) (e : Option Ext) (ops : Ctx → List OpOk) (eff : Ctx → Wave) : Prop :=
  ∀ (s : State) (c : Ctx), Issues i e s c → checkOps (ops c) = none → exec i s = .next (ended i e c s (s.put c (eff c)))

/-- A per-lane result delivered to the destination of o in the lanes of the instruction (R102). -/
def delivers (o : Op3) (ty : Nat) (tag : BitVec 4) (f : Ctx → Nat → Nat) (c : Ctx) : Wave :=
  deliver c c.w o ty tag (c.lanes o) (f c)

/-- The members of the integer mould: the operation, the fields and the extended form (R314). -/
def intForm : Instr → Option (IntOp × Op3 × Option Ext)
  | .addReg f => some (.add, B3.op3 f, none)
  | .addImm f => some (.add, B3I.op3 false f, none)
  | .addLit f => some (.add, B3L.op3 false f, none)
  | .addExt e => some (.add, Ext.op3 e, some e)
  | .subReg f => some (.sub, B3.op3 f, none)
  | .subImm f => some (.sub, B3I.op3 false f, none)
  | .subLit f => some (.sub, B3L.op3 false f, none)
  | .subExt e => some (.sub, Ext.op3 e, some e)
  | .mulReg f => some (.mul, B3.op3 f, none)
  | .mulImm f => some (.mul, B3I.op3 false f, none)
  | .mulLit f => some (.mul, B3L.op3 false f, none)
  | .mulExt e => some (.mul, Ext.op3 e, some e)
  | .mulhReg f => some (.mulh, B3.op3 f, none)
  | .mulhImm f => some (.mulh, B3I.op3 false f, none)
  | .mulhLit f => some (.mulh, B3L.op3 false f, none)
  | .mulhExt e => some (.mulh, Ext.op3 e, some e)
  | .divReg f => some (.div, B3.op3 f, none)
  | .divImm f => some (.div, B3I.op3 false f, none)
  | .divLit f => some (.div, B3L.op3 false f, none)
  | .divExt e => some (if e.m 0 1 = 1 then .rem else .div, Ext.op3 e, some e)
  | .minReg f => some (.min, B3.op3 f, none)
  | .minImm f => some (.min, B3I.op3 false f, none)
  | .minLit f => some (.min, B3L.op3 false f, none)
  | .minExt e => some (.min, Ext.op3 e, some e)
  | .maxReg f => some (.max, B3.op3 f, none)
  | .maxImm f => some (.max, B3I.op3 false f, none)
  | .maxLit f => some (.max, B3L.op3 false f, none)
  | .maxExt e => some (.max, Ext.op3 e, some e)
  | .andReg f => some (.and, B3.op3 f, none)
  | .andImm f => some (.and, B3I.op3 false f, none)
  | .andLit f => some (.and, B3L.op3 false f, none)
  | .andExt e => some (.and, Ext.op3 e, some e)
  | .orReg f => some (.or, B3.op3 f, none)
  | .orImm f => some (.or, B3I.op3 false f, none)
  | .orLit f => some (.or, B3L.op3 false f, none)
  | .orExt e => some (.or, Ext.op3 e, some e)
  | .xorReg f => some (.xor, B3.op3 f, none)
  | .xorImm f => some (.xor, B3I.op3 false f, none)
  | .xorLit f => some (.xor, B3L.op3 false f, none)
  | .xorExt e => some (.xor, Ext.op3 e, some e)
  | .andnReg f => some (.andn, B3.op3 f, none)
  | .andnImm f => some (.andn, B3I.op3 false f, none)
  | .andnLit f => some (.andn, B3L.op3 false f, none)
  | .andnExt e => some (.andn, Ext.op3 e, some e)
  | .shlReg f => some (.shl, B3.op3 f, none)
  | .shlImm f => some (.shl, B3I.op3 false f, none)
  | .shlLit f => some (.shl, B3L.op3 false f, none)
  | .shlExt e => some (.shl, Ext.op3 e, some e)
  | .shrReg f => some (.shr, B3.op3 f, none)
  | .shrImm f => some (.shr, B3I.op3 false f, none)
  | .shrLit f => some (.shr, B3L.op3 false f, none)
  | .shrExt e => some (.shr, Ext.op3 e, some e)
  | .sarReg f => some (.sar, B3.op3 f, none)
  | .sarImm f => some (.sar, B3I.op3 false f, none)
  | .sarLit f => some (.sar, B3L.op3 false f, none)
  | .sarExt e => some (.sar, Ext.op3 e, some e)
  | _ => none

/-- The members of the float mould with two or three sources (R362). -/
def fltForm : Instr → Option (FltOp × Op3 × Option Ext)
  | .faddReg f => some (.add, B3.op3 f, none)
  | .faddImm f => some (.add, B3I.op3 true f, none)
  | .faddLit f => some (.add, B3L.op3 true f, none)
  | .faddExt e => some (.add, Ext.op3 e, some e)
  | .fsubReg f => some (.sub, B3.op3 f, none)
  | .fsubImm f => some (.sub, B3I.op3 true f, none)
  | .fsubLit f => some (.sub, B3L.op3 true f, none)
  | .fsubExt e => some (.sub, Ext.op3 e, some e)
  | .fmulReg f => some (.mul, B3.op3 f, none)
  | .fmulImm f => some (.mul, B3I.op3 true f, none)
  | .fmulLit f => some (.mul, B3L.op3 true f, none)
  | .fmulExt e => some (.mul, Ext.op3 e, some e)
  | .fminReg f => some (.min, B3.op3 f, none)
  | .fminImm f => some (.min, B3I.op3 true f, none)
  | .fminLit f => some (.min, B3L.op3 true f, none)
  | .fminExt e => some (.min, Ext.op3 e, some e)
  | .fmaxReg f => some (.max, B3.op3 f, none)
  | .fmaxImm f => some (.max, B3I.op3 true f, none)
  | .fmaxLit f => some (.max, B3L.op3 true f, none)
  | .fmaxExt e => some (.max, Ext.op3 e, some e)
  | .ffma e => some (.fma, Ext.op3 e, some e)
  | _ => none

/-- The unary float functions (R366). -/
def fltUnary : Instr → Option ((FV → Approx) × Op3 × Option Ext)
  | .frcpReg f => some (FV.rcp, B3.op3 f, none)
  | .frcpExt e => some (FV.rcp, Ext.op3 e, some e)
  | .frsqReg f => some (FV.rsqrt, B3.op3 f, none)
  | .frsqExt e => some (FV.rsqrt, Ext.op3 e, some e)
  | .fsqrtReg f => some (FV.sqrt, B3.op3 f, none)
  | .fsqrtExt e => some (FV.sqrt, Ext.op3 e, some e)
  | .fex2Reg f => some (FV.ex2, B3.op3 f, none)
  | .fex2Ext e => some (FV.ex2, Ext.op3 e, some e)
  | .flg2Reg f => some (FV.lg2, B3.op3 f, none)
  | .flg2Ext e => some (FV.lg2, Ext.op3 e, some e)
  | _ => none

/-- CLZ, CTZ and POPC: the count on a value of a width, the fields and the extended form (R341, R404). -/
def countForm : Instr → Option ((Nat → Nat → Nat) × Op3 × Option Ext)
  | .popcReg f => some (popBits, B3.op3 f, none)
  | .popcExt e => some (popBits, Ext.op3 e, some e)
  | .clzReg f => some (clzBits, B3.op3 f, none)
  | .clzExt e => some (clzBits, Ext.op3 e, some e)
  | .ctzReg f => some (ctzBits, B3.op3 f, none)
  | .ctzExt e => some (ctzBits, Ext.op3 e, some e)
  | _ => none

/-- A signed or unsigned element as a number (R6, R92). -/
def asNum (signed : Bool) (w a : Nat) : Int := if signed then asInt w a else a

/-- F of each member of the integer mould on elements of w bits, before it is taken modulo 2^w (R315 to R317, R356, R385,
R393, R394, R401, R418, R425). -/
def intF (op : IntOp) (signed : Bool) (w a b : Nat) : Int :=
  match op with
  | .add => a + b
  | .sub => a - b
  | .mul => a * b
  | .mulh => (asNum signed w a * asNum signed w b).fdiv (2 ^ w)
  | .div => if b = 0 then 0 else (asNum signed w a).tdiv (asNum signed w b)
  | .rem => if b = 0 then a else (asNum signed w a).tmod (asNum signed w b)
  | .min => if asNum signed w a ≤ asNum signed w b then a else b
  | .max => if asNum signed w b ≤ asNum signed w a then a else b
  | .and => (a &&& b : Nat)
  | .or => (a ||| b : Nat)
  | .xor => (a ^^^ b : Nat)
  | .andn => (a &&& (2 ^ w - 1 - b) : Nat)
  | .shl => if b < w then a * 2 ^ b else 0
  | .shr => if b < w then (a : Int).fdiv (2 ^ b) else 0
  | .sar => if b < w then (asInt w a).fdiv (2 ^ b) else if 0 ≤ asInt w a then 0 else -1

end Sys2Proof.Claims

/-- Every member of the integer mould completes where its operands pass, and delivers its elementwise result with the
type's tag to its destination in the lanes it acts on (R314, R315). -/
def Obligations.IntegerMouldCompletes : Prop :=
  ∀ i op o e, Claims.intForm i = some (op, o, e) →
    Claims.Writes i e
      (fun c => [srcOk c o.lit (op.type o.ty) o.a, srcOk c o.lit (op.type o.ty) o.b, dstOk c o.u (tyRegs (op.type o.ty)) o.d])
      (Claims.delivers o (op.type o.ty) (tagOf (op.type o.ty)) fun c l => intVal op o c l)

/-- Element i of the result of an integer instruction is F of the elements i of its sources modulo 2^w; bitwise operations
act in the b type of the width and give tag 0 (R315 to R317). -/
def Obligations.IntegerElementResults : Prop :=
  ∀ (op : IntOp) (o : Op3) (c : Ctx) (l i : Nat), i < elCount (op.type o.ty) →
    let ty := op.type o.ty
    let w := elBits ty
    let a := elem w i (opVal c o.lit ty o.a l)
    let b := elem w i (opVal c o.lit ty o.b l)
    (elem w i (intVal op o c l) : Int) = Claims.intF op (tySigned ty) w a b % 2 ^ w ∧
      (op.bitwise = true → tagOf ty = 0)

/-- CLZ, CTZ and POPC give a 32-bit count with tag 1 (R341, R404). -/
def Obligations.BitCounts : Prop :=
  (∀ i f o e, Claims.countForm i = some (f, o, e) →
    Claims.Writes i e (fun c => [srcOk c o.lit o.ty o.a, dstOk c o.u 1 o.d])
      (Claims.delivers o 1 1 fun c l => f (tyBits o.ty) (opVal c o.lit o.ty o.a l))) ∧
  (∀ w x, x < 2 ^ w →
    (x ≠ 0 → 2 ^ (w - 1 - clzBits w x) ≤ x ∧ x < 2 ^ (w - clzBits w x) ∧ 2 ^ ctzBits w x ∣ x ∧ ¬ 2 ^ (ctzBits w x + 1) ∣ x) ∧
    clzBits w 0 = w ∧ ctzBits w 0 = w ∧ popBits w x = ((List.range w).filter fun k => x.testBit k).length)

/-- MOV and MOVI complete and write the source's bits; MOV with the tag of R390, each register of a pair with its own, MOVI
with the tag of its type (R390, R391). -/
def Obligations.Moves : Prop :=
  (∀ i o e, (∃ f : B3, i = .movReg f ∧ o = B3.op3 f ∧ e = none) ∨ (∃ x : Ext, i = .movExt x ∧ o = Ext.op3 x ∧ e = some x) →
    Claims.Writes i e (fun c => [bitsOk c o.lit (movTy o) o.a, dstOk c o.u (tyRegs o.ty) o.d]) fun c =>
      let w := Claims.delivers o (movTy o) (movTag o c 0) (fun c l => opVal c o.lit (movTy o) o.a l) c
      if o.d < 320 ∧ tyBits o.ty = 64 ∧ c.lanes o ≠ 0 ∧ o.nw = false then
        w.setV (o.d + 1) ⟨(w.v (o.d + 1)).data, movTag o c 1⟩ else w) ∧
  (∀ i o code ty e,
    (∃ f : B3I, i = .moviImm f ∧ o = B3I.op3 false f ∧ code = 511 ∧ ty = immTy false f.u ∧ e = none) ∨
    (∃ f : B3L, i = .moviLit f ∧ o = B3L.op3 false f ∧ code = 511 ∧ ty = immTy false f.u ∧ e = none) ∨
    (∃ x : Ext, i = .moviExt x ∧ o = Ext.op3 x ∧ code = x.a9.toNat ∧ ty = x.ty.toNat ∧ e = some x) →
    Claims.Writes i e
      (fun c => [{ bitsOk c o.lit ty code with valid := (bitsOk c o.lit ty code).valid && ((388 ≤ code && code < 416) || code == 511) },
        dstOk c o.u (tyRegs ty) o.d])
      (Claims.delivers o ty (tagOf ty) fun c l => opVal c o.lit ty code l))

/-- MAD, BFX, BFI, CMP, SEL and LEA complete and give the results of their entries; BFI replaces bits p to p+n−1 of its base by
the low n bits of its source and keeps the others (R328, R343, R380, R384, R419). -/
def Obligations.ExtendedIntegers : Prop :=
  (∀ w a k base j, base < 2 ^ w →
    let p := min (k % 256) w
    let n := min (k / 256 % 256) (w - p)
    (bfiVal w a k base).testBit j = if p ≤ j ∧ j < p + n then a.testBit (j - p) else base.testBit j) ∧
  ∀ e : Ext, let o := Ext.op3 e
    (let tr := if o.mod % 2 = 1 then 2 else o.ty
     Claims.Writes (.mad e) (some e)
      (fun c => [srcOk c o.lit o.ty o.a, srcOk c o.lit o.ty o.b, srcOk c o.lit tr o.c, dstOk c o.u (tyRegs tr) o.d])
      (Claims.delivers o tr (tagOf tr) fun c l =>
        ofInt (tyBits tr) (Claims.asNum (tySigned o.ty) (tyBits o.ty) (opVal c o.lit o.ty o.a l) *
          Claims.asNum (tySigned o.ty) (tyBits o.ty) (opVal c o.lit o.ty o.b l) + opVal c o.lit tr o.c l))) ∧
    Claims.Writes (.bfx e) (some e)
      (fun c => [srcOk c o.lit o.ty o.a, bitsOk c o.lit 7 o.b, dstOk c o.u (tyRegs o.ty) o.d])
      (Claims.delivers o o.ty (tagOf o.ty) fun c l =>
        let w := tyBits o.ty
        let k := opVal c o.lit 7 o.b l
        let p := min (k % 256) w
        let n := min (k / 256 % 256) (w - p)
        let x := opVal c o.lit o.ty o.a l / 2 ^ p % 2 ^ n
        if n = 0 then 0 else if tySigned o.ty then ofInt w (asInt n x) else x) ∧
    Claims.Writes (.bfi e) (some e)
      (fun c => [srcOk c o.lit o.ty o.a, bitsOk c o.lit 7 o.b, srcOk c o.lit o.ty o.c, dstOk c o.u (tyRegs o.ty) o.d])
      (Claims.delivers o o.ty (tagOf o.ty) fun c l =>
        bfiVal (tyBits o.ty) (opVal c o.lit o.ty o.a l) (opVal c o.lit 7 o.b l) (opVal c o.lit o.ty o.c l)) ∧
    Claims.Writes (.cmp e) (some e)
      (fun c => [srcOk c o.lit o.ty o.a, srcOk c o.lit o.ty o.b, predDstOk c o.d])
      (fun c =>
        let once := (lowest (c.lanes o)).filter fun _ => o.u
        let r (l : Nat) : Bool := let k := once.getD l
          cmpVal o.ty (o.mod % 16) (opVal c o.lit o.ty o.a k) (opVal c o.lit o.ty o.b k)
        let old := c.w.p c.who.half (o.d - 416)
        deliver c c.w o 7 0 (if once.isSome then c.active o.pg o.pn else c.lanes o) fun l =>
          b2n (if o.mod / 16 % 4 = 1 then old.getLsbD l && r l else if o.mod / 16 % 4 = 2 then old.getLsbD l || r l else r l)) ∧
    Claims.Writes (.sel e) (some e)
      (fun c =>
        let tags := srcTags c o.ty o.a ++ srcTags c o.ty o.b
        [bitsOk c o.lit o.ty o.a, { bitsOk c o.lit o.ty o.b with tagged := tags.all (· == tags.headD 0) }, predOk o.c,
          dstOk c o.u (tyRegs o.ty) o.d])
      (fun c =>
        deliver c c.w o o.ty ((srcTags c o.ty o.a ++ srcTags c o.ty o.b).headD (tagOf o.ty)) (c.lanes o) fun l =>
          opVal c o.lit o.ty (if (c.w.p c.who.half (o.c - 416)).getLsbD l = decide (o.mod % 2 = 1) then o.b else o.a) l) ∧
    Claims.Writes (.lea e) (some e)
      (fun c => [{ srcOk c o.lit 2 o.a with valid := (srcOk c o.lit 2 o.a).valid && (o.a < 384 || o.a == 511) },
        srcOk c o.lit o.ty o.b, { dstOk c o.u 2 o.d with valid := (dstOk c o.u 2 o.d).valid && decide (o.d < 384) }])
      (Claims.delivers o 2 11 fun c l =>
        ofInt 64 (opVal c o.lit 2 o.a l + Claims.asNum (decide (o.ty = 0)) 32 (opVal c o.lit o.ty o.b l) * 2 ^ (o.mod % 8)))

/-- The float mould's instructions complete where their operands pass and deliver their rounded results with the type's tag
(R362, R363, R366).
Where the manual is open it says what the model does: notes/assumptions 13. -/
def Obligations.FloatMouldCompletes : Prop :=
  (∀ i op o e, Claims.fltForm i = some (op, o, e) →
    Claims.Writes i e
      (fun c => [srcOk c o.lit o.ty o.a, srcOk c o.lit o.ty o.b] ++
        (if op = .fma then [srcOk c o.lit o.ty o.c] else if o.mod % 8 = 4 then [bitsOk c o.lit 7 o.c] else []) ++ [dstOk c o.u 1 o.d])
      (Claims.delivers o o.ty (tagOf o.ty) fun c l => fltVal op o c l)) ∧
  (∀ i f o e, Claims.fltUnary i = some (f, o, e) →
    Claims.Writes i e (fun c => [srcOk c o.lit o.ty o.a, dstOk c o.u 1 o.d])
      (Claims.delivers o o.ty (tagOf o.ty) fun c l => fltFunVal f o c l))


/-! ## Conversions, predicates and operations across lanes -/

/-- CVT and VDOT complete and deliver their results with the tag of their result's type; BQNT writes its quantised elements
and the scale byte of each block (R353, R354, R329, R330, R431).
Where the manual is open it says what the model does: notes/assumptions 13. -/
def Obligations.ConversionsComplete : Prop :=
  ∀ e : Ext, let o := Ext.op3 e
    Claims.Writes (.cvt e) (some e)
      (fun c => [srcOk c o.lit e.cvtS o.a, dstOk c o.u (tyRegs e.cvtD) o.d] ++
        (if e.m 10 1 = 1 then [scaleOk c 1 1 o.b] else []) ++ (if e.m 0 3 = 4 then [bitsOk c o.lit 7 o.c] else []))
      (Claims.delivers o e.cvtD (tagOf e.cvtD) fun c l => cvtVal e c l) ∧
    (let f := (mulFmt e.ty.toNat (e.m 9 1)).getD 13
     let tr := if f = 11 then 0 else 4
     Claims.Writes (.vdot e) (some e)
      (fun c => [vRun c.w o.a 1 1 (· == tagOf f), vRun c.w o.b 1 1 (· == tagOf (altFmt f (e.m 11 1))),
        vRun c.w o.d 1 1 (fun t => t == tagOf tr || t == 0)] ++ (if e.m 10 1 = 1 then [scaleOk c 2 2 o.c] else []))
      (Claims.delivers o tr (tagOf tr) fun c l => vdotVal e c l)) ∧
    (let ty := if e.m 9 1 = 1 then 16 else e.ty.toNat
     let nb := if ty = 16 then 16 else 8
     let per := if ty = 16 then 8 else 4
     let a := e.a9.toNat
     let b := e.b9.toNat
     let d := e.d9.toNat
     ∀ (s : State) (c : Ctx), Issues (.bqnt e) (some e) s c →
      checkOps ([vRun c.w a per per (· == 2), vRun c.w b 1 1 (fun t => t == 0 || t == tagScale), vDst c 1 d] ++
        (if Rnd.ofCode (e.m 0 3) = .rs then [bitsOk c e.lit 7 e.c9.toNat] else [])) = none →
      c.act false e.pg e.pn ≠ 0 →
      let m := c.act false e.pg e.pn
      let q := bqnt (fmtOf ty) (Rnd.ofCode (e.m 0 3)) (e.m 3 1 == 1)
        (fun n => rsBits per (n % per) (if Rnd.ofCode (e.m 0 3) = .rs then opVal c e.lit 7 e.c9.toNat (n / per) else 0))
        (fun n => Fmt.f32.value (lane (c.w.v (a + n / 64)).data (n % 64))) nb
      let w := c.w.setV d ⟨blend m (c.w.v d).data fun l => pack (elBits ty) ((q.2.drop (per * l)).take per), tagOf ty⟩
      let first := if ty = 16 then 16 * (e.m 4 5 / 4 % 4) else 8 * (e.m 4 5 / 4)
      exec (.bqnt e) s = .next (ended (.bqnt e) (some e) c s (s.put c (w.setV b
        ⟨ofLanes fun l => if first ≤ l ∧ l < first + nb then
            setElem 8 (e.m 4 5 % 4) (q.1.getD (l - first) 0) (lane (w.v b).data l) else lane (w.v b).data l, tagScale⟩))))

/-- PLOG, PMOV, BALLOT, VOTE, MPREFIX and ELECT complete and write the predicate, mask, vote, count or elected lane of their
entries (R322, R357, R392, R402, R403, R433). -/
def Obligations.PredicateOperations : Prop :=
  ∀ e : Ext, let o := Ext.op3 e
    Claims.Writes (.plog e) (some e) (fun c => [predOk o.a, predOk o.b, predOk o.c, predDstOk c o.d])
      (Claims.delivers o 7 0 fun c l =>
        let p (code : Nat) : Nat := b2n ((c.w.p c.who.half (code - 416)).getLsbD l)
        o.mod / 2 ^ (4 * p o.a + 2 * p o.b + p o.c) % 2) ∧
    (416 ≤ o.d → 416 ≤ o.a → o.a < 432 →
      Claims.Writes (.pmov e) (some e) (fun c => [predDstOk c o.d, predOk o.a])
        fun c => c.w.setP (o.d - 416) (c.lanes o) (c.w.p c.who.half (o.a - 416))) ∧
    (416 ≤ o.d → ¬(416 ≤ o.a ∧ o.a < 432) →
      Claims.Writes (.pmov e) (some e) (fun c => [predDstOk c o.d, if o.a = 511 then OpOk.when o.lit.isSome else sRun c o.a])
        fun c => c.w.setP (o.d - 416) (c.lanes o) (c.ofScalar (if o.a = 511 then o.lit.getD 0 else c.sVal o.a))) ∧
    (o.d < 416 → ∀ (s : State) (c : Ctx), Issues (.pmov e) (some e) s c → checkOps [sDst c o.d, predOk o.a] = none →
      c.lanes o ≠ 0 →
      exec (.pmov e) s = .next (ended (.pmov e) (some e) c s (s.put c
        (writeS c c.w o.d (c.toScalar (c.w.p c.who.half (o.a - 416))))))) ∧
    Claims.Writes (.ballot e) (some e) (fun c => [sDst c o.d, predOk o.a])
      (fun c => writeS c c.w o.d (c.toScalar (c.lanes o &&& c.pred o.a (o.mod % 2 == 1)))) ∧
    Claims.Writes (.vote e) (some e) (fun c => [if o.d < 416 then sDst c o.d else predDstOk c o.d, predOk o.a])
      (fun c =>
        let m := c.lanes o
        let p := c.pred o.a (o.mod / 4 % 2 == 1)
        let r : Bool := if o.mod % 4 = 0 then decide (m &&& p ≠ 0) else if o.mod % 4 = 1 then decide (m &&& ~~~p = 0)
          else decide (m &&& p = 0 ∨ m &&& ~~~p = 0)
        if o.d < 416 then writeS c c.w o.d (BitVec.ofNat 64 (b2n r)) else c.w.setP (o.d - 416) m (if r then allLanes else 0)) ∧
    Claims.Writes (.mprefix e) (some e) (fun c => [vDst c 1 o.d, predOk o.a])
      (Claims.delivers o 1 1 fun c l => ((lanesOf (c.lanes o &&& c.pred o.a (o.mod % 2 == 1))).filter fun k =>
        decide (k < if o.mod / 2 % 2 = 1 then l + 1 else l)).length) ∧
    (∀ (i : Instr) (x : Option Ext) (d : Nat) (m : Ctx → Mask),
      (∃ p : BitVec 4, i = .elect p ∧ x = none ∧ d = 416 + p.toNat ∧ m = fun c => c.active 0 false) ∨
        (i = .electExt e ∧ x = some e ∧ d = e.d9.toNat ∧ m = fun c => c.active e.pg e.pn) →
      ∀ (s : State) (c : Ctx) (l : Nat), Issues i x s c →
        checkOps [{ predDstOk c d with valid := (predDstOk c d).valid && d != 416 }] = none → lowest (m c) = some l →
        exec i s = .next (ended i x c s (s.put c (c.w.setP (d - 416) (m c) (oneLane l)))))

/-- OP of LRED and LSCAN, on f32 and on integers (R383). -/
def Sys2Proof.Claims.redF (op ty a b : Nat) : Nat :=
  if ty = 4 then
    Fmt.f32.round .rne false 0 32 (if op = 0 then FV.add .rne (Fmt.f32.value a) (Fmt.f32.value b)
      else FV.minmax (decide (op ≠ 1)) (Fmt.f32.value a) (Fmt.f32.value b))
  else if op = 0 then (a + b) % 2 ^ 32
  else if op = 1 then (if Claims.asNum (ty == 0) 32 b < Claims.asNum (ty == 0) 32 a then b else a)
  else if op = 2 then (if Claims.asNum (ty == 0) 32 a < Claims.asNum (ty == 0) 32 b then b else a)
  else if op = 3 then a &&& b else if op = 4 then a ||| b else a ^^^ b

/-- SHFL, LSCAN and LRED complete: SHFL gives each lane its source lane's value under that register's tag, the scan and the
reduction fold the values of the lanes they act on in ascending order (R382, R383, R420).
Where the manual is open it says what the model does: notes/assumptions 31. -/
def Obligations.CrossLaneOperations : Prop :=
  ∀ e : Ext, let o := Ext.op3 e
    (let n := tyRegs o.ty
     Claims.Writes (.shfl e) (some e)
      (fun c => [vRun c.w o.a n n (fun _ => true), srcOk c o.lit 1 o.b, vDst c n o.d])
      (fun c =>
        let z := min (2 ^ (6 - o.mod / 4 % 8)) c.width
        let w := writeDst c c.w o.ty o.d (c.w.v o.a).tag (c.lanes o) fun l =>
          opVal c o.lit o.ty o.a (c.lane0 + shflLane (o.mod % 4) z (l - c.lane0) (opVal c o.lit 1 o.b l))
        if n = 2 ∧ c.lanes o ≠ 0 then w.setV (o.d + 1) ⟨(w.v (o.d + 1)).data, (c.w.v (o.a + 1)).tag⟩ else w)) ∧
    (∀ (s : State) (c : Ctx) (l : Nat) (ls : List Nat), o.ty = 0 ∨ o.ty = 1 ∨ o.ty = 4 ∨ o.ty = 7 → e.sub.toNat ≤ 5 →
      Issues (.lred e) (some e) s c →
      checkOps [srcOk c o.lit o.ty o.a, { dstOk c false 1 o.d with valid := (dstOk c false 1 o.d).valid && decide (o.d < 384) }] = none →
      lanesOf (c.lanes o) = l :: ls →
      let v := ls.foldl (fun a k => Claims.redF e.sub.toNat o.ty a (opVal c o.lit o.ty o.a k)) (opVal c o.lit o.ty o.a l)
      exec (.lred e) s = .next (ended (.lred e) (some e) c s (s.put c
        (if o.d < 320 then writeDst c c.w o.ty o.d (tagOf o.ty) (c.lanes o) fun _ => v else writeS c c.w o.d (widen o.ty v))))) ∧
    Claims.Writes (.lscan e) (some e) (fun c => [srcOk c o.lit o.ty o.a, vDst c 1 o.d])
      (fun c => writeDst c c.w o.ty o.d (tagOf o.ty) (c.lanes o) fun l =>
        match (scanFrom e.sub.toNat o.ty (opVal c o.lit o.ty o.a) (lanesOf (c.lanes o)) none).lookup l with
        | some (before, upto) => if o.mod % 2 = 1 then before else upto
        | none => 0)

/-- The lane SHFL reads stays in the segment, and is the one of its mode (R420). -/
def Obligations.ShuffleSourceLane : Prop :=
  ∀ k z l v, z = 2 ^ k →
    let j := l % z
    l - j ≤ shflLane 3 z l v ∧ shflLane 3 z l v < l - j + z ∧ shflLane 0 z l v = l - j + v % z ∧
      shflLane 1 z l v = (if v ≤ j then l - v else l) ∧ shflLane 2 z l v = (if j + v < z then l + v else l)


/-! ## What an instruction writes and what it keeps -/

/-- A result on the vector path writes the lanes of its mask in the named registers, gives each of them the tag, and keeps
every other register, lane, scalar and predicate; with no lane it writes nothing (R49, R62, R102). -/
def Obligations.VectorResultWrites : Prop :=
  ∀ (c : Ctx) (w : Wave) (ty d : Nat) (tag : BitVec 4) (m : Mask) (f : Nat → Nat), Sparse.wf VReg.zero w.regs.v = true →
    d + tyRegs ty ≤ 320 →
    let t := writeDst c w ty d tag m f
    (m = 0 → t = w) ∧
    (m ≠ 0 → ∀ k, k < tyRegs ty → (t.v (d + k)).tag = tag ∧ ∀ l, l < 64 →
      lane (t.v (d + k)).data l = if m.getLsbD l then f l / 2 ^ (32 * k) % 2 ^ 32 else lane (w.v (d + k)).data l) ∧
    (∀ n, n < 320 → (∀ k, k < tyRegs ty → n ≠ d + k) → t.v n = w.v n) ∧
    (∀ half n, t.s half n = w.s half n) ∧ (∀ half n, t.p half n = w.p half n) ∧ t.halves = w.halves ∧ t.exited = w.exited ∧
    t.rrb = w.rrb ∧ t.hold = w.hold

/-- A per-lane result on the scalar path goes to the scalar once, from the lowest lane, widened by its type; s0 ignores it.
One for a predicate takes bit 0 in the lanes of the mask; p0 ignores it. Every other register keeps its value. A 32-bit
result is widened by its sign for s32 and s16x2 and by zeros otherwise; a 64-bit one goes in whole (R48, R83, R102). -/
def Obligations.ScalarAndPredicateResultWrites : Prop :=
  (∀ ty v, v < 2 ^ tyBits ty →
    (tyBits ty = 64 → (widen ty v).toNat = v) ∧
    (tyBits ty = 32 → ty = 0 ∨ ty = 9 → (widen ty v).toInt = asInt 32 v) ∧
    (tyBits ty = 32 → ty ≠ 0 → ty ≠ 9 → (widen ty v).toNat = v)) ∧
  ∀ (c : Ctx) (w : Wave) (ty : Nat) (tag : BitVec 4) (m : Mask) (f : Nat → Nat) (l : Nat), Sparse.wf 0 w.regs.s = true →
    Sparse.wf 0 w.regs.p = true → lowest m = some l →
    (∀ d, d < 64 → ∀ t, t = writeDst c w ty (320 + d) tag m f →
      t.s c.who.half d = (if d = 0 then 0 else widen ty (f l)) ∧
      (∀ n, n ≠ d → w.physS c.who.half n ≠ w.physS c.who.half d → t.s c.who.half n = w.s c.who.half n) ∧
      t.regs.v = w.regs.v ∧ t.regs.p = w.regs.p) ∧
    (∀ d, d < 16 → ∀ t, t = writeDst c w ty (416 + d) tag m f →
      (∀ n, Sparse.get 0 t.regs.p n = if n = d ∧ d ≠ 0 then (Sparse.get 0 w.regs.p n &&& ~~~m) ||| (maskOf (fun k => f k % 2 == 1) &&& m)
        else Sparse.get 0 w.regs.p n) ∧
      t.p c.who.half 0 = allLanes ∧ t.regs.v = w.regs.v ∧ t.regs.s = w.regs.s)

/-- The end of an instruction keeps what its effect has left: the registers and lane states of its wave, and every byte of
memory; of every other wave it changes nothing. Said where no JMPI of its wave has targets pending, whose start after a merge is
an access of its own (R76). -/
def Obligations.EndKeepsRegistersAndMemory : Prop :=
  ∀ (i : Instr) (e : Option Ext) (c : Ctx) (s u : State) (w : Wave) (falls closes : Bool),
    u.wave? c.who.core c.who.slot = some w → w.pend = [] → (∀ h ∈ w.halves, ∀ x ∈ h.stack, x.jmpi = none ∨ x.pending = 0) →
    let t := finish i e c (if s.scheduled c then u.track c i e c.w.regs else u) falls closes
    (∃ w', t.wave? c.who.core c.who.slot = some w' ∧ w'.regs = w.regs ∧ w'.exited = w.exited ∧ w'.tids = w.tids ∧
      w'.hold = w.hold ∧ w'.id = w.id) ∧
    (∀ a, t.byte a = u.byte a) ∧ t.mem.host = u.mem.host ∧ t.mem.copies = u.mem.copies ∧
    ∀ core slot, (core ≠ c.who.core ∨ slot ≠ c.who.slot) → t.wave? core slot = u.wave? core slot

/-- At depth 0 with no loop level, an instruction that falls through leaves its split ready at the next instruction, with its
mask, and its wave without an exception. The back edge: one that falls through at the end of the innermost level's body goes
to the start of the body while iterations remain, with one iteration fewer left and, with rotation, the register base turned
by one; after the last one the level ends (R27, R52, R81, R165). -/
def Obligations.FallThroughAndBackEdge : Prop :=
  (∀ (i : Instr) (e : Option Ext) (c : Ctx) (s u : State) (w : Wave),
    u.wave? c.who.core c.who.slot = some w → w.halves[c.who.half]? = some c.half → c.half.stack = [] →
    (∀ l ∈ c.half.levels, l = none) → c.who.path = 0 → w.traps = 0 →
    let t := ended i e c s u
    ∃ w' h, t.wave? c.who.core c.who.slot = some w' ∧ w'.traps = 0 ∧ w'.halves[c.who.half]? = some h ∧ h.stack = [] ∧
      h.base = { c.half.base with pc := c.path.pc + BitVec.ofNat 64 (4 * (encode i).length), wait := .ready, prog := none }) ∧
  (∀ (w : Wave) (half path : Nat) (h : Half) (n : Nat) (l : Level) (nxt : Dword), w.halves[half]? = some h → h.levels.length = 4 →
    h.stack = [] → h.innermost = some (n, l) →
    (1 < l.remaining → ∃ w' h', w.backEdge 4 half path l.stop nxt = some (w', l.start) ∧
      w'.rrb = (if l.rot then w.rrb - 1 else w.rrb) ∧ w'.regs = w.regs ∧ w'.halves[half]? = some h' ∧
      h'.levels[n]? = some (some { l with index := l.index + 1, remaining := l.remaining - 1 })) ∧
    (l.remaining ≤ 1 → (∀ k x, h.levels[k]? = some (some x) → k = n) → ∃ w' h', w.backEdge 4 half path l.stop nxt = some (w', nxt) ∧
      w'.rrb = w.rrb ∧ w'.regs = w.regs ∧ w'.halves[half]? = some h' ∧ h'.levels[n]? = some none))


/-! ## Control flow -/

/-- BRA and CALL: the extended form, whether a link is left, the operand checks, and the target (R159, R160). -/
def Sys2Proof.Claims.gotoForm : Instr → Option (Option Ext × Bool × (Ctx → List OpOk) × (Ctx → Nat))
  | .bra d => some (none, false, fun _ => [], fun c => c.disp d.toInt)
  | .call d => some (none, true, fun _ => [], fun c => c.disp d.toInt)
  | .braAbs e => some (some e, false, fun c => [sRun c e.a9.toNat], fun c => (c.sVal e.a9.toNat).toNat)
  | .callAbs e => some (some e, true, fun c => [sRun c e.a9.toNat], fun c => (c.sVal e.a9.toNat).toNat)
  | .braDisp e => some (some e, false, fun _ => [], fun c => c.disp (e.lit.getD 0).toInt)
  | .callDisp e => some (some e, true, fun _ => [], fun c => c.disp (e.lit.getD 0).toInt)
  | .ret => some (none, false, fun _ => [], fun c => (c.w.s c.who.half (if c.w.id.gang then 31 else 63)).toNat)
  | _ => none

/-- The forms of BRU: the extended form, the operand checks, the predicate, whether it is negated, and the target (R160). -/
def Sys2Proof.Claims.bruForm : Instr → Option (Option Ext × (Ctx → List OpOk) × Nat × Bool × (Ctx → Nat))
  | .bru d neg p => some (none, fun _ => [], p.toNat, neg, fun c => c.disp d.toInt)
  | .bruAbs e => some (some e, fun c => [predOk e.a9.toNat, sRun c e.b9.toNat], e.a9.toNat - 416, e.m 0 1 == 1,
      fun c => (c.sVal e.b9.toNat).toNat)
  | .bruDisp e => some (some e, fun _ => [predOk e.a9.toNat, OpOk.yes], e.a9.toNat - 416, e.m 0 1 == 1,
      fun c => c.disp (e.lit.getD 0).toInt)
  | _ => none

/-- A transfer whose target passes its checks moves the whole split there: BRA, CALL, RET, and BRU where some Active lane's
condition holds; CALL leaves the address of the next instruction in s63, in gang mode in s31 of the half. BRU falls through
where no Active lane's condition holds, and its target is then not looked at (R80, R160, R335, R412). -/
def Obligations.TransfersOfControl : Prop :=
  (∀ i e link ops t, Claims.gotoForm i = some (e, link, ops, t) →
    ∀ (s u : State) (c : Ctx), Issues i e s c → checkOps (ops c) = none →
      (s.put c c.w).checkTargets (c.space (s.put c c.w)) c.w.id.codeBase [t c] = (.ok, u) →
      let u' := if link then u.put c ((u.mine c).setS c.who.half (if c.w.id.gang then 31 else 63)
        (c.path.pc + BitVec.ofNat 64 (4 * (encode i).length))) else u
      exec i s = .next (jumped i e c s (u'.setPc c (t c)))) ∧
  (∀ i e ops p neg t, Claims.bruForm i = some (e, ops, p, neg, t) →
    ∀ (s : State) (c : Ctx), Issues i e s c → checkOps (ops c) = none →
      let m := c.active 0 false &&& (if neg then ~~~(c.w.p c.who.half p) else c.w.p c.who.half p)
      (m = 0 → exec i s = .next (ended i e c s (s.put c c.w))) ∧
      (m ≠ 0 → ∀ u, (s.put c c.w).checkTargets (c.space (s.put c c.w)) c.w.id.codeBase [t c] = (.ok, u) →
        exec i s = .next (jumped i e c s (u.setPc c (t c)))))

/-- BRC and JMPI: where all Active lanes go one way nothing is pushed; lanes that part make one entry with the join and, for
JMPI, the lanes of further targets pending; its paths all run at depth 0, and above another entry one at a time, the first
one first. At 16 entries, in gang mode at 8, lanes that part raise DIVSTACK_OVERFLOW, and a BRC that may stand at depth 0 only
raises INVALID_OPERAND elsewhere (R27, R28, R30, R33, R160, R332, R375).
Where the manual is open it says what the model does: notes/assumptions 35, 101, 102. -/
def Obligations.DivergingBranches : Prop :=
  (∀ (e : Ext) (s u : State) (c : Ctx),
    let t := asInt 32 ((e.lit.getD 0).toNat % 2 ^ 32)
    let j := asInt 32 ((e.lit.getD 0).toNat / 2 ^ 32)
    let next := (c.path.pc + BitVec.ofNat 64 (4 * (encode (.brc e)).length)).toNat
    let taken := c.active 0 false &&& c.pred e.a9.toNat (e.m 0 1 == 1)
    let rest := c.path.mask &&& ~~~taken
    Issues (.brc e) (some e) s c → checkOps [predOk e.a9.toNat, OpOk.when (decide (1 ≤ t) && decide (t ≤ j))] = none →
    (s.put c c.w).checkTargets (c.space (s.put c c.w)) c.w.id.codeBase [c.disp t, next] = (.ok, u) →
    (e.m 1 1 = 1 → c.half.stack ≠ [] → exec (.brc e) s = .next (u.raise c false Exc.invalidOperand c.path.pc 0)) ∧
    ((e.m 1 1 = 1 → c.half.stack = []) →
    (taken = 0 → exec (.brc e) s = .next (ended (.brc e) (some e) c s u)) ∧
    (taken ≠ 0 → rest = 0 → exec (.brc e) s = .next (jumped (.brc e) (some e) c s (u.setPc c (c.disp t)))) ∧
    (taken ≠ 0 → rest ≠ 0 → (if c.w.id.gang then 8 else 16) ≤ c.half.stack.length →
      exec (.brc e) s = .next (u.raise c false Exc.divstackOverflow c.path.pc 0)) ∧
    (taken ≠ 0 → rest ≠ 0 → c.half.stack.length < (if c.w.id.gang then 8 else 16) →
      exec (.brc e) s = .next (jumped (.brc e) (some e) c s
      (u.updWave c.who.core c.who.slot fun w => w.updHalf c.who.half fun h => h.push c.who.path
        { join := BitVec.ofNat 64 (c.disp j), jmpi := none, pending := 0, iters := c.path.iters, parent := c.who.path
          paths := [Path.at' c.path.iters (c.disp t) taken true,
            Path.at' c.path.iters next rest c.half.stack.isEmpty] }))))) ∧
  (∀ (e : Ext) (s u : State) (c : Ctx) (x : Nat) (xs : List Nat),
    let a := e.a9.toNat
    let j := asInt 64 (e.lit.getD 0).toNat
    let t (l : Nat) : Nat := opVal c none 8 a l
    let act := c.active 0 false
    Issues (.jmpi e) (some e) s c → checkOps [vRun c.w a 2 2 (fun _ => true), OpOk.when (decide (0 < j))] = none →
    (act = 0 → exec (.jmpi e) s = .next (ended (.jmpi e) (some e) c s (s.put c c.w))) ∧
    ((x :: xs).Pairwise (· < ·) → (∀ y, y ∈ x :: xs ↔ y ∈ (lanesOf act).map t) →
    (s.put c c.w).checkTargets (c.space (s.put c c.w)) c.w.id.codeBase (x :: xs) = (.ok, u) →
    (xs = [] → exec (.jmpi e) s = .next (jumped (.jmpi e) (some e) c s (u.setPc c x))) ∧
    (xs ≠ [] → (if c.w.id.gang then 8 else 16) ≤ c.half.stack.length →
      exec (.jmpi e) s = .next (u.raise c false Exc.divstackOverflow c.path.pc 0)) ∧
    (xs ≠ [] → c.half.stack.length < (if c.w.id.gang then 8 else 16) →
      let first := (x :: xs).take (if c.w.id.gang then 2 else 4)
      exec (.jmpi e) s = .next (jumped (.jmpi e) (some e) c s
        (u.updWave c.who.core c.who.slot fun w => w.updHalf c.who.half fun h => h.push c.who.path
          { join := BitVec.ofNat 64 (c.disp j), jmpi := some c.path.pc, iters := c.path.iters, parent := c.who.path
            pending := maskOf fun l => act.getLsbD l && !first.contains (t l)
            paths := first.zipIdx.map fun (y : Nat × Nat) => Path.at' c.path.iters y.1
              (maskOf fun l => act.getLsbD l && t l == y.1) (c.half.stack.isEmpty || y.2 == 0) })))))

/-- Entries above the first run their paths one at a time: the first in order that has not arrived and is not stalled at the
join, so that a stalled one lets those after it run; and an entry whose paths are all at its join in the
iterations it recorded, none pending, gives way to the path it was pushed from, which goes on at the join with the union of
their lanes (R28, R29).
Where the manual is open it says what the model does: notes/assumptions 35, 77. -/
def Obligations.PathsRunAndMerge : Prop :=
  (∀ (st : Path → Bool) (ps : List Path) (k : Nat) (p q : Path), (∀ r ∈ ps, r.held = 0) → ps[k]? = some q →
    (runPaths true st ps)[k]? = some p →
    (p.running = true ↔ q.arrived = false ∧ st q = false ∧
      ∀ j r, j < k → ps[j]? = some r → r.arrived = true ∨ st r = true)) ∧
  (∀ (h : Half) (e : Entry), h.stack = [e] → e.pending = 0 → e.paths ≠ [] →
    (∀ p ∈ e.paths, p.running = true ∧ p.arrived = false ∧ p.pc = e.join ∧ p.wait = .ready ∧ p.mask ≠ 0 ∧
      p.iters = e.iters) →
    (h.settle 100).1.stack = [] ∧ (h.settle 100).1.base.pc = e.join ∧ (h.settle 100).1.base.running = true ∧
      ∀ l, (h.settle 100).1.base.mask.getLsbD l = e.paths.any fun p => p.mask.getLsbD l)

/-- LOOP claims the lowest free level with its body, count and stages and falls into the body; with a count of 0 it goes past
the body's end and claims none. LOOPX ends the levels from N up, innermost first, and goes past the end of level N; BRKL
takes the lanes whose condition holds out of every path, and the rest of the split falls through (R164, R166, R168, R169).
Where the manual is open it says what the model does: notes/assumptions 36. -/
def Obligations.LoopsComplete : Prop :=
  (∀ (e : Ext) (s u : State) (c : Ctx) (t n : Nat),
    let lit := (e.lit.getD 0).toNat
    let disp := asInt 32 (lit % 2 ^ 32)
    let a := e.a9.toNat
    let rot := e.m 3 1 == 1
    let stages := e.m 0 3 + 1
    let en := c.disp disp
    Issues (.loop e) (some e) s c → 0 < disp → (rot = true → c.w.id.gang = false ∧ c.w.heldBlk 4 = true) →
    ((a < 384 ∧ checkOps [sRun c a] = none ∧ t = (c.sVal a).toNat) ∨ (388 ≤ a ∧ a ≤ 404 ∧ t = a - 388) ∨
      (a = 511 ∧ t = lit / 2 ^ 32)) →
    t ≤ 2 ^ 32 - stages → t < 2 ^ 32 →
    (s.put c c.w).checkTargets (c.space (s.put c c.w)) c.w.id.codeBase [en] = (.ok, u) →
    c.half.levels.countP (·.isSome) < (if c.w.id.gang then 2 else 4) → c.half.levels.findIdx? (·.isNone) = some n →
    (rot = true → c.half.rotating = none) →
    (∀ m l, c.half.innermost = some (m, l) → ¬(l.start ≤ c.path.pc ∧ c.path.pc ≤ l.stop ∧ l.stop.toNat < en)) →
    let after := u.afterPc (c.space u) (BitVec.ofNat 64 en)
    (t = 0 → exec (.loop e) s = .next (jumped (.loop e) (some e) c s (u.setPc c after.toNat))) ∧
    (t ≠ 0 → exec (.loop e) s = .next (ended (.loop e) (some e) c s (u.updWave c.who.core c.who.slot fun w =>
      { w with rrb := if e.m 4 1 = 1 then 0 else w.rrb }.updHalf c.who.half fun h =>
        ({ h.hold c.who.path n with levels := updAt (fun _ => some
          { start := c.path.pc + BitVec.ofNat 64 (4 * (encode (.loop e)).length), stop := BitVec.ofNat 64 en, after := after
            remaining := t + stages - 1, index := 0, stages := stages, rot := rot }) n h.levels }).updPath c.who.path fun p =>
          { p with iters := updAt (fun _ => some 0) n p.iters })))) ∧
  (∀ (e : Ext) (s : State) (c : Ctx) (l : Level), Issues (.loopx e) (some e) s c →
    c.half.levels.getD (e.m 0 2) none = some l →
    c.half.othersRun c.who.path = false → stranded l c.who.path c.half.stack = false →
    let levels := ((List.range 4).filter fun k => e.m 0 2 ≤ k ∧ (c.half.levels.getD k none).isSome).reverse
    exec (.loopx e) s = .next (jumped (.loopx e) (some e) c s
      ((s.put c (levels.foldl (fun w k => w.endLevel c.who.half c.who.path k) c.w)).setPc c l.after.toNat))) ∧
  (∀ (e : Ext) (s : State) (c : Ctx) (n : Nat) (l : Level), Issues (.brkl e) (some e) s c → checkOps [predOk e.a9.toNat] = none →
    c.half.innermost = some (n, l) →
    let m := c.active 0 false &&& c.pred e.a9.toNat (e.m 0 1 == 1)
    let w := Wave.updHalf { c.w with removed := updAt (fun x => x ||| m) n c.w.removed } c.who.half fun h => h.without m
    (m = 0 → exec (.brkl e) s = .next (ended (.brkl e) (some e) c s (s.put c c.w))) ∧
    (m ≠ 0 → c.path.mask &&& ~~~m ≠ 0 → exec (.brkl e) s = .next (ended (.brkl e) (some e) c s (s.put c w))) ∧
    (m ≠ 0 → c.path.mask &&& ~~~m = 0 →
      exec (.brkl e) s = .next (jumped (.brkl e) (some e) c s (s.put c (w.emptied 4 c.who.half c.who.path)))))

/-- EXIT ends its split's lanes: the wave goes on with its other lanes, or ends with its last. NOP changes nothing but
the PC's advance; YIELD also notes the other ready waves of the core, for which the selector passes over its own for 256 cycles
or until each has issued; REGION also closes the region it stands in, and at depth 0 opens one at the next instruction, the entry PC,
the loop levels and rrb kept for a restart, REGCNT one higher; with a stack only REGCNT rises (R45, R170, R358, R395, R437). -/
def Obligations.ExitRegionAndNoEffect : Prop :=
  (∀ (s : State) (c : Ctx), Issues .exit none s c →
    let w := ((Wave.updHalf { c.w with exited := c.w.exited ||| c.path.mask } c.who.half fun h => h.without c.path.mask).emptied 4
      c.who.half c.who.path).endHalf c.who.half
    (w.halves.all (·.ended) = false → exec .exit s = .next (jumped .exit none c s (s.put c w))) ∧
    (w.halves.all (·.ended) = true → exec .exit s = .next ((s.put c w).finishWave c.who.core c.who.slot))) ∧
  (∀ (s : State) (c : Ctx),
    (Issues .nop none s c → exec .nop s = .next (ended .nop none c s (s.put c c.w))) ∧
    (Issues .yield none s c → exec .yield s = .next (ended .yield none c s ((s.put c c.w).yields c.who.core c.who.slot))) ∧
    (Issues .region none s c → exec .region s = .next (endedRegion .region none c s (s.put c c.w)))) ∧
  (∀ (s : State) (c : Ctx) (w : Wave) (h : Half) (pc : Dword), s.wave? c.who.core c.who.slot = some w →
    w.halves[c.who.half]? = some h →
    ∃ w' h', (s.closeRegion c pc).wave? c.who.core c.who.slot = some w' ∧ w'.halves[c.who.half]? = some h' ∧
      w'.regcnt = w.regcnt + 1 ∧ w'.regs = w.regs ∧ h'.levels = h.levels ∧ h'.base = h.base ∧ h'.stack = h.stack ∧
      (h.stack = [] → h'.region = pc ∧ h'.snap = h.levels ∧ w'.srrb = w.rrb) ∧
      (h.stack ≠ [] → h'.region = h.region ∧ h'.snap = h.snap ∧ w'.srrb = w.srrb))


/-! ## Memory -/

/-- What an instruction that accesses memory by lanes is: its extended form, its operand checks, the access, the lanes
with their addresses and data, where loaded values go, and whether it closes the region it stands in (R318, R376, R422). -/
structure Sys2Proof.Claims.Access where
  ext : Option Ext
  ops : Ctx → List OpOk
  op : MemOp
  lanes : Ctx → List LaneAcc
  into : Ctx → List (Nat × Nat) → Wave → Wave
  closes : Bool

/-- The fields of a load: the value goes to D. -/
def Sys2Proof.Claims.load (e : Option Ext) (m : MemArgs) : Claims.Access where
  ext := e
  ops := fun c => [addrOk c m.a, offOk c m.lit m.off, dataOk c true m.u m.sz m.d]
  op := ⟨.read, szBytes m.sz, m.ord, m.scope, m.ord == 1, none⟩
  lanes := fun c => (lanesOf (c.memLanes m)).map fun l => ⟨l, (addrVal c m.a l + offVal c m.lit m.off) % 2 ^ 64, 0, 0⟩
  into := fun c vals => loadInto c m.sz m.d (c.memLanes m) vals
  closes := false

/-- The fields of a store. -/
def Sys2Proof.Claims.store (e : Option Ext) (m : MemArgs) : Claims.Access where
  ext := e
  ops := fun c => [addrOk c m.a, offOk c m.lit m.off, dataOk c false m.u m.sz m.d]
  op := ⟨.write, szBytes m.sz, m.ord, m.scope, m.ord == 2, none⟩
  lanes := fun c => (lanesOf (c.memLanes m)).map fun l =>
    ⟨l, (addrVal c m.a l + offVal c m.lit m.off) % 2 ^ 64, dataVal c m.sz m.d l, 0⟩
  into := fun _ _ w => w
  closes := m.ord == 2

/-- The fields of an atomic: the old values go to D, none where D is s0. -/
def Sys2Proof.Claims.atomic (e : Ext) : Claims.Access where
  ext := some e
  ops := fun c => [if e.d9.toNat = 320 then OpOk.yes else
      { dstOk c e.u (tyRegs e.ty.toNat) e.d9.toNat with
        valid := e.d9.toNat < 384 && (dstOk c e.u (tyRegs e.ty.toNat) e.d9.toNat).valid },
    addrOk c e.a9.toNat, srcOk c e.lit e.ty.toNat e.b9.toNat,
    if e.sub.toNat = 7 then srcOk c e.lit e.ty.toNat e.c9.toNat else OpOk.yes]
  op := ⟨.atomic, tyBits e.ty.toNat / 8, e.m 0 2, e.m 2 3, true, some (e.sub.toNat, e.ty.toNat)⟩
  lanes := fun c => (lanesOf (c.act e.u e.pg e.pn)).map fun l =>
    ⟨l, addrVal c e.a9.toNat l, opVal c e.lit e.ty.toNat e.b9.toNat l,
      if e.sub.toNat = 7 then opVal c e.lit e.ty.toNat e.c9.toNat l else 0⟩
  into := fun c vals w =>
    let m := valMask vals
    let low := match lowest (c.act e.u e.pg e.pn) with | some l => m.getLsbD l | none => false
    if e.d9.toNat = 320 || (320 ≤ e.d9.toNat && !low) then w
    else writeDst c w e.ty.toNat e.d9.toNat (tagOf e.ty.toNat) m (valAt vals)
  closes := true

/-- The loads, stores and atomics that access memory lane by lane. -/
def Sys2Proof.Claims.accessOf : Instr → Option Claims.Access
  | .ldReg f => some (Claims.load none (BM.args f))
  | .ldLit f => some (Claims.load none (BML.args f))
  | .ldExt e => some (Claims.load (some e) (Ext.loadArgs e))
  | .stReg f => some (Claims.store none (BM.args f))
  | .stLit f => some (Claims.store none (BML.args f))
  | .stExt e => some (Claims.store (some e) (Ext.storeArgs e))
  | .atom e => some (Claims.atomic e)
  | _ => none

/-- LD, ST and ATOM complete where their addresses pass the checks of R183 and no access parks, faults or goes to a peer,
one with a release side where its wave has no request to a peer unanswered: the values read go where the instruction puts
them; with no lane they only advance. They trap, at the instruction, on what those checks find before any translation, with
nothing performed: a misaligned address first, at the lowest one, then one at or above 2^52 (PERMISSION); and on what an access
finds, with the values of the lanes that have performed taken (R183, R189, R206, R319, R377, R423).
Where the manual is open it says what the model does: notes/assumptions 8, 17, 75. -/
def Obligations.MemoryAccessesComplete : Prop :=
  (∀ (s : State) (proc : BitVec 32) (o : MemOp) (ls : List LaneAcc) (a : LaneAcc), a ∈ ls → a.va < 2 ^ 64 →
    (a.va % o.n ≠ 0 → (∀ b ∈ ls, b.va % o.n ≠ 0 → a.va ≤ b.va) → lanesOk s proc o ls = some (Exc.misalignedAccess, a.va)) ∧
    ((∀ b ∈ ls, b.va % o.n = 0) → 2 ^ 52 ≤ a.va → (∀ b ∈ ls, 2 ^ 52 ≤ b.va → a.va ≤ b.va) →
      lanesOk s proc o ls = some (Exc.permission, a.va))) ∧
  ∀ (i : Instr) (x : Claims.Access) (s : State) (c : Ctx), Claims.accessOf i = some x → Issues i x.ext s c →
    checkOps (x.ops c) = none →
    let s₀ := s.put c c.w
    let s₁ := s₀.orderAtomn c (x.op.sync || 2 ≤ x.op.ord) (x.lanes c) x.op.n
    let sp := if x.op.sync then c.syncSpace s₁ else c.space s₁
    (x.lanes c = [] → exec i s = .next (ended i x.ext c s s₀)) ∧
    (∀ code a, x.lanes c ≠ [] → c.path.prog = none → s.reqsOf c = [] →
      lanesOk s₀ (c.space s₀).proc x.op (x.lanes c) = some (code, a) →
      exec i s = .next ((s₀.setProg c 0 0).raise c false code c.path.pc a)) ∧
    (∀ vals code a u, x.lanes c ≠ [] → c.path.prog = none → s.reqsOf c = [] →
      lanesOk s₀ (c.space s₀).proc x.op (x.lanes c) = none → (2 ≤ x.op.ord → s.hasReqs c.w.id.handle = false) →
      access s₁ sp x.op (x.lanes c) = (⟨vals, [], [], false, some (code, a)⟩, u) →
      let done := u.put c (x.into c vals (u.mine c))
      let done := (if x.op.sync ∧ vals ≠ [] then done.bumpSfr c else done).setProg c (valMask vals) 0
      exec i s = .next (done.raise c false code c.path.pc a)) ∧
    (∀ vals u, x.lanes c ≠ [] → c.path.prog = none → s.reqsOf c = [] →
      lanesOk s₀ (c.space s₀).proc x.op (x.lanes c) = none → (2 ≤ x.op.ord → s.hasReqs c.w.id.handle = false) →
      access s₁ sp x.op (x.lanes c) = (⟨vals, [], [], false, none⟩, u) → vals ≠ [] →
      let done := u.put c (x.into c vals (u.mine c))
      let done := (if x.op.sync then done.bumpSfr c else done).setProg c (valMask vals) 0
      let done := if x.op.ord % 2 = 1 then done.acquire c.who.core x.op.scope else done
      exec i s = .next (if x.closes then endedRegion i x.ext c s done else ended i x.ext c s done))

/-- An address that is no window and passes the walk and the checks of R183, its page in the local or the host tier and not
checked, no byte that it reads with an uncorrectable error; the core holds no other translation of it. -/
def Sys2Proof.Claims.Reaches (s : State) (sp : Space) (o : MemOp) (leaf : Nat → Leaf) (a : LaneAcc) : Prop :=
  let l := leaf (a.va / 4096)
  a.va < 2 ^ 52 ∧ isWindow a.va = false ∧ walkFrom s a.va 3 sp.root = .ok l ∧
    (Sparse.get? (tlbKey sp.pasid a.va) (s.core sp.core).tlb).getD (l.lvl, l.pte) = (l.lvl, l.pte) ∧
    permit s sp.tdi o.acc l a.va = none ∧ l.tier ≠ 1 ∧ l.c = false ∧
    (l.tier = 0 → s.mem.retired.contains (l.pa a.va / 4096) = false ∧
      (o.acc ≠ .write → s.badRead (l.path sp.core) (o.skip l) (l.pa a.va) o.n = false))

/-- Accesses without a release side whose addresses reach memory all perform: none parks, faults or goes to a peer, and each
lane has its value. One whose walk reaches a leaf that refuses it faults at its address with that exception and changes no
byte: a read without R and a write without W and G raise PERMISSION, a write to a G page WRITE_TO_GLOBAL_RO (R183, R189). -/
def Obligations.ReachableAccessesPerform : Prop :=
  (∀ (s : State) (sp : Space) (o : MemOp) (leaf : Nat → Leaf) (ls : List LaneAcc), o.ord < 2 →
    (∀ a ∈ ls, Claims.Reaches s sp o leaf a) →
    ∃ vals u, access s sp o ls = (⟨vals, [], [], false, none⟩, u) ∧ vals.map (·.1) = ls.map (·.l)) ∧
  (∀ (s : State) (sp : Space) (o : MemOp) (l : Leaf) (a : LaneAcc) (st code : Nat), a.va < 2 ^ 52 → isWindow a.va = false →
    walkFrom s a.va 3 sp.root = .ok l →
    (Sparse.get? (tlbKey sp.pasid a.va) (s.core sp.core).tlb).getD (l.lvl, l.pte) = (l.lvl, l.pte) →
    permit s sp.tdi o.acc l a.va = some (st, code) →
    ∃ u, access s sp o [a] = (⟨[], [], [], false, some (code, a.va)⟩, u) ∧ ∀ x, u.byte x = s.byte x) ∧
  (∀ (s : State) (tdi : Nat) (l : Leaf) (va : Nat), l.malformed = false →
    (∀ k, k = .read ∨ k = .atomic → l.r = false → permit s tdi k l va = some (6, Exc.permission)) ∧
    (∀ k, k = .write ∨ k = .atomic ∧ l.r = true →
      (l.w = false → l.g = false → permit s tdi k l va = some (6, Exc.permission)) ∧
      (l.g = true → permit s tdi k l va = some (7, Exc.writeToGlobalRo))))

/-- Uncached accesses to local memory, which reach it: reads give the little-endian numbers at the physical addresses and
change no byte; data stores, lane by lane, change exactly the bytes they cover; an atomic gives the old number and writes
the new one, a cas that finds a mismatch nothing. Said of the management core where it holds no separate copies, which it
never makes (R177, R183, R205, R207, R319, R377, R423). -/
def Obligations.UncachedLocalMemory : Prop :=
  ∀ (s : State) (sp : Space) (o : MemOp) (leaf : Nat → Leaf) (ls : List LaneAcc), s.memOk → o.ord < 2 →
    o.n = 1 ∨ o.n = 2 ∨ o.n = 4 ∨ o.n = 8 ∨ o.n = 16 →
    (∀ a ∈ ls, Claims.Reaches s sp o leaf a ∧ (leaf (a.va / 4096)).tier = 0 ∧ (leaf (a.va / 4096)).nc = true ∧ a.va % o.n = 0) →
    (sp.core = mgmtCore → ∀ g, s.copy? (waveUnit sp.core sp.slot) g = none) →
    let pa (a : LaneAcc) : Nat := (leaf (a.va / 4096)).pa a.va
    (o.acc = .read → ∃ u, access s sp o ls = (⟨ls.map fun a => (a.l, s.num (pa a) o.n), [], [], false, none⟩, u) ∧
      ∀ x, u.byte x = s.byte x) ∧
    (o.acc = .write → o.sync = false → ∃ u, access s sp o ls = (⟨ls.map fun a => (a.l, 0), [], [], false, none⟩, u) ∧
      ∀ x, u.byte x = match ls.reverse.find? fun a => pa a ≤ x && x < pa a + o.n with
        | some a => byteOf a.x (x - pa a)
        | none => s.byte x) ∧
    (∀ a op ty, o.acc = .atomic → o.atom = some (op, ty) → ls = [a] →
      ∃ u, access s sp o ls = (⟨[(a.l, s.num (pa a) o.n)], [], [], false, none⟩, u) ∧
        ∀ x, u.byte x = if atomWrites op (s.num (pa a) o.n) a.x = true ∧ pa a ≤ x ∧ x < pa a + o.n
          then byteOf (atomNew op ty (s.num (pa a) o.n) a.x a.y) (x - pa a) else s.byte x)

/-- The scratchpad instructions: whether one stores, its extended form and its fields. -/
def Sys2Proof.Claims.spadOf : Instr → Option (Bool × Option Ext × MemArgs)
  | .ldlReg f => some (false, none, BM.args f)
  | .ldlLit f => some (false, none, BML.args f)
  | .ldlExt e => some (false, some e, Ext.loadArgs e)
  | .stlReg f => some (true, none, BM.args f)
  | .stlLit f => some (true, none, BML.args f)
  | .stlExt e => some (true, some e, Ext.storeArgs e)
  | _ => none

/-- LDL gives each lane the bytes at its offset, and STL writes each lane's bytes at its offset in lane order, where the
offsets are aligned and within the block's allocation; a full-empty form runs where each granule's bit lets it, a store's once
its wave's requests to peers are answered, and then leaves the bits as its form says; with no lane nothing is accessed. A store
changes exactly the bytes it covers, the later lane winning. A misaligned offset raises MISALIGNED_ACCESS at the lowest one, and
with none an offset outside the allocation PERMISSION, nothing accessed (R185, R206, R379, R424). -/
def Obligations.ScratchpadAccesses : Prop :=
  (∀ (s : State) (core n : Nat) (ls : List LaneAcc), Sparse.wf memDefault (s.core core).scratch = true →
    let u := ls.foldl (fun u a => u.setSpad core a.va (leBytes n a.x)) s
    (∀ x, Sparse.get memDefault (u.core core).scratch x = match ls.reverse.find? fun a => a.va ≤ x && x < a.va + n with
      | some a => byteOf a.x (x - a.va)
      | none => Sparse.get memDefault (s.core core).scratch x) ∧ u.mem = s.mem ∧
    ∀ k, k ≠ core → u.core k = s.core k) ∧
  ∀ (i : Instr) (st : Bool) (e : Option Ext) (m : MemArgs) (s : State) (c : Ctx), Claims.spadOf i = some (st, e, m) →
    Issues i e s c →
    checkOps [spadAddrOk c m.a, offOk c m.lit m.off, dataOk c (!st) m.u m.sz m.d] = none →
    let n := szBytes m.sz
    let ls := spadLanes c m fun l => if st then dataVal c m.sz m.d l else 0
    let u := s.put c c.w
    let core := c.who.core
    let out (a : LaneAcc) : Prop := a.va < (s.spadOf c).1 ∨ (s.spadOf c).1 + (s.spadOf c).2 < a.va + n
    (∀ a ∈ ls, a.va % n ≠ 0 → (∀ b ∈ ls, b.va % n ≠ 0 → a.va ≤ b.va) →
      exec i s = .next (u.raise c false Exc.misalignedAccess c.path.pc a.va)) ∧
    ((∀ b ∈ ls, b.va % n = 0) → ∀ a ∈ ls, out a → (∀ b ∈ ls, out b → a.va ≤ b.va) →
      exec i s = .next (u.raise c false Exc.permission c.path.pc a.va)) ∧
    ((∀ a ∈ ls, a.va % n = 0 ∧ (s.spadOf c).1 ≤ a.va ∧ a.va + n ≤ (s.spadOf c).1 + (s.spadOf c).2) →
    (m.fe = 0 ∨ ls = [] → st = false → s.spadError core n ls = none → exec i s = .next (ended i e c s
      (u.put c (loadInto c m.sz m.d (c.memLanes m) (ls.map fun a => (a.l, leNat (s.spad core a.va n))) c.w)))) ∧
    (m.fe = 0 ∨ ls = [] → st = true → exec i s = .next (ended i e c s
      (ls.foldl (fun u a => u.setSpad core a.va (leBytes n a.x)) u))) ∧
    (m.fe ≠ 0 → ls ≠ [] → s.feAll core (!st) ls = false → exec i s = .next (u.waitOn c i)) ∧
    (m.fe ≠ 0 → ls ≠ [] → st = false → s.feAll core true ls = true → s.spadError core n ls = none →
      let u := if m.fe = 2 then u.feSet core false ls else u
      let u := ((u.orderAtomn c true [] 0).acquire core 1).bumpSfr c
      exec i s = .next (ended i e c s
        (u.put c (loadInto c m.sz m.d (c.memLanes m) (ls.map fun a => (a.l, leNat (s.spad core a.va n))) (u.mine c))))) ∧
    (m.fe ≠ 0 → ls ≠ [] → st = true → s.feAll core false ls = true → s.hasReqs c.w.id.handle = false →
      let u := (u.orderAtomn c true [] 0).releaseBy (c.space u) 1
      let u := ls.foldl (fun u a => u.setSpad core a.va (leBytes n a.x)) u
      exec i s = .next (endedRegion i e c s ((u.feSet core true ls).bumpSfr c))))

/-- CMPST and EXPLD complete: the selected lanes' elements stand one after another from the base, and the advanced address is
the base plus their bytes; with no Active lane the advanced address is the base, and memory is as it was. ATOMN completes
with its atomics on unchecked memory pending, one for each lane in lane order, to perform later; those on checked pages and
windows perform with it (R321, R345, R361).
Where the manual is open it says what the model does: notes/assumptions 18, 19, 104. -/
def Obligations.PackedAndPendingAccesses : Prop :=
  ∀ (e : Ext) (s : State) (c : Ctx),
    let s₀ := s.put c c.w
    let n := szBytes (e.m 9 3)
    let base := (c.sVal e.a9.toNat).toNat
    let sel := lanesOf (c.active e.pg e.pn &&& c.pred e.b9.toNat (e.m 12 1 == 1))
    (∀ u, Issues (.cmpst e) (some e) s c →
      checkOps [sDst c e.d9.toNat, sRun c e.a9.toNat, predOk e.b9.toNat,
        { dataOk c false false (e.m 9 3) e.c9.toNat with
          valid := e.c9.toNat < 320 && (dataOk c false false (e.m 9 3) e.c9.toNat).valid }] = none →
      c.active e.pg e.pn ≠ 0 → base % n = 0 → c.path.prog = none → (e.m 0 2 = 2 → s.hasReqs c.w.id.handle = false) →
      let s₁ := if e.m 0 2 = 2 then ((s₀.orderAtomn c true [] 0).releaseBy (c.space s₀) (e.m 2 3)).bumpSfr c
        else s₀
      packElems (.cmpst e) ⟨.write, n, 0, e.m 2 3, false, none⟩ base (fun _ w => w) c (dataVal c (e.m 9 3) e.c9.toNat) 0 sel s₁
        = .done u →
      let v := u.put c (writeS c (u.mine c) e.d9.toNat (BitVec.ofNat 64 (base + sel.length * n)))
      exec (.cmpst e) s = .next (if e.m 0 2 = 2 then endedRegion (.cmpst e) (some e) c s v else ended (.cmpst e) (some e) c s v)) ∧
    (∀ u, Issues (.expld e) (some e) s c →
      checkOps [{ dataOk c true false (e.m 9 3) e.d9.toNat with
          valid := e.d9.toNat < 320 && (dataOk c true false (e.m 9 3) e.d9.toNat).valid },
        sRun c e.a9.toNat, predOk e.b9.toNat, sDst c e.c9.toNat] = none →
      c.active e.pg e.pn ≠ 0 → base % n = 0 → c.path.prog = none →
      packElems (.expld e) ⟨.read, n, 0, e.m 2 3, false, none⟩ base (loadInto c (e.m 9 3) e.d9.toNat 0) c (fun _ => 0) 0 sel s₀
        = .done u →
      let v := if e.m 0 2 = 1 then ((u.orderAtomn c true [] 0).acquire c.who.core (e.m 2 3)).bumpSfr c else u
      exec (.expld e) s = .next (ended (.expld e) (some e) c s
        (v.put c (writeS c (v.mine c) e.c9.toNat (BitVec.ofNat 64 (base + sel.length * n)))))) ∧
    (∀ i d ops, (i = .cmpst e ∧ d = e.d9.toNat ∧ ops = [sDst c d, sRun c e.a9.toNat, predOk e.b9.toNat,
          { dataOk c false false (e.m 9 3) e.c9.toNat with
            valid := e.c9.toNat < 320 && (dataOk c false false (e.m 9 3) e.c9.toNat).valid }]) ∨
        (i = .expld e ∧ d = e.c9.toNat ∧ ops = [{ dataOk c true false (e.m 9 3) e.d9.toNat with
            valid := e.d9.toNat < 320 && (dataOk c true false (e.m 9 3) e.d9.toNat).valid },
          sRun c e.a9.toNat, predOk e.b9.toNat, sDst c d]) →
      Issues i (some e) s c → checkOps ops = none → c.active e.pg e.pn = 0 →
      ∃ t, exec i s = .next (ended i (some e) c s t) ∧ t.mem = s.mem ∧ t.mine c = writeS c c.w d (BitVec.ofNat 64 base)) ∧
    (let o : MemOp := ⟨.atomic, tyBits e.ty.toNat / 8, e.m 0 2, e.m 2 3, true, some (e.sub.toNat, e.ty.toNat)⟩
     let ls : List LaneAcc := (lanesOf (c.act e.u e.pg e.pn)).map fun l =>
      ⟨l, addrVal c e.a9.toNat l, opVal c e.lit e.ty.toNat e.b9.toNat l, 0⟩
     ∀ ts u, Issues (.atomn e) (some e) s c → checkOps [addrOk c e.a9.toNat, srcOk c e.lit e.ty.toNat e.b9.toNat] = none →
      ls ≠ [] → c.path.prog = none → s.reqsOf c = [] → lanesOk s₀ (c.space s₀).proc o ls = none →
      (2 ≤ o.ord → s.hasReqs c.w.id.handle = false) →
      translateLanes s₀ (c.space s₀) o (ls.filter fun a => !isWindow a.va) = (⟨ts, [], []⟩, u) →
      (∀ t ∈ ts, t.leaf.tier ≠ 1) →
      let wins := ls.filter fun a => isWindow a.va
      let now := ts.filter fun t => t.leaf.c
      let later := ts.filter fun t => !t.leaf.c
      let acted := !wins.isEmpty || !now.isEmpty
      let u := u.orderAtomn c (2 ≤ o.ord || acted) [] 0
      let sp := c.syncSpace u
      let u := if 2 ≤ o.ord then u.releaseBy sp o.scope else u
      let u := (performAll (performWins u sp o wins).2 sp o now).2
      let u := if acted then u.bumpSfr c else u
      exec (.atomn e) s = .next (endedRegion (.atomn e) (some e) c s (u.updWave c.who.core c.who.slot fun w =>
        { w with atomn := w.atomn ++ later.zipIdx.map fun (t : LaneTr × Nat) =>
          (⟨t.1.a.va, t.1.leaf.pte, t.1.leaf.lvl, t.1.a.x, e.sub.toNat, e.ty.toNat, e.m 2 3, t.2 == 0 && !acted, c.who.half, c.path.pc⟩ : AtomnOp) })))

/-- The fences complete where their wave has no request to a peer unanswered, after its pending atomics: FENCE performs its
release before its acquire at its scope; FENCEO performs neither; FENCER, where no access of a cut wave is open either, pushes
the dirty copies of the cores it cuts, drops their clean ones and widens its party's records. PREF completes with no effect
where its operands pass. CFLUSH and CINV complete where their range meets no exception: the waves' separate copies and the dirty bytes of the range's
granules in the caches of the unit are pushed, with CINV the copies there and the fetched lines dropped; a window base and a length over
2^32 raise INVALID_OPERAND, and with no bytes nothing is done. With no lane each of the five only advances (R208 to R211, R338,
R406). The FENCER clause, by which every core is pushed where a wave of the process is saved and the clean copies of the cut
cores are dropped, is the model's reading of R211: notes/assumptions 15. -/
def Obligations.FencesAndCacheMaintenance : Prop :=
  ∀ (e : Ext) (s : State) (c : Ctx),
    let u := s.put c c.w
    let scope := e.m 2 3
    (Issues (.fence e) (some e) s c → c.act e.u e.pg e.pn ≠ 0 → s.hasReqs c.w.id.handle = false →
      let v := u.orderAtomn c true [] 0
      let v := if 2 ≤ e.m 0 2 then v.releaseBy (c.space v) scope else v
      let v := if e.m 0 2 % 2 = 1 then v.acquire c.who.core scope else v
      exec (.fence e) s = .next (ended (.fence e) (some e) c s (v.bumpSfr c))) ∧
    (∀ sc, Issues (.fenceo sc) none s c →
      exec (.fenceo sc) s = .next (ended (.fenceo sc) none c s
        (if c.path.mask &&& c.w.live = 0 then u else (u.orderAtomn c true [] 0).bumpSfr c))) ∧
    (Issues (.fencer e) (some e) s c → c.act e.u e.pg e.pn ≠ 0 → s.hasReqs c.w.id.handle = false → c.progress.k = 0 →
      let cores := if s.savedWave c.w.id.proc then u.cores.map (·.1) else u.unitCores scope c.who.core
      let cut := u.cutWaves c.w.id.proc (u.unitCores scope c.who.core)
      s.openReqs cut s.now = false →
      let v := (cut.foldl (fun s x => s.drainAtomn x.1 x.2.1) u).drainOrphans cores.contains
      let v := cores.foldl (fun s k => s.release k scope) v
      let v := cores.foldl (fun s k => s.acquire k scope) v
      exec (.fencer e) s = .next (ended (.fencer e) (some e) c s ((v.widenRecords (c.space v) scope).bumpSfr c))) ∧
    (∀ i, i = .fence e ∨ i = .fencer e → Issues i (some e) s c → c.act e.u e.pg e.pn = 0 →
      exec i s = .next (ended i (some e) c s u)) ∧
    (Issues (.pref e) (some e) s c → checkOps ([addrOk c e.a9.toNat, offOk c e.lit e.b9.toNat].map fun o => { o with sound := true }) = none →
      exec (.pref e) s = .next (ended (.pref e) (some e) c s u)) ∧
    (let b := e.b9.toNat
     let ops := [sRun c e.a9.toNat, if 320 ≤ b ∧ b < 384 then sRun c b else offOk c e.lit b]
     let len := offVal c e.lit b
     let base := (c.sVal e.a9.toNat).toNat
     ∀ i, i = .cflush e ∨ i = .cinv e → Issues i (some e) s c → checkOps ops = none →
      (c.act true e.pg e.pn = 0 ∨ (isWindow base = false ∧ len = 0) → exec i s = .next (ended i (some e) c s u)) ∧
      (c.act true e.pg e.pn ≠ 0 → isWindow base = true ∨ 2 ^ 32 < len →
        exec i s = .next (u.raise c false Exc.invalidOperand c.path.pc 0)) ∧
      (c.act true e.pg e.pn ≠ 0 → isWindow base = false → 0 < len → len ≤ 2 ^ 32 →
        let lo := base / 128 * 128
        let hi := (base + len + 127) / 128 * 128
        let u := u.orderAtomn c true [] 0
        let pages := u.rangePages (c.space u) lo hi ((List.range ((hi - 1) / 4096 - lo / 4096 + 1)).map fun k => lo / 4096 + k)
        let r := pages.1
        let v := pages.2
        let cores := v.unitCores scope c.who.core
        let units (k : Nat) : List Nat := (cachePath k).take (scopeDepth scope)
        let v' := cores.foldl (fun s k => s.flushWaves k fun g => r.gran.any fun x => decide (x.1 ≤ g) && decide (g < x.1 + x.2)) v
        let t := cores.foldl (fun s k => ((units k).flatMap fun x => s.rangeCopies x r.gran).foldl
          (fun s g => s.flushGran g (cachePath k) (scopeDepth scope)) s) v'
        r.lost = [] →
        (r.bad = [] → i = .cflush e → exec i s = .next (ended i (some e) c s t)) ∧
        (r.bad = [] → i = .cinv e → ∃ v, exec i s = .next (ended i (some e) c s v) ∧ v.mem.hbm = t.mem.hbm ∧
          ∀ k ∈ cores, ∀ x ∈ units k, ∀ g, (∃ q ∈ r.gran, q.1 ≤ g ∧ g < q.1 + q.2) → v.copy? x g = none) ∧
        (r.bad ≠ [] → exec i s = .next (v.raise c false Exc.permission c.path.pc (max base (r.bad.foldl min (2 ^ 64)))))))



/-! ## The League -/

/-- What a remote access is: its operand checks, the access, the lanes with peers and offsets, where the values go, and
whether it closes the region (R277, R409, R415, R417). -/
structure Sys2Proof.Claims.Remote where
  ext : Ext
  ops : Ctx → List OpOk
  op : MemOp
  lanes : Ctx → List RemLane
  into : Ctx → List (Nat × Nat) → Wave → Wave
  closes : Bool

/-- The remote accesses. -/
def Sys2Proof.Claims.remoteOf : Instr → Option Claims.Remote
  | .rld e => some
      { ext := e
        ops := fun c => [(vecDataOk c (e.m 9 3) e.d9.toNat).dst, peerOk c e.a9.toNat, vRun c.w e.b9.toNat 2 2 fun _ => true]
        op := ⟨.read, szBytes (e.m 9 3), e.m 0 2, 5, e.m 0 2 == 1, none⟩
        lanes := fun c => remLanes c e (fun _ => 0) fun _ => 0
        into := fun c => loadInto c (e.m 9 3) e.d9.toNat 0
        closes := false }
  | .rst e => some
      { ext := e
        ops := fun c => [peerOk c e.a9.toNat, vRun c.w e.b9.toNat 2 2 (fun _ => true), vecDataOk c (e.m 9 3) e.c9.toNat]
        op := ⟨.write, szBytes (e.m 9 3), e.m 0 2, 5, e.m 0 2 == 2, none⟩
        lanes := fun c => remLanes c e (dataVal c (e.m 9 3) e.c9.toNat) fun _ => 0
        into := fun _ _ w => w
        closes := true }
  | .ratom e => some
      (let k := tyRegs e.ty.toNat
       { ext := e
         ops := fun c => [if e.d9.toNat = 320 then OpOk.yes else vDst c k e.d9.toNat, peerOk c e.a9.toNat,
           vRun c.w e.b9.toNat 2 2 (fun _ => true),
           vRun c.w e.c9.toNat (if e.sub.toNat = 7 then 2 * k else k) (if e.sub.toNat = 7 then 2 * k else k) (tagOk e.ty.toNat)]
         op := ⟨.atomic, tyBits e.ty.toNat / 8, e.m 0 2, 5, true, some (e.sub.toNat, e.ty.toNat)⟩
         lanes := fun c => remLanes c e (fun l => opVal c none e.ty.toNat e.c9.toNat l) fun l =>
           if e.sub.toNat = 7 then opVal c none e.ty.toNat (e.c9.toNat + k) l else 0
         into := fun c vals w => if e.d9.toNat = 320 then w
           else writeDst c w e.ty.toNat e.d9.toNat (tagOf e.ty.toNat) (valMask vals) (valAt vals)
         closes := true })
  | _ => none

/-- The answers of a split's requests: lanes and values. -/
def Sys2Proof.Claims.answers (n : Nat) (rs : List Req) : List (Nat × Nat) :=
  rs.filterMap fun r => match r.answer with
    | some a => if a.status = 0 then some (r.lane, a.data.toNat % 2 ^ (8 * n)) else none
    | none => none

/-- RLD, RST and RATOM complete when every lane has a positive answer: the values go to the lanes that asked; before, the
lanes of the lowest peer ask together, with a release side once the wave's requests are answered. A pass that has been answered
has its acquire, and one of a store or atomic closes the region. RMCST completes when its acknowledgement has come: sD takes what
the switch answered, and one with a release is a synchronisation operation. With no lane they only advance (R278, R282, R283).
Where the manual is open it says what the model does: notes/assumptions 22, 23, 24. -/
def Obligations.RemoteAccessesComplete : Prop :=
  (∀ (i : Instr) (x : Claims.Remote) (s : State) (c : Ctx), Claims.remoteOf i = some x → Issues i (some x.ext) s c →
    checkOps (x.ops c) = none →
    let s₀ := s.put c c.w
    let got := Claims.answers x.op.n (s.reqsOf c)
    let s₁ := (s₀.dropReqs c).put c (x.into c got c.w)
    let done := c.progress.done ||| valMask got
    (x.lanes c = [] → exec i s = .next (ended i (some x.ext) c s s₀)) ∧
    (x.lanes c ≠ [] → negative (s.reqsOf c) = none → (∀ a ∈ x.lanes c, done.getLsbD a.l = true) →
      let u := if got = [] then s₁ else s₁.passDone c i x.op x.closes true
      exec i s = .next (if x.closes then endedRegion i (some x.ext) c s u else ended i (some x.ext) c s u)) ∧
    (∀ code a, x.lanes c ≠ [] → negative (s.reqsOf c) = some (code, a) →
      exec i s = .next ((s₁.setProg c done 0).raise c false code c.path.pc a)) ∧
    (∀ p, negative (s.reqsOf c) = none →
      let left := (x.lanes c).filter fun a => !done.getLsbD a.l
      let pass := left.filter fun a => a.peer = p
      pass ≠ [] → (∀ a ∈ left, p ≤ a.peer) → p ≤ 511 → (∀ a ∈ pass, a.off % x.op.n = 0 ∧ a.off < 2 ^ 40) →
      (2 ≤ x.op.ord → s.hasReqs c.w.id.handle = false) →
      let u := (if got = [] then s₁ else s₁.passDone c i x.op x.closes false).setProg c done 0
      let u := if x.op.sync then u.orderAtomn c true [] 0 else u
      let u := if 2 ≤ x.op.ord then u.releaseBy (c.syncSpace u) 5 else u
      exec i s = .next ((pass.foldl (fun u a => u.ask c.w.id.handle c.who.half a.l (a.peer * 2 ^ 40 + a.off) none
        (remotePacket x.op a.peer a.off a.x a.y)) u).waitReqs c i))) ∧
  ∀ (e : Ext) (s : State) (c : Ctx), Issues (.rmcst e) (some e) s c →
    checkOps [sDst c e.d9.toNat, sRun c e.a9.toNat, sRun c e.b9.toNat, vRun c.w e.c9.toNat 1 1 fun _ => true] = none →
    let off := (c.sVal e.b9.toNat).toNat
    let n := 16 * (e.m 9 4 + 1)
    (c.sVal e.a9.toNat).toNat < 2 ^ 12 → off < 2 ^ 40 → off % 16 = 0 → off % 256 + n ≤ 256 →
    (c.active e.pg e.pn = 0 → exec (.rmcst e) s = .next (ended (.rmcst e) (some e) c s (s.put c c.w))) ∧
    (∀ r rs a, c.active e.pg e.pn ≠ 0 → s.reqsOf c = r :: rs → r.answer = some a →
      let t := ((s.put c c.w).dropReqs c).put c (writeS c c.w e.d9.toNat (Packet.word a 2))
      exec (.rmcst e) s = .next (endedRegion (.rmcst e) (some e) c s (if e.m 0 2 = 2 then t.bumpSfr c else t))) ∧
    (c.active e.pg e.pn ≠ 0 → s.reqsOf c = [] → (s.planeFor (off / 256 % 32)).isNone →
      exec (.rmcst e) s = .next ((s.put c c.w).raise c false Exc.remoteAccess c.path.pc off))

/-! ## Engines and channels -/

/-- What a posting to the matrix FIFO is: its operand checks, its descriptors, and the register whose posted tag it gives
(R143, R146). -/
structure Sys2Proof.Claims.Post where
  ext : Ext
  ops : State → Ctx → List OpOk
  descs : List Nat
  tag : Ctx → Option (Nat × BitVec 4)

/-- The postings to the matrix FIFO. -/
def Sys2Proof.Claims.postOf : Instr → Option Claims.Post
  | .mma e => some
      (let f := (mulFmt e.ty.toNat (e.m 12 1)).getD 13
       let g := altFmt f (e.m 11 1)
       let n := 2 * scaleRegs f
       let op (src code : Nat) (c : Ctx) : OpOk := if src = 1 then descOk c code else OpOk.when (code == 0)
       { ext := e
         ops := fun s c =>
           let tag := s.postedTag c.who.core c.w.id.blk
           [op (e.m 2 1) e.a9.toNat c, op (e.m 6 1) e.b9.toNat c,
            if scaledFmt f then scaleOk c n n e.c9.toNat else OpOk.when (e.c9 == 0), cmplOp c e,
            msetOk s c ((tag (8 + e.m 0 2) == 0 || tag (8 + e.m 0 2) == resultTag f) &&
              (e.m 2 1 == 1 || tag (e.m 3 3) == tagOf f) && (e.m 6 1 == 1 || tag (e.m 7 3) == tagOf g))]
         descs := (if e.m 2 1 = 1 then [e.a9.toNat] else []) ++ (if e.m 6 1 = 1 then [e.b9.toNat] else [])
         tag := fun _ => some (8 + e.m 0 2, resultTag f) })
  | .accz e => some
      { ext := e
        ops := fun s c => [cmplOp c e, msetOk s c true]
        descs := []
        tag := fun _ => some (8 + e.m 0 2, if e.ty = 4 then 2 else 1) }
  | .accwr e => some
      { ext := e
        ops := fun s c =>
          let t := (c.w.v e.a9.toNat).tag
          let old := s.postedTag c.who.core c.w.id.blk (8 + e.m 0 2)
          [vRun c.w e.a9.toNat 2 2 (fun x => (x == 1 || x == 2) && x == t), rowOk c (if Ext.cmpl e = 1 then none else e.lit) e.b9.toNat, cmplOp c e,
           msetOk s c (old == 0 || old == t)]
        descs := []
        tag := fun c => some (8 + e.m 0 2, (c.w.v e.a9.toNat).tag) }
  | .tilemvLd e => some
      { ext := e
        ops := fun s c => [descOk c e.a9.toNat, cmplOp c e, msetOk s c true]
        descs := [e.a9.toNat]
        tag := fun _ => some (e.m 0 3, tagOf ((mulFmt e.ty.toNat (e.m 12 1)).getD 13)) }
  | .tilemvSt e => some
      { ext := e
        ops := fun s c => [descOk c e.a9.toNat, cmplOp c e, msetOk s c true]
        descs := [e.a9.toNat]
        tag := fun _ => none }
  | _ => none

/-- MMA, ACCZ, ACCWR and TILEMV complete when their entry has entered the FIFO at its tail; the posted tag of the register
the entry writes is the one it will give; with 64 entries they wait. ACCRD completes when no entry naming its accumulator is
left and it holds no error: columns 0 to 63 of the row go to vD and 64 to 127 to vD+1, in the Active lanes, under the accumulator's tag. With no
lane they only advance (R142, R143, R146, R311).
Where the manual is open it says what the model does: notes/assumptions 42. -/
def Obligations.MatrixInstructionsComplete : Prop :=
  (∀ (i : Instr) (x : Claims.Post) (s : State) (c : Ctx), Claims.postOf i = some x → Issues i (some x.ext) s c →
    let s₀ := s.put c c.w
    let core := c.who.core
    checkOps (x.ops s₀ c) = none →
    (c.active x.ext.pg x.ext.pn = 0 → exec i s = .next (ended i (some x.ext) c s s₀)) ∧
    (c.active x.ext.pg x.ext.pn ≠ 0 → (∀ d ∈ x.descs, s₀.descFault c d = none) → s₀.cmplFault c x.ext = none →
      (64 ≤ (s₀.core core).fifo.length → exec i s = .next (s₀.waitOn c i)) ∧
      ((s₀.core core).fifo.length < 64 → ∃ u y, exec i s = .next (endedRegion i (some x.ext) c s u) ∧
        (u.core core).fifo = (s₀.core core).fifo ++ [y] ∧ y.ins = i ∧ y.pc = c.path.pc ∧ y.poster = c.poster s₀ ∧
        y.act = c.active x.ext.pg x.ext.pn ∧ y.st = .queued ∧ u.mem = s.mem ∧
        ∀ k t m, x.tag c = some (k, t) → s₀.msetOf core c.w.id.blk = some m → k < (s₀.mset core m).posted.length →
          u.postedTag core c.w.id.blk k = t))) ∧
  ∀ (e : Ext) (s : State) (c : Ctx), Issues (.accrd e) (some e) s c →
    let s₀ := s.put c c.w
    let core := c.who.core
    let d := e.d9.toNat
    let act := c.active e.pg e.pn
    checkOps [(vRun c.w d 2 2 fun _ => true).dst, rowOk c e.lit e.a9.toNat, msetOk s₀ c true] = none →
    (act = 0 → exec (.accrd e) s = .next (ended (.accrd e) (some e) c s s₀)) ∧
    (act ≠ 0 → (∀ x ∈ (s.core core).fifo, x.poster.blk = c.w.id.blk → x.namesAcc (e.m 0 2) = false) →
      let m := s₀.mset core ((s₀.msetOf core c.w.id.blk).getD 0)
      8 + e.m 0 2 ∉ m.bad →
      let row := (c.uVal e.lit 8 e.a9.toNat).toNat
      let col (j : Nat) : Nat := (Sparse.get 0 m.accs (16384 * e.m 0 2 + 128 * row + j)).toNat
      let w := c.w.setV d ⟨blend act (c.w.v d).data fun l => col l, m.tags.getD (8 + e.m 0 2) 0⟩
      exec (.accrd e) s = .next (ended (.accrd e) (some e) c s
        (s.put c (w.setV (d + 1) ⟨blend act (w.v (d + 1)).data fun l => col (64 + l), m.tags.getD (8 + e.m 0 2) 0⟩))))

/-- What CPY and COLL read of memory at posting, after the wave's pending atomics on it. -/
def Sys2Proof.Claims.posted (c : Ctx) (scope : Nat) (need : List (Nat × Nat)) (s : State) : Fetched × State :=
  let s := need.foldl (fun s x => s.orderAtomn c false [⟨0, x.1, 0, 0⟩] x.2) s
  s.fetchNeed (c.space s) c.w.id.handle (c.who.half + 2) scope need

/-- CPY, GTHR and COLL complete when their command has entered the copy queue at its tail, once the checks at posting pass, the
records they read there have been read and, for one that acquires, the wave's requests to peers are answered; with 32 commands
they wait, with no lane they only advance (R152, R155, R156, R212, R285).
Where the manual is open it says what the model does: notes/assumptions 42, 43. -/
def Obligations.CopyQueuePostingsComplete : Prop :=
  ∀ (e : Ext) (s : State) (c : Ctx),
    let s₀ := s.put c c.w
    let core := c.who.core
    let queue := (s₀.core core).copyq
    let quiet : Prop := e.m 0 2 % 2 = 1 → s.hasReqs c.w.id.handle = false
    let entered (i : Instr) : Prop := ∃ u y, exec i s = .next (endedRegion i (some e) c s u) ∧
      (u.core core).copyq = queue ++ [y] ∧ y.ins = i ∧ y.pc = c.path.pc ∧ y.st = .queued
    let cpyOps : List OpOk := [if e.m 13 1 = 1 then descOk c e.d9.toNat else sRun c e.d9.toNat, sRun c e.a9.toNat,
      destOk c (e.m 7 2) e.b9.toNat,
      sRun c e.c9.toNat, sRun c (e.c9.toNat + 1), sRun c (e.c9.toNat + 2),
      if e.m 7 2 = 2 then msetOk s₀ c true else OpOk.yes]
    let gthrOps : List OpOk := [descOk c e.d9.toNat, sRun c e.a9.toNat, sRun c e.b9.toNat, sRun c e.c9.toNat]
    let nlvl := (((c.w.id.blk.bind s₀.block?).bind fun b => s₀.launch? b.launch).map Launch.nlvl).getD 0
    let collOps : List OpOk := [sRun c e.d9.toNat, sRun c e.a9.toNat, OpOk.when (e.m 5 3 < nlvl)]
    (∀ i ops, (i = .cpy e ∧ ops = cpyOps) ∨ (i = .gthr e ∧ ops = gthrOps) ∨ (i = .coll e ∧ ops = collOps) →
      Issues i (some e) s c → checkOps ops = none →
      (c.act true e.pg e.pn = 0 → exec i s = .next (ended i (some e) c s s₀)) ∧
      (c.act true e.pg e.pn ≠ 0 → 32 ≤ queue.length → exec i s = .next (s₀.waitOn c i))) ∧
    (∀ vals v, Issues (.cpy e) (some e) s c → quiet → checkOps cpyOps = none → c.act true e.pg e.pn ≠ 0 → queue.length < 32 →
      let rec' := (c.sVal e.a9.toNat).toNat
      let desc := (c.sVal (e.d9.toNat + 1)).toNat
      rec' % 64 = 0 → (c.sVal e.d9.toNat).toNat % 8 = 0 →
      Claims.posted c (e.m 2 3) [(rec', 64)] s₀ = (.ok vals, v) →
      let v := v.dropEngReqs c.w.id.handle (c.who.half + 2)
      let r := granBytes vals rec' 64
      let h := shapeOf r
      shapeOk r = true → bits (c.sVal (e.c9.toNat + 2)).toNat 63 32 = 0 →
      (e.m 7 2 = 2 → h.bytes = 16384 ∧ h.row = 128 ∧ h.swz = 0) →
      destFault v c (e.m 7 2) (e.m 9 4) (c.sOr e.b9.toNat).toNat h.bytes = none →
      (e.m 13 1 = 1 → followOk (e.m 7 2) desc = true ∧ (bits desc 15 14 = 1 → (v.barRef c (bits desc 36 29)).isSome = true) ∧
        (bits desc 2 2 = 1 ∨ bits desc 6 6 = 1 → ∃ k, v.heldChan c (e.m 9 4) = some k ∧ 16384 ≤ k.size) ∧
        checkOps (followOps v c desc) = none) →
      (v.core core).copyq = queue → entered (.cpy e)) ∧
    (Issues (.gthr e) (some e) s c → quiet → checkOps gthrOps = none → c.act true e.pg e.pn ≠ 0 → queue.length < 32 →
      let dst := (c.sVal e.d9.toNat).toNat
      let (n, r, stride) := gthrShape (c.sVal e.c9.toNat).toNat
      (c.sVal e.b9.toNat).toNat % 4 = 0 → (c.sVal (e.d9.toNat + 1)).toNat % 8 = 0 → 1 ≤ n → n ≤ 2048 → 16 ≤ r → r ≤ 4096 →
      stride % 16 = 0 → destFault s₀ c (e.m 7 2) (e.m 9 4) dst (n * r) = none →
      (e.m 7 2 = 3 → bits dst 51 44 = 0xFF ∧ dst < 2 ^ 52 ∧ ∀ k, k < n * r → (s₀.window c.w.id.proc (dst + k)).isSome = true) →
      entered (.gthr e)) ∧
    (∀ vals v, Issues (.coll e) (some e) s c → quiet → checkOps collOps = none → c.act true e.pg e.pn ≠ 0 → queue.length < 32 →
      let at' := (c.sVal e.a9.toNat).toNat
      at' % 64 = 0 → Claims.posted c (e.m 2 3) [(at', 64)] s₀ = (.ok vals, v) →
      (v.core core).copyq = queue →
      let r := granBytes vals at' 64
      let q := collOf r
      q.tag = 1 ∨ q.tag = 2 ∨ q.tag = 4 → (e.sub.toNat ≤ 1 → q.red ≤ 2) → field r 28 4 = 0 → field r 48 16 = 0 →
      (∀ x ∈ queue, x.poster.blk = c.w.id.blk → 64 ≤ x.record.length → (∃ e', x.ins = .coll e') → (collOf x.record).ident ≠ q.ident) →
      (e.sub.toNat ≤ 2 → entered (.coll e)) ∧
      (∀ vals v', 2 < e.sub.toNat →
        Claims.posted c (e.m 2 3) [(q.src, 32 * q.count)] v = (.ok vals, v') →
        (v'.core core).copyq = queue →
        (∀ k, k < q.count → sendOk (granBytes vals q.src (32 * q.count)) (32 * k) = true) →
        (e.sub.toNat = 3 → entered (.coll e)) ∧
        (∀ vals v'', 3 < e.sub.toNat →
          Claims.posted c (e.m 2 3) [(q.pairs, 8), (q.side, 32)] v' = (.ok vals, v'') →
          (v''.core core).copyq = queue →
          let np := field (granBytes vals q.pairs 8) 0 2
          let hd := granBytes vals q.side 32
          let ns := field hd 0 2
          np ≤ 8192 → ns ≤ 8192 → field hd 2 6 = 0 → field hd 20 12 = 0 →
          ∀ vals v₃, Claims.posted c (e.m 2 3) [(q.pairs + 8, 8 * np), (q.side + 32, 16 * ns)] v'' = (.ok vals, v₃) →
            (v₃.core core).copyq = queue →
            (∀ k, k < np → bits (field (granBytes vals (q.pairs + 8) (8 * np)) (8 * k) 8) 63 52 = 0 ∧
              1 ≤ bits (field (granBytes vals (q.pairs + 8) (8 * np)) (8 * k) 8) 51 32) →
            (∀ k, k < ns → field (granBytes vals (q.side + 32) (16 * ns)) (16 * k + 6) 2 = 0) → entered (.coll e))))

/-- CHINIT binds a channel to the block with its counters at 0; a reserve takes the next number and, where it is granted,
answers its slot's offset, else waits; a done takes a granted reservation of the slot its offset starts, its wave's own first,
once the wave's requests to peers are answered; a CHINIT of a wave of no block raises CHANNEL. CWAIT completes
once the counter it reads has reached its target, and waits while it has not (R147, R148, R157, R355).
Where the manual is open it says what the model does: notes/assumptions 42, 43, 109. -/
def Obligations.ChannelsAndCounterWaits : Prop :=
  (∀ (e : Ext) (s : State) (c : Ctx),
    let s₀ := s.put c c.w
    let core := c.who.core
    let ch := Ext.chan e
    let scal := [.chinit e, .chputRes e, .chputDone e, .chgetWait e, .chgetDone e]
    (∀ i ∈ scal, Issues i (some e) s c → c.act true e.pg e.pn = 0 →
      checkOps (match i with
        | .chinit _ => [sRun c e.a9.toNat, sRun c e.b9.toNat, sRun c e.c9.toNat]
        | .chputRes _ | .chgetWait _ => [sDst c e.d9.toNat]
        | _ => [sRun c e.a9.toNat]) = none →
      exec i s = .next (ended i (some e) c s s₀)) ∧
    (∀ b, Issues (.chinit e) (some e) s c → c.act true e.pg e.pn ≠ 0 → c.w.id.blk = some b →
      checkOps [sRun c e.a9.toNat, sRun c e.b9.toNat, sRun c e.c9.toNat] = none →
      let base := (c.sVal e.a9.toNat).toNat % 2 ^ 24
      let size := (c.sVal e.b9.toNat).toNat % 2 ^ 24
      let x := (c.sVal e.c9.toNat).toNat
      let n := x % 256
      let p := x / 256 % 256
      let k := x / 2 ^ 16 % 256
      base % 16 = 0 → size % 16 = 0 → 16 ≤ size → size ≤ 0x300000 → 1 ≤ n → n ≤ 64 → 1 ≤ p → 1 ≤ k → x < 2 ^ 24 →
      base + n * size ≤ 0x300000 →
      (∀ q, s₀.chan? core ch = some q → q.holder = b ∧ q.resv = [] ∧ ∀ y ∈ (s₀.core core).fifo ++ (s₀.core core).copyq,
        y.poster.blk = c.w.id.blk → ∀ z ∈ y.resv, z.1 ≠ ch) →
      exec (.chinit e) s = .next (ended (.chinit e) (some e) c s (s₀.updCore core fun q =>
        { q with chans := Sparse.put ch ⟨b, base, size, n, p, k, 0, 0, List.replicate n ⟨0, 0, 0, 0⟩, []⟩ q.chans }))) ∧
    (Issues (.chinit e) (some e) s c → c.act true e.pg e.pn ≠ 0 → c.w.id.blk = none →
      checkOps [sRun c e.a9.toNat, sRun c e.b9.toNat, sRun c e.c9.toNat] = none →
      exec (.chinit e) s = .next (s₀.raise c false Exc.channel c.path.pc 0)) ∧
    (∀ i put k, (i = .chputRes e ∧ put = true) ∨ (i = .chgetWait e ∧ put = false) → Issues i (some e) s c →
      c.act true e.pg e.pn ≠ 0 → checkOps [sDst c e.d9.toNat] = none → s₀.heldChan c ch = some k → waitingResv c k put = 0 →
      let (r, k) := k.reserve put (some (c.w.id.lvls.getD 1 0))
      (r.granted = true →
        let u := (((s₀.updChan core ch fun _ => k.grant put r.num).orderAtomn c true [] 0).acquire core 1).bumpSfr c
        exec i s = .next (endedRegion i (some e) c s
          (u.put c (writeS c (u.mine c) e.d9.toNat (BitVec.ofNat 64 (k.base + k.slotOf r * k.size)))))) ∧
      (r.granted = false → exec i s = .next (((s₀.updChan core ch fun _ => k).setProg c 0 (r.num + 1)).waitOn c i))) ∧
    (∀ i put k r, (i = .chputDone e ∧ put = true) ∨ (i = .chgetDone e ∧ put = false) → Issues i (some e) s c →
      c.act true e.pg e.pn ≠ 0 → checkOps [sRun c e.a9.toNat] = none → s₀.heldChan c ch = some k →
      let off := (c.sVal e.a9.toNat).toNat
      k.base ≤ off → (off - k.base) % k.size = 0 → (off - k.base) / k.size < k.n →
      k.undone put ((off - k.base) / k.size) (some (c.w.id.lvls.getD 1 0)) = some r → s.hasReqs c.w.id.handle = false →
      exec i s = .next (endedRegion i (some e) c s
        ((((s₀.orderAtomn c true [] 0).releaseBy (c.space s₀) 1).updChan core ch fun k => k.done r).bumpSfr c)))) ∧
  ∀ (e : Ext) (s : State) (c : Ctx), Issues (.cwait e) (some e) s c →
    let b := e.b9.toNat
    checkOps [sRun c e.a9.toNat, if 320 ≤ b ∧ b < 384 then sRun c b else offOk c e.lit b] = none →
    let s₀ := s.put c c.w
    let target := offVal c e.lit b
    let o : MemOp := ⟨.read, 8, e.m 0 2, e.m 2 3, e.m 0 2 == 1, none⟩
    (c.act true e.pg e.pn = 0 → exec (.cwait e) s = .next (ended (.cwait e) (some e) c s s₀)) ∧
    (∀ l v u, lowest (c.act true e.pg e.pn) = some l → s.reqsOf c = [] →
      let a : LaneAcc := ⟨l, (c.sVal e.a9.toNat).toNat, 0, 0⟩
      let s₁ := s₀.orderAtomn c (e.m 0 2 == 1) [a] 8
      lanesOk s₀ (c.space s₀).proc o [a] = none →
      access s₁ (if o.sync then c.syncSpace s₁ else c.space s₁) o [a] = (⟨[(l, v)], [], [], false, none⟩, u) →
      (target ≤ v → exec (.cwait e) s = .next (ended (.cwait e) (some e) c s
        (if e.m 0 2 = 1 then (u.acquire c.who.core (e.m 2 3)).bumpSfr c else u))) ∧
      (v < target → exec (.cwait e) s = .next (u.waitOn c (.cwait e))))


/-! ## Barriers, regroup and register blocks -/

/-- BAR arrives once, with a release, and completes when its phase has; BARA arrives and answers its token; BARW completes
when its token's phase has. An arrival waits for the answers to its wave's requests to peers. An arrival whose phase is still in
progress waits; one raises the count of its own half by one and changes no other count, no credit and no phase (R206, R324,
R325).
Where the manual is open it says what the model does: notes/assumptions 41, 44. -/
def Obligations.BarriersComplete : Prop :=
  (∀ (e : Ext) (s : State) (c : Ctx) (r : BarRef),
    let s₀ := s.put c c.w
    let b := s₀.bar r.launch r.key
    let n := b.count c.w.id.handle c.who.half
    s₀.barRef c (e.m 0 8) = some r → c.half.stack = [] →
    (∀ k, Issues (.bar e) (some e) s c → c.progress.k = k + 1 →
      exec (.bar e) s = .next (if k < b.phase then endedRegion (.bar e) (some e) c s (s₀.completeBar c r) else s₀.waitOn c (.bar e))) ∧
    (Issues (.bar e) (some e) s c → c.progress.k = 0 → n ≤ b.phase → s.hasReqs c.w.id.handle = false →
      exec (.bar e) s = .next (if n < b.phase then endedRegion (.bar e) (some e) c s ((s₀.arriveBar c r).completeBar c r)
        else ((s₀.arriveBar c r).setProg c 0 (n + 1)).waitOn c (.bar e))) ∧
    (Issues (.bara e) (some e) s c → checkOps [sDst c e.d9.toNat] = none → c.progress.k = 0 → n ≤ b.phase →
      s.hasReqs c.w.id.handle = false →
      let u := s₀.arriveBar c r
      exec (.bara e) s = .next (endedRegion (.bara e) (some e) c s
        (u.put c (writeS c (u.mine c) e.d9.toNat (BitVec.ofNat 64 (n % 2 ^ 32)))))) ∧
    (∀ i, i = .bar e ∨ (i = .bara e ∧ checkOps [sDst c e.d9.toNat] = none) → Issues i (some e) s c → c.progress.k = 0 →
      b.phase < n → exec i s = .next (s₀.waitOn c i)) ∧
    (Issues (.barw e) (some e) s c → checkOps [sRun c e.a9.toNat] = none →
      let d := (n + 2 ^ 32 - 1 - (c.sVal e.a9.toNat).toNat % 2 ^ 32) % 2 ^ 32
      n ≠ 0 → d < 2 ^ 31 →
      exec (.barw e) s = .next (if n ≤ b.phase + d then ended (.barw e) (some e) c s (s₀.completeBar c r)
        else s₀.waitOn c (.barw e)))) ∧
  ∀ (s : State) (c : Ctx) (r : BarRef) (l : Launch), s.launch? r.launch = some l →
    let t := s.arriveBar c r
    (t.bar r.launch r.key).phase = (s.bar r.launch r.key).phase ∧
    (t.bar r.launch r.key).credits = (s.bar r.launch r.key).credits ∧
    (t.bar r.launch r.key).count c.w.id.handle c.who.half = (s.bar r.launch r.key).count c.w.id.handle c.who.half + 1 ∧
    ∀ h k, memberKey h k ≠ memberKey c.w.id.handle c.who.half →
      (t.bar r.launch r.key).count h k = (s.bar r.launch r.key).count h k

/-- The two forms of REGROUP. -/
def Sys2Proof.Claims.regroupForm : Instr → Option (Bool × Ext)
  | .regroupKey e => some (true, e)
  | .regroupHome e => some (false, e)
  | _ => none

/-- REGROUP of a wave with its requests to peers answered. While a wave of the block has not arrived, it waits. The last arrival
of a block, none of its waves trapped and the checks of R174 met, completes it in every wave: each thread of the block stands
where the form places it, with its tag, and the lanes that receive none are dead. In a block of one wave it completes at once
(R173 to R175). -/
def Obligations.RegroupCompletes : Prop :=
  (∀ (i : Instr) (key : Bool) (e : Ext) (s : State) (c : Ctx) (n : Nat) (b : Block), Claims.regroupForm i = some (key, e) →
    Issues i (some e) s c → s.hasReqs c.w.id.handle = false → c.w.id.gang = false → c.w.id.blk = some n → s.block? n = some b →
    checkOps [if key then vRun c.w e.a9.toNat 1 1 (fun _ => true) else OpOk.yes,
      if key then sDst c e.d9.toNat else OpOk.when (e.d9 == 0), vRun c.w e.b9.toNat (e.m 0 5 + 1) 1 fun _ => true] = none →
    let s₀ := s.put c c.w
    let s₁ := s₀.waitOn c i
    (∀ x ∈ s₀.blockWaves n, x.1 ≠ c.who.core ∨ x.2.1 ≠ c.who.slot → ∀ p j, x.2.2.regrouping = some (p, j) →
      ∃ y, regroupOf j = some (key, y) ∧ y.m 5 8 = e.m 5 8) →
    (((s₁.blockWaves n).filter fun x => x.2.2.regrouping.isSome).length ≠ b.waves.length → exec i s = .next s₁) ∧
    (∀ ps : List (Nat × Part), s₁.blockWaves n = (ps.map fun x => (x.1, x.2.slot, x.2.w)) →
      (ps.map fun x => (x.1, x.2.slot)).Nodup → b.waves.length = ps.length →
      (∀ x ∈ ps, s₁.wave? x.1 x.2.slot = some x.2.w ∧ x.2.w.traps = 0 ∧
        ∃ j y, x.2.w.regrouping = some (x.2.path, j) ∧ regroupOf j = some (key, y)) →
      let parts := ps.map (·.2)
      regroupOk key e parts = true →
      let pl := if key then placeKeys parts.length (threads e parts) else placeHome parts (threads e parts)
      ∃ t, exec i s = .next t ∧ ∀ k x, ps[k]? = some x →
        let at' (l : Nat) : Option Thread := (pl.find? fun y => y.1 == (k, l)).map (·.2)
        ∃ w, t.wave? x.1 x.2.slot = some w ∧ w.traps = 0 ∧ w.exited = ~~~(maskOf fun l => (at' l).isSome) ∧
          w.removed = [0, 0, 0, 0] ∧ ∀ l y, l < 64 → at' l = some y → lane w.tids l = y.tid % 2 ^ 32)) ∧
  ∀ (i : Instr) (key : Bool) (e : Ext) (s : State) (c : Ctx) (n : Nat) (b : Block), Claims.regroupForm i = some (key, e) →
    Issues i (some e) s c → c.w.traps = 0 → s.hasReqs c.w.id.handle = false → c.w.id.gang = false → c.w.id.blk = some n → s.block? n = some b → b.waves.length = 1 →
    (s.put c c.w).blockWaves n = [(c.who.core, c.who.slot, c.w)] → c.w.halves = [c.half] → c.half.stack = [] → c.half.ended = false →
    (∀ l ∈ c.half.levels, l = none) →
    checkOps [if key then vRun c.w e.a9.toNat 1 1 (fun t => t == 0 || t == 1) else OpOk.yes,
      if key then sDst c e.d9.toNat else OpOk.when (e.d9 == 0), vRun c.w e.b9.toNat (e.m 0 5 + 1) 1 fun _ => true] = none →
    let p : Part := ⟨c.who.slot, c.w, c.path⟩
    let pl := if key then placeKeys 1 (threads e [p]) else placeHome [p] (threads e [p])
    let at' (l : Nat) : Option Thread := (pl.find? fun x => x.1 == (0, l)).map (·.2)
    ∃ t w, exec i s = .next t ∧ t.wave? c.who.core c.who.slot = some w ∧ w.traps = 0 ∧
      w.exited = ~~~(maskOf fun l => (at' l).isSome) ∧ w.removed = [0, 0, 0, 0] ∧
      ∀ l x, l < 64 → at' l = some x → lane w.tids l = x.tid % 2 ^ 32

/-- REGROUP by key places every thread once, each in a lane of its own: no thread is lost or doubled (R175). -/
def Obligations.RegroupKeepsThreads : Prop :=
  ∀ (n : Nat) (ts : List Thread), 0 < n → ts.length ≤ 64 * n → (∀ x ∈ ts, x.key < 16) →
    let pl := placeKeys n ts
    List.Perm (pl.map (·.2)) ts ∧ (pl.map (·.1)).Nodup ∧ ∀ x ∈ pl, x.1.1 < n ∧ x.1.2 < 64

/-- VGROW of a held block sets its predicate; otherwise its request waits for a block, and a refused one clears the predicate.
VSHRINK gives a held block back, to the pool or, while another split of the wave is in the middle of an instruction that will
write it, to drain, and does nothing otherwise (R57, R58). A VGROW whose request has been answered has its predicate already.
Where the manual is open it says what the model does: notes/assumptions 73, 106. -/
def Obligations.RegisterBlocks : Prop :=
  ∀ (e : Ext) (s : State) (c : Ctx),
    let s₀ := s.put c c.w
    let k := e.m 0 3
    let p := e.d9.toNat
    (Issues (.vgrow e) (some e) s c →
      checkOps [{ predDstOk c p with valid := p != 416 && (predDstOk c p).valid }] = none →
      (c.progress.k = 1 → exec (.vgrow e) s = .next (ended (.vgrow e) (some e) c s s₀)) ∧
      (c.w.heldBlk k = true → c.progress.k ≠ 1 → exec (.vgrow e) s = .next (ended (.vgrow e) (some e) c s
        (s.put c (c.w.setP (p - 416) allLanes allLanes)))) ∧
      (c.w.heldBlk k = false → c.progress.k ≠ 1 → ∃ u : State, exec (.vgrow e) s = .next (u.waitOn c (.vgrow e)) ∧ u.mem = s.mem ∧
        (∃ q ∈ (u.core c.who.core).poolQ, q.slot = c.who.slot ∧ q.blk = k) ∧
        (u.core c.who.core).pool = (s.core c.who.core).pool)) ∧
    (Issues (.vshrink e) (some e) s c →
      (c.w.heldBlk k = false → exec (.vshrink e) s = .next (ended (.vshrink e) (some e) c s s₀)) ∧
      (c.w.heldBlk k = true → (k = 4 → c.half.rotating = none) →
        exec (.vshrink e) s = .next (ended (.vshrink e) (some e) c s
          ((s.put c { c.w with hold := c.w.hold &&& ~~~BitVec.ofNat 4 (2 ^ (k - 1)) }).updCore c.who.core fun r =>
            if s₀.awaited c.who.core c.who.slot k (some c.who) then { r with draining := r.draining ++ [⟨c.who.slot, k⟩] }
            else { r with pool := r.pool + 1 }))) ∧
      (k = 4 → c.w.heldBlk 4 = true → c.half.rotating.isSome → exec (.vshrink e) s = .next (s₀.raise c false Exc.invalidOperand c.path.pc 0)))


/-! ## The hardware kernel -/

/-- A kernel-object instruction's answer, after the wave's pending atomics: sD takes the result, and the wave's next
synchronisation-free region opens. -/
def Sys2Proof.Claims.answer (e : Ext) (c : Ctx) (u : State) (v : BitVec 64) : State :=
  let u := u.orderAtomn c true [] 0
  (u.put c (writeS c (u.mine c) e.d9.toNat v)).bumpSfr c

/-- The kernel-object instructions and the system calls of a process, with the operand checks of each. -/
def Sys2Proof.Claims.kernOf (e : Ext) (c : Ctx) : Instr → Option (List OpOk)
  | .wcreate _ | .objdel _ | .wswait _ | .tcancel _ | .nslookup _ => some [sDst c e.d9.toNat, sRun c e.a9.toNat]
  | .psend _ => some [sDst c e.d9.toNat, sRun c e.a9.toNat, sRun c e.b9.toNat,
      if e.m 1 3 = 0 then OpOk.yes else sRun c e.c9.toNat]
  | .precv _ => some [sDst c e.d9.toNat, sRun c e.a9.toNat, sRun c e.b9.toNat,
      if e.c9.toNat = 0 then OpOk.yes else sRun c e.c9.toNat]
  | .objnew _ => some ([sDst c e.d9.toNat] ++ if e.m 0 4 = 3 then [sRun c e.a9.toNat, sRun c e.b9.toNat]
      else [OpOk.when (e.a9.toNat == 0), OpOk.when (e.b9.toNat == 0)])
  | .wsadd _ => some [sDst c e.d9.toNat, sRun c e.a9.toNat, sRun c e.b9.toNat]
  | .tarm _ => some [sDst c e.d9.toNat, sRun c e.a9.toNat, sRun c e.b9.toNat, sRun c e.c9.toNat]
  | _ => none

/-- A kernel-object instruction with no lane only advances; one whose handle names nothing raises OBJECT with the reason in
KTADDR and changes nothing else. Before a WSWAIT the timers that are due have expired (R222, R226, R228, R239).
Where the manual is open it says what the model does: notes/assumptions 46. -/
def Obligations.KernelInstructionGuards : Prop :=
  ∀ (e : Ext) (s : State) (c : Ctx) (i : Instr) (ops : List OpOk),
    i ∈ [.wcreate e, .psend e, .precv e, .objnew e, .objdel e, .wsadd e, .wswait e, .tarm e, .tcancel e, .nslookup e] →
    Claims.kernOf e c i = some ops → Issues i (some e) s c → checkOps ops = none →
    let s₀ := if i = .wswait e then (s.put c c.w).expireDue else s.put c c.w
    (c.act true e.pg e.pn = 0 → exec i s = .next (ended i (some e) c s s₀)) ∧
    (c.act true e.pg e.pn ≠ 0 → i ∈ [.psend e, .precv e, .objdel e, .wsadd e, .wswait e, .tarm e, .tcancel e] →
      c.path.wait = .ready → s.named (c.handle e.a9.toNat) = none →
      exec i s = .next (s₀.raise c false Exc.object c.path.pc 1))

/-- PSEND queues its message, its grants taken from the sender, once its wave's requests to peers are answered; PRECV takes the
oldest message, maps its grants one after another and then writes it where it is asked to; a full or an empty port answers status
1 without waiting where the instruction asks for that, else the split waits, as it does behind an earlier waiter (R229, R234,
R235).
Where the manual is open it says what the model does: notes/assumptions 46. -/
def Obligations.PortMessages : Prop :=
  ∀ (e : Ext) (s : State) (c : Ctx), c.act true e.pg e.pn ≠ 0 →
    let s₀ := s.put c c.w
    let half := c.who.half + 2
    let quiet : Prop := s.hasReqs c.w.id.handle = false
    let h := c.handle e.a9.toNat
    let at' := (c.sVal e.b9.toNat).toNat
    let gt := (c.sOr e.c9.toNat).toNat
    at' % 64 = 0 →
    (∀ ops vals v cap st ms rs gs, Issues (.psend e) (some e) s c → Claims.kernOf e c (.psend e) = some ops → checkOps ops = none →
      s₀.handleFault c h [3, 7] 0 true = none → s₀.rport? h = none → let n := e.m 1 3
      (n ≠ 0 → gt % 16 = 0) →
      Claims.posted c 0 ((at', 64) :: (if n = 0 then [] else [(gt, 16 * n)])) s₀ = (.ok vals, v) →
      let v := v.dropEngReqs c.w.id.handle half
      v.rport? h = none → v.port? h = some (cap, st, ms, rs) → grantsOf (granBytes vals gt (16 * n)) n = some gs →
      let p := c.process v
      v.grantsOk (v.rootAt (hIndex p)) gs = true →
      (ms.length < cap → v.firstInLine c .send h rs = true → quiet →
        let u := (v.orderAtomn c true [] 0).releaseBy (c.space v) 4
        let u := u.takePages (v.rootAt (hIndex p)) (match u.process? p with | some (x, _, _, _) => x | none => 0) gs
        let u := u.setPort h (ms ++ [⟨u.now, slotBytes (granBytes vals at' 64) (hIndex p) gs⟩]) rs
        exec (.psend e) s = .next (endedRegion (.psend e) (some e) c s (Claims.answer e c (u.serveRemote 64 h) (kernResult 0 0 0)))) ∧
      (cap ≤ ms.length → exec (.psend e) s = .next (if e.m 0 1 = 1
        then endedRegion (.psend e) (some e) c s (Claims.answer e c v (kernResult 1 0 0)) else v.waitOn c (.psend e))) ∧
      (ms.length < cap → v.firstInLine c .send h rs = false → exec (.psend e) s = .next (v.waitOn c (.psend e)))) ∧
    (∀ ops cap st ms rs, Issues (.precv e) (some e) s c → Claims.kernOf e c (.precv e) = some ops → checkOps ops = none →
      s₀.handleFault c h [3, 7] 0 false = none → s₀.port? h = some (cap, st, ms, rs) →
      (ms = [] → exec (.precv e) s = .next (if e.m 0 1 = 1
        then endedRegion (.precv e) (some e) c s (Claims.answer e c s₀ (kernResult 1 0 0)) else s₀.waitOn c (.precv e))) ∧
      (ms ≠ [] → s₀.firstInLine c .recv h [] = false → exec (.precv e) s = .next (s₀.waitOn c (.precv e))) ∧
      (∀ m rest vals v moves r u, ms = m :: rest → s₀.firstInLine c .recv h [] = true → let k := m.grants.length
        (k ≠ 0 → e.c9.toNat ≠ 0) →
        (∀ q ∈ s.league.reqs, q.of c.w.id.handle (c.who.half + 4) c.path.mask = false) →
        Claims.posted c 0 (if k = 0 then [] else [(gt, 8 * k)]) s₀ = (.ok vals, v) →
        let v := v.dropEngReqs c.w.id.handle half
        v.allMoves m (v.rootAt (hIndex (c.process v))) ((List.range k).map fun j => leNat (granBytes vals (gt + 8 * j) 8)) =
          some moves →
        let v := v.movePages moves
        v.storePieces (c.space v) c.w.id.handle (c.who.half + 4) ((lowest c.path.mask).getD 0) 0 (piecesOf at' (m.bytes.take 64)) =
          (.ok r, u) →
        let u := ((u.setPort h rest rs).serveRemote 64 h).acquire c.who.core 4
        exec (.precv e) s = .next (endedRegion (.precv e) (some e) c s (Claims.answer e c u (kernResult 0 0 k)))))

/-- WCREATE makes a wave of its process from the template it reads and answers its handle, or status 2 with the object table
full, once its wave's requests to peers are answered. OBJNEW makes a port, wait set or timer of the caller's process at the lowest free index and answers its handle; OBJDEL
frees the object, a wave only once it has ended (R230, R236, R237, R397, R398, R434).
Where the manual is open it says what the model does: notes/assumptions 16, 39, 46. -/
def Obligations.ObjectCreationAndDeletion : Prop :=
  (∀ (e : Ext) (s : State) (c : Ctx) (vals : List (Nat × Nat)) (v : State), Issues (.wcreate e) (some e) s c →
    checkOps [sDst c e.d9.toNat, sRun c e.a9.toNat] = none → c.act true e.pg e.pn ≠ 0 →
    let s₀ := s.put c c.w
    let half := c.who.half + 2
    let at' := (c.sVal e.a9.toNat).toNat
    at' % 16 = 0 → s.hasReqs c.w.id.handle = false → Claims.posted c 0 [(at', 80)] s₀ = (.ok vals, v) →
    let v := v.dropEngReqs c.w.id.handle half
    let t := granBytes vals at' 80
    let sc := BitVec.ofNat 32 (field t 64 4)
    let place := bits (field t 68 1) 5 4
    field t 0 8 % 64 = 0 → bits (field t 68 1) 7 6 = 0 → field t 69 11 = 0 →
    (sc ≠ 0 → ∃ o, v.named sc = some o ∧ o.body.type = 6) →
    let u := (v.orderAtomn c true [] 0).releaseBy (c.space v) 4
    let n : NewWave :=
      { proc := c.process u, sc := if sc = 0 then (if c.w.priv then (u.core c.who.core).ctl.ksc else c.w.id.sc) else sc, entry := BitVec.ofNat 64 (field t 0 8)
        args := (List.range 7).map fun k => BitVec.ofNat 64 (field t (8 + 8 * k) 8)
        hold := BitVec.ofNat 4 (bits (field t 68 1) 3 0), placement := BitVec.ofNat 2 place
        cluster := u.homeCluster c.who.core place, core := c.who.core, kind := .single, handles := none }
    exec (.wcreate e) s = .next (endedRegion (.wcreate e) (some e) c s (match u.makeWave n with
      | some (h, u) => Claims.answer e c u (kernResult 0 0 h.toNat)
      | none => Claims.answer e c u (kernResult 2 0 0)))) ∧
  ∀ (e : Ext) (s : State) (c : Ctx), c.act true e.pg e.pn ≠ 0 →
    let s₀ := s.put c c.w
    let h := c.handle e.a9.toNat
    (∀ ops n, Issues (.objnew e) (some e) s c → Claims.kernOf e c (.objnew e) = some ops → checkOps ops = none →
      let t := e.m 0 4
      let cap := (c.sOr e.a9.toNat).toNat
      let name := c.sOr e.b9.toNat
      (t = 3 → 1 ≤ cap ∧ cap ≤ 64 ∧ (name ≠ 0 → bits name.toNat 63 55 = s.peer.toNat ∧ ∀ x ∈ s.kern.names, x.1 ≠ name)) →
      s₀.freeIndex = some n →
      let gen := ((s.obj? n).map (·.gen)).getD 0
      let st := BitVec.ofNat 64 (s.kern.entryBase.toNat + 8192 * n)
      let body : Body := if t = 3 then .port cap st name [] [] else if t = 4 then .wset st (List.replicate 64 0)
        else .timer (2 ^ 64 - 1) 0 0 0
      let handle := mkHandle body.type gen n
      ∃ u, exec (.objnew e) s = .next (endedRegion (.objnew e) (some e) c s (Claims.answer e c u (kernResult 0 0 handle.toNat))) ∧
        (∃ o, u.obj? n = some o ∧ o.body = body ∧ o.gen = gen ∧ o.owner.toNat = hIndex (c.process s₀) % 2 ^ 20) ∧
        (∀ k, k ≠ n → u.obj? k = s.obj? k) ∧ u.mem = s.mem) ∧
    (∀ o, Issues (.objdel e) (some e) s c → checkOps [sDst c e.d9.toNat, sRun c e.a9.toNat] = none →
      s₀.handleFault c h [2, 3, 4, 5, 7] 0 false = none → s₀.named h = some o →
      (∀ a r at' im id t, o.body = .wave a r at' im id none t →
        exec (.objdel e) s = .next (endedRegion (.objdel e) (some e) c s (Claims.answer e c s₀ (kernResult 7 0 0)))) ∧
      (o.body.type = 5 ∨ (∃ a r at' im id k t, o.body = .wave a r at' im id (some k) t) →
        exec (.objdel e) s = .next (endedRegion (.objdel e) (some e) c s
          (Claims.answer e c ((s₀.leaveSets h).freeObj (hIndex h)) (kernResult 0 0 0)))) ∧
      (o.body.type = 7 → exec (.objdel e) s = .next (endedRegion (.objdel e) (some e) c s
        (Claims.answer e c (s₀.freeObj (hIndex h)) (kernResult 0 0 0)))) ∧
      (o.body.type = 3 → exec (.objdel e) s = .next (endedRegion (.objdel e) (some e) c s
        (Claims.answer e c (s₀.closePort h) (kernResult 0 0 0)))) ∧
      (∀ a ms, o.body = .wset a ms → exec (.objdel e) s = .next (endedRegion (.objdel e) (some e) c s
        (Claims.answer e c (ms.foldl State.freeEnded ((s₀.closeWaits .wset h).freeObj (hIndex h))) (kernResult 0 0 0)))))

/-- A freed entry names no object, its generation has risen by one, and no handle made of it before names anything (R222). -/
def Obligations.FreedHandlesNameNothing : Prop :=
  ∀ (s : State) (i : Nat) (o : Obj), s.obj? i = some o → o.body.type ≠ 0 → i < 2 ^ 20 →
    let t := s.freeObj i
    (∃ o', t.obj? i = some o' ∧ o'.body = .free ∧ o'.gen = o.gen + 1) ∧ t.named (mkHandle o.body.type o.gen i) = none ∧
      ∀ k, k ≠ i → t.obj? k = s.obj? k

/-- WSADD puts a member into a slot and answers the old one; WSWAIT answers the ready member of the earliest time, the lowest
slot on a tie, once every timer that is due has expired, or waits, behind an earlier waiter too; TARM and TCANCEL answer and
clear a timer's pending count, TARM arming it (R229, R238 to R240).
Where the manual is open it says what the model does: notes/assumptions 46. -/
def Obligations.WaitSetsAndTimers : Prop :=
  (∀ (s : State) (ms : List (BitVec 32)) (k t : Nat), s.readyMember ms = some (k, t) →
    (∃ m, ms[k]? = some m ∧ s.memberReady m = some t) ∧
      ∀ j m u, ms[j]? = some m → s.memberReady m = some u → t ≤ u ∧ (u = t → k ≤ j)) ∧
  ∀ (e : Ext) (s : State) (c : Ctx), c.act true e.pg e.pn ≠ 0 →
    let s₀ := s.put c c.w
    let h := c.handle e.a9.toNat
    (∀ o a ms, Issues (.wsadd e) (some e) s c → checkOps [sDst c e.d9.toNat, sRun c e.a9.toNat, sRun c e.b9.toNat] = none →
      let m := if e.b9.toNat = 320 then 0 else c.handle e.b9.toNat
      s₀.handleFault c h [4] 0 false = none → s₀.named h = some o → o.body = .wset a ms →
      (e.b9.toNat ≠ 320 → s₀.rport? m = none ∧ s₀.handleFault c m [2, 3, 5] 1 false = none) →
      let old := ms.getD (e.m 0 6) 0
      let u := s₀.setMembers h (updAt (fun _ => m) (e.m 0 6) ms)
      exec (.wsadd e) s = .next (endedRegion (.wsadd e) (some e) c s
        (Claims.answer e c (if old = m then u else u.freeEnded old) (kernResult 0 0 old.toNat)))) ∧
    (∀ o a ms, Issues (.wswait e) (some e) s c → checkOps [sDst c e.d9.toNat, sRun c e.a9.toNat] = none →
      let s₀ := s₀.expireDue
      s₀.handleFault c h [4] 0 false = none → s₀.named h = some o → o.body = .wset a ms →
      (∀ k t, s₀.firstInLine c .wset h [] = true → s₀.readyMember ms = some (k, t) →
        exec (.wswait e) s = .next (endedRegion (.wswait e) (some e) c s
          (Claims.answer e c (s₀.consumeMember h k ms) (kernResult 0 k (ms.getD k 0).toNat)))) ∧
      (∀ k t, s₀.firstInLine c .wset h [] = false → s₀.readyMember ms = some (k, t) →
        exec (.wswait e) s = .next (s₀.waitOn c (.wswait e))) ∧
      (s₀.readyMember ms = none → exec (.wswait e) s = .next (if e.m 0 1 = 1
        then endedRegion (.wswait e) (some e) c s (Claims.answer e c s₀ (kernResult 1 0 0)) else s₀.waitOn c (.wswait e)))) ∧
    (∀ i arm o d p n r, (i = .tarm e ∧ arm = true) ∨ (i = .tcancel e ∧ arm = false) → Issues i (some e) s c →
      checkOps ([sDst c e.d9.toNat, sRun c e.a9.toNat] ++ if arm then [sRun c e.b9.toNat, sRun c e.c9.toNat] else []) = none →
      s₀.handleFault c h [5] 0 false = none → (s₀.expire (hIndex h)).named h = some o → o.body = .timer d p n r →
      let due := if arm then (c.sVal e.b9.toNat).toNat else 2 ^ 64 - 1
      exec i s = .next (endedRegion i (some e) c s (Claims.answer e c ((s₀.expire (hIndex h)).updObj (hIndex h) fun o =>
        { o with body := .timer (if due ≤ s.now then s.now + 1 else due) (if arm then (c.sVal e.c9.toNat).toNat else p) 0 0 })
        (kernResult 0 0 n))))

/-- NSLOOKUP of a name of this device completes with the port's handle for a process of its TDI, else status 3; of another
device's name it asks that device, after its wave's pending atomics, waits, and once answered completes with a remote port made of the answer, its status, or 2
where the object table is full (R204, R237).
Where the manual is open it says what the model does: notes/assumptions 29, 46. -/
def Obligations.NameLookups : Prop :=
  ∀ (e : Ext) (s : State) (c : Ctx), Issues (.nslookup e) (some e) s c →
    checkOps [sDst c e.d9.toNat, sRun c e.a9.toNat] = none → c.act true e.pg e.pn ≠ 0 →
    let s₀ := s.put c c.w
    let name := c.sVal e.a9.toNat
    let peer := bits name.toNat 63 55
    let done (u : State) (v : BitVec 64) : State := ended (.nslookup e) (some e) c s (Claims.answer e c u v)
    (∀ h, peer = s.peer.toNat → (s.kern.names.find? fun x => x.1 == name) = some (name, h) →
      let mine := (s.named (c.process s)).map (·.tdi)
      exec (.nslookup e) s = .next (done s₀
        (if (s.named h).map (·.tdi) = mine ∧ mine.isSome = true then kernResult 0 0 h.toNat else kernResult 3 0 0))) ∧
    (peer = s.peer.toNat → (∀ x ∈ s.kern.names, x.1 ≠ name) → exec (.nslookup e) s = .next (done s₀ (kernResult 3 0 0))) ∧
    (peer ≠ s.peer.toNat → s.reqsOf c = [] →
      exec (.nslookup e) s = .next (((s₀.orderAtomn c true [] 0).ask c.w.id.handle c.who.half ((lowest c.path.mask).getD 0) 0 none
        { Packet.plain 0x0C 0 (BitVec.ofNat 9 peer) 0 with ext := BitVec.ofNat 384 name.toNat }).waitReqs c (.nslookup e))) ∧
    (∀ a, peer ≠ s.peer.toNat → (s.reqsOf c).findSome? (·.answer) = some a →
      let u := s₀.dropReqs c
      let w := (Packet.word a 2).toNat
      (a.status = 7 → exec (.nslookup e) s = .next (done u (kernResult 6 0 0))) ∧
      (a.status ≠ 7 → bits w 63 48 ≠ 0 → exec (.nslookup e) s = .next (done u (kernResult (bits w 63 48) 0 0))) ∧
      (a.status ≠ 7 → bits w 63 48 = 0 → exec (.nslookup e) s = .next
        (match u.newObj c fun _ => .rport peer (BitVec.ofNat 32 w) (Packet.word a 3).toNat with
          | some (h, u) => done u (kernResult 0 0 h.toNat)
          | none => done u (kernResult 2 0 0))))


/-! ## Special registers and privileged instructions -/

/-- SRD delivers the special register's value, lane by lane, with tag 1, or 11 for the two 64-bit ones; in a native wave the lane,
slot, wave, core, peer, time, region and thread numbers are those of its place (R54, R421). -/
def Obligations.SpecialRegisterReads : Prop :=
  (∀ (c : Ctx) (s : State) (l : Nat), c.w.id.gang = false → c.who.core < 128 →
    srdVal c s 0 l = l ∧ srdVal c s 1 l = c.who.slot ∧ srdVal c s 3 l = c.w.id.lvls.getD 1 0 ∧
      srdVal c s 10 l = c.who.core ∧ srdVal c s 13 l = s.peer.toNat ∧ srdVal c s 14 l = s.dtime.toNat ∧
      srdVal c s 16 l = c.w.regcnt.toNat ∧ srdVal c s 17 l = lane c.w.tids l) ∧
  ∀ (e : Ext) (s : State) (c : Ctx), Issues (.srd e) (some e) s c →
    let d := e.d9.toNat
    let k := e.m 0 6
    let wide := k = 14 ∨ k = 15
    d < 384 → checkOps [dstOk c e.u (if wide then 2 else 1) d] = none →
    ∃ u : State, exec (.srd e) s = .next (ended (.srd e) (some e) c s (u.put c
        (writeDst c c.w (if wide then 3 else 1) d (if wide then 11 else 1) (c.act e.u e.pg e.pn) (srdVal c (s.put c c.w) k)))) ∧
      u.mem = s.mem ∧ u.host = s.host ∧ u.kern = s.kern

/-- CRD answers a control register. CWR writes the writable fields of one; of KTCODE it removes the oldest trap record; of KMODE
it sets INTLK (R94, R249, R254, R349, R350). -/
def Obligations.ControlRegisters : Prop :=
  ∀ (e : Ext) (s : State) (c : Ctx),
    let s₀ := s.put c c.w
    let core := c.who.core
    let v := c.uVal e.lit 8 e.a9.toNat
    (Issues (.crd e) (some e) s c → checkOps [sDst c e.d9.toNat] = none →
      exec (.crd e) s = .next (ended (.crd e) (some e) c s (s.put c
        (writeS c c.w e.d9.toNat (s₀.ctlReg core (e.m 0 12)))))) ∧
    (∀ i, i = .cwr e ∨ i = .ktcodePop e ∨ i = .kmodeIntlkWrite e → Issues i (some e) s c → checkOps [uOpOk c e.lit e.a9.toNat] = none →
      exec i s = .next (ended i (some e) c s (s₀.writeCtl core (e.m 0 12) v))) ∧
    (let q := (s.core core).trapQ
     (s.ctlReg core 4 = match q with | r :: _ => r.code | [] => 0) ∧ (s.ctlReg core 6 = match q with | r :: _ => r.addr | [] => 0) ∧
     (s.writeCtl core 4 v).core core = { s.core core with trapQ := q.tail } ∧
     (core < 128 → ((s.writeCtl core 0 v).core core).ctl = { (s.core core).ctl with intlk := v.getLsbD 0 } ∧
       (s.writeCtl core 3 v).ctlReg core 3 = (v.extractLsb' 6 46).setWidth 64 <<< 6 ∧
       (s.writeCtl core 2 v).ctlReg core 2 = (v.extractLsb' 0 20).setWidth 64) ∧
     s.ctlReg mgmtCore 3 = 0)

/-- RFT applies a verdict to a trapped wave of its core and answers 0, once the address that the verdict sends the split to has
passed the checks of a transfer; it answers 1 for a wave that is not trapped here. A verdict over 3 and a PC of more than 52 bits
raise INVALID_OPERAND (R80, R413, R414).
Where the manual is open it says what the model does: notes/assumptions 9, 85, 89. -/
def Obligations.VerdictsApplied : Prop :=
  ∀ (e : Ext) (s : State) (c : Ctx), Issues (.rft e) (some e) s c →
    let s₀ := s.put c c.w
    let v := (c.uVal e.lit 8 e.b9.toNat).toNat
    let pc := c.sVal e.c9.toNat
    let h := c.handle e.a9.toNat
    checkOps [sDst c e.d9.toNat, sRun c e.a9.toNat, uOpOk c e.lit e.b9.toNat, sRun c e.c9.toNat] = none →
    let done (u : State) (k : BitVec 64) : State := ended (.rft e) (some e) c s (u.put c (writeS c (u.mine c) e.d9.toNat k))
    (v ≤ 3 → pc.toNat < 2 ^ 52 → s₀.waveFault h = none →
      (∀ core k w, s₀.resident h = some (core, k) → s₀.waveOf h = some w → core = c.who.core → w.traps ≠ 0 →
        let d := rftDue e w v pc
        let post := w.trap.filter (·.posting)
        let async := e.m 1 1 = 1 ∧ d.v = 3 ∧ (w.id.blk ≠ none ∨ post = none)
        let sp := s₀.waveSpace core k w
        let ts := w.returnsTo (s₀.afterPc sp) d.v d.half d.pc (d.reread = true ∨ async)
        (e.m 1 1 = 0 → d = { v := if e.m 0 1 = 1 ∧ 2 ≤ v then 1 else v, half := if w.id.gang then e.m 2 1 else 0
                             path := (w.trap.map (·.path)).getD 0, pc := pc, reread := e.m 3 1 == 1, parked := [] }) ∧
        (∀ u, s₀.checkTargets sp w.id.codeBase ts = (.ok, u) → exec (.rft e) s = .next (done
          (if async then u.engineGo h w.id.blk post else u.giveVerdict core k d) 0)) ∧
        (∀ code a u, s₀.checkTargets sp w.id.codeBase ts = (.fault code a, u) →
          exec (.rft e) s = .next (u.raise c false code c.path.pc a))) ∧
      (s₀.resident h = none ∨ (∃ core k w, s₀.resident h = some (core, k) ∧ s₀.waveOf h = some w ∧ (core ≠ c.who.core ∨ w.traps = 0)) →
        exec (.rft e) s = .next (done s₀ 1))) ∧
    (3 < v ∨ 2 ^ 52 ≤ pc.toNat → exec (.rft e) s = .next (s₀.raise c false Exc.invalidOperand c.path.pc 0))

/-- CTXSV saves a wave of its core that stands at a chain boundary and in no instruction that the League has still to answer: its
slot is freed and its image written, or with KEEP only its image, its waits given up all the same, and with MST its block's matrix
state; before that it is tried again, what the wave holds at full ports asked back. CTXLD loads a saved wave into a free slot. Each answers 1 where it cannot; KEEP of a wave that is not trapped, and MST of a
block with another wave running, raise INVALID_OPERAND (R351, R352).
Where the manual is open it says what the model does: notes/assumptions 26, 38, 40, 50, 51. -/
def Obligations.ContextSwitches : Prop :=
  ∀ (e : Ext) (s : State) (c : Ctx),
    let s₀ := s.put c c.w
    let here := c.who.core
    let h := c.handle e.a9.toNat
    let b := e.b9.toNat
    let half := c.who.half + 2
    let keep := e.m 0 1 = 1
    let mst := e.m 1 1 = 1
    let done (i : Instr) (u : State) (k : BitVec 64) : State := ended i (some e) c s (u.put c (writeS c (u.mine c) e.d9.toNat k))
    (Issues (.ctxsv e) (some e) s c →
      checkOps [sDst c e.d9.toNat, sRun c e.a9.toNat, { sRun c b with valid := (sRun c b).valid && (e.m 0 1 == 1 || b == 320) },
        if mst then sRun c e.c9.toNat else OpOk.yes] = none → s₀.waveFault h = none →
      (s₀.resident h = none → exec (.ctxsv e) s = .next (done (.ctxsv e) s₀ 1)) ∧
      (∀ core slot w, s₀.resident h = some (core, slot) → s₀.waveOf h = some w →
        let fin (u : State) : State := if mst then u.saveMatrix core w.id.blk (c.sVal e.c9.toNat).toNat else u
        (core ≠ here → exec (.ctxsv e) s = .next (done (.ctxsv e) s₀ 1)) ∧
        let stopped : Prop := ∀ k, mst → w.id.blk = some k → s₀.blockStopped k h = true
        let fired : Prop := ∃ k, mst ∧ w.id.blk = some k ∧ s₀.firedWork core k = true
        (core = here → (keep ∧ w.traps = 0) ∨ ¬stopped →
          exec (.ctxsv e) s = .next (s₀.raise c false Exc.invalidOperand c.path.pc 0)) ∧
        (core = here → (keep → w.traps ≠ 0) → stopped → s₀.stoppable core slot = false ∨ fired →
          exec (.ctxsv e) s = .next (if keep then s₀.askBack h else s₀.haltWave core slot)) ∧
        (core = here → s₀.stoppable core slot = true → stopped → ¬fired →
          (¬keep → exec (.ctxsv e) s = .next (done (.ctxsv e)
            (fin (if w.traps = 0 ∧ w.id.blk = none then (s₀.saveWave core slot).readyWave h else s₀.saveWave core slot)) 0)) ∧
          (keep → w.traps ≠ 0 → b = 320 → exec (.ctxsv e) s = .next (done (.ctxsv e) (fin (s₀.keepImage h)) 0)) ∧
          (∀ r u, keep → w.traps ≠ 0 → b ≠ 320 →
            let t := if c.progress.k = 0 then s.now else c.progress.k - 1
            let v := s₀.setProg c 0 (t + 1)
            (∀ q ∈ v.league.reqs, q.of c.w.id.handle (c.who.half + 4) c.path.mask = false) →
            v.storePieces (c.space v) c.w.id.handle (c.who.half + 4) ((lowest c.path.mask).getD 0) 0
              (piecesOf (c.sVal b).toNat ((((s₀.halt core slot).wave? core slot).getD w).image t)) = (.ok r, u) →
            exec (.ctxsv e) s = .next (done (.ctxsv e) (fin (u.halt core slot)) 0))))) ∧
    (∀ o image r w id t bs v, Issues (.ctxld e) (some e) s c →
      checkOps [sDst c e.d9.toNat, sRun c e.a9.toNat, sRun c b, if mst then sRun c e.c9.toNat else OpOk.yes] = none →
      s₀.named h = some o → o.body.type = 2 → v.named h = some o →
      (b = 320 → v = s₀ ∧ ∀ i r a w id n t, o.body = .wave i r a w id n t →
        bs = s₀.bytes i.toNat (imageSize (holdCount (headerHold (s₀.num i.toNat 8))))) →
      (b ≠ 320 → ∃ vals vals' u u', let at' := (c.sVal b).toNat
        let n := imageSize (holdCount (headerHold (leNat (granBytes vals at' 8))))
        Claims.posted c 0 [(at', 8)] s₀ = (.ok vals, u) ∧ Claims.posted c 0 [(at', n)] u = (.ok vals', u') ∧
        v = u'.dropEngReqs c.w.id.handle half ∧ bs = granBytes vals' at' n) →
      (∀ i r a w id n t, o.body = .wave i r a w id n t → a ≠ none ∨ n ≠ none →
        exec (.ctxld e) s = .next (done (.ctxld e) v 1)) ∧
      (o.body = .wave image r none (some w) id none t → imageOk bs = true →
        let start (u : State) (slot : Nat) : State := u.updWave here slot fun w =>
          if keep then { w with traps := 0, trap := none, due := [] } else { w with traps := max 1 w.traps }
        (¬mst ∨ w.id.blk = none →
          (here = mgmtCore ∨ v.freeSlot here = none → exec (.ctxld e) s = .next (done (.ctxld e) v 1)) ∧
          (∀ slot u, here ≠ mgmtCore → v.freeSlot here = some slot → v.poolFor here (headerHold (field bs 0 8)) = true →
            (v.unqueue (.inl h)).loadIn here slot h bs = some u →
            exec (.ctxld e) s = .next (done (.ctxld e) (start u slot) (BitVec.ofNat 64 (slot * 256))))) ∧
        (∀ k x slot u, mst → w.id.blk = some k →
          readMatrix (v.bytes (c.sVal e.c9.toNat).toNat matrixSize) (((v.block? k).bind (·.image)).getD ⟨none, [], [], []⟩) k
            ⟨h, 0, w.id.lvls.getD 1 0, w.id.proc, w.id.sc, w.id.blk, w.id.gang, 0, here, none⟩ = some x →
          here ≠ mgmtCore → v.freeSlot here = some slot → v.poolFor here (headerHold (field bs 0 8)) = true →
          v.enginesFit here x = true → (v.unqueue (.inl h)).loadIn here slot h bs = some u →
          exec (.ctxld e) s = .next (done (.ctxld e) (((start u slot).putEngines here k x).updBlock k fun y =>
            { y with core := here, image := none }) (BitVec.ofNat 64 (slot * 256))))))

/-- TLBINV discards the translations and instruction lines of its range on the cores it names, after the stores issued under
them, pending atomics of ended waves among them: it completes when those that went to peers are acknowledged and, at scope sys, when every importer of a page that holds a
byte of the range has answered; IDLE answers the latched events, with the oldest signal, or waits for one; MGSIG queues a signal,
or answers 1 where 16 wait (R191, R373, R374, R386, R428, R429).
Where the manual is open it says what the model does: notes/assumptions 48, 53. -/
def Obligations.InvalidatesIdleAndSignals : Prop :=
  ∀ (e : Ext) (s : State) (c : Ctx),
    let s₀ := s.put c c.w
    let core := c.who.core
    let done (i : Instr) (u : State) (k : BitVec 64) : State := ended i (some e) c s (u.put c (writeS c (u.mine c) e.d9.toNat k))
    (Issues (.tlbinv e) (some e) s c → checkOps [sDst c e.d9.toNat, sRun c e.a9.toNat, sRun c e.b9.toNat] = none →
      let all := e.m 5 1 = 1
      let va := (c.sVal e.a9.toNat).toNat
      let n := (c.sVal e.b9.toNat).toNat
      (all ∨ (va % 4096 = 0 ∧ va < 2 ^ 52 ∧ 1 ≤ n ∧ n ≤ 2 ^ 20)) →
      let lo := if all then 0 else va
      let hi := if all then 2 ^ 52 else va + 4096 * n
      let pasid := (s₀.core core).ctl.kpasid
      let cores := (core :: s₀.unitCores (e.m 2 3) core).eraseDups
      let u := cores.foldl (fun s k => (s.core k).waves.foldl (fun s (x : Nat × Wave) => s.drainAtomn k x.1) s) s₀
      let u := u.drainOrphans fun k => cores.contains k
      let u := cores.foldl (fun s k => s.release k (e.m 2 3)) u
      let u := cores.foldl (fun s k => s.dropPages k pasid lo hi) u
      let up := 2 ^ s₀.pageBits pasid lo
      let top := 2 ^ s₀.pageBits pasid (hi - 1)
      let sent := if e.m 2 3 = 5 then
          (u.invalidates pasid (lo / up * up) ((hi + top - 1) / top * top)).foldl (fun s x => s.sendInval c.w.id.handle x) u
        else u
      let open' (u : State) : Bool := u.league.invs.any fun v => v.handle = c.w.id.handle
      let at' (u : State) (k : Nat) : Prop :=
        (open' u = true → exec (.tlbinv e) s = .next ((u.setProg c 0 k).waitOn c (.tlbinv e))) ∧
        (open' u = false → u.storesOpen cores (k / 4) = true → exec (.tlbinv e) s = .next (u.setProg c 0 k)) ∧
        (open' u = false → u.storesOpen cores (k / 4) = false → exec (.tlbinv e) s = .next (done (.tlbinv e) u (BitVec.ofNat 64 (k % 4 - 1))))
      (c.progress.k = 0 → at' sent (4 * sent.now + 1)) ∧ (c.progress.k ≠ 0 → at' s₀ c.progress.k)) ∧
    (Issues (.idle e) (some e) s c →
      checkOps [OpOk.when (scalarOk c.w e.d9.toNat && scalarOk c.w (e.d9.toNat + 1) && e.d9.toNat % 2 == 0 && e.d9.toNat != 320),
        sRun c e.a9.toNat] = none →
      let ev := s₀.latchedAt core (c.sVal e.a9.toNat).toNat
      let u := s₀.updCore core fun k => { k with latched := 0 }
      (ev = 0 → exec (.idle e) s = .next (s₀.waitOn c (.idle e))) ∧
      (ev ≠ 0 → (s.core core).sigQ = [] → exec (.idle e) s = .next (done (.idle e) u (BitVec.ofNat 64 ev))) ∧
      (∀ x src rest, ev ≠ 0 → (s.core core).sigQ = (x, src) :: rest →
        let u := ((u.updCore core fun k => { k with sigQ := rest }).acquire core 4).bumpSfr c
        exec (.idle e) s = .next (ended (.idle e) (some e) c s (u.put c
          (writeS c (writeS c (u.mine c) e.d9.toNat (BitVec.ofNat 64 (ev + 256 * src.toNat))) (e.d9.toNat + 1) x))))) ∧
    (Issues (.mgsig e) (some e) s c → checkOps [sDst c e.d9.toNat, sRun c e.a9.toNat, sRun c e.b9.toNat] = none →
      let t := (c.sVal e.a9.toNat).toNat
      (t < 128 ∨ t = 255) →
      (16 ≤ (s₀.core t).sigQ.length → exec (.mgsig e) s = .next (done (.mgsig e) s₀ 1)) ∧
      ((s₀.core t).sigQ.length < 16 → s.hasReqs c.w.id.handle = false →
        let u := (s₀.orderAtomn c true [] 0).releaseBy (c.space s₀) 4
        exec (.mgsig e) s = .next (done (.mgsig e) ((u.signal t (c.sVal e.b9.toNat) core).bumpSfr c) 0)))

/-- OBJRD writes an object-table entry into a buffer; OBJWR makes or replaces an entry from one. PWRACQ takes tokens when its
turn comes and they are free, else waits in line; PWRREL gives them back (R399, R400, R408).
Where the manual is open it says what the model does: notes/assumptions 48, 52. -/
def Obligations.DescriptorsAndTokens : Prop :=
  ∀ (e : Ext) (s : State) (c : Ctx),
    let s₀ := s.put c c.w
    let half := c.who.half + 2
    let core := c.who.core
    let done (i : Instr) (u : State) (k : BitVec 64) : State := ended i (some e) c s (u.put c (writeS c (u.mine c) e.d9.toNat k))
    let n := (c.sVal e.a9.toNat).toNat
    let buf := (c.sVal e.b9.toNat).toNat
    (∀ i, i = .objrd e ∨ i = .objwr e → Issues i (some e) s c →
      checkOps [sDst c e.d9.toNat, sRun c e.a9.toNat, sRun c e.b9.toNat] = none → 0 < n → n < 2 ^ 20 → buf % 64 = 0 →
      (∀ r u, i = .objrd e → (∀ q ∈ s.league.reqs, q.of c.w.id.handle (c.who.half + 4) c.path.mask = false) →
        s₀.storePieces (c.space s₀) c.w.id.handle (c.who.half + 4) ((lowest c.path.mask).getD 0) 0 (piecesOf buf (s₀.entryBytes n)) =
          (.ok r, u) → exec i s = .next (done i (u.bumpSfr c) 0)) ∧
      (∀ vals u, i = .objwr e → Claims.posted c 0 [(buf, 128)] s₀ = (.ok vals, u) →
        let u := u.dropEngReqs c.w.id.handle half
        let bs := granBytes vals buf 128
        entryOk bs = true →
        (∀ v t, u.writeEntry n bs = .inl (v, t) → exec i s = .next (done i (t.bumpSfr c) (BitVec.ofNat 64 v))) ∧
        (∀ why, u.writeEntry n bs = .inr why → exec i s = .next (u.raise c false Exc.object c.path.pc why)))) ∧
    (let k := (c.uVal e.lit 8 e.a9.toNat).toNat
     let ops := [sDst c e.d9.toNat, uOpOk c e.lit e.a9.toNat]
     (Issues (.pwracq e) (some e) s c → checkOps ops = none → k ≤ poolSize s.board.watts →
      (k = 0 → exec (.pwracq e) s = .next (done (.pwracq e) s₀ (BitVec.ofNat 64 (s.poolFree % 256)))) ∧
      (k ≠ 0 → (s.tokWait = [] → k ≤ s.poolFree →
        exec (.pwracq e) s = .next (done (.pwracq e) ((State.addHeld { s₀ with tokWait := [], poolFree := s.poolFree - k }) core k true)
          (BitVec.ofNat 64 ((s.poolFree - k) % 256)))) ∧
       (s.tokWait.head? ≠ some (.agent core) → s.tokWait ≠ [] ∨ s.poolFree < k → exec (.pwracq e) s = .next
          (State.waitOn { s₀ with tokWait := s.tokWait ++ [.agent core] } c (.pwracq e))))) ∧
     (Issues (.pwrrel e) (some e) s c → checkOps ops = none → (core = mgmtCore ∨ k ≤ (s₀.core core).ctl.held) →
      exec (.pwrrel e) s = .next (done (.pwrrel e) ((State.addHeld { s₀ with poolFree := s.poolFree + k }) core k false)
        (BitVec.ofNat 64 ((s.poolFree + k) % 256)))))


/-! ## Exceptions -/

/-- The record of an exception that the split c raises at its own PC with KTADDR zero. -/
def Sys2Proof.Claims.ownRecord (c : Ctx) (code : Nat) : TrapRec := c.record false code c.path.pc 0

/-- The instruction i raises `code` precisely: its exception is taken with nothing else changed, the record holds i's address,
and KTPC reads it where no older record is queued (an exception that a split of a trapped wave still meets waits, log 96). -/
def Sys2Proof.Claims.RaisesPrecisely (i : Instr) (code : Nat) : Prop :=
  ∀ (s : State) (c : Ctx), Issues i none s c → ∃ t, exec i s = .next t ∧
    t = (s.put c c.w).takeException c false code c.path.pc 0 ∧
    (Claims.ownRecord c code).pc = c.path.pc ∧ (Claims.ownRecord c code).excCode = code ∧
    (Claims.ownRecord c code).async = false ∧
    (c.w.traps = 0 ∨ c.w.priv = true → (s.core c.who.core).trapQ = [] → c.path.pc.toNat < 2 ^ 52 →
      t.ctlReg c.who.core 5 = c.path.pc)

/-- A verdict has been applied to a wave of t, which is now w, and what waited for the verdict follows: merges, barriers, engine
commands of its block held back, a regroup. -/
def Sys2Proof.Claims.resumed (t : State) (c : Ctx) (w : Wave) : State :=
  ((((t.setWave c.who.core c.who.slot w).merge 70 ⟨c.who.core, c.who.slot, c.who.half, 0⟩).lookAgain c.who.core
    c.who.slot).releaseHeld w.id.blk).regroupAfter w.id.blk

/-- What the verdicts do with the precise exception `code` that the instruction `word` raised at the split c, its wave w
trapped by it alone where it stands: all four are allowed and act as such; RESTART runs the half from its region's entry, RETRY
resumes the split at the instruction, and CONTINUE at the next one where no loop ends there, each once the address it goes on at
has passed the check of a transfer; one that fails is a fault of the agent, which leaves the wave trapped as it was (log 85). -/
def Sys2Proof.Claims.AllVerdicts (word : Word) (code : Nat) : Prop :=
  (∀ v, v < 4 → verdictAllowed code v = true ∧ verdictOf code v false = v) ∧
  ∀ (t : State) (c : Ctx) (w : Wave), (Claims.ownRecord c code).inchain = false → c.who.half < 2 →
    (c.w.id.gang = false → c.who.half = 0) →
    t.resident c.w.id.handle = some (c.who.core, c.who.slot) → t.waveOf c.w.id.handle = some w →
    t.wave? c.who.core c.who.slot = some w → w.traps = 1 →
    let sp := t.waveSpace c.who.core c.who.slot w
    let at' (f : Path → Path) : Wave := w.untrap.updPath c.who.half c.who.path f
    let checked (a : Nat) := t.checkTargets sp w.id.codeBase [a]
    t.handlerDone (Claims.ownRecord c code) 0 = t.terminate w.id.handle w.id.blk ∧
    (∀ h u, w.halves[c.who.half]? = some h → checked h.region.toNat = (.ok, u) →
      t.handlerDone (Claims.ownRecord c code) 1 =
        Claims.resumed (u.forgetReqs w.id.handle c.who.half) c (w.untrap.restart c.who.half)) ∧
    (∀ u, checked c.path.pc.toNat = (.ok, u) →
      t.handlerDone (Claims.ownRecord c code) 2 = Claims.resumed u c (at' fun p =>
        { p with pc := c.path.pc, wait := .ready, prog := if p.pc = c.path.pc then p.prog else none })) ∧
    (∀ u, checked (t.afterPc sp c.path.pc).toNat = (.ok, u) →
      let v := u.forgetReqs w.id.handle c.who.half
      ∀ l, walkFrom v c.path.pc.toNat 3 (v.waveSpace c.who.core c.who.slot w).root = .ok l →
        v.num (l.pa c.path.pc.toNat) 4 = word.toNat → (∀ h, w.halves[c.who.half]? = some h → h.innermost = none) →
        t.handlerDone (Claims.ownRecord c code) 3 = Claims.resumed v c (at' fun p =>
          { p with pc := c.path.pc + 4, wait := .ready, prog := none })) ∧
    (∀ u e a, checked c.path.pc.toNat = (.fault e a, u) →
      t.handlerDone (Claims.ownRecord c code) 2 = u.agentFault c.who.core e a)

/-- BRK is the word 0x0000_0228 and no other word of MAJ 0x45 is an instruction; it raises BREAKPOINT (0x60) precisely, and
KTPC holds its address; RETRY executes it again and CONTINUE resumes at the next instruction, all four verdicts being allowed;
in a chain it is no member (R333). -/
def Obligations.Breakpoint : Prop :=
  encode .brk = [0x00000228] ∧
  (∀ (w : Word) (ws : List Word) (i : Instr), w.extractLsb' 3 7 = 0x45 →
    (decodeWords w ws = .ok i ↔ w = 0x00000228 ∧ i = .brk)) ∧
  Claims.RaisesPrecisely .brk 0x60 ∧ Claims.AllVerdicts 0x00000228 0x60 ∧
  (∀ c : Ctx, c.chainPos ≠ 0 → chainOk c .brk none = false)

/-- TRAP n raises the exception 0x100 + n precisely, and KTPC holds its address; all four verdicts are allowed, RETRY raising
the trap again and CONTINUE resuming at the next instruction; in a firmware agent or on the management core the split goes on
at KTVEC. It is one word of MAJ 0x44 with n in IMM8, the loader's among them (R430). -/
def Obligations.TrapInstruction : Prop :=
  (encode (.trap 3) = [0x00000E20] ∧ encode (.trap 0xFF) = [0x0003FE20]) ∧
  (∀ (w : Word) (ws : List Word) (i : Instr), w.extractLsb' 3 7 = 0x44 →
    (decodeWords w ws = .ok i ↔ w &&& 0xFFFC03FF#32 = 0x00000220 ∧ i = .trap (w.extractLsb' 10 8))) ∧
  ∀ n : BitVec 8, Claims.RaisesPrecisely (.trap n) (0x100 + n.toNat) ∧ Claims.AllVerdicts (b0Word 0x44 n) (0x100 + n.toNat) ∧
    (∀ (s : State) (c : Ctx), Issues (.trap n) none s c →
      c.w.priv = true → ((s.core c.who.core).trapQ.any fun q => q.privileged) = false →
        ∀ t, exec (.trap n) s = .next t →
          (t.core c.who.core).trapQ = Claims.ownRecord c (0x100 + n.toNat) :: (s.core c.who.core).trapQ ∧
          t.wave? c.who.core c.who.slot = some ({ c.w with chain := none }.updPath c.who.half c.who.path fun p =>
            { p with pc := (0 : BitVec 12) ++ (s.core c.who.core).ctl.ktvec ++ (0 : BitVec 6), wait := .ready, prog := none }))

/-- Taking an exception. A user wave's record enters the tail of its core's trap queue and the wave is trapped; one that is
trapped already keeps it for after its verdict (log 96). The split has nothing in progress at a fault record. A privileged
wave's record enters the head, nothing of its own being queued yet, and the wave goes on at KTVEC; else nothing is queued, the
agent halts and the management core is signalled with the code. Memory, the other cores' waves and the registers stay. KTCODE
holds the code, the slot, the half, VALID, ASYNC for an engine command alone, whether it arose in a chain, in privileged mode and
at a re-read, and the region count; the record keeps the region's entry (R248, R251, R254, R255).
Where the manual is open it says what the model does: notes/assumptions 72. -/
def Obligations.ExceptionEntry : Prop :=
  ∀ (s : State) (c : Ctx) (rr : Bool) (code : Nat) (pc : Dword) (addr : Nat),
    s.wave? c.who.core c.who.slot = some c.w → code < 2 ^ 16 →
    let r := c.record rr code pc addr
    let t := s.takeException c rr code pc addr
    let q := (s.core c.who.core).trapQ
    (∃ w, t.wave? c.who.core c.who.slot = some w ∧ w.regs = c.w.regs ∧ w.removed = c.w.removed ∧ w.exited = c.w.exited) ∧
    t.mem = s.mem ∧ t.kern = s.kern ∧ t.host = s.host ∧
    (∀ d k, (d ≠ c.who.core ∨ k ≠ c.who.slot) → t.wave? d k = s.wave? d k) ∧
    let w' : Wave := { (if rr then c.w else c.w.updPath c.who.half c.who.path fun p =>
        { p with wait := .ready, prog := p.prog.map fun x => { x with held := [] } }) with
      chain := if c.inChain then none else c.w.chain }
    (c.w.priv = false → c.w.traps = 0 → (t.core c.who.core).trapQ = q ++ [r] ∧
      t.wave? c.who.core c.who.slot = some { w' with traps := 1, trap := some r }) ∧
    (c.w.priv = false → c.w.traps ≠ 0 → (t.core c.who.core).trapQ = q ∧
      t.wave? c.who.core c.who.slot = some { w' with later := c.w.later ++ [r] }) ∧
    (c.w.priv = true → (q.any fun x => x.privileged) = false → (t.core c.who.core).trapQ = r :: q ∧
      (t.core c.who.core).agentHalted = (s.core c.who.core).agentHalted ∧
      t.wave? c.who.core c.who.slot = some ({ c.w with chain := none }.updPath c.who.half c.who.path fun p =>
        { p with pc := (0 : BitVec 12) ++ (s.core c.who.core).ctl.ktvec ++ (0 : BitVec 6), wait := .ready, prog := none })) ∧
    (c.w.priv = true → (q.any fun x => x.privileged) = true → (t.core c.who.core).trapQ = q ∧
      (t.core c.who.core).agentHalted = true ∧ t.wave? c.who.core c.who.slot = some c.w ∧
      ((s.core mgmtCore).sigQ.length < 16 → (t.core mgmtCore).sigQ = (s.core mgmtCore).sigQ ++
        [(BitVec.allOnes 48 ++ BitVec.ofNat 16 code, BitVec.ofNat 8 c.who.core)])) ∧
    r.pc = pc ∧ r.addr = BitVec.ofNat 64 addr ∧ r.excCode = code ∧ r.reread = rr ∧ r.privileged = c.w.priv ∧
    r.async = (code == Exc.engineCommand) ∧ r.region = c.half.region ∧ r.code.getLsbD 23 = true ∧ r.code.extractLsb' 16 5 = BitVec.ofNat 5 c.who.slot ∧
    r.half = (if c.w.id.gang then c.who.half % 2 else 0) ∧ r.code.extractLsb' 32 20 = c.w.regcnt ∧
    (c.w.chain = none → r.inchain = false) ∧
    (∀ k, c.w.chain = some k → r.inchain = (!rr && (k.half == c.who.half && k.path == c.who.path) && k.pos != 0))

/-- The checks that precede an instruction's own come in their order, and one that fails leaves the machine as it is but for
the exception: a privileged instruction of a user wave raises PRIVILEGED, a form that is not allowed or stands wrongly in a
chain ILLEGAL_INSTRUCTION, on the management core first of all one it does not accept; and what an instruction's operand
checks answer is raised with nothing changed (R66, R98, R100, R101). -/
def Obligations.ChecksBeforeEffect : Prop :=
  (∀ (i : Instr) (s : State) (c : Ctx), i.isSys = true → s.ctx? s.cur = some c → c.ready s = true → c.w.priv = false →
    exec i s = .next (s.takeException c false 0x02 c.path.pc 0)) ∧
  (∀ (i : Instr) (e : Option Ext) (body : Ctx → State → Res) (s : State) (c : Ctx), s.ctx? s.cur = some c → c.ready s = true →
    let illegal := s.takeException c false 0x01 c.path.pc 0
    (c.w.id.kind = .mgmt → mgmtAccepts i = false → runWave i e body s = .next illegal) ∧
    ((c.w.id.kind = .mgmt → mgmtAccepts i = true) → (i.isSys = true → c.w.priv = true) →
      (i.formOk = false ∨ chainOk c i e = false) → runWave i e body s = .next illegal)) ∧
  (∀ (i : Instr) (e : Option Ext) (ops : Ctx → List OpOk) (rest : Ctx → State → Res) (s : State) (c : Ctx) (code : Nat),
    Issues i e s c → checkOps (ops c) = some code → code ≠ 0x23 →
    runWave i e (fun c s => withOps s (ops c) (rest c s)) s = .next ((s.put c c.w).takeException c false code c.path.pc 0))


/-! ## Decoding, the step, and the whole machine -/

/-- Words the spec gives for instructions decode to them: ADD.S64 with an immediate, LD with an offset, BRA twelve words back,
TRAP 255, ADD, AND, the bare EXIT, and the guarded ADD.S16X2 in three words (R85 to R89, R98,
R316, R317, R358). -/
def Obligations.DecodeWords : Prop :=
  decodeWords 0x8405100C#32 [] = .ok (.addImm ⟨true, 16, 5, 4⟩) ∧
  decodeWords 0x21042240#32 [] = .ok (.ldReg ⟨false, 2, 4, 4, 8⟩) ∧
  decodeWords 0xFFFFD1C0#32 [] = .ok (.bra (BitVec.ofInt 22 (-12))) ∧
  decodeWords 0x0003FE20#32 [] = .ok (.trap 0xFF) ∧
  decodeWords 0x01851008#32 [] = .ok (.addReg ⟨false, 0, 6, 5, 4⟩) ∧
  decodeWords 0x71851048#32 [] = .ok (.andReg ⟨false, 7, 6, 5, 4⟩) ∧
  decodeWords 0x00000210#32 [] = .ok .exit ∧
  decodeWords 0x20582809#32 [0x9000000C#32, 0x00000000#32] =
    .ok (.addExt ⟨false, 10, 11, 2, 12, 0, false, false, false, 0, 0, 9, 0, 0, 0, none⟩)

/-- Encoding and decoding agree: every instruction whose fields an encoding admits, with every operand at every value, decodes
from its own bytes, whatever follows them; and what decodes is such an instruction and the bytes are its encoding. -/
def Obligations.EncodeDecodeRoundTrip : Prop :=
  (∀ (i : Instr) (bs : List Byte), i.encodable = true → decode (encodeBytes i ++ bs) = .ok (i, bs)) ∧
  (∀ (bs rest : List Byte) (i : Instr), decode bs = .ok (i, rest) → i.encodable = true ∧ bs = encodeBytes i ++ rest)

/-- A step of a ready split fetches the instruction at its PC and executes it: where the split is the one whose turn it is, the PC
is in range and no window address, its line's page translates to local memory that may be fetched and is good, and neither an
older translation nor an older copy of the line is held, the bytes there decode to i, and the step is exec of i at the state after
the fetch with the split noted as the issuing one, then the passing of time; the fetch changes no wave, no memory and no object.
Bytes that are no instruction raise ILLEGAL_INSTRUCTION; a MAJ 0x7D word that is none
raises PRIVILEGED in a user wave (R79, R81, R98, R100). -/
def Obligations.StepRunsDecoded : Prop :=
  ∀ (s : State) (a : Who) (ts : List Turn) (c : Ctx) (l : Leaf),
    s.agenda = .issue a :: ts → s.issuer a = a → s.ctx? a = some c → c.ready s = true →
    pcInRange c.w.id.codeBase c.path.pc.toNat = true → isWindow (c.path.pc.toNat / 64 * 64) = false →
    let sp := c.space s
    let pc := c.path.pc.toNat
    let line := l.pa (pc / 64 * 64)
    walkFrom s (pc / 64 * 64) 3 sp.root = .ok l → permit s sp.tdi .fetch l (pc / 64 * 64) = none → l.tier = 0 →
    s.badData line 64 = false →
    (∀ x, Sparse.get? (tlbKey sp.pasid (pc / 64 * 64)) (s.core sp.core).tlb = some x → x = (l.lvl, l.pte)) →
    (∀ x, Sparse.get? (sp.pasid.toNat * 2 ^ 46 + pc / 64) (s.core sp.core).icache = some x → x.toNat = s.num line 64) →
    ∃ u : State, u.ctx? a = some c ∧ c.ready u = true ∧ u.agenda = ts ∧ u.mem = s.mem ∧ u.kern = s.kern ∧ u.host = s.host ∧
      (∀ d k, u.wave? d k = s.wave? d k) ∧ (u.issuing a).cur = a ∧
      (u.issuing a).ctx? a = some { c with w := { c.w with turn := placeOf a } } ∧
      match decode ((s.bytes line 64).drop (pc % 64)) with
      | .ok (i, _) =>
        step s = match exec i (u.issuing a) with
          | .next t => .next t.elapse
          | .fault f => .fault f
          | .refused r => .refused r
      | .error .sysSub => step s = .next ((u.takeException c false (if c.w.priv then 0x01 else 0x02) c.path.pc 0).issuing a).elapse
      | .error _ => step s = .next ((u.takeException c false 0x01 c.path.pc 0).issuing a).elapse

/-- No state stops the machine: every step answers a next state.
Where the manual is open it says what the model does: notes/assumptions 3. -/
def Obligations.StepNeverStops : Prop := ∀ s : State, ∃ t, step s = .next t

/-- Every step keeps the memories in canonical form (the model's own invariant): HBM and host memory list rising addresses
and no byte that an unlisted address reads as.
Where the manual is open it says what the model does: notes/assumptions 2. -/
def Obligations.MemoryStaysCanonical : Prop := ∀ s t : State, s.memOk → step s = .next t → t.memOk

/-- At reset the memories are in canonical form, device time is 0 and the power-token pool of a 3 200 W board holds 128 tokens,
all free; every granule has key slot 0 and only that slot holds a key; every handle names nothing; in every core KMODE, KTHROT,
KTEMP, KDROOP and held tokens are 0, KPROG holds 0x0032 and 0x0001_0000, the trap queue is empty, KTCODE reads 0 and 32
extended blocks are free; every queue register and window entry reads 0; and no port is up.
That the board at reset is one of 3 200 W, so that 128 tokens are free, is the model's choice: notes/assumptions 2, 10. -/
def Obligations.ResetState : Prop :=
  State.reset.memOk ∧ State.reset.dtime = 0 ∧ poolSize 3200 = 128 ∧ State.reset.poolFree = 128 ∧
  (∀ g, Sparse.get 0 State.reset.mem.granKey g = 0) ∧ (∀ k, State.reset.mem.keyHeld.getLsbD k = decide (k = 0)) ∧
  (∀ h, State.reset.named h = none) ∧
  (∀ c, let k := State.reset.core c
    k.ctl.intlk = false ∧ k.ctl.thr = 0 ∧ k.ctl.temp = 0 ∧ k.ctl.droop = 0 ∧ k.ctl.held = 0 ∧ k.ctl.drain = 0x32 ∧
      k.ctl.window = 0x10000 ∧ k.trapQ = [] ∧ k.pool = 32 ∧ State.reset.ctlReg c 4 = 0) ∧
  (∀ fn off, 0x30000 ≤ off → off < 0x31000 → State.reset.readBar fn off = 0) ∧
  (∀ off, 0x20000 ≤ off → off < 0x22000 → State.reset.readBar 0 off = 0) ∧
  (∀ p ∈ State.reset.league.ports, p.up = false)


/-! ## Events -/

/-- The split a waits in the instruction i since the order number n: it runs, its wave is not trapped, and no re-read of its
targets is parked. -/
def Sys2Proof.Claims.WaitsIn (s : State) (a : Who) (c : Ctx) (i : Instr) (n : Nat) : Prop :=
  s.ctx? a = some c ∧ c.path.wait = .on i n ∧ c.path.running = true ∧ c.path.arrived = false ∧ c.w.traps = 0 ∧
    ∀ h ∈ c.w.halves, h.reread = []

/-- The state in which a waiting split looks again: it stands ready at its instruction. -/
def Sys2Proof.Claims.looks (s : State) (c : Ctx) : State := s.updPath c fun p => { p with wait := .ready }

/-- An event that lets a split waiting in the instruction i go on: it executes i's effect from where it stood. Where that
would wait on, nothing happens, unless it has asked the League for something, has come further in i or waits for something else
now; else i completes, or raises, as when it is issued. -/
def Sys2Proof.Claims.Wakes (ev i : Instr) (a : Who) (e : Option Ext) (body : Ctx → State → Res) : Prop :=
  ∀ (s : State) (c : Ctx) (n : Nat), Claims.WaitsIn s a c i n →
    let u := Claims.looks s c
    (∀ v d, body c u = .wait v → v.ctx? a = some d → exec ev s = .next (match d.path.wait with
      | .on _ _ => if v.league.reqs = s.league.reqs ∧ d.path.prog = c.path.prog then s
        else v.updPath c fun p => { p with wait := c.path.wait }
      | _ => v)) ∧
    (∀ v, body c u = .next v → exec ev s = .next (ended i e c s v)) ∧
    (∀ v, body c u = .nextR v → exec ev s = .next (endedRegion i e c s v)) ∧
    (∀ v code addr, body c u = .raise v code addr → exec ev s = .next (v.raise c false code c.path.pc addr))

/-- Memory events. A fill ends the waits of a wave's splits, or of a core's commands, in the translation unit; the pending
atomics of a wave perform in their order, the first of an ATOMN opening the wave's next region, one that meets an error leaving
the wave its record to raise, and then those that ended waves left at the core; a fault buffer's oldest unpopped record is popped, and goes once it is also answered; a response lets
what is parked on the record walk again, or raises TRANSLATION at its address, the record answered either way; a line written
back leaves its unit, its dirty bytes going on; results are written and no longer outstanding; a congestion level is set. In
minimal mode the fault buffers are not served (R186, R188, R207, R304, R321, R95, R194). -/
def Sys2Proof.Claims.MemoryEvents : Prop :=
  (∀ (s : State) (core slot : Nat) (w : Wave), s.wave? core slot = some w →
    exec (.translationFill core slot false) s = .next (s.setWave core slot (w.mapPaths fun p =>
      if p.wait = .filling then { p with wait := .ready } else p)) ∧
    (let go (y : State × Wave) (x : AtomnOp) : State × Wave :=
      let w := if x.opens then { y.2 with sfr := y.2.sfr + 1 } else y.2
      let r := (y.1.setWave core slot w).performAtomn (y.1.waveSpace core slot w) x
      (r.2, if r.1 then w else { w with later := w.later ++ [w.errorRecord core slot x] })
     let r := w.atomn.foldl go (s, { w with atomn := [] })
     exec (.atomnPerform core slot) s = .next ((r.1.setWave core slot r.2).drainOrphans (· == core))) ∧
    (∀ x, (w.errorRecord core slot x).pc = x.pc ∧ (w.errorRecord core slot x).addr = BitVec.ofNat 64 x.va ∧
      (w.errorRecord core slot x).excCode = 0x23 ∧ (w.errorRecord core slot x).wave = w.id.handle) ∧
    ∀ n, exec (.registerResultsWritten core slot n) s = .next (s.setWave core slot { w with pend := w.pend.eraseIdx n })) ∧
  (∀ (s : State) (core slot : Nat), ∃ t, exec (.translationFill core slot true) s = .next t ∧
    (t.core core).copyq = (s.core core).copyq.map (fun x => { x with st := x.st.filled }) ∧
    (t.core core).fifo = (s.core core).fifo.map (fun x => { x with st := x.st.filled }) ∧ t.mem = s.mem) ∧
  (∀ (s : State) (die : Nat) (seq : BitVec 16), s.boot.min = true → exec (.fbpop die) s = .next s ∧
    exec (.fbrespWalkAgain die seq) s = .next s ∧ exec (.fbrespRaise die seq) s = .next s) ∧
  (∀ (s : State) (die n : Nat) (b : FaultBuf), s.boot.min = false → s.mem.fbuf[die]? = some b → n < b.recs.length →
    (b.recs.findIdx? fun r => !r.popped) = some n → ∃ t b', exec (.fbpop die) s = .next t ∧ t.mem.fbuf[die]? = some b' ∧
      b'.seq = b.seq ∧ b'.recs = (updAt (fun r => { r with popped := true }) n b.recs).filter (fun r => !(r.popped && r.answered)) ∧
      t.cores = s.cores ∧ t.mem.hbm = s.mem.hbm) ∧
  (∀ (s : State) (die : Nat) (seq : BitVec 16) (r : FaultRec) (k j : Nat), s.boot.min = false →
    s.faultRec? die seq = some r → s.rereads die seq = [] → unitDie k = die → ∃ t, exec (.fbrespWalkAgain die seq) s = .next t ∧ t.mem.hbm = s.mem.hbm ∧
      (∀ w, s.wave? k j = some w → ∃ w', t.wave? k j = some w' ∧ w'.regs = w.regs ∧ w'.traps = w.traps ∧
        w'.halves.map (·.base.wait) = w.halves.map fun h => (Path.answered seq (r.kind == 3) h.base).wait)) ∧
  (∀ (s : State) (die : Nat) (seq : BitVec 16), s.boot.min = false →
    exec (.fbrespRaise die seq) s = .next (s.raiseRecord die seq) ∧
    ∀ r c addr, s.faultRec? die seq = some r → s.cmdsOn die seq = [] → s.parkedOn die seq = [(c.who, false, addr)] →
      (∀ x ∈ s.cores, ∀ y ∈ x.2.waves, y.2.due = []) →
      s.ctx? c.who = some c → ∃ u : State, u.cores = s.cores ∧ u.mem.hbm = s.mem.hbm ∧ u.faultRec? die seq = none ∧
        s.raiseRecord die seq = (u.updPath c fun p => { p with wait := .ready }).takeException c false 0x20 c.path.pc addr) ∧
  (∀ (s : State) (unit line : Nat), exec (.cacheLineWriteBack unit line) s = .next ((List.range 8).foldl (fun s k =>
    (s.pushCopy unit [] (belowUnit unit) (8 * line + k)).dropCopy unit (8 * line + k)) s)) ∧
  (∀ (s : State) (ctl : Nat) (level : BitVec 2), ctl < s.mem.congest.length → ∃ t,
    exec (.congestionLevelChange ctl level) s = .next t ∧ t.mem.congest[ctl]? = some level ∧
    (∀ j, j ≠ ctl → t.mem.congest[j]? = s.mem.congest[j]?) ∧ t.cores = s.cores)

/-- Where the waits of splits end. A CWAIT completes once the counter that it reads has reached its target; a full-empty LDL or
STL once every granule's bit has the value it waits for and one has been set so since (notes/assumptions 88), an LDL taking the
scratchpad's numbers; a FENCER once no access of a cut wave is open; a WSWAIT that is first in line once a member is ready; a
PRECV that is first in line once a message without grants is there, which it writes; a PSEND that is first in line once a message
that it has read finds room; PWRACQ once the agent is the head waiter and the tokens are free; IDLE once an event is latched
(R157, R185, R211, R229, R234, R235, R239, R297, R374). -/
def Sys2Proof.Claims.WaitsEnd : Prop :=
  ∀ (s : State) (a : Who) (c : Ctx) (e : Ext) (n : Nat),
    let u := Claims.looks s c
    (∀ l, Claims.WaitsIn s a c (.cwait e) n → let b := e.b9.toNat
      checkOps [sRun c e.a9.toNat, if 320 ≤ b ∧ b < 384 then sRun c b else offOk c e.lit b] = none →
      lowest (c.act true e.pg e.pn) = some l → s.reqsOf c = [] →
      let o : MemOp := ⟨.read, 8, e.m 0 2, e.m 2 3, e.m 0 2 == 1, none⟩
      let la : LaneAcc := ⟨l, (c.sVal e.a9.toNat).toNat, 0, 0⟩
      let u₁ := u.orderAtomn c (e.m 0 2 == 1) [la] 8
      let sp := if o.sync then c.syncSpace u₁ else c.space u₁
      lanesOk u (c.space u).proc o [la] = none →
      (∀ v t, access u₁ sp o [la] = (⟨[(l, v)], [], [], false, none⟩, t) → offVal c e.lit b ≤ v →
        exec (.cwaitSatisfied a) s = .next (ended (.cwait e) (some e) c s
          (if e.m 0 2 = 1 then (t.acquire c.who.core (e.m 2 3)).bumpSfr c else t))) ∧
      (∀ leaf, e.m 0 2 = 0 → u₁.memOk → Claims.Reaches u₁ sp o leaf la → (leaf (la.va / 4096)).tier = 0 →
        (leaf (la.va / 4096)).nc = true → la.va % 8 = 0 → a.core ≠ mgmtCore →
        offVal c e.lit b ≤ u₁.num ((leaf (la.va / 4096)).pa la.va) 8 →
        ∃ t, exec (.cwaitSatisfied a) s = .next (ended (.cwait e) (some e) c s t) ∧ ∀ x, t.byte x = u₁.byte x)) ∧
    (∀ i st m, (i = .ldlExt e ∧ st = false ∧ m = Ext.loadArgs e) ∨ (i = .stlExt e ∧ st = true ∧ m = Ext.storeArgs e) →
      Claims.WaitsIn s a c i n → checkOps [spadAddrOk c m.a, offOk c m.lit m.off, dataOk c (!st) m.u m.sz m.d] = none →
      let k := szBytes m.sz
      let ls := spadLanes c m fun l => if st then dataVal c m.sz m.d l else 0
      let core := c.who.core
      (∀ x ∈ ls, x.va % k = 0 ∧ (s.spadOf c).1 ≤ x.va ∧ x.va + k ≤ (s.spadOf c).1 + (s.spadOf c).2) →
      m.fe ≠ 0 → ls ≠ [] → s.feAll core (!st) ls = true →
      (∃ x ∈ ls, n < Sparse.get 0 (s.core core).feWoke (x.va / 16) ∧
        ∀ y ∈ ls, Sparse.get 0 (s.core core).feQuiet (y.va / 16) < Sparse.get 0 (s.core core).feWoke (x.va / 16)) →
      (st = false → s.spadError core k ls = none →
        let v := if m.fe = 2 then u.feSet core false ls else u
        let v := ((v.orderAtomn c true [] 0).acquire core 1).bumpSfr c
        exec (.fullEmptyWake a) s = .next (ended i (some e) c s (v.put c
          (loadInto c m.sz m.d (c.memLanes m) (ls.map fun x => (x.l, leNat (s.spad core x.va k))) (v.mine c))))) ∧
      (st = true → s.hasReqs c.w.id.handle = false →
        let v := (u.orderAtomn c true [] 0).releaseBy (c.space u) 1
        let v := ls.foldl (fun v x => v.setSpad core x.va (leBytes k x.x)) v
        exec (.fullEmptyWake a) s = .next (endedRegion i (some e) c s ((v.feSet core true ls).bumpSfr c)))) ∧
    (Claims.WaitsIn s a c (.fencer e) n → c.act e.u e.pg e.pn ≠ 0 → c.progress.k ≠ 0 ∨ s.hasReqs c.w.id.handle = false →
      let scope := e.m 2 3
      let cores := if s.savedWave c.w.id.proc then u.cores.map (·.1) else u.unitCores scope c.who.core
      let cut := u.cutWaves c.w.id.proc (u.unitCores scope c.who.core)
      s.openReqs cut (if c.progress.k = 0 then s.now else c.progress.k - 1) = false →
      let v := (cut.foldl (fun s x => s.drainAtomn x.1 x.2.1) u).drainOrphans cores.contains
      let v := cores.foldl (fun s k => s.release k scope) v
      let v := cores.foldl (fun s k => s.acquire k scope) v
      exec (.fencerComplete a) s = .next (ended (.fencer e) (some e) c s ((v.widenRecords (c.space v) scope).bumpSfr c))) ∧
    (let h := c.handle e.a9.toNat
     c.act true e.pg e.pn ≠ 0 →
     (∀ o at' ms k t, Claims.WaitsIn s a c (.wswait e) n → checkOps [sDst c e.d9.toNat, sRun c e.a9.toNat] = none →
      let v := u.expireDue
      v.handleFault c h [4] 0 false = none → v.named h = some o → o.body = .wset at' ms →
      v.readyMember ms = some (k, t) → v.firstInLine c .wset h [] = true →
      exec (.kernelObjectWake a) s = .next (endedRegion (.wswait e) (some e) c s
        (Claims.answer e c (v.consumeMember h k ms) (kernResult 0 k (ms.getD k 0).toNat)))) ∧
     (∀ ops cap st m rest rs vals v₀ r v, Claims.WaitsIn s a c (.precv e) n → Claims.kernOf e c (.precv e) = some ops →
      checkOps ops = none → let at' := (c.sVal e.b9.toNat).toNat
      at' % 64 = 0 → u.handleFault c h [3, 7] 0 false = none → u.port? h = some (cap, st, m :: rest, rs) → m.grants = [] →
      u.firstInLine c .recv h [] = true →
      (∀ q ∈ s.league.reqs, q.of c.w.id.handle (c.who.half + 4) c.path.mask = false) → Claims.posted c 0 [] u = (.ok vals, v₀) →
      let v₀ := v₀.dropEngReqs c.w.id.handle (c.who.half + 2)
      v₀.storePieces (c.space v₀) c.w.id.handle (c.who.half + 4) ((lowest c.path.mask).getD 0) 0
        (piecesOf at' (m.bytes.take 64)) = (.ok r, v) →
      exec (.kernelObjectWake a) s = .next (endedRegion (.precv e) (some e) c s (Claims.answer e c
        (((v.setPort h rest rs).serveRemote 64 h).acquire c.who.core 4) (kernResult 0 0 0)))) ∧
     (∀ ops vals v cap st ms rs, Claims.WaitsIn s a c (.psend e) n → Claims.kernOf e c (.psend e) = some ops →
      checkOps ops = none → let at' := (c.sVal e.b9.toNat).toNat
      e.m 1 3 = 0 → at' % 64 = 0 → u.handleFault c h [3, 7] 0 true = none → u.rport? h = none →
      Claims.posted c 0 [(at', 64)] u = (.ok vals, v) →
      let v := v.dropEngReqs c.w.id.handle (c.who.half + 2)
      v.rport? h = none → v.port? h = some (cap, st, ms, rs) → ms.length < cap → v.firstInLine c .send h rs = true →
      v.hasReqs c.w.id.handle = false →
      let t := (v.orderAtomn c true [] 0).releaseBy (c.space v) 4
      let t := t.takePages (v.rootAt (hIndex (c.process v)))
        (match t.process? (c.process v) with | some (x, _, _, _) => x | none => 0) []
      let t := t.setPort h (ms ++ [⟨t.now, slotBytes (granBytes vals at' 64) (hIndex (c.process v)) []⟩]) rs
      exec (.kernelObjectWake a) s = .next (endedRegion (.psend e) (some e) c s
        (Claims.answer e c (t.serveRemote 64 h) (kernResult 0 0 0))))) ∧
    (∀ rest, Claims.WaitsIn s a c (.pwracq e) n → a.slot = 0 → s.tokWait = .agent a.core :: rest →
      s.agentWait a.core (fun i => match i with | .pwracq _ => true | _ => false) = some a →
      checkOps [sDst c e.d9.toNat, uOpOk c e.lit e.a9.toNat] = none →
      let k := (c.uVal e.lit 8 e.a9.toNat).toNat
      k ≠ 0 → k ≤ poolSize s.board.watts → k ≤ s.poolFree →
      let v := State.addHeld { u with tokWait := rest, poolFree := s.poolFree - k } a.core k true
      exec .tokenGrant s = .next (ended (.pwracq e) (some e) c s
        (v.put c (writeS c (v.mine c) e.d9.toNat (BitVec.ofNat 64 ((s.poolFree - k) % 256)))))) ∧
    (Claims.WaitsIn s a c (.idle e) n → a.slot = 0 →
      s.agentWait a.core (fun i => match i with | .idle _ => true | _ => false) = some a →
      let d := e.d9.toNat
      checkOps [OpOk.when (scalarOk c.w d && scalarOk c.w (d + 1) && d % 2 == 0 && d != 320), sRun c e.a9.toNat] = none →
      let ev := s.latchedAt a.core (c.sVal e.a9.toNat).toNat
      ev ≠ 0 → let v := u.updCore a.core fun k => { k with latched := 0 }
      ((s.core a.core).sigQ = [] → exec (.idleWake a.core) s = .next (ended (.idle e) (some e) c s
        (v.put c (writeS c (v.mine c) d (BitVec.ofNat 64 ev))))) ∧
      (∀ payload src rest, (s.core a.core).sigQ = (payload, src) :: rest →
        let t := ((v.updCore a.core fun k => { k with sigQ := rest }).acquire a.core 4).bumpSfr c
        exec (.idleWake a.core) s = .next (ended (.idle e) (some e) c s
          (t.put c (writeS c (writeS c (t.mine c) d (BitVec.ofNat 64 (ev + 256 * src.toNat))) (d + 1) payload)))))

/-- Wakes: the events that let splits go on execute the instruction the split waits in, one that still has to wait staying as it
was; tokens go to the head waiter, IDLE returns at its core (R157, R185, R211, R229, R297, R374). -/
def Sys2Proof.Claims.WakeEvents : Prop :=
  (∀ (a : Who) (e : Ext), Claims.Wakes (.cwaitSatisfied a) (.cwait e) a (some e) (cwaitBody e) ∧
    Claims.Wakes (.fullEmptyWake a) (.ldlExt e) a (some e) (ldlBody (.ldlExt e) (Ext.loadArgs e)) ∧
    Claims.Wakes (.fullEmptyWake a) (.stlExt e) a (some e) (stlBody (.stlExt e) (Ext.storeArgs e)) ∧
    Claims.Wakes (.fencerComplete a) (.fencer e) a (some e) (fencerBody e) ∧
    Claims.Wakes (.kernelObjectWake a) (.psend e) a (some e) (psendBody e) ∧
    Claims.Wakes (.kernelObjectWake a) (.precv e) a (some e) (precvBody e) ∧
    Claims.Wakes (.kernelObjectWake a) (.wswait e) a (some e) (wswaitBody e)) ∧
  Claims.WaitsEnd

/-- One split of the wave w in a slot waits in a VGROW that f admits, at the top of its half's empty stack, where no loop ends:
the split c, in VGROW e. -/
def Sys2Proof.Claims.OnlyGrower (u : State) (core slot : Nat) (w : Wave) (c : Ctx) (f : Instr → Bool) (e : Ext) : Prop :=
  c.who.core = core ∧ c.who.slot = slot ∧ c.who.path = 0 ∧ u.ctx? c.who = some c ∧ c.path.growing f = some e ∧
    (∀ h ∈ w.halves, h.stack = [] ∧ h.innermost = none) ∧
    ∀ k h, w.halves[k]? = some h → k ≠ c.who.half → h.base.growing f = none

/-- Register blocks and barriers: a free block goes to the head request, zeroed and without an error, and the split that waits
for it completes its VGROW with its predicate set, but where a block of that name of the wave still drains (log 107); where every
user wave is blocked in VGROW, none is being saved and nothing drains, the youngest wave's requests fail, whatever the pool holds
(log 81), and its VGROW completes with its predicate clear; an extended block that has drained returns to the pool; a barrier's
phase completes once every member has arrived and its credits have completed, and one behind does nothing (R55, R57 to R60,
R324). -/
def Sys2Proof.Claims.BlockPoolEvents : Prop :=
  (∀ (s : State) (core n : Nat) (q : PoolReq) (qs : List PoolReq) (w : Wave), (s.core core).poolQ = q :: qs →
    (s.core core).pool = n + 1 → s.wave? core q.slot = some w →
    let v : Wave := { w with
      hold := w.hold ||| BitVec.ofNat 4 (2 ^ (q.blk - 1))
      regs := { w.regs with v := w.regs.v.filter fun x => x.1 / 64 ≠ q.blk }
      badRegs := w.badRegs.filter fun k => k / 64 ≠ q.blk }
    let u := (s.updCore core fun r => { r with poolQ := qs, pool := n }).setWave core q.slot v
    (⟨q.slot, q.blk⟩ ∈ (s.core core).draining → exec (.vgrowGrant core) s = .next s) ∧
    (⟨q.slot, q.blk⟩ ∉ (s.core core).draining →
      ((∀ h ∈ w.halves, ∀ p ∈ h.base :: h.stack.flatMap (·.paths), p.growing (waitsBlk q.blk) = none) →
        exec (.vgrowGrant core) s = .next u) ∧
      ∀ e c, Claims.OnlyGrower u core q.slot w c (waitsBlk q.blk) e →
        exec (.vgrowGrant core) s = .next (ended (.vgrow e) (some e) c u
          (u.put c (v.setP (e.d9.toNat - 416) allLanes allLanes))))) ∧
  (∀ (s : State) (core : Nat) (d : Drain), (s.core core).draining.find? (s.drained core) = some d →
    ∃ t, exec (.blockDrainDone core) s = .next t ∧ (t.core core).draining = (s.core core).draining.erase d ∧
      (t.core core).pool = (s.core core).pool + (if d.blk = 0 then 0 else 1) ∧ (t.core core).waves = (s.core core).waves) ∧
  (∀ (s : State) (core slot : Nat) (w : Wave), (s.core core).draining = [] →
    (∀ x ∈ (s.core core).waves, x.1 ≠ 0 → x.2.stopping = false ∧ s.vgrowBlocked core x.1 x.2 = true) →
    s.wave? core slot = some w → slot ≠ 0 →
    (∀ x ∈ (s.core core).waves, x.1 ≠ 0 → x.1 ≠ slot → x.2.id.made < w.id.made) →
    ((s.core core).waves.map (·.1)).Nodup →
    let u := s.updCore core fun r => { r with poolQ := r.poolQ.filter fun q => q.slot ≠ slot }
    ∀ e c, Claims.OnlyGrower u core slot w c (fun _ => true) e →
      exec (.vgrowDeadlockBreak core) s = .next (ended (.vgrow e) (some e) c u
        (u.put c (w.setP (e.d9.toNat - 416) allLanes 0)))) ∧
  (∀ (s : State) (blk level : Nat) (b : Block) (l : Launch), s.block? blk = some b → s.launch? b.launch = some l →
    let key := l.barKey level b.ticket
    level < l.nlvl → Level.bar (l.level level) = true → Level.domain (l.level level) ≠ 5 →
    exec (.barrierPhaseComplete blk level) s = .next (if s.barDone b.launch level key then s.nextPhase b.launch key else s))

/-- Traps: a halted agent restarts with one ready split at KTVEC; the firmware agent takes the oldest user record of a
wave that stands where it can be saved, writes the wave's image with its waits given up, and makes a handler wave, or, with no
handler entry, the wave that trapped ends as under TERMINATE; a handler's own record ends the handler and the wave it handled. A
wave that cannot be saved yet only asks back what it holds at full ports (R229, R254 to R258). -/
def Sys2Proof.Claims.AgentEvents : Prop :=
  (∀ (s : State) (core : Nat) (w : Wave), (s.core core).agentHalted = true → s.wave? core 0 = some w →
    let tv : Dword := (0 : BitVec 12) ++ (s.core core).ctl.ktvec ++ (0 : BitVec 6)
    ∃ t w', exec (.agentRestart core) s = .next t ∧ (t.core core).agentHalted = false ∧
      (t.core core).trapQ = (s.core core).trapQ ∧ t.wave? core 0 = some w' ∧ w'.traps = 0 ∧
      w'.halves = [Half.fresh tv (slotZeroLanes core) false] ∧ w'.regs = w.regs ∧ ∀ j, j ≠ 0 → t.wave? core j = s.wave? core j) ∧
  (∀ (s : State) (core : Nat) (r : TrapRec) (rs : List TrapRec), (s.core core).trapQ = r :: rs → r.privileged = false →
    core ≠ mgmtCore →
    (s.deliverable r = false → exec (.trapRecordDelivery core) s = .next (s.askBack r.wave)) ∧
    (s.deliverable r = true →
    let u := s.updCore core fun k => { k with trapQ := rs }
    let v := u.keepImage r.wave
    (r.ofW = none →
      let trap := match v.process? r.proc with | some (_, _, t, _) => t | none => 0
      (trap = 0 → exec (.trapRecordDelivery core) s = .next (v.handlerDone r 0)) ∧
      (trap ≠ 0 →
        let made := v.makeWave ⟨r.proc, r.sc, trap, [r.wave.setWidth 64, r.code, r.pc, r.addr, r.region, 0, 0], 0, 1,
          clusterOf r.core, r.core, .handler, some r⟩
        (made = none → exec (.trapRecordDelivery core) s = .next (v.handlerDone r 0)) ∧
        ∀ h x, made = some (h, x) → exec (.trapRecordDelivery core) s = .next x)) ∧
    (∀ h blk, r.ofW = some (h, blk) → exec (.trapRecordDelivery core) s = .next
      ((if (u.waveOf r.wave).isSome then u.endHandle r.wave else u).terminateW h blk))))

/-- The memory, wait, register-block, barrier and trap events do what the manual gives them; the waits of CWAIT, of the full-empty
forms, FENCER, the kernel objects, PWRACQ and IDLE complete once the state holds what they wait for (R58 to R60, R157, R185 to
R188, R207, R211, R254 to R258, R297, R321, R324, R374).
Where the manual is open it says what the model does: notes/assumptions 9, 14, 15, 18, 37, 43, 50, 72, 73, 81, 88, 96, 107 (that
the first atomic of an ATOMN opens the wave's next region is log 37; that VGROW_DEADLOCK_BREAK does not look at the pool is log
81). -/
def Obligations.MemoryWaitAndTrapEvents : Prop :=
  Claims.MemoryEvents ∧ Claims.WakeEvents ∧ Claims.BlockPoolEvents ∧ Claims.AgentEvents


/-- The matrix FIFO. An MMA at the head, its reservations granted and its tiles free, reads its operands and holds the
accumulator it will leave, or ends in the error that it meets in them; its completion writes that accumulator with the result tag. ACCZ, ACCWR and the two TILEMV execute
and complete at the head in one event. An entry without a counter then makes its channel dones, gives up its barrier credits and
leaves the FIFO (R142 to R146, R154). -/
def Sys2Proof.Claims.MatrixEvents : Prop :=
  (∀ (s : State) (core : Nat) (x : Cmd) (m ty : Nat), s.fifoHead core = some x → x.mma? = some (m, ty) →
    (s.mmaError core x m = none →
      exec (.mmaExecute core) s = .next (s.updCmd core x.id fun y => { y with st := .fired, buf := s.mmaResult core x m ty })) ∧
    (∀ a, s.mmaError core x m = some a → exec (.mmaExecute core) s = .next (s.engineFault core x a))) ∧
  (∀ (s : State) (core : Nat) (x : Cmd) (xs : List Cmd) (m ty k : Nat), (s.core core).fifo = x :: xs → x.mma? = some (m, ty) →
    x.st = .fired → s.msetOf core x.poster.blk = some k →
    let a := bits m 1 0
    exec (.mmaComplete core) s = .next (State.endEntry (s.updMSet core k fun q => MSet.executed
      { q.renewed (8 + a) with accs := (List.range 16384).foldl (fun t n => Sparse.set 0 t (16384 * a + n) (BitVec.ofNat 32 (field x.buf (4 * n) 4))) q.accs }
      (8 + a) (resultTag ((mulFmt ty (bits m 12 12)).getD 13))) core x)) ∧
  (∀ (s : State) (core : Nat) (x : Cmd) (k : Nat) (e : Ext), s.fifoHead core = some x → s.msetOf core x.poster.blk = some k →
    (x.ins = .accz e → exec (.acczExecute core) s = .next (State.endEntry (s.updMSet core k fun m => MSet.executed
      { m.renewed (8 + e.m 0 2) with accs := m.accs.filter fun z => z.1 / 16384 ≠ e.m 0 2 } (8 + e.m 0 2) (if e.ty = 4 then 2 else 1)) core x)) ∧
    (x.ins = .accwr e →
      let at' := 16384 * e.m 0 2 + 128 * ((x.scal.getD 4 0).toNat % 128)
      let a := x.regs.getD 0 VReg.zero
      let b := x.regs.getD 1 VReg.zero
      exec (.accwrExecute core) s = .next (State.endEntry (s.updMSet core k fun m => MSet.executed
        { m with accs := (lanesOf x.act).foldl (fun t l => Sparse.set 0 (Sparse.set 0 t (at' + l) (BitVec.ofNat 32 (lane a.data l)))
          (at' + 64 + l) (BitVec.ofNat 32 (lane b.data l))) m.accs } (8 + e.m 0 2) a.tag) core x)) ∧
    (∀ d r, x.desc 2 0 = some (d, r) → x.ins = .tilemvLd e → s.operandError core (s.mset core k) (some (d, r)) 0 = none →
      exec (.tilemvLdExecute core) s = .next (State.endEntry (s.updMSet core k fun m => MSet.executed
        { m.renewed (e.m 0 3) with tiles := (List.range 16384).foldl (fun t n => Sparse.set 0 t (16384 * e.m 0 3 + n)
          (s.operandByte core m (some (d, r)) 0 (n / 128) (n % 128))) m.tiles } (e.m 0 3)
        (tagOf ((mulFmt e.ty.toNat (e.m 12 1)).getD 13))) core x)) ∧
    (∀ d, x.desc 2 0 = some d → x.ins = .tilemvSt e → e.m 0 3 ∉ (s.mset core k).bad →
      exec (.tilemvStExecute core) s = .next (State.endEntry ((List.range 128).foldl (fun u i => (List.range 8).foldl (fun u c =>
        let at' := u.operandChunk core d i c
        u.engSpad at'.1 at'.2.1 ((List.range 16).map fun b =>
          Sparse.get 0 (s.mset core k).tiles (16384 * e.m 0 3 + 128 * i + 16 * c + b))) u) s) core x))) ∧
  (∀ (s : State) (core : Nat) (x : Cmd) (e : Ext), (x.ins = .mma e ∨ x.ins = .accz e ∨ x.ins = .accwr e ∨ x.ins = .tilemvLd e ∨
      x.ins = .tilemvSt e) → Ext.cmpl e ≠ 2 →
    ∃ u : State, u.cores = (s.dones core x).cores ∧ u.mem = s.mem ∧ u.host.blocks = s.host.blocks ∧
      (∀ l ∈ u.host.launches, ∀ b ∈ l.2.bars, ∀ c ∈ b.2.credits, c.2.1 ≠ x.id) ∧
      s.endEntry core x = u.dropCmd core x.id x.poster.blk) ∧
  -- a signed 8-bit product of two tiles: each element gains the dot product of its rows, modulo 2^32 (R131)
  (∀ (zs : Bool) (sa sb : List VReg) (a b i j acc : Nat), acc < 2 ^ 32 →
    mmaElem 11 11 zs sa sb a b i j acc = ofInt 32 ((acc : Int) +
      ((List.range 128).map fun k => asInt 8 (elem 8 k a) * asInt 8 (elem 8 k b)).sum))

/-- The copy queue and channels. The first queued copy, its reservations granted, acquires where it orders so and reads its
data; landed data is written and the command goes on to its release, its dones and its counter; a follow-on MMA enters the
FIFO with the copy's tail while there is room; a collective's result is written to each participant, and the participants of a
shuffle that disagree all fail; a channel grants its first waiting reservation that can be (R148, R152, R153, R155, R156, R346,
R347, R372). -/
def Sys2Proof.Claims.CopyEvents : Prop :=
  (∀ (s v : State) (core : Nat) (x : Cmd) (e : Ext) (vals : List (Nat × Nat)), s.copyHead core = some x →
    let u := if x.order.1 % 2 = 1 then s.acquire core x.order.2 else s
    let h := engHandle core
    let land (bs : List Byte) (v : State) : State :=
      (v.dropEngReqs h (x.id + 2)).updCmd core x.id fun y => { y with st := .landed, buf := bs }
    (x.ins = .cpy e →
      let sh := shapeOf x.record
      let els := (List.range sh.count).map (copyElem sh (coords x.scal))
      (∀ el ∈ els, ∀ a, el ≠ .bad a) →
      u.fetchNeed (u.engSpace core x) h (x.id + 2) x.order.2 (els.filterMap fun el => match el with
        | .at' a => some (a, sh.es) | _ => none) = (.ok vals, v) →
      exec (.copyFire core) s = .next (land (swizzle sh (els.flatMap fun el => match el with
        | .at' a => granBytes vals a sh.es | _ => List.replicate sh.es 0)) v)) ∧
    (x.ins = .gthr e →
      let g := gthrShape (x.scal.getD 6 0).toNat
      let idx := (List.range g.1).map fun m => ((x.scal.getD 4 0).toNat + 4 * m) % 2 ^ 64
      let at' (k : Nat) : Nat := ((x.scal.getD 2 0).toNat + k * g.2.2) % 2 ^ 64
      u.fetchNeed (u.engSpace core x) h (x.id + 2) x.order.2 (idx.map fun a => (a, 4)) = (.ok vals, v) →
      let rows := idx.map fun a => leNat (granBytes vals a 4)
      ∀ vals' v', v.fetchNeed (v.engSpace core x) h (x.id + 2) x.order.2
          (rows.filterMap fun k => if k = 2 ^ 32 - 1 then none else some (at' k, g.2.1)) = (.ok vals', v') →
        exec (.gatherFire core) s = .next (land (rows.flatMap fun k =>
          if k = 2 ^ 32 - 1 then List.replicate g.2.1 0 else granBytes vals' (at' k) g.2.1) v'))) ∧
  (∀ (s u : State) (core n : Nat) (x : Cmd) (e : Ext), s.copyCmd core n = some x → x.st = .landed → s.landData core x = .ok u →
    (x.ins = .cpy e → exec (.copyComplete core n) s = .next (u.releaseCmd core x)) ∧
    (x.ins = .gthr e → exec (.gatherComplete core n) s = .next (u.releaseCmd core x))) ∧
  (∀ (s : State) (core : Nat) (x : Cmd), (s.core core).fifo.length < 64 →
    (s.core core).copyq.find? (fun x => x.st == .written && (match x.ins with | .cpy _ => true | _ => false)) = some x →
    bits (x.scal.getD 1 0).toNat 2 2 = 0 → bits (x.scal.getD 1 0).toNat 6 6 = 0 →
    ∃ t, exec (.followOnMmaEntry core) s = .next t ∧
      (t.core core).fifo = (s.core core).fifo ++ [{ x with n := s.next, follow := true, st := .queued, resv := [], buf := [] }] ∧
      (t.core core).copyq = (s.core core).copyq.filter (fun z => z.id ≠ x.id)) ∧
  (∀ (s v : State) (core n : Nat) (x : Cmd) (e : Ext) (vals : List (Nat × Nat)), s.copyCmd core n = some x → x.ins = .coll e →
    x.st = .written → x.collOp ≤ 2 → (∀ r ∈ s.league.reqs, r.under (engHandle core) (x.id + 2) = false) →
    s.storePieces (s.engSpace core x) (engHandle core) (x.id + 2) 0 x.order.2 (piecesOf (collOf x.record).dst x.buf) = (.ok vals, v) →
    let u := v.dropEngReqs (engHandle core) (x.id + 2)
    exec (.collComplete core n) s = .next (State.releaseCmd (match x.poster.blk with
      | some b => u.updBlock b fun k => { k with idem := false } | none => u) core x)) ∧
  (∀ (s : State) (core n : Nat) (x : Cmd), s.copyCmd core n = some x → (∃ e, x.ins = .coll e) → x.st = .landed → 2 < x.collOp →
    s.collLanded x = true → s.collDiffers x = true → exec (.collComplete core n) s =
      .next ((s.collPeers x).foldl (fun s p => s.engineFault p.1 p.2 0) s)) ∧
  (∀ (s : State) (core ch : Nat) (k : Chan) (r : Resv), s.chan? core ch = some k → k.resv = [r] → r.granted = false →
    (k.grantable r = false → exec (.channelReservationGrant core ch) s = .next s) ∧
    (r.wave = none → k.grantable r = true → exec (.channelReservationGrant core ch) s =
      .next (s.updChan core ch fun k => k.grant r.put r.num)) ∧
    (∀ a c e n, r.wave ≠ none → k.grantable r = true → s.reserveWaiter core k.holder ch r = some a → s.ctx? a = some c →
      (r.put = true → c.path.wait = .on (.chputRes e) n → c.waiting = some (.chputRes e) →
        ∀ v, reserveBody (.chputRes e) true e c (s.updPath c fun p => { p with wait := .ready }) = .nextR v →
          exec (.channelReservationGrant core ch) s = .next (endedRegion (.chputRes e) (some e) c s v)) ∧
      (r.put = false → c.path.wait = .on (.chgetWait e) n → c.waiting = some (.chgetWait e) →
        ∀ v, reserveBody (.chgetWait e) false e c (s.updPath c fun p => { p with wait := .ready }) = .nextR v →
          exec (.channelReservationGrant core ch) s = .next (endedRegion (.chgetWait e) (some e) c s v)))) ∧
  (∀ (k : Chan) (r : Resv), k.resv = [r] → (k.grant r.put r.num).resv = [{ r with granted := true }] ∧
    (k.grantable r = if r.put then decide (r.num / k.p / k.n ≤ ((k.slots.getD (r.num / k.p % k.n) ⟨0, 0, 0, 0⟩).empties))
      else decide (r.num / k.c / k.n + 1 ≤ ((k.slots.getD (r.num / k.c % k.n) ⟨0, 0, 0, 0⟩).fills))))

/-- The events of the matrix engine, the copy engine and the channels do what the manual gives them (R131, R142 to R149, R152
to R156, R346, R347, R372).
Where the manual is open it says what the model does: notes/assumptions 13, 30, 42 to 45. -/
def Obligations.EngineEvents : Prop := Claims.MatrixEvents ∧ Claims.CopyEvents


/-- Timers and contexts. A due timer counts one expiry for each of its deadlines that has passed, at most 255, and re-arms at its
period or is disarmed; a period's release, the last of those due, refills the budget, sets the deadline and lifts a suspension; a
budget that has run out suspends its context, queues OVERRUN with its index and wakes the management core, once; the context's
waves of no block leave at once where they can be saved, else at their next boundary, and its placed blocks must leave, without
draining (R240, R241). -/
def Sys2Proof.Claims.TimerEvents : Prop :=
  (∀ (s : State) (i d p n r : Nat) (o : Obj), s.obj? i = some o → o.body = .timer d p n r →
    ∃ t, exec (.timerExpiry i) s = .next t ∧ t.cores = s.cores ∧ t.mem = s.mem ∧ (∀ j, j ≠ i → t.obj? j = s.obj? j) ∧
      let k := if p = 0 then 1 else (s.now - d) / p + 1
      let next := if p = 0 then 2 ^ 64 - 1 else min (d + k * p) (2 ^ 64 - 1)
      t.obj? i = some (if d ≤ s.now ∧ d ≠ 2 ^ 64 - 1 then { o with body := .timer next p (min 255 (n + k)) (if n = 0 then d else r) }
        else o)) ∧
  (∀ (s : State) (i p b d dl left idx r k : Nat) (u : Bool) (o : Obj), s.obj? i = some o → o.body = .sctx p b d dl left idx r k u →
    ∃ t, exec (.scPeriodRelease i) s = .next t ∧ t.cores = s.cores ∧ (∀ j, j ≠ i → t.obj? j = s.obj? j) ∧
      let n := (s.now - r) / p
      t.obj? i = some (if r ≤ s.now then
        { o with body := .sctx p b d (r + n * p + d) b idx (r + (n + 1) * p) (k + n + 1) false } else o)) ∧
  (∀ (s : State) (i p b d dl left idx r k : Nat) (u : Bool) (o : Obj), s.obj? i = some o → o.body = .sctx p b d dl left idx r k u →
    let h := mkHandle 6 o.gen i
    let susp := s.setObj i { o with body := .sctx p b d dl 0 idx r k true }
    let v := if u then s else State.updCore { susp with kern := { susp.kern with overruns := susp.kern.overruns ++ [idx] } } mgmtCore
      fun q => { q with latched := q.latched ||| 32 }
    let ws := (v.createdOn (v.cores.map (·.1))).filter fun x => x.2.2.id.sc == h
    let leaves (t : State) (x : Nat × Block) : State :=
      if x.2.st = .placed && t.blockSc x.2 == h && x.2.leaving != some true then t.mustLeave x.1 true else t
    (left ≠ 0 → exec (.scBudgetExhausted i) s = .next s) ∧
    (left = 0 → (u = false → v.kern.overruns = s.kern.overruns ++ [idx] ∧
        v.obj? i = some { o with body := .sctx p b d dl 0 idx r k true } ∧ (∀ j, j ≠ i → v.obj? j = s.obj? j) ∧
        (v.core mgmtCore).latched = (s.core mgmtCore).latched ||| 32) ∧
      (ws = [] → s.host.blocks = [] → exec (.scBudgetExhausted i) s = .next v) ∧
      (∀ core slot w, ws = [(core, slot, w)] → s.host.blocks = [] → exec (.scBudgetExhausted i) s =
        .next (if v.stoppable core slot then v.evict core slot else v.haltWave core slot)) ∧
      (∀ n q, ws = [] → s.host.blocks = [(n, q)] → q.st = .placed → v.blockSc q = h → q.leaving ≠ some true →
        ∃ t, exec (.scBudgetExhausted i) s = .next t ∧ t.block? n = some { q with leaving := some true, drainUntil := none } ∧
          (t.core q.core).latched = (v.core q.core).latched ||| 2) ∧
      ∃ t, (ws.foldl (fun t x => t.evictSoon x.1 x.2.1) v = t) ∧
        exec (.scBudgetExhausted i) s = .next (t.host.blocks.foldl leaves t)))

/-- The kernel unit. Its choice is an entry that a core of the cluster can take, of the funded context of the earliest
deadline, lowest index first, among those with such an entry; a core that can take it then does: a wave is refilled into a free
slot, a saved block restored whole; where there is none, a slot is freed for the first entry that one can be freed for (R232, R233, R459). -/
def Sys2Proof.Claims.DispatchEvents : Prop :=
  (∀ (s : State) (cl : Nat) (x : BitVec 32 ⊕ Nat) (cores : List Nat), s.chosen cl = some (x, cores) →
    (∀ k, k ∈ cores ↔ k ∈ clusterCores cl ∧ s.canTake x k = true) ∧ ∃ dl i, (dl, i) ∈ s.funded ∧ x ∈ s.entries cl i ∧
      ∀ dl' i' y, (dl', i') ∈ s.funded → y ∈ s.entries cl i' → (∃ k ∈ clusterCores cl, s.canTake y k = true) →
        dl < dl' ∨ (dl = dl' ∧ i ≤ i')) ∧
  (∀ (s : State) (cl : Nat), let u := s.evictHalted.joinLists
    (∀ x cores, u.chosen cl = some (x, cores) → u.anyOf cores ∈ cores ∧
      exec (.kernelDispatch cl) s = .next ({ u with free := u.free + 1 }.takeEntry x (u.anyOf cores))) ∧
    (u.chosen cl = none → u.ordered cl = [] → exec (.kernelDispatch cl) s = .next u) ∧
    (∀ dl x rest core slot, u.chosen cl = none → u.ordered cl = (dl, x) :: rest →
      let cores := (clusterCores cl).filter (u.mayRun x)
      (∀ y ∈ u.createdOn cores, y.2.2.stopping = false) → u.victim cores dl = some (core, slot) →
      exec (.kernelDispatch cl) s = .next (u.evictSoon core slot))) ∧
  (∀ (s u : State) (core slot : Nat) (h : BitVec 32) (cores : List Nat) (o : Obj) (a : BitVec 64) (rd : Nat)
      (at' : Option (Nat × Nat)) (w : Option Wave) (id : Option WaveId) (e : Option Nat) (v : Option TrapRec),
    s.chosen (clusterOf core) = some (.inl h, cores) → core ∈ cores → s.anySlot core = some slot → s.named h = some o →
    o.body = .wave a rd at' w id e v →
    (s.unqueue (.inl h)).loadIn core slot h (s.bytes a.toNat (imageSize (holdCount (headerHold (s.num a.toNat 8))))) = some u →
    exec (.waveRefill (hIndex h) core) s = .next u) ∧
  (∀ (s : State) (core : Nat), let free (k : Nat) : Prop := 1 ≤ k ∧ k < 32 ∧ s.wave? core k = none ∧
      ∀ d ∈ (s.core core).draining, d.slot = k → d.blk ≠ 0
    (∀ slot, s.anySlot core = some slot → free slot) ∧ ((∃ k, free k) → (s.anySlot core).isSome = true)) ∧
  (∀ (s : State) (core blk : Nat) (cores : List Nat) (b : Block), s.chosen (clusterOf core) = some (.inr blk, cores) →
    core ∈ cores → s.block? blk = some b → b.st = .saved →
    exec (.blockRestore blk core) s = .next ((s.unqueue (.inr blk)).restoreBlock blk core))

/-- Placement and pre-emption. The agent of a core of a running launch that has room first waits while its core is hot, for as
many claims of others as its thermal weight and no more than 1 us, then takes the next ticket of its unit; the ticket's block is
placed, or waits in line for its power tokens; past the last ticket the agent stops. A core whose waves have not issued for the length of its window in progress, while a block waits that could then run, must give up its idlest
block; the agent drains, flushes or saves a block that must leave, as its hint, its idempotence and its age say, a trapped one
being saved, its waves held at their next boundary until all stand at one; at the drain limit it chooses again, not to drain (R47, R262 to R265, R268, R296, R297). -/
def Sys2Proof.Claims.BlockEvents : Prop :=
  (∀ (s : State) (core li : Nat) (l : Launch), s.launch? li = some l →
    let unit := l.counterOf core
    let c := s.counter li unit
    let bound := l.bound s.peer.toNat unit c
    let blk : Block :=
      { launch := li, ticket := bound.2, core := core, st := .claimed, waves := [], spadBase := 0, spadLen := 0, mset := none, tokens := 0
        idem := l.idem, placedAt := s.now, enq := s.now, drainUntil := none, leaving := none, slots := [], engErr := false
        engHeld := 0, faulted := false, image := none }
    let goes : Prop := l.st = .running ∧ core ∈ l.cores ∧ core ∉ l.stopped ∧ s.claiming core = false ∧
      s.placeRoom l core = true ∧ s.roomFor l.waves = true
    let own := l.waits.find? fun x => x.core = core
    let u := ((s.release core 4).setNum (counterAddr li unit) 8 (c + 1)).acquire core 4
    let tick (x : ClaimWait) : ClaimWait := if l.counterOf x.core = unit then { x with left := x.left - 1 } else x
    let u := u.updLaunch li fun l => { l with waits := (l.waits.filter fun x => x.core ≠ core).map tick }
    let v := { u with host := { u.host with nextBlock := u.host.nextBlock + 1, blocks := Sparse.put u.host.nextBlock blk u.host.blocks } }
    let now : Prop := (own = none ∧ s.thermalWeight core = 0) ∨ ∃ x, own = some x ∧ (x.left = 0 ∨ x.since + 1000 ≤ s.now)
    (¬goes → exec (.blockPlacement core li) s = .next s) ∧
    (goes → own = none → s.thermalWeight core ≠ 0 → exec (.blockPlacement core li) s =
      .next (s.updLaunch li fun l => { l with waits := l.waits ++ [⟨core, s.thermalWeight core, s.now⟩] })) ∧
    (goes → own ≠ none → ¬now → exec (.blockPlacement core li) s = .next s) ∧
    (goes → now → bound.1 ≤ c →
      exec (.blockPlacement core li) s = .next (u.updLaunch li fun l => { l with stopped := core :: l.stopped })) ∧
    (goes → now → c < bound.1 → exec (.blockPlacement core li) s =
      .next (if l.mstate && !v.tokensFree l.tokens then { v with tokWait := v.tokWait ++ [.block u.host.nextBlock] }
        else v.placeBlock l u.host.nextBlock core))) ∧
  (∀ (s : State) (core blk : Nat), s.idlest core = some blk →
    let fits := (s.waitingBlocks (clusterOf core)).any fun w => (s.without blk).blockFits w core
    let late := (s.core core).lastIssue + (s.core core).winNs
    (late ≤ s.now → (s.core core).swapping = none → fits = true → exec (.progressWindowSwap core) s =
      .next ((s.mustLeave blk false).updCore core fun k => { k with swapping := some blk })) ∧
    (s.now < late ∨ (s.core core).swapping ≠ none ∨ fits = false → exec (.progressWindowSwap core) s = .next s)) ∧
  (∀ (s : State) (blk : Nat) (b : Block) (nd : Bool), s.block? blk = some b → b.st = .placed → b.leaving = some nd →
    (s.manner b nd = .drain → ∃ t b', exec (.preemptDrain blk) s = .next t ∧ t.block? blk = some b' ∧ b'.leaving = none ∧
      b'.drainUntil = some (s.now + 1000 * (s.core b.core).ctl.drain.toNat) ∧ b'.waves = b.waves ∧
      ∀ k w, s.wave? b.core k = some w → ∃ x, t.wave? b.core k = some { w with stopping := x }) ∧
    let held := (s.slotsOf b).foldl (fun s k => s.haltWave b.core k) s
    (s.manner b nd = .save → exec (.preemptSave blk) s = .next (if s.canLeave blk b then s.saveBlock blk else held)) ∧
    (s.manner b nd = .flush → exec (.preemptFlushRestart blk) s = .next (if s.canLeave blk b then s.flushBlock blk else held)) ∧
    (s.manner b nd ≠ .drain → exec (.preemptDrain blk) s = .next s) ∧ (s.manner b nd ≠ .save → exec (.preemptSave blk) s = .next s) ∧
    (s.manner b nd ≠ .flush → exec (.preemptFlushRestart blk) s = .next s)) ∧
  (∀ (s : State) (b : Block) (nd : Bool) (l : Launch), s.launch? b.launch = some l →
    let drain := 1000 * (s.core b.core).ctl.drain.toNat
    let age := s.now - b.placedAt
    s.manner b nd = if s.trappedIn b then .save
      else if l.hint ≠ 0 ∧ 1000 * l.hint - age ≤ drain ∧ nd = false then .drain
      else if b.idem = true ∧ age ≤ drain then .flush else .save) ∧
  (∀ (s : State) (blk t : Nat) (b : Block), s.block? blk = some b → b.st = .placed → b.drainUntil = some t →
    (s.now < t → exec (.drainLimitExpiry blk) s = .next s) ∧
    (t ≤ s.now → ∃ u b', exec (.drainLimitExpiry blk) s = .next u ∧ u.block? blk = some b' ∧ b'.leaving = some true ∧
      b'.drainUntil = none ∧ b'.waves = b.waves ∧ (u.core b.core).latched = (s.core b.core).latched ||| 2))

/-- The events of the timers, the scheduling contexts, the kernel units and the blocks do what the manual gives them (R47, R232,
R233, R240, R241, R262 to R265, R268, R296, R459).
Where the manual is open it says what the model does: notes/assumptions 26, 48, 54 to 58, 92 (the two steps of a placement, a wait
first and a claim later, none without room, are log 92; the counter's place is log 26). -/
def Obligations.SchedulingEvents : Prop := Claims.TimerEvents ∧ Claims.DispatchEvents ∧ Claims.BlockEvents


/-- Queue registers and packets. Writes while EN = 1, and sizes that are no ring size, are ignored; setting EN zeroes the ring
places; a tail admits the packets between, copied from the ring, or sets OVERFLOW and changes nothing else; QSTAT is W1C. A
NOP and a reserved or malformed packet finish at once, the latter with BADPKT; a wait packet starts, and finishes once its
record's bit 63 reads 1 (R291 to R293). -/
def Sys2Proof.Claims.QueueEvents : Prop :=
  ∀ (s : State) (fn q : Nat) (v : BitVec 64), s.hasQueue fn q = true →
    let k := s.queue fn q
    let n := v.toNat % 2 ^ 13
    let u := s.updQueue fn q fun k => { k with base := v }
    (k.en = true → exec (.qbaseWrite fn q v) s = .next s ∧ exec (.qsizeWrite fn q v) s = .next s ∧
      exec (.queueEnable fn q) s = .next s) ∧
    (k.en = false → (u.queue fn q).base = v ∧
      exec (.qbaseWrite fn q v) s = .next (if k.base = v then u else u.tdiError fn) ∧
      (ringSizeOk n = false → exec (.qsizeWrite fn q v) s = .next s) ∧
      (ringSizeOk n = true → ∃ t, exec (.qsizeWrite fn q v) s = .next t ∧ t.queue fn q = { k with size := n } ∧ t.mem = s.mem) ∧
      (ringSizeOk k.size = false → exec (.queueEnable fn q) s = .next s) ∧
      (ringSizeOk k.size = true → ∃ t, exec (.queueEnable fn q) s = .next t ∧ t.queue fn q =
        { k with en := true, tail := 0, devTail := 0, head := 0, pkts := k.pkts.map fun p => { p with ring := false } })) ∧
    (let w := v.toNat % 2 ^ 12
     let m := (w + k.size - k.devTail) % k.size
     (k.en = false → exec (.qtailWrite fn q v) s = .next s) ∧
     (k.en = true → w < k.size → (k.devTail + k.size - k.head) % k.size + m ≤ k.size - 1 →
      m ≤ 64 - k.pkts.countP (fun p => !p.finished) → ∃ t, exec (.qtailWrite fn q v) s = .next t ∧
        t.queue fn q = { k with tail := w, devTail := w, pkts := k.pkts ++ (List.range m).map fun i =>
          ⟨s.next + i, true, Sparse.range memDefault s.mem.host (k.base.toNat + 128 * ((k.devTail + i) % k.size)) 128, false, false, []⟩ }) ∧
     (k.en = true → (k.size ≤ w ∨ k.size - 1 < (k.devTail + k.size - k.head) % k.size + m ∨
      64 - k.pkts.countP (fun p => !p.finished) < m) → ∃ t, exec (.qtailWrite fn q v) s = .next t ∧
        t.queue fn q = { k with stat := k.stat ||| 1 })) ∧
    (∃ t, exec (.qstatClear fn q v) s = .next t ∧ t.queue fn q = { k with stat := k.stat &&& ~~~(v.setWidth 3) }) ∧
    (∀ p, k.startable = some p →
      (p.type = 0 → exec (.noopPacket fn q) s = .next (s.finishPkt fn q p.n)) ∧
      (p.type = 2 → s.waitOk fn p = true → exec (.waitPacket fn q) s = .next (s.updPkt fn q p.n fun p => { p with started := true })) ∧
      (3 ≤ p.type ∨ (p.type = 2 ∧ s.waitOk fn p = false) → exec (.reservedPacket fn q) s = .next (s.badPkt fn q p.n))) ∧
    (∀ p vs u, k.waiting = some p → p.parked = [] → s.procOf fn p.waitProc = true →
      s.devAccess (s.hostSpace p.waitProc) (queueHandle fn q) (p.n + 2) ⟨.read, 8, 1, 5, true, none⟩ ⟨0, p.waitAddr, 0, 0⟩ = (.ok vs, u) →
      exec (.waitPacketFinish fn q) s = .next (if elem 1 63 (valAt vs 0) = 1 then u.finishPkt fn q p.n else u))

/-- A write of BAR0 completes whatever its offset: at a queue's registers it is the write of that register, its CTRL going by
bit 0; at the mailbox it writes the request and rings the doorbell, an event of the management core's IDLE; at a fault buffer it pops a record or answers one; at the
window table it writes a word; a write that no register takes, of RES bits, of a read-only register, of another offset, of a
queue that does not exist, or one that is not aligned, changes nothing (R9, R11, R188, R274, R290, R291, R299, R374). -/
def Sys2Proof.Claims.RegisterWrites : Prop :=
  ∀ (s : State) (fn off : Nat) (v : BitVec 64),
    let writes (off : Nat) (t : State) : Prop := exec (.registerWrite fn off v) s = .next t
    (∃ t, writes off t) ∧
    (∀ q, s.hasQueue fn q = true →
      let k := s.queue fn q
      let u := s.updQueue fn q fun k => { k with base := v }
      let n := v.toNat % 2 ^ 13
      writes (0x30000 + 64 * q) (if k.en then s else if k.base = v then u else u.tdiError fn) ∧
      writes (0x30008 + 64 * q) (if k.en || !ringSizeOk n then s else s.updQueue fn q fun k => { k with size := n }) ∧
      exec (.registerWrite fn (0x30010 + 64 * q) v) s = exec (.qtailWrite fn q v) s ∧
      writes (0x30010 + 64 * q) (s.writeTail fn q (v.toNat % 2 ^ 12)) ∧
      writes (0x30018 + 64 * q) s ∧
      writes (0x30020 + 64 * q) (if v.getLsbD 0 then s.enableQueue fn q else s.updQueue fn q fun k => { k with en := false }) ∧
      exec (.queueEnable fn q) s = .next (s.enableQueue fn q) ∧
      writes (0x30028 + 64 * q) (s.updQueue fn q fun k => { k with stat := k.stat &&& ~~~(v.setWidth 3) })) ∧
    (off % 8 ≠ 0 ∨ (off % 8 = 0 ∧ 0x40 < off ∧ off < 0x10000) ∨ 0x31000 ≤ off ∨ (fn ≠ 0 ∧ off < 0x30000) ∨
      (0x30000 ≤ off ∧ off < 0x31000 ∧ s.hasQueue fn ((off - 0x30000) / 64) = false) → writes off s) ∧
    (fn = 0 →
      (off % 8 = 0 → off < 0x40 → writes off
        { s with boot := { s.boot with req := Sparse.setRange memDefault s.boot.req off (leBytes 8 v.toNat) } }) ∧
      writes 0x40 (if v = 1 then State.updCore { s with boot := { s.boot with doorbell := true } } mgmtCore
        (fun k => { k with latched := k.latched ||| 16 }) else s) ∧
      (s.boot.min = false →
        (∀ die, die < 4 → writes (0x10018 + 64 * die) (if v = 1 then s.fbpop die else s) ∧
          writes (0x10020 + 64 * die)
            (if v.getLsbD 16 then s.raiseRecord die (v.setWidth 16) else s.walkAgain die (v.setWidth 16))) ∧
        (∀ i w, i < 256 → w < 4 → writes (0x20000 + 32 * i + 8 * w) (s.windowWrite i w v))))

/-- Launches. A launch packet whose SIGNAL is misaligned is discarded; else its record is checked: a failed check ends it with
its status, and with none, on one die, it runs, or with a peer set sends its arrival. Its record, BLOCKS, STATUS and the time,
is written once it is over, no request of a wave or command that has ended is unanswered, the pending atomics of ended waves have
performed and the dirty copies of its cores are pushed; a peer set's exchange releases or refuses it, an answer after 20 ms coming too late, and time limits refuse it (R41, R43, R293 to R295,
R461). -/
def Sys2Proof.Claims.LaunchEvents : Prop :=
  (∀ (s : State) (fn q : Nat) (p : QPkt), s.hasQueue fn q = true → (s.queue fn q).startable = some p → p.type = 1 →
    (∀ x ∈ s.host.launches, x.2.fn = fn → x.2.q = q → x.2.st ≠ .checking []) →
    let n := s.host.nextLaunch
    let l : Launch := { fn := fn, q := q, pkt := p.n, record := p.bytes, st := .checking [], raised := false, waits := [], stopped := []
                        ended := 0, status := 0, since := s.now, bars := [] }
    let u := s.updPkt fn q p.n fun p => { p with started := true }
    (field p.bytes 24 8 % 16 ≠ 0 → exec (.launchPacket fn q) s = .next (s.badPkt fn q p.n)) ∧
    (field p.bytes 24 8 % 16 = 0 → exec (.launchPacket fn q) s = .next
      ({ u with host := { u.host with nextLaunch := n + 1, launches := Sparse.put n l u.host.launches } }.checkLaunch n))) ∧
  (∀ (s : State) (li : Nat) (l : Launch), s.launch? li = some l → l.st = .checking [] → l.setOk s.peer.toNat = false →
    let t := s.checkLaunch li
    (s.recordStatus l ≠ 0 → t.launch? li = some { l with st := .ending [], raised := false, status := s.recordStatus l }) ∧
    (s.recordStatus l = 0 → l.dies.length = 1 → l.route = 0 → s.memOk → t.launch? li = some { l with st := .running } ∧
      ∀ u, u < l.counterCount → t.counter li u = 0)) ∧
  (∀ (s : State) (li : Nat) (l : Launch), s.launch? li = some l →
    (l.st = .ending [] ∨ (l.st = .running ∧ s.launchOver li l = true) → s.strays = false →
      let u := l.cores.foldl (fun u k => u.release k 5) (s.drainOrphans l.cores.contains)
      (l.signalAddr = 0 → exec (.launchCompletionRecord li) s = .next (u.closeLaunch li)) ∧
      (l.signalAddr ≠ 0 → l.raised = false → u.procOf l.fn l.proc = true → ∀ vs v,
        u.devAccess (u.hostSpace l.proc) launchHandle (li + 2) ⟨.write, 16, 2, 5, true, none⟩
          ⟨0, l.signalAddr, 2 ^ 63 + l.ended % 2 ^ 32 * 2 ^ 16 + l.status + u.now * 2 ^ 64, 0⟩ = (.ok vs, v) →
        exec (.launchCompletionRecord li) s = .next (v.closeLaunch li))) ∧
    (l.st = .closed ∨ l.st = .arriving ∨ (l.st = .running ∧ s.launchOver li l = false) ∨ s.strays = true →
      exec (.launchCompletionRecord li) s = .next s) ∧
    (l.st = .arriving → l.since + 20000000 ≤ s.now → ∃ t, exec (.launchAnswerTimeout li) s = .next t ∧
      t.launch? li = some { l with st := .ending [], raised := false, status := 3 }) ∧
    (s.now < l.since + 20000000 ∨ l.st ≠ .arriving → exec (.launchAnswerTimeout li) s = .next s)) ∧
  (∀ (s : State) (p : Packet), p.type = 0x13 → p.dst = s.peer → s.linkOk p = true →
    let w := (Packet.word p 2).toNat
    let key := w % 2 ^ 32
    let base := (Packet.word p 3).toNat % 2 ^ 16
    let count := (Packet.word p 3).toNat / 2 ^ 16 % 2 ^ 16
    (w / 2 ^ 32 = 0 → s.host.peerSets = [] → base ≤ p.src.toNat → p.src.toNat < base + count → base + count ≤ 512 → 1 < count →
      ∃ t, exec (.launchArrivalReceipt p) s = .next t ∧
        t.host.peerSets = [⟨key, base, count, Packet.bytes p 64, [p.src.toNat], false, s.now⟩]) ∧
    (∀ li l, s.host.launches = [(li, l)] → l.st = .arriving → l.key = key → l.peerBase = base → l.peerCount = count →
      (s.now < l.since + 20000000 →
        (w / 2 ^ 32 = 1 → ∃ t, exec (.launchReleaseReceipt p) s = .next t ∧ t.launch? li = some { l with st := .running }) ∧
        (w / 2 ^ 32 = 2 → ∃ t, exec (.launchRefusalReceipt p) s = .next t ∧
          t.launch? li = some { l with st := .ending [], raised := false, status := 3 })) ∧
      (l.since + 20000000 ≤ s.now → (w / 2 ^ 32 = 1 → exec (.launchReleaseReceipt p) s = .next s) ∧
        (w / 2 ^ 32 = 2 → exec (.launchRefusalReceipt p) s = .next s)))) ∧
  (∀ (s : State) (key : BitVec 32) (e : PeerSet), s.host.peerSets = [e] → e.key = key.toNat →
    (s.now < e.since + 10000000 → exec (.launchArrivalTimeout key) s = .next s) ∧
    (e.since + 10000000 ≤ s.now → e.failed = false → exec (.launchArrivalTimeout key) s =
      .next ({ s with host := { s.host with peerSets := [] } }.answerSet e ((List.range e.count).map (e.base + ·)) false)))

/-- The mailbox serves a request: the doorbell is set, the device is ready, the command is `cmd` with its n arguments, and the
other bytes are zero. -/
structure Sys2Proof.Claims.Asked (s : State) (cmd n : Nat) : Prop where
  ready : s.mailReady = true
  cmd : s.mailCmd = cmd
  min : s.boot.min = false
  head : field (Sparse.range memDefault s.boot.req 0 64) 2 6 = 0
  tail : field (Sparse.range memDefault s.boot.req 0 64) (8 + 8 * n) (56 - 8 * n) = 0

/-- Argument i of the mailbox's request. -/
def Sys2Proof.Claims.mailArg (s : State) (i : Nat) : Nat := field (Sparse.range memDefault s.boot.req 0 64) (8 + 8 * i) 8

/-- The mailbox answers a command with its code, a status and a value, and clears the doorbell; its commands do what R299 to R301
and R303 say, PASIDDOWN disabling the queues that hold an unfinished launch of the PASID, and in minimal mode only VERSION and
BOOTCLR are served (R299 to R301, R303, R305). -/
def Sys2Proof.Claims.MailboxEvents : Prop :=
  (∀ (s : State) (cmd st v : Nat), cmd < 256 → st < 256 → v < 2 ^ 64 → (s.respond cmd st v).boot.doorbell = false ∧
    (s.respond cmd st v).readBar 0 0x80 = BitVec.ofNat 64 (cmd + 256 * st) ∧ (s.respond cmd st v).readBar 0 0x88 = BitVec.ofNat 64 v) ∧
  (∀ s : State, Claims.Asked s 1 1 → let v := min (Claims.mailArg s 0) 1
    exec .mailboxVersion s = .next ({ s with boot := { s.boot with version := v } }.respond 1 0 v)) ∧
  (∀ s : State, Claims.Asked s 2 2 → let fn := Claims.mailArg s 0
    let q := Claims.mailArg s 1
    (fn ≤ 16 → q < 64 → ∃ t, exec .qdestroy s = .next t ∧ t.boot.destroying = (s.destroyQueue fn q).boot.destroying ++ [(ringKey fn q, true)] ∧
      t.host = (s.destroyQueue fn q).host) ∧
    (16 < fn ∨ 64 ≤ q → exec .qdestroy s = .next (s.respond 2 1 0))) ∧
  (∀ (s : State) (k : Nat) (b : Bool), s.boot.destroying = [(k, b)] →
    (s.queueDone k = false → exec .qdestroyAnswer s = .next s) ∧
    (s.queueDone k = true → ∃ t, exec .qdestroyAnswer s = .next t ∧ t.boot.destroying = [] ∧
      (t.queue (k / 64) (k % 64)).stat = (s.queue (k / 64) (k % 64)).stat ||| 4 ∧ (b = true → t.boot.doorbell = false))) ∧
  (∀ s : State, Claims.Asked s 3 1 → let x := Claims.mailArg s 0
    (2 ^ 20 ≤ x → exec .pasiddown s = .next (s.respond 3 1 0)) ∧
    (x < 2 ^ 20 →
      let holds (y : Queue) : Bool := y.pkts.any fun k => k.type == 1 && !k.finished &&
        s.ofPasid (BitVec.ofNat 20 x) (BitVec.ofNat 32 (field k.bytes 4 4))
      let ks := (s.host.queues.filter fun y => holds y.2).map (·.1)
      let u := ks.foldl (fun u k => u.destroyQueue (k / 64) (k % 64)) s
      let t : State := { u with boot := { u.boot with
        destroying := u.boot.destroying ++ ks.map (fun k => (k, false)), pasidDown := some (BitVec.ofNat 20 x) } }
      exec .pasiddown s = .next t ∧ ∀ k y, s.host.queues = [(k, y)] →
        (holds y = true → (t.queue (k / 64) (k % 64)).en = false ∧ (k, false) ∈ t.boot.destroying) ∧
        (holds y = false → t.host = s.host))) ∧
  (∀ (s : State) (p : BitVec 20), s.boot.pasidDown = some p →
    (s.filling p = true → exec .pasiddownAnswer s = .next s) ∧
    (s.filling p = false → exec .pasiddownAnswer s = .next ({ s with boot := { s.boot with pasidDown := none } }.respond 3 0 0))) ∧
  (∀ s : State, Claims.Asked s 4 3 → let n := Claims.mailArg s 0
    let first := Claims.mailArg s 1
    let count := Claims.mailArg s 2
    let taken := (List.range count).any fun i => (Sparse.get? (first + i) s.mem.granKey).isSome
    (s.tdi? n = none ∨ count = 0 ∨ 2 ^ 18 < first + count → exec .regbind s = .next (s.respond 4 1 0)) ∧
    (∀ t, s.tdi? n = some t → 1 ≤ count → first + count ≤ 2 ^ 18 →
      (taken = true → exec .regbind s = .next (s.respond 4 1 0)) ∧
      (taken = false → t.st ≠ .unlocked ∨ s.freeSlots = [] → exec .regbind s = .next (s.respond 4 2 0)) ∧
      (taken = false → t.st = .unlocked → s.freeSlots ≠ [] → ∃ u slot, slot ∈ s.freeSlots ∧ exec .regbind s = .next u ∧
        (∀ i, i < count → Sparse.get? (first + i) u.mem.granKey = some slot) ∧ u.mem.keyHeld = s.mem.keyHeld ∧
        u.mem.hbm = s.mem.hbm))) ∧
  (∀ s : State, Claims.Asked s 5 1 → let x := Claims.mailArg s 0
    (2 ^ 32 ≤ x ∨ (s.process? (BitVec.ofNat 32 x)).isNone = true → exec .preempt s = .next (s.respond 5 1 0)) ∧
    (x < 2 ^ 32 → (s.process? (BitVec.ofNat 32 x)).isSome = true → exec .preempt s = .next (State.respond
      (s.host.blocks.foldl (fun u b => if b.2.st == .placed && ((u.launch? b.2.launch).map Launch.proc) == some (BitVec.ofNat 32 x)
        then u.mustLeave b.1 false else u) s) 5 0 0))) ∧
  (∀ s : State, Claims.Asked s 6 0 →
    (s.board.eeWritable = true → ∃ t, exec .bootclr s = .next t ∧ t.board.eeCount = 0 ∧ t.boot.doorbell = false) ∧
    (s.board.eeWritable = false → exec .bootclr s = .next (s.respond 6 2 0))) ∧
  (∀ s : State, s.mailReady = true → s.mailCmd = 0 ∨ 6 < s.mailCmd →
    exec .mailboxUnknownCommand s = .next (s.respond s.mailCmd (if s.boot.min then 2 else 3) 0))

/-- TDISP moves a device interface between its states: LOCK and START in order, STOP from any, and a change of its
configuration or a link failure to ERROR from LOCKED or RUN; START lets its key slots be used, leaving RUN drops its keys; the
report and the measurements are made; in minimal mode no interface is served. The reset boots the device, each stack trained and
each port trained with its switch's version and index, or leaves it in minimal mode with the step and the reason that failed and
its management core alone; a failed start counts its attempt. THR rises when a die has reached 105 °C and falls each millisecond
below 95 °C. A window entry reads back as written, its RES bits zero; minimal mode takes no write of one (R274, R298, R302 to
R308). -/
def Sys2Proof.Claims.SystemEvents : Prop :=
  (∀ (s : State) (n : Nat) (i : Instr), s.boot.min = true → i ∈ [.lockInterface n, .startInterface n, .stopInterface n,
    .tdiConfigChange n, .ideIntegrityFailure n, .getDeviceInterfaceReport n] → exec i s = .next s) ∧
  (∀ (s : State) (n : Nat) (t : Tdi), s.tdi? n = some t → s.boot.min = false →
    let move (u : State) (st : Tdisp) : State := u.updTdi n fun t => { t with st := st }
    ((s.updTdi n fun t => { t with st := .locked }).tdi? n = some { t with st := .locked }) ∧
    exec (.lockInterface n) s = .next (if t.st = .unlocked then move s .locked else s) ∧
    (t.st = .locked → ∃ u, exec (.startInterface n) s = .next u ∧ u.tdi? n = some { t with st := .run } ∧
      ∀ k, k < 64 → u.mem.keyHeld.getLsbD k = (s.mem.keyHeld.getLsbD k || t.slots.contains k)) ∧
    (t.st ≠ .locked → exec (.startInterface n) s = .next s) ∧
    exec (.stopInterface n) s = .next (if t.st = .run then move (s.leaveRun n) .unlocked else move s .unlocked) ∧
    (∀ i, i = .tdiConfigChange n ∨ i = .ideIntegrityFailure n → exec i s = .next (if t.st = .run then move (s.leaveRun n) .error
      else if t.st = .locked then move s .error else s)) ∧
    (∃ u r, exec (.getDeviceInterfaceReport n) s = .next u ∧ u.tdi? n = some { t with report := r } ∧ u.mem = s.mem)) ∧
  (∀ s : State, exec .getMeasurements s =
    .next { s with boot := { s.boot with signed := s.boot.log ++ [Config.signature s.boot.log] } }) ∧
  (∀ s : State, let b := s.board
    (b.eeReadable = true → b.eeCount < 3 → b.eeWritable = true → b.pufStable = true → (∀ k, k < 8 → b.stackGood k = true) →
      b.coresGood.all id = true → ∃ t, exec .powerOnReset s = .next t ∧ t.boot.step = 8 ∧ t.boot.min = false ∧
        t.boot.attempt = BitVec.ofNat 8 (b.eeCount + 1) ∧ t.board.eeCount = 0 ∧ t.dtime = 0 ∧ t.mem.hbm = [] ∧ t.mem.host = s.mem.host ∧
        t.poolFree = poolSize b.watts ∧ t.league.ports = b.links.map (fun l =>
          if l.good ∧ l.lo ≤ 1 ∧ 1 ≤ l.hi ∧ l.index = b.peer.toNat then ⟨true, 1⟩ else ⟨false, 0⟩) ∧
        ∀ k, k < 128 → ∃ w, t.wave? k 0 = some w ∧ w.id.kind = .agent) ∧
    (b.eeReadable = true → b.eeCount < 3 → b.eeWritable = true → b.pufStable = true →
      ((∃ k, k < 8 ∧ b.stackGood k = false) → ∃ t, exec .powerOnReset s = .next t ∧ t.boot.step = 0 ∧ t.boot.min = false ∧
        t.board = { b with eeCount := b.eeCount + 1, eeReason := 3 }) ∧
      ((∀ k, k < 8 → b.stackGood k = true) → b.coresGood.all id = false → ∃ t, exec .powerOnReset s = .next t ∧
        t.boot.step = 0 ∧ t.boot.min = false ∧ t.board = { b with eeCount := b.eeCount + 1, eeReason := 4 })) ∧
    (∀ why st, (b.eeReadable = false ∧ why = 1 ∧ st = 0) ∨ (b.eeReadable = true ∧ 3 ≤ b.eeCount ∧ why = b.eeReason ∧ st = 1) ∨
        (b.eeReadable = true ∧ b.eeCount < 3 ∧ b.eeWritable = false ∧ why = 1 ∧ st = 1) →
      ∃ t, exec .powerOnReset s = .next t ∧ t.boot.min = true ∧ t.boot.step = BitVec.ofNat 8 st ∧
        t.boot.reason = BitVec.ofNat 8 why ∧ t.board = b ∧
        (∀ c k, c ≠ mgmtCore ∨ k ≠ 0 → t.wave? c k = none) ∧ ∃ w, t.wave? mgmtCore 0 = some w ∧ w.id.kind = .mgmt) ∧
    (b.eeReadable = true → b.eeCount < 3 → b.eeWritable = true → b.pufStable = false → ∃ t, exec .powerOnReset s = .next t ∧
      t.boot.step = 0 ∧ t.boot.min = false ∧ t.board = { b with eeCount := b.eeCount + 1, eeReason := 2 })) ∧
  (∀ (s : State) (die k : Nat), k < 128 → ∃ t u, exec (.tempHigh die) s = .next t ∧ exec (.tempCoolTick die) s = .next u ∧
    (dieOf k = die → 840 ≤ s.dieTemp die → (t.core k).ctl.thr.toNat = min 7 ((s.core k).ctl.thr.toNat + 1)) ∧
    (dieOf k = die → s.dieTemp die < 760 → (u.core k).ctl.thr.toNat = (s.core k).ctl.thr.toNat - 1) ∧
    (dieOf k ≠ die ∨ s.dieTemp die < 840 → t.core k = s.core k) ∧ (dieOf k ≠ die ∨ 760 ≤ s.dieTemp die → u.core k = s.core k)) ∧
  (∀ (s : State) (i w : Nat) (v : BitVec 64), exec (.windowEntryReadback i w) s = .next s ∧
    exec (.windowEntryWrite i w v) s = .next (if s.boot.min then s else s.windowWrite i w v) ∧
    (i < 256 → w < 4 → (s.windowWrite i w v).readBar 0 (0x20000 + 32 * i + 8 * w) =
        v &&& ([0xF80000FFFFE00000, 0x000FFFFFFFE00000, 0x000000FFFFFFFFFF, 0x000000000007FFFF].getD w 0) ∧
      ∀ x ∈ (s.windowWrite i w v).league.closed, x.1 ≠ i))

/-- The events of the host's side and of boot do what the manual gives them (R11, R41, R43, R188, R274, R290 to R295, R298 to
R308, R461).
Where the manual is open it says what the model does: notes/assumptions 10, 27, 59 to 70. -/
def Obligations.HostAndBootEvents : Prop :=
  Claims.QueueEvents ∧ Claims.RegisterWrites ∧ Claims.LaunchEvents ∧ Claims.MailboxEvents ∧ Claims.SystemEvents


/-- A request answered, over a link that is up: exactly one is outstanding, with the packet's tag, to the packet's sender, and it
is no G line's; the packet becomes its answer, and one that nothing waits for any more is over. -/
def Sys2Proof.Claims.Answers (i : Instr) (p : Packet) : Prop :=
  ∀ (s : State) (r : Req), s.league.reqs = [r] → r.answer = none → r.tag = p.tag.toNat → (r.pkt.dst = p.src ∨ r.pkt.type = 7) →
    r.inst = none → p.dst = s.peer → s.linkOk p = true → ∃ t, exec i s = .next t ∧
      t.league.reqs = (if r.orphan then [] else [{ r with answer := some p }]) ∧ t.mem = s.mem

/-- Remote accesses. A read, write or atomic for this device is checked against its windows; a negative answer carries the reason
and changes nothing, a positive one follows the effect at the home; a response answers its request, and 100 µs without one
answers it with reason 7. A multicast goes to each member of its group but the sender, each member answers for itself or is
answered for after its time, and the last answer sends the acknowledgement with the counts (R272, R275, R278, R283, R284). -/
def Sys2Proof.Claims.RemoteEvents : Prop :=
  (∀ (s u : State) (p : Packet), p.dst = s.peer → s.linkOk p = true →
    let n := p.lenm1.toNat + 1
    let back (type : Nat) : Packet := { Packet.plain type p.dst p.src p.tag.toNat with lenm1 := p.lenm1, offset := p.offset }
    let ask (a : Acc) := s.exported p.src.toNat p.offset.toNat n a
    (∀ i a type, (i = .remoteReadRequest p ∧ a = .read ∧ type = 1) ∨ (i = .remoteWriteRequest p ∧ a = .write ∧ type = 3) ∨
        (i = .remoteAtomicRequest p ∧ a = .atomic ∧ type = 5) →
      (p.type.toNat ≠ type → exec i s = .next s) ∧
      (∀ r, p.type.toNat = type → ask a = (.no r, u) →
        exec i s = .next (u.trySend { back (type + 1) with status := BitVec.ofNat 4 r }))) ∧
    (∀ g pa, p.type = 1 → ask .read = (.ok g pa, u) → exec (.remoteReadRequest p) s =
      .next (u.trySend { back 2 with data := dataOf (u.bytes pa n), ndata := flits n, g := g })) ∧
    (∀ g pa, p.type = 3 → ask .write = (.ok g pa, u) →
      exec (.remoteWriteRequest p) s = .next ((u.setBytes pa (Packet.bytes p n)).trySend (back 4))) ∧
    (∀ g pa, p.type = 5 → ask .atomic = (.ok g pa, u) →
      let x := field (Packet.bytes p 16) 0 n
      let v := if atomWrites p.atop.toNat (u.num pa n) x
        then u.setNum pa n (atomNew p.atop.toNat p.atty.toNat (u.num pa n) x (field (Packet.bytes p 16) n n)) else u
      exec (.remoteAtomicRequest p) s = .next (v.trySend { back 6 with data := BitVec.ofNat 2048 (u.num pa n), ndata := 1 })) ∧
    (∀ a, s.windowFor p.src.toNat p.offset.toNat = none → ask a = (.no 1, s))) ∧
  (∀ p : Packet, (p.type = 2 ∨ (p.type = 4 ∧ (Packet.word p 2).getLsbD 63 = false) ∨ p.type = 6 → Claims.Answers (.remoteResponseReceipt p) p) ∧
    (p.type = 8 → Claims.Answers (.aggregatedAckReceipt p) p)) ∧
  (∀ (s : State) (tag : Nat) (r : Req), s.league.reqs = [r] → r.tag = tag → tag < 4096 → r.answer = none → r.inst = none →
    (r.suspended = true ∨ s.now < r.at' + 100000 → exec (.requestTimeout tag) s = .next s) ∧
    (r.suspended = false → r.at' + 100000 ≤ s.now → ∃ t a, exec (.requestTimeout tag) s = .next t ∧
      t.league.reqs = (if r.orphan then [] else [{ r with answer := some a }]) ∧ a.status = 7)) ∧
  (∀ (s : State) (p : Packet), p.type = 7 →
    let ack (v : Nat) : Packet := mcastAck p.src p.plane.toNat p.tag.toNat v
    (Sparse.get? (p.plane.toNat * 4096 + p.group.toNat) s.league.sw.groups = none →
      exec (.multicastWrite p) s = .next (s.emit (ack (2 ^ 63)))) ∧
    (∀ map, Sparse.get? (p.plane.toNat * 4096 + p.group.toNat) s.league.sw.groups = some map →
      let ms := (List.range 512).filter fun k => map.getLsbD k && k != p.src.toNat
      (ms = [] → exec (.multicastWrite p) s = .next (s.emit (ack 0))) ∧
      (ms ≠ [] → ∃ t, exec (.multicastWrite p) s = .next t ∧ t.league.netOut = s.league.netOut ++ ms.map (fun k => { p with dst := BitVec.ofNat 9 k }) ∧
        t.league.sw.mcasts = s.league.sw.mcasts ++ [⟨p.plane.toNat, p.tag.toNat, p.src.toNat, ms, 0, [], s.now⟩])) ∧
    (∀ a u, p.dst = s.peer → s.linkOk p = true → s.serve p = (a, u) → exec (.multicastCopyReceipt p) s =
      let v := u.trySend { a with plane := p.plane }
      .next (v.countMember p.plane.toNat p.tag.toNat p.src.toNat u.peer.toNat a.status.toNat))) ∧
  (∀ (s : State) (p : Packet), p.type = 8 → exec (.remoteResponseReceipt p) s =
    .next (s.countMember p.plane.toNat p.tag.toNat p.dst.toNat p.src.toNat p.status.toNat)) ∧
  (∀ (s : State) (m : Mcast) (peer : Nat), s.league.sw.mcasts = [m] → peer ∈ m.waiting →
    (s.now < m.at' + 20000 → exec (.multicastMemberTimeout m.plane m.tag peer) s = .next s) ∧
    (m.at' + 20000 ≤ s.now → exec (.multicastMemberTimeout m.plane m.tag peer) s = .next (s.countMember m.plane m.tag m.src peer 7)) ∧
    (∀ st, m.waiting = [peer] → let neg := if st = 0 then m.neg else m.neg ++ [(peer, st)]
      ∃ t, s.countMember m.plane m.tag m.src peer st = t ∧ t.league.sw.mcasts = [] ∧ t.league.netOut = s.league.netOut ++
        [mcastAck (BitVec.ofNat 9 m.src) m.plane m.tag (mcastResult (if st = 0 then m.pos + 1 else m.pos) neg)])) ∧
  (∀ (s : State) (p : Packet), p.type = 0x14 → let k := p.plane.toNat * 4096 + p.group.toNat
    (p.src.toNat ∉ s.league.sw.managers → exec (.groupTableWrite p) s = .next s) ∧
    (p.src.toNat ∈ s.league.sw.managers → (Packet.word p 2).getLsbD 0 = true → ∃ t, exec (.groupTableWrite p) s = .next t ∧
      Sparse.get? k t.league.sw.groups = some (p.data.setWidth 512) ∧ t.league.sw.managers = s.league.sw.managers))

/-- Invalidates, messages and names. An invalidate drops every cached line of its page and is acknowledged once no marked read
is outstanding; the last acknowledgement, or the closing of an importer after 1 ms, ends the wait; a remote message is
queued, held or refused and answered so, one whose handle is of an earlier restart as one that names no port, and a held one may
be asked back; a held sender's timeout is suspended, and the message asked back at once where its wave is being saved; a lookup answers the handle and the restart epoch or says there is none
(R229, R237, R281, R288). -/
def Sys2Proof.Claims.MessageEvents : Prop :=
  (∀ (s : State) (p : Packet), p.type = 9 → p.dst = s.peer → s.linkOk p = true → s.league.reqs = [] → s.league.acks = [] →
    exec (.invalidateReceipt p) s = .next ((s.dropPeerPage p.src.toNat (p.offset.toNat / 4096)).trySend
      { Packet.plain 0x0A s.peer p.src p.tag.toNat with offset := p.offset })) ∧
  (∀ (s : State) (peer page k unit : Nat), k < 256 →
    (s.dropPeerPage peer page).copy? unit (peerGran (peer * 2 ^ 40 + page * 4096) + k) = none) ∧
  (∀ (s : State) (p : Packet) (v : Inval), p.type = 0x0A → p.dst = s.peer → s.linkOk p = true → s.league.invs = [v] → v.left = [p.src.toNat] →
    v.page = BitVec.ofNat 40 (p.offset.toNat / 4096) → ∃ t, exec (.invalidateAckReceipt p) s = .next t ∧ t.league.invs = []) ∧
  (∀ (s : State) (peer : Nat) (v : Inval), s.league.invs = [v] → v.left = [peer] →
    (s.now < v.at' + 1000000 → exec (.importerCloseTimeout peer v.page) s = .next s) ∧
    (v.at' + 1000000 ≤ s.now → ∃ t, exec (.importerCloseTimeout peer v.page) s = .next t ∧ t.league.invs = [] ∧
      ∀ x ∈ s.windowsOver v.page.toNat, (x.1, peer) ∈ t.league.closed)) ∧
  (∀ (s : State) (p : Packet), p.type = 0x0B → p.dst = s.peer → s.linkOk p = true →
    let w := (Packet.word p 2).toNat
    let h := BitVec.ofNat 32 w
    let ans (u : State) (k : Nat) : State := u.trySend (portAnswer s.peer p.src p.tag.toNat k)
    let slot := slotBytes (Packet.bytes p 64) ((Packet.word p 3).toNat % 2 ^ 20) []
    (bits w 63 63 = 0 → bits w 33 33 = 0 → s.port? h = none ∨ (Packet.word p 4).toNat ≠ s.boot.epoch →
      exec (.portMessageReceipt p) s = .next (ans s 4)) ∧
    (∀ cap st ms rs, bits w 63 63 = 0 → bits w 33 33 = 1 → s.port? h = some (cap, st, ms, rs) →
      ((∀ r ∈ rs, r.src ≠ p.src.toNat ∨ r.tag ≠ p.tag.toNat) → exec (.portMessageReceipt p) s = .next s) ∧
      (∀ r, rs = [r] → r.src = p.src.toNat → r.tag = p.tag.toNat → exec (.portMessageReceipt p) s =
        .next (ans (s.setPort h ms []) 14))) ∧
    (∀ cap st ms rs, bits w 63 63 = 0 → bits w 33 33 = 0 → (Packet.word p 4).toNat = s.boot.epoch → s.port? h = some (cap, st, ms, rs) →
      (ms.length < cap → rs = [] → s.kernWaits .send h = [] →
        exec (.portMessageReceipt p) s = .next (ans (s.setPort h (ms ++ [⟨s.now, slot⟩]) rs) 0)) ∧
      (cap ≤ ms.length → bits w 32 32 = 1 → exec (.portMessageReceipt p) s = .next (ans s 1)) ∧
      (cap ≤ ms.length → bits w 32 32 = 0 → exec (.portMessageReceipt p) s = .next
        (ans ({ s with next := s.next + 1 }.setPort h ms (rs ++ [RemoteSender.mk s.next p.src.toNat p.tag.toNat slot])) 15))) ∧
    (bits w 63 63 = 1 → bits w 51 48 ≠ 15 → Claims.Answers (.portMessageAnswerReceipt p) p) ∧
    (∀ r, bits w 63 63 = 1 → bits w 51 48 = 15 → s.league.reqs = [r] → r.answer = none → r.tag = p.tag.toNat → r.pkt.dst = p.src →
      r.pkt.type = 0x0B → r.pkt.ext.getLsbD 33 = false → ∃ t, exec (.portMessageAnswerReceipt p) s = .next t ∧ t.league.reqs =
        [{ r with suspended := true, pkt := if s.unwanted r then { r.pkt with ext := r.pkt.ext ||| BitVec.ofNat 384 (2 ^ 33) } else r.pkt }])) ∧
  (∀ (s : State) (p : Packet), p.type = 0x0C → p.dst = s.peer → s.linkOk p = true → (∀ x ∈ s.kern.names, x.1 ≠ Packet.word p 2) →
    exec (.nameLookupReceipt p) s = .next (s.trySend { Packet.plain 0x0D s.peer p.src p.tag.toNat with
      ext := BitVec.ofNat 384 (3 * 2 ^ 48 + 2 ^ 64 * s.boot.epoch) })) ∧
  (∀ (s : State) (p : Packet) (h : BitVec 32) (o po : Obj) (q : BitVec 20) (r t : BitVec 64) (sc : BitVec 32) (i : Nat) (w : BitVec 256),
    p.type = 0x0C → p.dst = s.peer → s.linkOk p = true → s.kern.names = [(Packet.word p 2, h)] → s.named h = some o → s.obj? o.owner.toNat = some po →
    po.body = .process q r t sc → (i, w) ∈ s.league.windows → (Win.mk w.toNat).valid = true → (Win.mk w.toNat).pasid = q →
    (Win.mk w.toNat).imports p.src.toNat = true → exec (.nameLookupReceipt p) s =
      .next (s.trySend { Packet.plain 0x0D s.peer p.src p.tag.toNat with
        ext := BitVec.ofNat 384 (h.toNat + 2 ^ 64 * s.boot.epoch) })) ∧
  (∀ p : Packet, p.type = 0x0D → Claims.Answers (.nameReplyReceipt p) p)

/-- Shuffles. The switch sends two partners' segments coded as one, one without a partner as it is, at once with pair 0 or
after 2 µs, and no third segment of a key meets anyone; a receiver keeps an uncoded segment until its participant's command has
fired and its bytes are written, and acknowledges it then; it decodes a coded one with its side block, or answers negative where it
has none or its decode buffer is full, and the sender sends it again uncoded; a segment is struck off when the peer it went to acknowledges it, and a DONE
is noted, one that comes before the participant's command has fired kept for it (R286, R287). -/
def Sys2Proof.Claims.ShuffleEvents : Prop :=
  (∀ (s : State) (p x y : Packet) (t t' : Nat), p.type = 0x10 →
    ((Packet.seg p).pair = 0 → exec (.shuffleSegmentSwitch p) s = .next (s.forward p)) ∧
    ((Packet.seg p).pair ≠ 0 → s.league.sw.segs = [] → ∃ u, exec (.shuffleSegmentSwitch p) s = .next u ∧
      u.league.sw.segs = [(s.now, p)] ∧ u.league.netOut = s.league.netOut) ∧
    ((Packet.seg p).pair ≠ 0 → s.league.sw.segs = [(t, x)] → x.type = 0x10 → sameKey x p = true → s.now ≤ t + 2000 →
      ∃ u, exec (.shuffleSegmentSwitch p) s = .next u ∧ u.league.netOut = s.league.netOut ++ codedPackets x p ∧
        u.league.sw.segs = [(t, passedSegment x), (s.now, passedSegment p)]) ∧
    (s.league.sw.segs = [(t, x), (t', y)] → sameKey x p = true → sameKey y p = true →
      exec (.shuffleSegmentSwitch p) s = .next (s.forward p))) ∧
  (∀ (s : State) (t : Nat) (x : Packet), s.league.sw.segs = [(t, x)] → x.type = 0x10 →
    (s.now ≤ t + 2000 → exec (.shufflePairTimeout x.plane.toNat 0) s = .next s) ∧
    (t + 2000 < s.now → ∃ u, exec (.shufflePairTimeout x.plane.toNat 0) s = .next u ∧ u.league.sw.segs = [(t, passedSegment x)] ∧
      u.league.netOut = s.league.netOut ++ [x])) ∧
  (∀ (s : State) (p : Packet), p.type = 0x10 → p.dst = s.peer → s.linkOk p = true →
    let h := Packet.seg p
    let tag := BitVec.ofNat 32 h.tag
    let held (u : State) : State := { u with league := { u.league with held := u.league.held ++ [p] } }
    (s.collReceiver h.ident h.tag = none → exec (.uncodedSegmentReceipt p) s = .next (held s)) ∧
    (∀ core x f u, s.collReceiver h.ident h.tag = some (core, x) → s.league.reqs = [] →
      s.storePieces (s.engSpace core x) (engHandle core) (segHalf x h) 0 x.order.2
        (piecesOf (((collOf x.record).dst + Packet.recvOff p + 256 * h.seg) % 2 ^ 64) (Packet.bytes p (p.lenm1.toNat + 1))) = (f, u) →
      let v := u.dropEngReqs (engHandle core) (segHalf x h)
      (∀ vs, f = .ok vs → exec (.uncodedSegmentReceipt p) s = .next ((v.updColl core x.id fun k =>
        { k with received := if k.received.contains tag then k.received else tag :: k.received }).trySend
          (segAnswer 0x04 v.peer p.src h))) ∧
      (f = .wait ∨ (∃ qs all, f = .park qs all) → exec (.uncodedSegmentReceipt p) s = .next (held u)) ∧
      (∀ code a, f = .fault code a → exec (.uncodedSegmentReceipt p) s = .next (v.engineFault core x a)))) ∧
  (∀ (s : State) (p : Packet), p.type = 0x11 → p.dst = s.peer → s.linkOk p = true →
    let h := (Packet.codedFor p).1
    let tag := BitVec.ofNat 32 h.tag
    let from' := BitVec.ofNat 9 (Packet.codedFor p).2.1
    let other := if Packet.second p then Packet.seg p else Packet.seg { p with ext := p.ext >>> 128 }
    let isSide (y : Side) : Bool := y.ident = h.ident && y.tag.toNat = other.tag
    (s.collReceiver h.ident h.tag = none → exec (.codedSegmentReceipt p) s =
      .next (if s.decodeFull then s.trySend (segAnswer 0x12 s.peer from' h)
        else { s with league := { s.league with held := s.league.held ++ [p] } })) ∧
    (∀ core x, s.collReceiver h.ident h.tag = some (core, x) →
      (s.decodeFull = true ∨ s.league.side.find? isSide = none →
        let u := s.updColl core x.id fun k =>
          { k with fallback := if k.fallback.contains tag then k.fallback else tag :: k.fallback }
        exec (.codedSegmentReceipt p) s = .next (u.trySend (segAnswer 0x12 u.peer from' h))) ∧
      (∀ y vals u vs v, s.decodeFull = false → s.league.side.find? isSide = some y →
        let a := (y.addr.toNat + 256 * h.seg) % 2 ^ 64
        let n := min 256 (y.len - 256 * h.seg)
        let len := min 256 (h.len - 256 * h.seg)
        let half := 2 ^ 63 + segHalf x h
        s.fetchNeed (s.engSpace core x) (engHandle core) half x.order.2 [(a, n)] = (.ok vals, u) → u.league.reqs = [] →
        u.storePieces (u.engSpace core x) (engHandle core) (segHalf x h) 0 x.order.2
          (piecesOf (((collOf x.record).dst + (Packet.codedFor p).2.2 + 256 * h.seg) % 2 ^ 64)
            (leBytes len ((p.data.toNat ^^^ leNat (granBytes vals a n)) % 2 ^ (8 * len)))) = (.ok vs, v) →
        let r := v.dropEngReqs (engHandle core) (segHalf x h)
        exec (.codedSegmentReceipt p) s = .next (((r.dropEngReqs (engHandle core) half).updColl core x.id fun k =>
          { k with coded := if k.coded.contains tag then k.coded else tag :: k.coded }).trySend
            (segAnswer 0x04 r.peer from' h))))) ∧
  (∀ (s : State) (p : Packet) (core : Nat) (x : Cmd), p.dst = s.peer → s.linkOk p = true →
    let h := Packet.seg p
    s.collSender h.ident p.src.toNat h.tag h.seg = some (core, x) →
    (∀ e bs, p.type = 0x12 → x.sendData.find? (fun q => q.1.tag = h.tag && q.1.peer = p.src.toNat) = some (e, bs) →
      exec (.segmentNegativeReceipt p) s = .next (s.trySend
        (segPacket s.peer h.ident e 0 h.seg (segBytes bs h.seg)))) ∧
    (p.type = 4 → (Packet.word p 2).getLsbD 63 = true → exec (.remoteResponseReceipt p) s =
      .next ((s.updColl core x.id fun k => { k with unacked := k.unacked.filter fun u => u ≠ (p.src.toNat, h.tag, h.seg) }).sendDone core x))) ∧
  (∀ (s : State) (p : Packet), p.type = 0x15 → p.dst = s.peer → s.linkOk p = true →
    let (ident, dst, src) := ((Packet.word p 2).toNat, (Packet.word p 4).toNat, (Packet.word p 3).toNat)
    exec (.shuffleDoneReceipt p) s = .next (s.heardDone ident dst src) ∧
    ((∀ k ∈ s.league.colls, s.collOf' ident dst k = false) → (ident, dst, src) ∉ s.league.dones →
      (s.heardDone ident dst src).league.dones = s.league.dones ++ [(ident, dst, src)]) ∧
    ∀ k, s.league.colls = [k] → s.collOf' ident dst k = true → src ∉ k.doneFrom →
      (s.heardDone ident dst src).league.colls = [{ k with doneFrom := src :: k.doneFrom }])

/-- Peer-set barriers and links. A peer-set phase completes at the release, and the lowest peer keeps who has arrived; a link
that mismatches or fails is down and shows in LDOWN, one trained at a version the part supports and with the strapped peer number
is up, in minimal mode none; a packet whose version is not its link's is dropped, and the link is down until it has been trained again; what R271
retransmits or drops changes nothing (R269, R271, R273, R289, R304, R308). -/
def Sys2Proof.Claims.LinkEvents : Prop :=
  (∀ (s : State) (p : Packet), p.type = 0x13 → p.dst = s.peer → s.linkOk p = true →
    (∀ i l, setKind p = 4 → s.launchBySet (setKey p) (setBase p) (setCount p) = some (i, l) →
      let k := 2 ^ 40 * (l.nlvl - 1)
      exec (.peerBarrierRelease p) s =
        .next (if (s.bar i k).phase % 2 ^ 32 = setPhase p ∧ (s.bar i k).allOver = false then s.nextPhase i k else s)) ∧
    (setKind p = 4 → s.launchBySet (setKey p) (setBase p) (setCount p) = none → exec (.peerBarrierRelease p) s = .next s) ∧
    (setKind p = 3 ∨ setKind p = 6 → p.src.toNat < setBase p ∨ setBase p + setCount p ≤ p.src.toNat →
      exec (.peerBarrierArrival p) s = .next s) ∧
    (setKind p = 3 ∨ setKind p = 6 → s.league.peerBars = [] → 1 < setCount p → setBase p ≤ p.src.toNat →
      p.src.toNat < setBase p + setCount p → ∃ t, exec (.peerBarrierArrival p) s = .next t ∧
      t.league.peerBars = [⟨setKey p, setBase p, setCount p, setPhase p, [p.src.toNat], if setKind p = 6 then [p.src.toNat] else []⟩])) ∧
  (∀ (s : State) (port : Nat) (x : Port), s.league.ports[port]? = some x → port < 32 →
    (∀ i, i = .portDown port ∨ i = .linkVersionMismatch port → ∃ t, exec i s = .next t ∧
      t.league.ports[port]? = some { x with up := false } ∧ t.boot.ldown.getLsbD port = true ∧
      ∀ j, j ≠ port → t.league.ports[j]? = s.league.ports[j]? ∧ t.boot.ldown.getLsbD j = s.boot.ldown.getLsbD j) ∧
    (∀ lo hi index, s.boot.min = true → exec (.linkRetrained port (lo, hi) index) s = .next s) ∧
    (∀ lo hi index, s.boot.min = false → let up := lo ≤ 1 ∧ 1 ≤ hi ∧ index = s.board.peer.toNat
      ∃ t, exec (.linkRetrained port (lo, hi) index) s = .next t ∧
      t.league.ports[port]? = some (if up then Port.mk true 1 else Port.mk false 0) ∧ (t.boot.ldown.getLsbD port = false ↔ up) ∧
      ∀ j, j ≠ port → t.league.ports[j]? = s.league.ports[j]? ∧ t.boot.ldown.getLsbD j = s.boot.ldown.getLsbD j)) ∧
  (∀ (s : State) (p : Packet) (i : Instr), p.dst = s.peer → s.linkOk p = false →
    (p.type = 1 ∧ i = .remoteReadRequest p) ∨ (p.type = 3 ∧ i = .remoteWriteRequest p) ∨
    (p.type = 5 ∧ i = .remoteAtomicRequest p) ∨ (p.type = 7 ∧ i = .multicastCopyReceipt p) ∨
    (p.type = 8 ∧ i = .aggregatedAckReceipt p) ∨ ((p.type = 2 ∨ p.type = 4 ∨ p.type = 6) ∧ i = .remoteResponseReceipt p) ∨
    (p.type = 9 ∧ i = .invalidateReceipt p) ∨ (p.type = 0x0A ∧ i = .invalidateAckReceipt p) ∨
    (p.type = 0x0B ∧ (i = .portMessageReceipt p ∨ i = .portMessageAnswerReceipt p)) ∨
    (p.type = 0x0C ∧ i = .nameLookupReceipt p) ∨ (p.type = 0x0D ∧ i = .nameReplyReceipt p) ∨
    (p.type = 0x10 ∧ i = .uncodedSegmentReceipt p) ∨ (p.type = 0x11 ∧ i = .codedSegmentReceipt p) ∨
    (p.type = 0x12 ∧ i = .segmentNegativeReceipt p) ∨ (p.type = 0x15 ∧ i = .shuffleDoneReceipt p) →
    exec i s = .next (s.updPort p.plane.toNat fun x => { x with up := false })) ∧
  (∀ (s : State) (port : Nat) (p : Packet), exec (.flitRetransmit port) s = .next s ∧ exec (.reservedPacketDrop p) s = .next s)

/-- The events of the League do what the manual gives them (R237, R269 to R273, R275, R278, R281, R283, R284, R286 to R289, R304, R308).
Where the manual is open it says what the model does: notes/assumptions 20, 21, 24, 25, 27, 28, 29, 45, 70, 71. -/
def Obligations.LeagueEvents : Prop := Claims.RemoteEvents ∧ Claims.MessageEvents ∧ Claims.ShuffleEvents ∧ Claims.LinkEvents
end

