-- ==== Sys2Proof/Laws/Sparse.lean ====
section
/-!
SUPPORT. Sparse tables: a read after a write, and the canonical form, which every operation keeps.
-/

namespace Sys2Proof

variable {α : Type}

@[simp] theorem Sparse.get?_put_self (k : Nat) (a : α) (m : List (Nat × α)) : get? k (put k a m) = some a := by
  induction m with
  | nil => simp [put, get?]
  | cons x m ih =>
    obtain ⟨j, b⟩ := x
    by_cases h : k < j
    · simp [put, get?, h]
    · by_cases h2 : k = j
      · simp [put, get?, h2]
      · have h3 : ¬ j = k := fun e => h2 e.symm
        simp [put, get?, h, h2, h3, ih]

theorem Sparse.get?_put_ne {k j : Nat} (h : j ≠ k) (a : α) (m : List (Nat × α)) : get? j (put k a m) = get? j m := by
  induction m with
  | nil => simp [put, get?, h.symm]
  | cons x m ih =>
    obtain ⟨i, b⟩ := x
    simp only [put]
    split
    · simp [get?, h.symm]
    · split
      · rename_i h2; subst h2; simp [get?, h.symm]
      · simp [get?, ih]

@[simp] theorem Sparse.put_put (k : Nat) (a b : α) (m : List (Nat × α)) : put k a (put k b m) = put k a m := by
  induction m with
  | nil => simp [put]
  | cons x m ih =>
    obtain ⟨j, c⟩ := x
    by_cases h : k < j
    · simp [put, h]
    · by_cases h2 : k = j
      · simp [put, h2]
      · simp [put, h, h2, ih]

theorem Sparse.sortedFrom_mono {b c : Nat} (h : b ≤ c) : ∀ {m : List (Nat × α)}, sortedFrom c m = true → sortedFrom b m = true
  | [], _ => rfl
  | (k, _) :: m, hm => by
    simp only [sortedFrom, Bool.and_eq_true, decide_eq_true_eq] at hm ⊢
    exact ⟨h.trans hm.1, hm.2⟩

theorem Sparse.sortedFrom_put (k : Nat) (a : α) :
    ∀ {b : Nat} {m : List (Nat × α)}, b ≤ k → sortedFrom b m = true → sortedFrom b (put k a m) = true
  | b, [], hb, _ => by simp [put, sortedFrom, hb]
  | b, (j, c) :: m, hb, hm => by
    simp only [sortedFrom, Bool.and_eq_true, decide_eq_true_eq] at hm
    by_cases h : k < j
    · simp [put, h, sortedFrom, hb, hm.2]
    · by_cases h2 : k = j
      · simp [put, h2, sortedFrom, hm]
      · simp [put, h, h2, sortedFrom, hm.1, sortedFrom_put k a (b := j + 1) (by omega) hm.2]

theorem Sparse.sortedFrom_del (k : Nat) :
    ∀ {b : Nat} {m : List (Nat × α)}, sortedFrom b m = true → sortedFrom b (del k m) = true
  | _, [], _ => rfl
  | b, (j, c) :: m, hm => by
    simp only [sortedFrom, Bool.and_eq_true, decide_eq_true_eq] at hm
    by_cases h : k = j
    · simpa [del, h] using sortedFrom_mono (by omega) hm.2
    · simp [del, h, sortedFrom, hm.1, sortedFrom_del k hm.2]

theorem Sparse.get?_of_sorted {k : Nat} :
    ∀ {b : Nat} {m : List (Nat × α)}, k < b → sortedFrom b m = true → get? k m = none
  | _, [], _, _ => rfl
  | b, (j, c) :: m, hk, hm => by
    simp only [sortedFrom, Bool.and_eq_true, decide_eq_true_eq] at hm
    have : j ≠ k := by omega
    have ih := get?_of_sorted (k := k) (b := j + 1) (by omega) hm.2
    simp [get?, this, ih]

theorem Sparse.get?_del_self (k : Nat) :
    ∀ {b : Nat} {m : List (Nat × α)}, sortedFrom b m = true → get? k (del k m) = none
  | _, [], _ => rfl
  | b, (j, c) :: m, hm => by
    simp only [sortedFrom, Bool.and_eq_true, decide_eq_true_eq] at hm
    by_cases h : k = j
    · subst h; simpa [del] using get?_of_sorted (Nat.lt_succ_self _) hm.2
    · have h3 : ¬ j = k := fun e => h e.symm
      simp [del, h, get?, h3, get?_del_self k hm.2]

theorem Sparse.get?_del_ne {k j : Nat} (h : j ≠ k) (m : List (Nat × α)) : get? j (del k m) = get? j m := by
  induction m with
  | nil => rfl
  | cons x m ih =>
    obtain ⟨i, b⟩ := x
    by_cases h2 : k = i
    · subst h2; simp [del, get?, h.symm]
    · simp [del, h2, get?, ih]

variable [DecidableEq α]

theorem Sparse.wf_iff {d : α} {m : List (Nat × α)} : wf d m = true ↔ sortedFrom 0 m = true ∧ ∀ c ∈ m, c.2 ≠ d := by
  simp [wf]

omit [DecidableEq α] in
theorem Sparse.mem_put {k : Nat} {a : α} {c : Nat × α} :
    ∀ {m : List (Nat × α)}, c ∈ put k a m → c = (k, a) ∨ c ∈ m
  | [], h => by simp_all [put]
  | (j, b) :: m, h => by
    simp only [put] at h
    split at h
    · simp_all
    · split at h
      · simp_all; tauto
      · rcases List.mem_cons.mp h with h | h
        · simp [h]
        · rcases mem_put h with h | h <;> simp [h]

omit [DecidableEq α] in
theorem Sparse.mem_del {k : Nat} {c : Nat × α} : ∀ {m : List (Nat × α)}, c ∈ del k m → c ∈ m
  | [], h => h
  | (j, b) :: m, h => by
    simp only [del] at h
    split at h
    · exact List.mem_cons_of_mem _ h
    · rcases List.mem_cons.mp h with h | h
      · simp [h]
      · exact List.mem_cons_of_mem _ (mem_del h)

/-- A write keeps the canonical form. -/
theorem Sparse.wf_set {d : α} {m : List (Nat × α)} (h : wf d m = true) (k : Nat) (a : α) : wf d (set d m k a) = true := by
  rw [wf_iff] at h ⊢
  unfold set
  split
  · exact ⟨sortedFrom_del k h.1, fun c hc => h.2 c (mem_del hc)⟩
  · refine ⟨sortedFrom_put k a (Nat.zero_le _) h.1, fun c hc => ?_⟩
    rcases mem_put hc with rfl | hc
    · assumption
    · exact h.2 c hc

/-- A write of a run keeps the canonical form. -/
theorem Sparse.wf_setRange {d : α} : ∀ (as : List α) {m : List (Nat × α)} (k : Nat), wf d m = true →
    wf d (setRange d m k as) = true
  | [], _, _, h => h
  | a :: as, _, k, h => wf_setRange as (k + 1) (wf_set h k a)

/-- A read after a write: the value written at its key, the value of before at every other. -/
theorem Sparse.get_set {d : α} {m : List (Nat × α)} (h : wf d m = true) (k j : Nat) (a : α) :
    get d (set d m k a) j = if j = k then a else get d m j := by
  rw [wf_iff] at h
  unfold set get
  split
  · rename_i ha; subst ha
    split
    · rename_i hj; subst hj; simp [get?_del_self j h.1]
    · rename_i hj; rw [get?_del_ne hj]
  · split
    · rename_i hj; subst hj; simp
    · rename_i hj; rw [get?_put_ne hj]

/-- A read after a write of a run. -/
theorem Sparse.get_setRange {d : α} : ∀ (as : List α) {m : List (Nat × α)} (k j : Nat), wf d m = true →
    get d (setRange d m k as) j = if k ≤ j ∧ j < k + as.length then as.getD (j - k) d else get d m j
  | [], _, k, j, _ => by
    have : ¬ (k ≤ j ∧ j < k) := by omega
    simp [setRange]
  | a :: as, m, k, j, h => by
    rw [setRange, get_setRange as (k + 1) j (wf_set h k a), get_set h]
    by_cases h1 : j = k
    · subst h1; simp
    · by_cases h2 : k + 1 ≤ j ∧ j < k + 1 + as.length
      · have h3 : k ≤ j ∧ j < k + (a :: as).length := by simp; omega
        have h4 : j - k = (j - (k + 1)) + 1 := by omega
        rw [if_pos h2, if_pos h3, h4]; simp
      · have h3 : ¬ (k ≤ j ∧ j < k + (a :: as).length) := by simp; omega
        rw [if_neg h2, if_neg h3, if_neg h1]

end Sys2Proof
end

