-- ==== Sys2Proof/Laws/State.lean ====
section
/-!
SUPPORT. What each named update of the state leaves alone: one lemma for each field it does not change.
-/

namespace Sys2Proof.Machine

@[simp] theorem State.setCore_dtime (s : State) (c : Nat) (k : Core) : (s.setCore c k).dtime = s.dtime := rfl
@[simp] theorem State.setCore_peer (s : State) (c : Nat) (k : Core) : (s.setCore c k).peer = s.peer := rfl
@[simp] theorem State.setCore_poolFree (s : State) (c : Nat) (k : Core) : (s.setCore c k).poolFree = s.poolFree := rfl
@[simp] theorem State.setCore_tokWait (s : State) (c : Nat) (k : Core) : (s.setCore c k).tokWait = s.tokWait := rfl
@[simp] theorem State.setCore_mem (s : State) (c : Nat) (k : Core) : (s.setCore c k).mem = s.mem := rfl
@[simp] theorem State.setCore_kern (s : State) (c : Nat) (k : Core) : (s.setCore c k).kern = s.kern := rfl
@[simp] theorem State.setCore_host (s : State) (c : Nat) (k : Core) : (s.setCore c k).host = s.host := rfl
@[simp] theorem State.setCore_league (s : State) (c : Nat) (k : Core) : (s.setCore c k).league = s.league := rfl
@[simp] theorem State.setCore_board (s : State) (c : Nat) (k : Core) : (s.setCore c k).board = s.board := rfl
@[simp] theorem State.setCore_boot (s : State) (c : Nat) (k : Core) : (s.setCore c k).boot = s.boot := rfl
@[simp] theorem State.setCore_next (s : State) (c : Nat) (k : Core) : (s.setCore c k).next = s.next := rfl
@[simp] theorem State.setCore_agenda (s : State) (c : Nat) (k : Core) : (s.setCore c k).agenda = s.agenda := rfl
@[simp] theorem State.setCore_cur (s : State) (c : Nat) (k : Core) : (s.setCore c k).cur = s.cur := rfl
@[simp] theorem State.setCore_free (s : State) (c : Nat) (k : Core) : (s.setCore c k).free = s.free := rfl

@[simp] theorem State.updCore_dtime (s : State) (c : Nat) (f : Core → Core) : (s.updCore c f).dtime = s.dtime := rfl
@[simp] theorem State.updCore_peer (s : State) (c : Nat) (f : Core → Core) : (s.updCore c f).peer = s.peer := rfl
@[simp] theorem State.updCore_poolFree (s : State) (c : Nat) (f : Core → Core) : (s.updCore c f).poolFree = s.poolFree := rfl
@[simp] theorem State.updCore_tokWait (s : State) (c : Nat) (f : Core → Core) : (s.updCore c f).tokWait = s.tokWait := rfl
@[simp] theorem State.updCore_mem (s : State) (c : Nat) (f : Core → Core) : (s.updCore c f).mem = s.mem := rfl
@[simp] theorem State.updCore_kern (s : State) (c : Nat) (f : Core → Core) : (s.updCore c f).kern = s.kern := rfl
@[simp] theorem State.updCore_host (s : State) (c : Nat) (f : Core → Core) : (s.updCore c f).host = s.host := rfl
@[simp] theorem State.updCore_league (s : State) (c : Nat) (f : Core → Core) : (s.updCore c f).league = s.league := rfl
@[simp] theorem State.updCore_board (s : State) (c : Nat) (f : Core → Core) : (s.updCore c f).board = s.board := rfl
@[simp] theorem State.updCore_boot (s : State) (c : Nat) (f : Core → Core) : (s.updCore c f).boot = s.boot := rfl
@[simp] theorem State.updCore_next (s : State) (c : Nat) (f : Core → Core) : (s.updCore c f).next = s.next := rfl
@[simp] theorem State.updCore_agenda (s : State) (c : Nat) (f : Core → Core) : (s.updCore c f).agenda = s.agenda := rfl
@[simp] theorem State.updCore_cur (s : State) (c : Nat) (f : Core → Core) : (s.updCore c f).cur = s.cur := rfl
@[simp] theorem State.updCore_free (s : State) (c : Nat) (f : Core → Core) : (s.updCore c f).free = s.free := rfl

@[simp] theorem State.setWave_dtime (s : State) (c k : Nat) (w : Wave) : (s.setWave c k w).dtime = s.dtime := rfl
@[simp] theorem State.setWave_peer (s : State) (c k : Nat) (w : Wave) : (s.setWave c k w).peer = s.peer := rfl
@[simp] theorem State.setWave_poolFree (s : State) (c k : Nat) (w : Wave) : (s.setWave c k w).poolFree = s.poolFree := rfl
@[simp] theorem State.setWave_tokWait (s : State) (c k : Nat) (w : Wave) : (s.setWave c k w).tokWait = s.tokWait := rfl
@[simp] theorem State.setWave_mem (s : State) (c k : Nat) (w : Wave) : (s.setWave c k w).mem = s.mem := rfl
@[simp] theorem State.setWave_kern (s : State) (c k : Nat) (w : Wave) : (s.setWave c k w).kern = s.kern := rfl
@[simp] theorem State.setWave_host (s : State) (c k : Nat) (w : Wave) : (s.setWave c k w).host = s.host := rfl
@[simp] theorem State.setWave_league (s : State) (c k : Nat) (w : Wave) : (s.setWave c k w).league = s.league := rfl
@[simp] theorem State.setWave_board (s : State) (c k : Nat) (w : Wave) : (s.setWave c k w).board = s.board := rfl
@[simp] theorem State.setWave_boot (s : State) (c k : Nat) (w : Wave) : (s.setWave c k w).boot = s.boot := rfl
@[simp] theorem State.setWave_next (s : State) (c k : Nat) (w : Wave) : (s.setWave c k w).next = s.next := rfl
@[simp] theorem State.setWave_agenda (s : State) (c k : Nat) (w : Wave) : (s.setWave c k w).agenda = s.agenda := rfl
@[simp] theorem State.setWave_cur (s : State) (c k : Nat) (w : Wave) : (s.setWave c k w).cur = s.cur := rfl
@[simp] theorem State.setWave_free (s : State) (c k : Nat) (w : Wave) : (s.setWave c k w).free = s.free := rfl

@[simp] theorem State.put_dtime (s : State) (c : Ctx) (w : Wave) : (s.put c w).dtime = s.dtime := rfl
@[simp] theorem State.put_peer (s : State) (c : Ctx) (w : Wave) : (s.put c w).peer = s.peer := rfl
@[simp] theorem State.put_poolFree (s : State) (c : Ctx) (w : Wave) : (s.put c w).poolFree = s.poolFree := rfl
@[simp] theorem State.put_tokWait (s : State) (c : Ctx) (w : Wave) : (s.put c w).tokWait = s.tokWait := rfl
@[simp] theorem State.put_mem (s : State) (c : Ctx) (w : Wave) : (s.put c w).mem = s.mem := rfl
@[simp] theorem State.put_kern (s : State) (c : Ctx) (w : Wave) : (s.put c w).kern = s.kern := rfl
@[simp] theorem State.put_host (s : State) (c : Ctx) (w : Wave) : (s.put c w).host = s.host := rfl
@[simp] theorem State.put_league (s : State) (c : Ctx) (w : Wave) : (s.put c w).league = s.league := rfl
@[simp] theorem State.put_board (s : State) (c : Ctx) (w : Wave) : (s.put c w).board = s.board := rfl
@[simp] theorem State.put_boot (s : State) (c : Ctx) (w : Wave) : (s.put c w).boot = s.boot := rfl
@[simp] theorem State.put_next (s : State) (c : Ctx) (w : Wave) : (s.put c w).next = s.next := rfl
@[simp] theorem State.put_agenda (s : State) (c : Ctx) (w : Wave) : (s.put c w).agenda = s.agenda := rfl
@[simp] theorem State.put_cur (s : State) (c : Ctx) (w : Wave) : (s.put c w).cur = s.cur := rfl
@[simp] theorem State.put_free (s : State) (c : Ctx) (w : Wave) : (s.put c w).free = s.free := rfl

@[simp] theorem State.updWave_dtime (s : State) (c k : Nat) (f : Wave → Wave) : (s.updWave c k f).dtime = s.dtime := by unfold State.updWave; split <;> rfl
@[simp] theorem State.updWave_peer (s : State) (c k : Nat) (f : Wave → Wave) : (s.updWave c k f).peer = s.peer := by unfold State.updWave; split <;> rfl
@[simp] theorem State.updWave_poolFree (s : State) (c k : Nat) (f : Wave → Wave) : (s.updWave c k f).poolFree = s.poolFree := by unfold State.updWave; split <;> rfl
@[simp] theorem State.updWave_tokWait (s : State) (c k : Nat) (f : Wave → Wave) : (s.updWave c k f).tokWait = s.tokWait := by unfold State.updWave; split <;> rfl
@[simp] theorem State.updWave_mem (s : State) (c k : Nat) (f : Wave → Wave) : (s.updWave c k f).mem = s.mem := by unfold State.updWave; split <;> rfl
@[simp] theorem State.updWave_kern (s : State) (c k : Nat) (f : Wave → Wave) : (s.updWave c k f).kern = s.kern := by unfold State.updWave; split <;> rfl
@[simp] theorem State.updWave_host (s : State) (c k : Nat) (f : Wave → Wave) : (s.updWave c k f).host = s.host := by unfold State.updWave; split <;> rfl
@[simp] theorem State.updWave_league (s : State) (c k : Nat) (f : Wave → Wave) : (s.updWave c k f).league = s.league := by unfold State.updWave; split <;> rfl
@[simp] theorem State.updWave_board (s : State) (c k : Nat) (f : Wave → Wave) : (s.updWave c k f).board = s.board := by unfold State.updWave; split <;> rfl
@[simp] theorem State.updWave_boot (s : State) (c k : Nat) (f : Wave → Wave) : (s.updWave c k f).boot = s.boot := by unfold State.updWave; split <;> rfl
@[simp] theorem State.updWave_next (s : State) (c k : Nat) (f : Wave → Wave) : (s.updWave c k f).next = s.next := by unfold State.updWave; split <;> rfl
@[simp] theorem State.updWave_agenda (s : State) (c k : Nat) (f : Wave → Wave) : (s.updWave c k f).agenda = s.agenda := by unfold State.updWave; split <;> rfl
@[simp] theorem State.updWave_cur (s : State) (c k : Nat) (f : Wave → Wave) : (s.updWave c k f).cur = s.cur := by unfold State.updWave; split <;> rfl
@[simp] theorem State.updWave_free (s : State) (c k : Nat) (f : Wave → Wave) : (s.updWave c k f).free = s.free := by unfold State.updWave; split <;> rfl

@[simp] theorem State.updPath_dtime (s : State) (c : Ctx) (f : Path → Path) : (s.updPath c f).dtime = s.dtime := by simp [State.updPath]
@[simp] theorem State.updPath_peer (s : State) (c : Ctx) (f : Path → Path) : (s.updPath c f).peer = s.peer := by simp [State.updPath]
@[simp] theorem State.updPath_poolFree (s : State) (c : Ctx) (f : Path → Path) : (s.updPath c f).poolFree = s.poolFree := by simp [State.updPath]
@[simp] theorem State.updPath_tokWait (s : State) (c : Ctx) (f : Path → Path) : (s.updPath c f).tokWait = s.tokWait := by simp [State.updPath]
@[simp] theorem State.updPath_mem (s : State) (c : Ctx) (f : Path → Path) : (s.updPath c f).mem = s.mem := by simp [State.updPath]
@[simp] theorem State.updPath_kern (s : State) (c : Ctx) (f : Path → Path) : (s.updPath c f).kern = s.kern := by simp [State.updPath]
@[simp] theorem State.updPath_host (s : State) (c : Ctx) (f : Path → Path) : (s.updPath c f).host = s.host := by simp [State.updPath]
@[simp] theorem State.updPath_league (s : State) (c : Ctx) (f : Path → Path) : (s.updPath c f).league = s.league := by simp [State.updPath]
@[simp] theorem State.updPath_board (s : State) (c : Ctx) (f : Path → Path) : (s.updPath c f).board = s.board := by simp [State.updPath]
@[simp] theorem State.updPath_boot (s : State) (c : Ctx) (f : Path → Path) : (s.updPath c f).boot = s.boot := by simp [State.updPath]
@[simp] theorem State.updPath_next (s : State) (c : Ctx) (f : Path → Path) : (s.updPath c f).next = s.next := by simp [State.updPath]
@[simp] theorem State.updPath_agenda (s : State) (c : Ctx) (f : Path → Path) : (s.updPath c f).agenda = s.agenda := by simp [State.updPath]
@[simp] theorem State.updPath_cur (s : State) (c : Ctx) (f : Path → Path) : (s.updPath c f).cur = s.cur := by simp [State.updPath]
@[simp] theorem State.updPath_free (s : State) (c : Ctx) (f : Path → Path) : (s.updPath c f).free = s.free := by simp [State.updPath]

@[simp] theorem State.setPc_dtime (s : State) (c : Ctx) (pc : Nat) : (s.setPc c pc).dtime = s.dtime := by simp [State.setPc]
@[simp] theorem State.setPc_peer (s : State) (c : Ctx) (pc : Nat) : (s.setPc c pc).peer = s.peer := by simp [State.setPc]
@[simp] theorem State.setPc_poolFree (s : State) (c : Ctx) (pc : Nat) : (s.setPc c pc).poolFree = s.poolFree := by simp [State.setPc]
@[simp] theorem State.setPc_tokWait (s : State) (c : Ctx) (pc : Nat) : (s.setPc c pc).tokWait = s.tokWait := by simp [State.setPc]
@[simp] theorem State.setPc_mem (s : State) (c : Ctx) (pc : Nat) : (s.setPc c pc).mem = s.mem := by simp [State.setPc]
@[simp] theorem State.setPc_kern (s : State) (c : Ctx) (pc : Nat) : (s.setPc c pc).kern = s.kern := by simp [State.setPc]
@[simp] theorem State.setPc_host (s : State) (c : Ctx) (pc : Nat) : (s.setPc c pc).host = s.host := by simp [State.setPc]
@[simp] theorem State.setPc_league (s : State) (c : Ctx) (pc : Nat) : (s.setPc c pc).league = s.league := by simp [State.setPc]
@[simp] theorem State.setPc_board (s : State) (c : Ctx) (pc : Nat) : (s.setPc c pc).board = s.board := by simp [State.setPc]
@[simp] theorem State.setPc_boot (s : State) (c : Ctx) (pc : Nat) : (s.setPc c pc).boot = s.boot := by simp [State.setPc]
@[simp] theorem State.setPc_next (s : State) (c : Ctx) (pc : Nat) : (s.setPc c pc).next = s.next := by simp [State.setPc]
@[simp] theorem State.setPc_agenda (s : State) (c : Ctx) (pc : Nat) : (s.setPc c pc).agenda = s.agenda := by simp [State.setPc]
@[simp] theorem State.setPc_cur (s : State) (c : Ctx) (pc : Nat) : (s.setPc c pc).cur = s.cur := by simp [State.setPc]
@[simp] theorem State.setPc_free (s : State) (c : Ctx) (pc : Nat) : (s.setPc c pc).free = s.free := by simp [State.setPc]

@[simp] theorem State.setProg_dtime (s : State) (c : Ctx) (m : Mask) (k : Nat) : (s.setProg c m k).dtime = s.dtime := by simp [State.setProg]
@[simp] theorem State.setProg_peer (s : State) (c : Ctx) (m : Mask) (k : Nat) : (s.setProg c m k).peer = s.peer := by simp [State.setProg]
@[simp] theorem State.setProg_poolFree (s : State) (c : Ctx) (m : Mask) (k : Nat) : (s.setProg c m k).poolFree = s.poolFree := by simp [State.setProg]
@[simp] theorem State.setProg_tokWait (s : State) (c : Ctx) (m : Mask) (k : Nat) : (s.setProg c m k).tokWait = s.tokWait := by simp [State.setProg]
@[simp] theorem State.setProg_mem (s : State) (c : Ctx) (m : Mask) (k : Nat) : (s.setProg c m k).mem = s.mem := by simp [State.setProg]
@[simp] theorem State.setProg_kern (s : State) (c : Ctx) (m : Mask) (k : Nat) : (s.setProg c m k).kern = s.kern := by simp [State.setProg]
@[simp] theorem State.setProg_host (s : State) (c : Ctx) (m : Mask) (k : Nat) : (s.setProg c m k).host = s.host := by simp [State.setProg]
@[simp] theorem State.setProg_league (s : State) (c : Ctx) (m : Mask) (k : Nat) : (s.setProg c m k).league = s.league := by simp [State.setProg]
@[simp] theorem State.setProg_board (s : State) (c : Ctx) (m : Mask) (k : Nat) : (s.setProg c m k).board = s.board := by simp [State.setProg]
@[simp] theorem State.setProg_boot (s : State) (c : Ctx) (m : Mask) (k : Nat) : (s.setProg c m k).boot = s.boot := by simp [State.setProg]
@[simp] theorem State.setProg_next (s : State) (c : Ctx) (m : Mask) (k : Nat) : (s.setProg c m k).next = s.next := by simp [State.setProg]
@[simp] theorem State.setProg_agenda (s : State) (c : Ctx) (m : Mask) (k : Nat) : (s.setProg c m k).agenda = s.agenda := by simp [State.setProg]
@[simp] theorem State.setProg_cur (s : State) (c : Ctx) (m : Mask) (k : Nat) : (s.setProg c m k).cur = s.cur := by simp [State.setProg]
@[simp] theorem State.setProg_free (s : State) (c : Ctx) (m : Mask) (k : Nat) : (s.setProg c m k).free = s.free := by simp [State.setProg]

@[simp] theorem State.bumpSfr_dtime (s : State) (c : Ctx) : (s.bumpSfr c).dtime = s.dtime := by simp [State.bumpSfr]
@[simp] theorem State.bumpSfr_peer (s : State) (c : Ctx) : (s.bumpSfr c).peer = s.peer := by simp [State.bumpSfr]
@[simp] theorem State.bumpSfr_poolFree (s : State) (c : Ctx) : (s.bumpSfr c).poolFree = s.poolFree := by simp [State.bumpSfr]
@[simp] theorem State.bumpSfr_tokWait (s : State) (c : Ctx) : (s.bumpSfr c).tokWait = s.tokWait := by simp [State.bumpSfr]
@[simp] theorem State.bumpSfr_mem (s : State) (c : Ctx) : (s.bumpSfr c).mem = s.mem := by simp [State.bumpSfr]
@[simp] theorem State.bumpSfr_kern (s : State) (c : Ctx) : (s.bumpSfr c).kern = s.kern := by simp [State.bumpSfr]
@[simp] theorem State.bumpSfr_host (s : State) (c : Ctx) : (s.bumpSfr c).host = s.host := by simp [State.bumpSfr]
@[simp] theorem State.bumpSfr_league (s : State) (c : Ctx) : (s.bumpSfr c).league = s.league := by simp [State.bumpSfr]
@[simp] theorem State.bumpSfr_board (s : State) (c : Ctx) : (s.bumpSfr c).board = s.board := by simp [State.bumpSfr]
@[simp] theorem State.bumpSfr_boot (s : State) (c : Ctx) : (s.bumpSfr c).boot = s.boot := by simp [State.bumpSfr]
@[simp] theorem State.bumpSfr_next (s : State) (c : Ctx) : (s.bumpSfr c).next = s.next := by simp [State.bumpSfr]
@[simp] theorem State.bumpSfr_agenda (s : State) (c : Ctx) : (s.bumpSfr c).agenda = s.agenda := by simp [State.bumpSfr]
@[simp] theorem State.bumpSfr_cur (s : State) (c : Ctx) : (s.bumpSfr c).cur = s.cur := by simp [State.bumpSfr]
@[simp] theorem State.bumpSfr_free (s : State) (c : Ctx) : (s.bumpSfr c).free = s.free := by simp [State.bumpSfr]

@[simp] theorem State.setSpad_dtime (s : State) (c a : Nat) (bs : List Byte) : (s.setSpad c a bs).dtime = s.dtime := rfl
@[simp] theorem State.setSpad_peer (s : State) (c a : Nat) (bs : List Byte) : (s.setSpad c a bs).peer = s.peer := rfl
@[simp] theorem State.setSpad_poolFree (s : State) (c a : Nat) (bs : List Byte) : (s.setSpad c a bs).poolFree = s.poolFree := rfl
@[simp] theorem State.setSpad_tokWait (s : State) (c a : Nat) (bs : List Byte) : (s.setSpad c a bs).tokWait = s.tokWait := rfl
@[simp] theorem State.setSpad_mem (s : State) (c a : Nat) (bs : List Byte) : (s.setSpad c a bs).mem = s.mem := rfl
@[simp] theorem State.setSpad_kern (s : State) (c a : Nat) (bs : List Byte) : (s.setSpad c a bs).kern = s.kern := rfl
@[simp] theorem State.setSpad_host (s : State) (c a : Nat) (bs : List Byte) : (s.setSpad c a bs).host = s.host := rfl
@[simp] theorem State.setSpad_league (s : State) (c a : Nat) (bs : List Byte) : (s.setSpad c a bs).league = s.league := rfl
@[simp] theorem State.setSpad_board (s : State) (c a : Nat) (bs : List Byte) : (s.setSpad c a bs).board = s.board := rfl
@[simp] theorem State.setSpad_boot (s : State) (c a : Nat) (bs : List Byte) : (s.setSpad c a bs).boot = s.boot := rfl
@[simp] theorem State.setSpad_next (s : State) (c a : Nat) (bs : List Byte) : (s.setSpad c a bs).next = s.next := rfl
@[simp] theorem State.setSpad_agenda (s : State) (c a : Nat) (bs : List Byte) : (s.setSpad c a bs).agenda = s.agenda := rfl
@[simp] theorem State.setSpad_cur (s : State) (c a : Nat) (bs : List Byte) : (s.setSpad c a bs).cur = s.cur := rfl
@[simp] theorem State.setSpad_free (s : State) (c a : Nat) (bs : List Byte) : (s.setSpad c a bs).free = s.free := rfl

@[simp] theorem State.updMSet_dtime (s : State) (c t : Nat) (f : MSet → MSet) : (s.updMSet c t f).dtime = s.dtime := rfl
@[simp] theorem State.updMSet_peer (s : State) (c t : Nat) (f : MSet → MSet) : (s.updMSet c t f).peer = s.peer := rfl
@[simp] theorem State.updMSet_poolFree (s : State) (c t : Nat) (f : MSet → MSet) : (s.updMSet c t f).poolFree = s.poolFree := rfl
@[simp] theorem State.updMSet_tokWait (s : State) (c t : Nat) (f : MSet → MSet) : (s.updMSet c t f).tokWait = s.tokWait := rfl
@[simp] theorem State.updMSet_mem (s : State) (c t : Nat) (f : MSet → MSet) : (s.updMSet c t f).mem = s.mem := rfl
@[simp] theorem State.updMSet_kern (s : State) (c t : Nat) (f : MSet → MSet) : (s.updMSet c t f).kern = s.kern := rfl
@[simp] theorem State.updMSet_host (s : State) (c t : Nat) (f : MSet → MSet) : (s.updMSet c t f).host = s.host := rfl
@[simp] theorem State.updMSet_league (s : State) (c t : Nat) (f : MSet → MSet) : (s.updMSet c t f).league = s.league := rfl
@[simp] theorem State.updMSet_board (s : State) (c t : Nat) (f : MSet → MSet) : (s.updMSet c t f).board = s.board := rfl
@[simp] theorem State.updMSet_boot (s : State) (c t : Nat) (f : MSet → MSet) : (s.updMSet c t f).boot = s.boot := rfl
@[simp] theorem State.updMSet_next (s : State) (c t : Nat) (f : MSet → MSet) : (s.updMSet c t f).next = s.next := rfl
@[simp] theorem State.updMSet_agenda (s : State) (c t : Nat) (f : MSet → MSet) : (s.updMSet c t f).agenda = s.agenda := rfl
@[simp] theorem State.updMSet_cur (s : State) (c t : Nat) (f : MSet → MSet) : (s.updMSet c t f).cur = s.cur := rfl
@[simp] theorem State.updMSet_free (s : State) (c t : Nat) (f : MSet → MSet) : (s.updMSet c t f).free = s.free := rfl

@[simp] theorem State.setBytes_dtime (s : State) (a : Nat) (bs : List Byte) : (s.setBytes a bs).dtime = s.dtime := rfl
@[simp] theorem State.setBytes_peer (s : State) (a : Nat) (bs : List Byte) : (s.setBytes a bs).peer = s.peer := rfl
@[simp] theorem State.setBytes_poolFree (s : State) (a : Nat) (bs : List Byte) : (s.setBytes a bs).poolFree = s.poolFree := rfl
@[simp] theorem State.setBytes_tokWait (s : State) (a : Nat) (bs : List Byte) : (s.setBytes a bs).tokWait = s.tokWait := rfl
@[simp] theorem State.setBytes_cores (s : State) (a : Nat) (bs : List Byte) : (s.setBytes a bs).cores = s.cores := rfl
@[simp] theorem State.setBytes_kern (s : State) (a : Nat) (bs : List Byte) : (s.setBytes a bs).kern = s.kern := rfl
@[simp] theorem State.setBytes_host (s : State) (a : Nat) (bs : List Byte) : (s.setBytes a bs).host = s.host := rfl
@[simp] theorem State.setBytes_league (s : State) (a : Nat) (bs : List Byte) : (s.setBytes a bs).league = s.league := rfl
@[simp] theorem State.setBytes_board (s : State) (a : Nat) (bs : List Byte) : (s.setBytes a bs).board = s.board := rfl
@[simp] theorem State.setBytes_boot (s : State) (a : Nat) (bs : List Byte) : (s.setBytes a bs).boot = s.boot := rfl
@[simp] theorem State.setBytes_next (s : State) (a : Nat) (bs : List Byte) : (s.setBytes a bs).next = s.next := rfl
@[simp] theorem State.setBytes_agenda (s : State) (a : Nat) (bs : List Byte) : (s.setBytes a bs).agenda = s.agenda := rfl
@[simp] theorem State.setBytes_cur (s : State) (a : Nat) (bs : List Byte) : (s.setBytes a bs).cur = s.cur := rfl
@[simp] theorem State.setBytes_free (s : State) (a : Nat) (bs : List Byte) : (s.setBytes a bs).free = s.free := rfl

@[simp] theorem State.setNum_dtime (s : State) (a n v : Nat) : (s.setNum a n v).dtime = s.dtime := rfl
@[simp] theorem State.setNum_peer (s : State) (a n v : Nat) : (s.setNum a n v).peer = s.peer := rfl
@[simp] theorem State.setNum_poolFree (s : State) (a n v : Nat) : (s.setNum a n v).poolFree = s.poolFree := rfl
@[simp] theorem State.setNum_tokWait (s : State) (a n v : Nat) : (s.setNum a n v).tokWait = s.tokWait := rfl
@[simp] theorem State.setNum_cores (s : State) (a n v : Nat) : (s.setNum a n v).cores = s.cores := rfl
@[simp] theorem State.setNum_kern (s : State) (a n v : Nat) : (s.setNum a n v).kern = s.kern := rfl
@[simp] theorem State.setNum_host (s : State) (a n v : Nat) : (s.setNum a n v).host = s.host := rfl
@[simp] theorem State.setNum_league (s : State) (a n v : Nat) : (s.setNum a n v).league = s.league := rfl
@[simp] theorem State.setNum_board (s : State) (a n v : Nat) : (s.setNum a n v).board = s.board := rfl
@[simp] theorem State.setNum_boot (s : State) (a n v : Nat) : (s.setNum a n v).boot = s.boot := rfl
@[simp] theorem State.setNum_next (s : State) (a n v : Nat) : (s.setNum a n v).next = s.next := rfl
@[simp] theorem State.setNum_agenda (s : State) (a n v : Nat) : (s.setNum a n v).agenda = s.agenda := rfl
@[simp] theorem State.setNum_cur (s : State) (a n v : Nat) : (s.setNum a n v).cur = s.cur := rfl
@[simp] theorem State.setNum_free (s : State) (a n v : Nat) : (s.setNum a n v).free = s.free := rfl

@[simp] theorem State.setCopy_dtime (s : State) (u g : Nat) (x : Copy) : (s.setCopy u g x).dtime = s.dtime := rfl
@[simp] theorem State.setCopy_peer (s : State) (u g : Nat) (x : Copy) : (s.setCopy u g x).peer = s.peer := rfl
@[simp] theorem State.setCopy_poolFree (s : State) (u g : Nat) (x : Copy) : (s.setCopy u g x).poolFree = s.poolFree := rfl
@[simp] theorem State.setCopy_tokWait (s : State) (u g : Nat) (x : Copy) : (s.setCopy u g x).tokWait = s.tokWait := rfl
@[simp] theorem State.setCopy_cores (s : State) (u g : Nat) (x : Copy) : (s.setCopy u g x).cores = s.cores := rfl
@[simp] theorem State.setCopy_kern (s : State) (u g : Nat) (x : Copy) : (s.setCopy u g x).kern = s.kern := rfl
@[simp] theorem State.setCopy_host (s : State) (u g : Nat) (x : Copy) : (s.setCopy u g x).host = s.host := rfl
@[simp] theorem State.setCopy_league (s : State) (u g : Nat) (x : Copy) : (s.setCopy u g x).league = s.league := rfl
@[simp] theorem State.setCopy_board (s : State) (u g : Nat) (x : Copy) : (s.setCopy u g x).board = s.board := rfl
@[simp] theorem State.setCopy_boot (s : State) (u g : Nat) (x : Copy) : (s.setCopy u g x).boot = s.boot := rfl
@[simp] theorem State.setCopy_next (s : State) (u g : Nat) (x : Copy) : (s.setCopy u g x).next = s.next := rfl
@[simp] theorem State.setCopy_agenda (s : State) (u g : Nat) (x : Copy) : (s.setCopy u g x).agenda = s.agenda := rfl
@[simp] theorem State.setCopy_cur (s : State) (u g : Nat) (x : Copy) : (s.setCopy u g x).cur = s.cur := rfl
@[simp] theorem State.setCopy_free (s : State) (u g : Nat) (x : Copy) : (s.setCopy u g x).free = s.free := rfl

@[simp] theorem State.dropCopy_dtime (s : State) (u g : Nat) : (s.dropCopy u g).dtime = s.dtime := rfl
@[simp] theorem State.dropCopy_peer (s : State) (u g : Nat) : (s.dropCopy u g).peer = s.peer := rfl
@[simp] theorem State.dropCopy_poolFree (s : State) (u g : Nat) : (s.dropCopy u g).poolFree = s.poolFree := rfl
@[simp] theorem State.dropCopy_tokWait (s : State) (u g : Nat) : (s.dropCopy u g).tokWait = s.tokWait := rfl
@[simp] theorem State.dropCopy_cores (s : State) (u g : Nat) : (s.dropCopy u g).cores = s.cores := rfl
@[simp] theorem State.dropCopy_kern (s : State) (u g : Nat) : (s.dropCopy u g).kern = s.kern := rfl
@[simp] theorem State.dropCopy_host (s : State) (u g : Nat) : (s.dropCopy u g).host = s.host := rfl
@[simp] theorem State.dropCopy_league (s : State) (u g : Nat) : (s.dropCopy u g).league = s.league := rfl
@[simp] theorem State.dropCopy_board (s : State) (u g : Nat) : (s.dropCopy u g).board = s.board := rfl
@[simp] theorem State.dropCopy_boot (s : State) (u g : Nat) : (s.dropCopy u g).boot = s.boot := rfl
@[simp] theorem State.dropCopy_next (s : State) (u g : Nat) : (s.dropCopy u g).next = s.next := rfl
@[simp] theorem State.dropCopy_agenda (s : State) (u g : Nat) : (s.dropCopy u g).agenda = s.agenda := rfl
@[simp] theorem State.dropCopy_cur (s : State) (u g : Nat) : (s.dropCopy u g).cur = s.cur := rfl
@[simp] theorem State.dropCopy_free (s : State) (u g : Nat) : (s.dropCopy u g).free = s.free := rfl

@[simp] theorem State.retire_dtime (s : State) (a : Nat) : (s.retire a).dtime = s.dtime := by unfold State.retire; split <;> rfl
@[simp] theorem State.retire_peer (s : State) (a : Nat) : (s.retire a).peer = s.peer := by unfold State.retire; split <;> rfl
@[simp] theorem State.retire_poolFree (s : State) (a : Nat) : (s.retire a).poolFree = s.poolFree := by unfold State.retire; split <;> rfl
@[simp] theorem State.retire_tokWait (s : State) (a : Nat) : (s.retire a).tokWait = s.tokWait := by unfold State.retire; split <;> rfl
@[simp] theorem State.retire_cores (s : State) (a : Nat) : (s.retire a).cores = s.cores := by unfold State.retire; split <;> rfl
@[simp] theorem State.retire_kern (s : State) (a : Nat) : (s.retire a).kern = s.kern := by unfold State.retire; split <;> rfl
@[simp] theorem State.retire_host (s : State) (a : Nat) : (s.retire a).host = s.host := by unfold State.retire; split <;> rfl
@[simp] theorem State.retire_league (s : State) (a : Nat) : (s.retire a).league = s.league := by unfold State.retire; split <;> rfl
@[simp] theorem State.retire_board (s : State) (a : Nat) : (s.retire a).board = s.board := by unfold State.retire; split <;> rfl
@[simp] theorem State.retire_boot (s : State) (a : Nat) : (s.retire a).boot = s.boot := by unfold State.retire; split <;> rfl
@[simp] theorem State.retire_next (s : State) (a : Nat) : (s.retire a).next = s.next := by unfold State.retire; split <;> rfl
@[simp] theorem State.retire_agenda (s : State) (a : Nat) : (s.retire a).agenda = s.agenda := by unfold State.retire; split <;> rfl
@[simp] theorem State.retire_cur (s : State) (a : Nat) : (s.retire a).cur = s.cur := by unfold State.retire; split <;> rfl
@[simp] theorem State.retire_free (s : State) (a : Nat) : (s.retire a).free = s.free := by unfold State.retire; split <;> rfl

@[simp] theorem State.note_dtime (s : State) (sp : Space) (g k : Nat) (wr sync : Bool) : (s.note sp g k wr sync).dtime = s.dtime := rfl
@[simp] theorem State.note_peer (s : State) (sp : Space) (g k : Nat) (wr sync : Bool) : (s.note sp g k wr sync).peer = s.peer := rfl
@[simp] theorem State.note_poolFree (s : State) (sp : Space) (g k : Nat) (wr sync : Bool) : (s.note sp g k wr sync).poolFree = s.poolFree := rfl
@[simp] theorem State.note_tokWait (s : State) (sp : Space) (g k : Nat) (wr sync : Bool) : (s.note sp g k wr sync).tokWait = s.tokWait := rfl
@[simp] theorem State.note_cores (s : State) (sp : Space) (g k : Nat) (wr sync : Bool) : (s.note sp g k wr sync).cores = s.cores := rfl
@[simp] theorem State.note_kern (s : State) (sp : Space) (g k : Nat) (wr sync : Bool) : (s.note sp g k wr sync).kern = s.kern := rfl
@[simp] theorem State.note_host (s : State) (sp : Space) (g k : Nat) (wr sync : Bool) : (s.note sp g k wr sync).host = s.host := rfl
@[simp] theorem State.note_league (s : State) (sp : Space) (g k : Nat) (wr sync : Bool) : (s.note sp g k wr sync).league = s.league := rfl
@[simp] theorem State.note_board (s : State) (sp : Space) (g k : Nat) (wr sync : Bool) : (s.note sp g k wr sync).board = s.board := rfl
@[simp] theorem State.note_boot (s : State) (sp : Space) (g k : Nat) (wr sync : Bool) : (s.note sp g k wr sync).boot = s.boot := rfl
@[simp] theorem State.note_next (s : State) (sp : Space) (g k : Nat) (wr sync : Bool) : (s.note sp g k wr sync).next = s.next := rfl
@[simp] theorem State.note_agenda (s : State) (sp : Space) (g k : Nat) (wr sync : Bool) : (s.note sp g k wr sync).agenda = s.agenda := rfl
@[simp] theorem State.note_cur (s : State) (sp : Space) (g k : Nat) (wr sync : Bool) : (s.note sp g k wr sync).cur = s.cur := rfl
@[simp] theorem State.note_free (s : State) (sp : Space) (g k : Nat) (wr sync : Bool) : (s.note sp g k wr sync).free = s.free := rfl

@[simp] theorem State.widenRecords_dtime (s : State) (sp : Space) (k : Nat) : (s.widenRecords sp k).dtime = s.dtime := rfl
@[simp] theorem State.widenRecords_peer (s : State) (sp : Space) (k : Nat) : (s.widenRecords sp k).peer = s.peer := rfl
@[simp] theorem State.widenRecords_poolFree (s : State) (sp : Space) (k : Nat) : (s.widenRecords sp k).poolFree = s.poolFree := rfl
@[simp] theorem State.widenRecords_tokWait (s : State) (sp : Space) (k : Nat) : (s.widenRecords sp k).tokWait = s.tokWait := rfl
@[simp] theorem State.widenRecords_cores (s : State) (sp : Space) (k : Nat) : (s.widenRecords sp k).cores = s.cores := rfl
@[simp] theorem State.widenRecords_kern (s : State) (sp : Space) (k : Nat) : (s.widenRecords sp k).kern = s.kern := rfl
@[simp] theorem State.widenRecords_host (s : State) (sp : Space) (k : Nat) : (s.widenRecords sp k).host = s.host := rfl
@[simp] theorem State.widenRecords_league (s : State) (sp : Space) (k : Nat) : (s.widenRecords sp k).league = s.league := rfl
@[simp] theorem State.widenRecords_board (s : State) (sp : Space) (k : Nat) : (s.widenRecords sp k).board = s.board := rfl
@[simp] theorem State.widenRecords_boot (s : State) (sp : Space) (k : Nat) : (s.widenRecords sp k).boot = s.boot := rfl
@[simp] theorem State.widenRecords_next (s : State) (sp : Space) (k : Nat) : (s.widenRecords sp k).next = s.next := rfl
@[simp] theorem State.widenRecords_agenda (s : State) (sp : Space) (k : Nat) : (s.widenRecords sp k).agenda = s.agenda := rfl
@[simp] theorem State.widenRecords_cur (s : State) (sp : Space) (k : Nat) : (s.widenRecords sp k).cur = s.cur := rfl
@[simp] theorem State.widenRecords_free (s : State) (sp : Space) (k : Nat) : (s.widenRecords sp k).free = s.free := rfl

@[simp] theorem State.setObj_dtime (s : State) (i : Nat) (o : Obj) : (s.setObj i o).dtime = s.dtime := rfl
@[simp] theorem State.setObj_peer (s : State) (i : Nat) (o : Obj) : (s.setObj i o).peer = s.peer := rfl
@[simp] theorem State.setObj_poolFree (s : State) (i : Nat) (o : Obj) : (s.setObj i o).poolFree = s.poolFree := rfl
@[simp] theorem State.setObj_tokWait (s : State) (i : Nat) (o : Obj) : (s.setObj i o).tokWait = s.tokWait := rfl
@[simp] theorem State.setObj_mem (s : State) (i : Nat) (o : Obj) : (s.setObj i o).mem = s.mem := rfl
@[simp] theorem State.setObj_cores (s : State) (i : Nat) (o : Obj) : (s.setObj i o).cores = s.cores := rfl
@[simp] theorem State.setObj_host (s : State) (i : Nat) (o : Obj) : (s.setObj i o).host = s.host := rfl
@[simp] theorem State.setObj_league (s : State) (i : Nat) (o : Obj) : (s.setObj i o).league = s.league := rfl
@[simp] theorem State.setObj_board (s : State) (i : Nat) (o : Obj) : (s.setObj i o).board = s.board := rfl
@[simp] theorem State.setObj_boot (s : State) (i : Nat) (o : Obj) : (s.setObj i o).boot = s.boot := rfl
@[simp] theorem State.setObj_next (s : State) (i : Nat) (o : Obj) : (s.setObj i o).next = s.next := rfl
@[simp] theorem State.setObj_agenda (s : State) (i : Nat) (o : Obj) : (s.setObj i o).agenda = s.agenda := rfl
@[simp] theorem State.setObj_cur (s : State) (i : Nat) (o : Obj) : (s.setObj i o).cur = s.cur := rfl
@[simp] theorem State.setObj_free (s : State) (i : Nat) (o : Obj) : (s.setObj i o).free = s.free := rfl

@[simp] theorem State.updObj_dtime (s : State) (i : Nat) (f : Obj → Obj) : (s.updObj i f).dtime = s.dtime := rfl
@[simp] theorem State.updObj_peer (s : State) (i : Nat) (f : Obj → Obj) : (s.updObj i f).peer = s.peer := rfl
@[simp] theorem State.updObj_poolFree (s : State) (i : Nat) (f : Obj → Obj) : (s.updObj i f).poolFree = s.poolFree := rfl
@[simp] theorem State.updObj_tokWait (s : State) (i : Nat) (f : Obj → Obj) : (s.updObj i f).tokWait = s.tokWait := rfl
@[simp] theorem State.updObj_mem (s : State) (i : Nat) (f : Obj → Obj) : (s.updObj i f).mem = s.mem := rfl
@[simp] theorem State.updObj_cores (s : State) (i : Nat) (f : Obj → Obj) : (s.updObj i f).cores = s.cores := rfl
@[simp] theorem State.updObj_host (s : State) (i : Nat) (f : Obj → Obj) : (s.updObj i f).host = s.host := rfl
@[simp] theorem State.updObj_league (s : State) (i : Nat) (f : Obj → Obj) : (s.updObj i f).league = s.league := rfl
@[simp] theorem State.updObj_board (s : State) (i : Nat) (f : Obj → Obj) : (s.updObj i f).board = s.board := rfl
@[simp] theorem State.updObj_boot (s : State) (i : Nat) (f : Obj → Obj) : (s.updObj i f).boot = s.boot := rfl
@[simp] theorem State.updObj_next (s : State) (i : Nat) (f : Obj → Obj) : (s.updObj i f).next = s.next := rfl
@[simp] theorem State.updObj_agenda (s : State) (i : Nat) (f : Obj → Obj) : (s.updObj i f).agenda = s.agenda := rfl
@[simp] theorem State.updObj_cur (s : State) (i : Nat) (f : Obj → Obj) : (s.updObj i f).cur = s.cur := rfl
@[simp] theorem State.updObj_free (s : State) (i : Nat) (f : Obj → Obj) : (s.updObj i f).free = s.free := rfl

@[simp] theorem State.freeObj_dtime (s : State) (i : Nat) : (s.freeObj i).dtime = s.dtime := rfl
@[simp] theorem State.freeObj_peer (s : State) (i : Nat) : (s.freeObj i).peer = s.peer := rfl
@[simp] theorem State.freeObj_poolFree (s : State) (i : Nat) : (s.freeObj i).poolFree = s.poolFree := rfl
@[simp] theorem State.freeObj_tokWait (s : State) (i : Nat) : (s.freeObj i).tokWait = s.tokWait := rfl
@[simp] theorem State.freeObj_mem (s : State) (i : Nat) : (s.freeObj i).mem = s.mem := rfl
@[simp] theorem State.freeObj_cores (s : State) (i : Nat) : (s.freeObj i).cores = s.cores := rfl
@[simp] theorem State.freeObj_host (s : State) (i : Nat) : (s.freeObj i).host = s.host := rfl
@[simp] theorem State.freeObj_league (s : State) (i : Nat) : (s.freeObj i).league = s.league := rfl
@[simp] theorem State.freeObj_board (s : State) (i : Nat) : (s.freeObj i).board = s.board := rfl
@[simp] theorem State.freeObj_boot (s : State) (i : Nat) : (s.freeObj i).boot = s.boot := rfl
@[simp] theorem State.freeObj_next (s : State) (i : Nat) : (s.freeObj i).next = s.next := rfl
@[simp] theorem State.freeObj_agenda (s : State) (i : Nat) : (s.freeObj i).agenda = s.agenda := rfl
@[simp] theorem State.freeObj_cur (s : State) (i : Nat) : (s.freeObj i).cur = s.cur := rfl
@[simp] theorem State.freeObj_free (s : State) (i : Nat) : (s.freeObj i).free = s.free := rfl

@[simp] theorem State.signal_dtime (s : State) (d : Nat) (p : BitVec 64) (n : Nat) : (s.signal d p n).dtime = s.dtime := rfl
@[simp] theorem State.signal_peer (s : State) (d : Nat) (p : BitVec 64) (n : Nat) : (s.signal d p n).peer = s.peer := rfl
@[simp] theorem State.signal_poolFree (s : State) (d : Nat) (p : BitVec 64) (n : Nat) : (s.signal d p n).poolFree = s.poolFree := rfl
@[simp] theorem State.signal_tokWait (s : State) (d : Nat) (p : BitVec 64) (n : Nat) : (s.signal d p n).tokWait = s.tokWait := rfl
@[simp] theorem State.signal_mem (s : State) (d : Nat) (p : BitVec 64) (n : Nat) : (s.signal d p n).mem = s.mem := rfl
@[simp] theorem State.signal_kern (s : State) (d : Nat) (p : BitVec 64) (n : Nat) : (s.signal d p n).kern = s.kern := rfl
@[simp] theorem State.signal_host (s : State) (d : Nat) (p : BitVec 64) (n : Nat) : (s.signal d p n).host = s.host := rfl
@[simp] theorem State.signal_league (s : State) (d : Nat) (p : BitVec 64) (n : Nat) : (s.signal d p n).league = s.league := rfl
@[simp] theorem State.signal_board (s : State) (d : Nat) (p : BitVec 64) (n : Nat) : (s.signal d p n).board = s.board := rfl
@[simp] theorem State.signal_boot (s : State) (d : Nat) (p : BitVec 64) (n : Nat) : (s.signal d p n).boot = s.boot := rfl
@[simp] theorem State.signal_next (s : State) (d : Nat) (p : BitVec 64) (n : Nat) : (s.signal d p n).next = s.next := rfl
@[simp] theorem State.signal_agenda (s : State) (d : Nat) (p : BitVec 64) (n : Nat) : (s.signal d p n).agenda = s.agenda := rfl
@[simp] theorem State.signal_cur (s : State) (d : Nat) (p : BitVec 64) (n : Nat) : (s.signal d p n).cur = s.cur := rfl
@[simp] theorem State.signal_free (s : State) (d : Nat) (p : BitVec 64) (n : Nat) : (s.signal d p n).free = s.free := rfl

@[simp] theorem State.privTrap_dtime (s : State) (c k h p : Nat) (r : TrapRec) : (s.privTrap c k h p r).dtime = s.dtime := by
  unfold State.privTrap; dsimp only; split <;> simp
@[simp] theorem State.privTrap_peer (s : State) (c k h p : Nat) (r : TrapRec) : (s.privTrap c k h p r).peer = s.peer := by
  unfold State.privTrap; dsimp only; split <;> simp
@[simp] theorem State.privTrap_poolFree (s : State) (c k h p : Nat) (r : TrapRec) : (s.privTrap c k h p r).poolFree = s.poolFree := by
  unfold State.privTrap; dsimp only; split <;> simp
@[simp] theorem State.privTrap_tokWait (s : State) (c k h p : Nat) (r : TrapRec) : (s.privTrap c k h p r).tokWait = s.tokWait := by
  unfold State.privTrap; dsimp only; split <;> simp
@[simp] theorem State.privTrap_mem (s : State) (c k h p : Nat) (r : TrapRec) : (s.privTrap c k h p r).mem = s.mem := by
  unfold State.privTrap; dsimp only; split <;> simp
@[simp] theorem State.privTrap_kern (s : State) (c k h p : Nat) (r : TrapRec) : (s.privTrap c k h p r).kern = s.kern := by
  unfold State.privTrap; dsimp only; split <;> simp
@[simp] theorem State.privTrap_host (s : State) (c k h p : Nat) (r : TrapRec) : (s.privTrap c k h p r).host = s.host := by
  unfold State.privTrap; dsimp only; split <;> simp
@[simp] theorem State.privTrap_league (s : State) (c k h p : Nat) (r : TrapRec) : (s.privTrap c k h p r).league = s.league := by
  unfold State.privTrap; dsimp only; split <;> simp
@[simp] theorem State.privTrap_board (s : State) (c k h p : Nat) (r : TrapRec) : (s.privTrap c k h p r).board = s.board := by
  unfold State.privTrap; dsimp only; split <;> simp
@[simp] theorem State.privTrap_boot (s : State) (c k h p : Nat) (r : TrapRec) : (s.privTrap c k h p r).boot = s.boot := by
  unfold State.privTrap; dsimp only; split <;> simp
@[simp] theorem State.privTrap_next (s : State) (c k h p : Nat) (r : TrapRec) : (s.privTrap c k h p r).next = s.next := by
  unfold State.privTrap; dsimp only; split <;> simp
@[simp] theorem State.privTrap_agenda (s : State) (c k h p : Nat) (r : TrapRec) : (s.privTrap c k h p r).agenda = s.agenda := by
  unfold State.privTrap; dsimp only; split <;> simp
@[simp] theorem State.privTrap_cur (s : State) (c k h p : Nat) (r : TrapRec) : (s.privTrap c k h p r).cur = s.cur := by
  unfold State.privTrap; dsimp only; split <;> simp
@[simp] theorem State.privTrap_free (s : State) (c k h p : Nat) (r : TrapRec) : (s.privTrap c k h p r).free = s.free := by
  unfold State.privTrap; dsimp only; split <;> simp

@[simp] theorem State.takeException_dtime (s : State) (c : Ctx) (r : Bool) (code : Nat) (pc : Dword) (a : Nat) : (s.takeException c r code pc a).dtime = s.dtime := by
  unfold State.takeException; dsimp only; split <;> (try split) <;> simp
@[simp] theorem State.takeException_peer (s : State) (c : Ctx) (r : Bool) (code : Nat) (pc : Dword) (a : Nat) : (s.takeException c r code pc a).peer = s.peer := by
  unfold State.takeException; dsimp only; split <;> (try split) <;> simp
@[simp] theorem State.takeException_poolFree (s : State) (c : Ctx) (r : Bool) (code : Nat) (pc : Dword) (a : Nat) : (s.takeException c r code pc a).poolFree = s.poolFree := by
  unfold State.takeException; dsimp only; split <;> (try split) <;> simp
@[simp] theorem State.takeException_tokWait (s : State) (c : Ctx) (r : Bool) (code : Nat) (pc : Dword) (a : Nat) : (s.takeException c r code pc a).tokWait = s.tokWait := by
  unfold State.takeException; dsimp only; split <;> (try split) <;> simp
@[simp] theorem State.takeException_mem (s : State) (c : Ctx) (r : Bool) (code : Nat) (pc : Dword) (a : Nat) : (s.takeException c r code pc a).mem = s.mem := by
  unfold State.takeException; dsimp only; split <;> (try split) <;> simp
@[simp] theorem State.takeException_kern (s : State) (c : Ctx) (r : Bool) (code : Nat) (pc : Dword) (a : Nat) : (s.takeException c r code pc a).kern = s.kern := by
  unfold State.takeException; dsimp only; split <;> (try split) <;> simp
@[simp] theorem State.takeException_host (s : State) (c : Ctx) (r : Bool) (code : Nat) (pc : Dword) (a : Nat) : (s.takeException c r code pc a).host = s.host := by
  unfold State.takeException; dsimp only; split <;> (try split) <;> simp
@[simp] theorem State.takeException_league (s : State) (c : Ctx) (r : Bool) (code : Nat) (pc : Dword) (a : Nat) : (s.takeException c r code pc a).league = s.league := by
  unfold State.takeException; dsimp only; split <;> (try split) <;> simp
@[simp] theorem State.takeException_board (s : State) (c : Ctx) (r : Bool) (code : Nat) (pc : Dword) (a : Nat) : (s.takeException c r code pc a).board = s.board := by
  unfold State.takeException; dsimp only; split <;> (try split) <;> simp
@[simp] theorem State.takeException_boot (s : State) (c : Ctx) (r : Bool) (code : Nat) (pc : Dword) (a : Nat) : (s.takeException c r code pc a).boot = s.boot := by
  unfold State.takeException; dsimp only; split <;> (try split) <;> simp
@[simp] theorem State.takeException_next (s : State) (c : Ctx) (r : Bool) (code : Nat) (pc : Dword) (a : Nat) : (s.takeException c r code pc a).next = s.next := by
  unfold State.takeException; dsimp only; split <;> (try split) <;> simp
@[simp] theorem State.takeException_agenda (s : State) (c : Ctx) (r : Bool) (code : Nat) (pc : Dword) (a : Nat) : (s.takeException c r code pc a).agenda = s.agenda := by
  unfold State.takeException; dsimp only; split <;> (try split) <;> simp
@[simp] theorem State.takeException_cur (s : State) (c : Ctx) (r : Bool) (code : Nat) (pc : Dword) (a : Nat) : (s.takeException c r code pc a).cur = s.cur := by
  unfold State.takeException; dsimp only; split <;> (try split) <;> simp
@[simp] theorem State.takeException_free (s : State) (c : Ctx) (r : Bool) (code : Nat) (pc : Dword) (a : Nat) : (s.takeException c r code pc a).free = s.free := by
  unfold State.takeException; dsimp only; split <;> (try split) <;> simp

@[simp] theorem State.closeRegion_dtime (s : State) (c : Ctx) (pc : Dword) : (s.closeRegion c pc).dtime = s.dtime := by simp [State.closeRegion]
@[simp] theorem State.closeRegion_peer (s : State) (c : Ctx) (pc : Dword) : (s.closeRegion c pc).peer = s.peer := by simp [State.closeRegion]
@[simp] theorem State.closeRegion_poolFree (s : State) (c : Ctx) (pc : Dword) : (s.closeRegion c pc).poolFree = s.poolFree := by simp [State.closeRegion]
@[simp] theorem State.closeRegion_tokWait (s : State) (c : Ctx) (pc : Dword) : (s.closeRegion c pc).tokWait = s.tokWait := by simp [State.closeRegion]
@[simp] theorem State.closeRegion_mem (s : State) (c : Ctx) (pc : Dword) : (s.closeRegion c pc).mem = s.mem := by simp [State.closeRegion]
@[simp] theorem State.closeRegion_kern (s : State) (c : Ctx) (pc : Dword) : (s.closeRegion c pc).kern = s.kern := by simp [State.closeRegion]
@[simp] theorem State.closeRegion_host (s : State) (c : Ctx) (pc : Dword) : (s.closeRegion c pc).host = s.host := by simp [State.closeRegion]
@[simp] theorem State.closeRegion_league (s : State) (c : Ctx) (pc : Dword) : (s.closeRegion c pc).league = s.league := by simp [State.closeRegion]
@[simp] theorem State.closeRegion_board (s : State) (c : Ctx) (pc : Dword) : (s.closeRegion c pc).board = s.board := by simp [State.closeRegion]
@[simp] theorem State.closeRegion_boot (s : State) (c : Ctx) (pc : Dword) : (s.closeRegion c pc).boot = s.boot := by simp [State.closeRegion]
@[simp] theorem State.closeRegion_next (s : State) (c : Ctx) (pc : Dword) : (s.closeRegion c pc).next = s.next := by simp [State.closeRegion]
@[simp] theorem State.closeRegion_agenda (s : State) (c : Ctx) (pc : Dword) : (s.closeRegion c pc).agenda = s.agenda := by simp [State.closeRegion]
@[simp] theorem State.closeRegion_cur (s : State) (c : Ctx) (pc : Dword) : (s.closeRegion c pc).cur = s.cur := by simp [State.closeRegion]
@[simp] theorem State.closeRegion_free (s : State) (c : Ctx) (pc : Dword) : (s.closeRegion c pc).free = s.free := by simp [State.closeRegion]

@[simp] theorem State.park_dtime (s : State) (c : Ctx) (qs : List (BitVec 16 × Nat)) (all : Bool) : (s.park c qs all).dtime = s.dtime := by simp [State.park]
@[simp] theorem State.park_peer (s : State) (c : Ctx) (qs : List (BitVec 16 × Nat)) (all : Bool) : (s.park c qs all).peer = s.peer := by simp [State.park]
@[simp] theorem State.park_poolFree (s : State) (c : Ctx) (qs : List (BitVec 16 × Nat)) (all : Bool) : (s.park c qs all).poolFree = s.poolFree := by simp [State.park]
@[simp] theorem State.park_tokWait (s : State) (c : Ctx) (qs : List (BitVec 16 × Nat)) (all : Bool) : (s.park c qs all).tokWait = s.tokWait := by simp [State.park]
@[simp] theorem State.park_mem (s : State) (c : Ctx) (qs : List (BitVec 16 × Nat)) (all : Bool) : (s.park c qs all).mem = s.mem := by simp [State.park]
@[simp] theorem State.park_kern (s : State) (c : Ctx) (qs : List (BitVec 16 × Nat)) (all : Bool) : (s.park c qs all).kern = s.kern := by simp [State.park]
@[simp] theorem State.park_host (s : State) (c : Ctx) (qs : List (BitVec 16 × Nat)) (all : Bool) : (s.park c qs all).host = s.host := by simp [State.park]
@[simp] theorem State.park_league (s : State) (c : Ctx) (qs : List (BitVec 16 × Nat)) (all : Bool) : (s.park c qs all).league = s.league := by simp [State.park]
@[simp] theorem State.park_board (s : State) (c : Ctx) (qs : List (BitVec 16 × Nat)) (all : Bool) : (s.park c qs all).board = s.board := by simp [State.park]
@[simp] theorem State.park_boot (s : State) (c : Ctx) (qs : List (BitVec 16 × Nat)) (all : Bool) : (s.park c qs all).boot = s.boot := by simp [State.park]
@[simp] theorem State.park_next (s : State) (c : Ctx) (qs : List (BitVec 16 × Nat)) (all : Bool) : (s.park c qs all).next = s.next := by simp [State.park]
@[simp] theorem State.park_agenda (s : State) (c : Ctx) (qs : List (BitVec 16 × Nat)) (all : Bool) : (s.park c qs all).agenda = s.agenda := by simp [State.park]
@[simp] theorem State.park_cur (s : State) (c : Ctx) (qs : List (BitVec 16 × Nat)) (all : Bool) : (s.park c qs all).cur = s.cur := by simp [State.park]
@[simp] theorem State.park_free (s : State) (c : Ctx) (qs : List (BitVec 16 × Nat)) (all : Bool) : (s.park c qs all).free = s.free := by simp [State.park]

/-- What each step of a fold leaves alone, the fold leaves alone. -/
theorem foldl_keeps {α β : Type} (g : State → β) (f : State → α → State) (h : ∀ s x, g (f s x) = g s) (xs : List α) (s : State) :
    g (xs.foldl f s) = g s := by
  induction xs generalizing s with
  | nil => rfl
  | cons x xs ih => simp [ih, h]

@[simp] theorem State.trySend_dtime (s : State) (p : Packet) : (s.trySend p).dtime = s.dtime := by
  unfold State.trySend State.send; cases s.planeFor (Packet.want p) <;> rfl
@[simp] theorem State.trySend_peer (s : State) (p : Packet) : (s.trySend p).peer = s.peer := by
  unfold State.trySend State.send; cases s.planeFor (Packet.want p) <;> rfl
@[simp] theorem State.trySend_poolFree (s : State) (p : Packet) : (s.trySend p).poolFree = s.poolFree := by
  unfold State.trySend State.send; cases s.planeFor (Packet.want p) <;> rfl
@[simp] theorem State.trySend_tokWait (s : State) (p : Packet) : (s.trySend p).tokWait = s.tokWait := by
  unfold State.trySend State.send; cases s.planeFor (Packet.want p) <;> rfl
@[simp] theorem State.trySend_mem (s : State) (p : Packet) : (s.trySend p).mem = s.mem := by
  unfold State.trySend State.send; cases s.planeFor (Packet.want p) <;> rfl
@[simp] theorem State.trySend_cores (s : State) (p : Packet) : (s.trySend p).cores = s.cores := by
  unfold State.trySend State.send; cases s.planeFor (Packet.want p) <;> rfl
@[simp] theorem State.trySend_kern (s : State) (p : Packet) : (s.trySend p).kern = s.kern := by
  unfold State.trySend State.send; cases s.planeFor (Packet.want p) <;> rfl
@[simp] theorem State.trySend_host (s : State) (p : Packet) : (s.trySend p).host = s.host := by
  unfold State.trySend State.send; cases s.planeFor (Packet.want p) <;> rfl
@[simp] theorem State.trySend_board (s : State) (p : Packet) : (s.trySend p).board = s.board := by
  unfold State.trySend State.send; cases s.planeFor (Packet.want p) <;> rfl
@[simp] theorem State.trySend_boot (s : State) (p : Packet) : (s.trySend p).boot = s.boot := by
  unfold State.trySend State.send; cases s.planeFor (Packet.want p) <;> rfl
@[simp] theorem State.trySend_next (s : State) (p : Packet) : (s.trySend p).next = s.next := by
  unfold State.trySend State.send; cases s.planeFor (Packet.want p) <;> rfl
@[simp] theorem State.trySend_agenda (s : State) (p : Packet) : (s.trySend p).agenda = s.agenda := by
  unfold State.trySend State.send; cases s.planeFor (Packet.want p) <;> rfl
@[simp] theorem State.trySend_cur (s : State) (p : Packet) : (s.trySend p).cur = s.cur := by
  unfold State.trySend State.send; cases s.planeFor (Packet.want p) <;> rfl
@[simp] theorem State.trySend_free (s : State) (p : Packet) : (s.trySend p).free = s.free := by
  unfold State.trySend State.send; cases s.planeFor (Packet.want p) <;> rfl

@[simp] theorem State.withdraw_dtime (s : State) (p : Req → Bool) : (s.withdraw p).dtime = s.dtime := by
  unfold State.withdraw; exact foldl_keeps (·.dtime) _ (fun s _ => s.trySend_dtime _) _ _
@[simp] theorem State.withdraw_peer (s : State) (p : Req → Bool) : (s.withdraw p).peer = s.peer := by
  unfold State.withdraw; exact foldl_keeps (·.peer) _ (fun s _ => s.trySend_peer _) _ _
@[simp] theorem State.withdraw_poolFree (s : State) (p : Req → Bool) : (s.withdraw p).poolFree = s.poolFree := by
  unfold State.withdraw; exact foldl_keeps (·.poolFree) _ (fun s _ => s.trySend_poolFree _) _ _
@[simp] theorem State.withdraw_tokWait (s : State) (p : Req → Bool) : (s.withdraw p).tokWait = s.tokWait := by
  unfold State.withdraw; exact foldl_keeps (·.tokWait) _ (fun s _ => s.trySend_tokWait _) _ _
@[simp] theorem State.withdraw_mem (s : State) (p : Req → Bool) : (s.withdraw p).mem = s.mem := by
  unfold State.withdraw; exact foldl_keeps (·.mem) _ (fun s _ => s.trySend_mem _) _ _
@[simp] theorem State.withdraw_cores (s : State) (p : Req → Bool) : (s.withdraw p).cores = s.cores := by
  unfold State.withdraw; exact foldl_keeps (·.cores) _ (fun s _ => s.trySend_cores _) _ _
@[simp] theorem State.withdraw_kern (s : State) (p : Req → Bool) : (s.withdraw p).kern = s.kern := by
  unfold State.withdraw; exact foldl_keeps (·.kern) _ (fun s _ => s.trySend_kern _) _ _
@[simp] theorem State.withdraw_host (s : State) (p : Req → Bool) : (s.withdraw p).host = s.host := by
  unfold State.withdraw; exact foldl_keeps (·.host) _ (fun s _ => s.trySend_host _) _ _
@[simp] theorem State.withdraw_board (s : State) (p : Req → Bool) : (s.withdraw p).board = s.board := by
  unfold State.withdraw; exact foldl_keeps (·.board) _ (fun s _ => s.trySend_board _) _ _
@[simp] theorem State.withdraw_boot (s : State) (p : Req → Bool) : (s.withdraw p).boot = s.boot := by
  unfold State.withdraw; exact foldl_keeps (·.boot) _ (fun s _ => s.trySend_boot _) _ _
@[simp] theorem State.withdraw_next (s : State) (p : Req → Bool) : (s.withdraw p).next = s.next := by
  unfold State.withdraw; exact foldl_keeps (·.next) _ (fun s _ => s.trySend_next _) _ _
@[simp] theorem State.withdraw_agenda (s : State) (p : Req → Bool) : (s.withdraw p).agenda = s.agenda := by
  unfold State.withdraw; exact foldl_keeps (·.agenda) _ (fun s _ => s.trySend_agenda _) _ _
@[simp] theorem State.withdraw_cur (s : State) (p : Req → Bool) : (s.withdraw p).cur = s.cur := by
  unfold State.withdraw; exact foldl_keeps (·.cur) _ (fun s _ => s.trySend_cur _) _ _
@[simp] theorem State.withdraw_free (s : State) (p : Req → Bool) : (s.withdraw p).free = s.free := by
  unfold State.withdraw; exact foldl_keeps (·.free) _ (fun s _ => s.trySend_free _) _ _

@[simp] theorem State.giveUp_dtime (s : State) (p : Req → Bool) : (s.giveUp p).dtime = s.dtime := s.withdraw_dtime p
@[simp] theorem State.giveUp_peer (s : State) (p : Req → Bool) : (s.giveUp p).peer = s.peer := s.withdraw_peer p
@[simp] theorem State.giveUp_poolFree (s : State) (p : Req → Bool) : (s.giveUp p).poolFree = s.poolFree := s.withdraw_poolFree p
@[simp] theorem State.giveUp_tokWait (s : State) (p : Req → Bool) : (s.giveUp p).tokWait = s.tokWait := s.withdraw_tokWait p
@[simp] theorem State.giveUp_mem (s : State) (p : Req → Bool) : (s.giveUp p).mem = s.mem := s.withdraw_mem p
@[simp] theorem State.giveUp_cores (s : State) (p : Req → Bool) : (s.giveUp p).cores = s.cores := s.withdraw_cores p
@[simp] theorem State.giveUp_kern (s : State) (p : Req → Bool) : (s.giveUp p).kern = s.kern := s.withdraw_kern p
@[simp] theorem State.giveUp_host (s : State) (p : Req → Bool) : (s.giveUp p).host = s.host := s.withdraw_host p
@[simp] theorem State.giveUp_board (s : State) (p : Req → Bool) : (s.giveUp p).board = s.board := s.withdraw_board p
@[simp] theorem State.giveUp_boot (s : State) (p : Req → Bool) : (s.giveUp p).boot = s.boot := s.withdraw_boot p
@[simp] theorem State.giveUp_next (s : State) (p : Req → Bool) : (s.giveUp p).next = s.next := s.withdraw_next p
@[simp] theorem State.giveUp_agenda (s : State) (p : Req → Bool) : (s.giveUp p).agenda = s.agenda := s.withdraw_agenda p
@[simp] theorem State.giveUp_cur (s : State) (p : Req → Bool) : (s.giveUp p).cur = s.cur := s.withdraw_cur p
@[simp] theorem State.giveUp_free (s : State) (p : Req → Bool) : (s.giveUp p).free = s.free := s.withdraw_free p

@[simp] theorem State.dropReqs_dtime (s : State) (c : Ctx) : (s.dropReqs c).dtime = s.dtime := s.giveUp_dtime _
@[simp] theorem State.dropReqs_peer (s : State) (c : Ctx) : (s.dropReqs c).peer = s.peer := s.giveUp_peer _
@[simp] theorem State.dropReqs_poolFree (s : State) (c : Ctx) : (s.dropReqs c).poolFree = s.poolFree := s.giveUp_poolFree _
@[simp] theorem State.dropReqs_tokWait (s : State) (c : Ctx) : (s.dropReqs c).tokWait = s.tokWait := s.giveUp_tokWait _
@[simp] theorem State.dropReqs_mem (s : State) (c : Ctx) : (s.dropReqs c).mem = s.mem := s.giveUp_mem _
@[simp] theorem State.dropReqs_cores (s : State) (c : Ctx) : (s.dropReqs c).cores = s.cores := s.giveUp_cores _
@[simp] theorem State.dropReqs_kern (s : State) (c : Ctx) : (s.dropReqs c).kern = s.kern := s.giveUp_kern _
@[simp] theorem State.dropReqs_host (s : State) (c : Ctx) : (s.dropReqs c).host = s.host := s.giveUp_host _
@[simp] theorem State.dropReqs_board (s : State) (c : Ctx) : (s.dropReqs c).board = s.board := s.giveUp_board _
@[simp] theorem State.dropReqs_boot (s : State) (c : Ctx) : (s.dropReqs c).boot = s.boot := s.giveUp_boot _
@[simp] theorem State.dropReqs_next (s : State) (c : Ctx) : (s.dropReqs c).next = s.next := s.giveUp_next _
@[simp] theorem State.dropReqs_agenda (s : State) (c : Ctx) : (s.dropReqs c).agenda = s.agenda := s.giveUp_agenda _
@[simp] theorem State.dropReqs_cur (s : State) (c : Ctx) : (s.dropReqs c).cur = s.cur := s.giveUp_cur _
@[simp] theorem State.dropReqs_free (s : State) (c : Ctx) : (s.dropReqs c).free = s.free := s.giveUp_free _

@[simp] theorem State.emit_dtime (s : State) (p : Packet) : (s.emit p).dtime = s.dtime := rfl
@[simp] theorem State.emit_peer (s : State) (p : Packet) : (s.emit p).peer = s.peer := rfl
@[simp] theorem State.emit_poolFree (s : State) (p : Packet) : (s.emit p).poolFree = s.poolFree := rfl
@[simp] theorem State.emit_tokWait (s : State) (p : Packet) : (s.emit p).tokWait = s.tokWait := rfl
@[simp] theorem State.emit_mem (s : State) (p : Packet) : (s.emit p).mem = s.mem := rfl
@[simp] theorem State.emit_cores (s : State) (p : Packet) : (s.emit p).cores = s.cores := rfl
@[simp] theorem State.emit_kern (s : State) (p : Packet) : (s.emit p).kern = s.kern := rfl
@[simp] theorem State.emit_host (s : State) (p : Packet) : (s.emit p).host = s.host := rfl
@[simp] theorem State.emit_board (s : State) (p : Packet) : (s.emit p).board = s.board := rfl
@[simp] theorem State.emit_boot (s : State) (p : Packet) : (s.emit p).boot = s.boot := rfl
@[simp] theorem State.emit_next (s : State) (p : Packet) : (s.emit p).next = s.next := rfl
@[simp] theorem State.emit_agenda (s : State) (p : Packet) : (s.emit p).agenda = s.agenda := rfl
@[simp] theorem State.emit_cur (s : State) (p : Packet) : (s.emit p).cur = s.cur := rfl
@[simp] theorem State.emit_free (s : State) (p : Packet) : (s.emit p).free = s.free := rfl

@[simp] theorem State.updSw_dtime (s : State) (f : Switch → Switch) : (s.updSw f).dtime = s.dtime := rfl
@[simp] theorem State.updSw_peer (s : State) (f : Switch → Switch) : (s.updSw f).peer = s.peer := rfl
@[simp] theorem State.updSw_poolFree (s : State) (f : Switch → Switch) : (s.updSw f).poolFree = s.poolFree := rfl
@[simp] theorem State.updSw_tokWait (s : State) (f : Switch → Switch) : (s.updSw f).tokWait = s.tokWait := rfl
@[simp] theorem State.updSw_mem (s : State) (f : Switch → Switch) : (s.updSw f).mem = s.mem := rfl
@[simp] theorem State.updSw_cores (s : State) (f : Switch → Switch) : (s.updSw f).cores = s.cores := rfl
@[simp] theorem State.updSw_kern (s : State) (f : Switch → Switch) : (s.updSw f).kern = s.kern := rfl
@[simp] theorem State.updSw_host (s : State) (f : Switch → Switch) : (s.updSw f).host = s.host := rfl
@[simp] theorem State.updSw_board (s : State) (f : Switch → Switch) : (s.updSw f).board = s.board := rfl
@[simp] theorem State.updSw_boot (s : State) (f : Switch → Switch) : (s.updSw f).boot = s.boot := rfl
@[simp] theorem State.updSw_next (s : State) (f : Switch → Switch) : (s.updSw f).next = s.next := rfl
@[simp] theorem State.updSw_agenda (s : State) (f : Switch → Switch) : (s.updSw f).agenda = s.agenda := rfl
@[simp] theorem State.updSw_cur (s : State) (f : Switch → Switch) : (s.updSw f).cur = s.cur := rfl
@[simp] theorem State.updSw_free (s : State) (f : Switch → Switch) : (s.updSw f).free = s.free := rfl

@[simp] theorem State.updPort_dtime (s : State) (k : Nat) (f : Port → Port) : (s.updPort k f).dtime = s.dtime := rfl
@[simp] theorem State.updPort_peer (s : State) (k : Nat) (f : Port → Port) : (s.updPort k f).peer = s.peer := rfl
@[simp] theorem State.updPort_poolFree (s : State) (k : Nat) (f : Port → Port) : (s.updPort k f).poolFree = s.poolFree := rfl
@[simp] theorem State.updPort_tokWait (s : State) (k : Nat) (f : Port → Port) : (s.updPort k f).tokWait = s.tokWait := rfl
@[simp] theorem State.updPort_mem (s : State) (k : Nat) (f : Port → Port) : (s.updPort k f).mem = s.mem := rfl
@[simp] theorem State.updPort_cores (s : State) (k : Nat) (f : Port → Port) : (s.updPort k f).cores = s.cores := rfl
@[simp] theorem State.updPort_kern (s : State) (k : Nat) (f : Port → Port) : (s.updPort k f).kern = s.kern := rfl
@[simp] theorem State.updPort_host (s : State) (k : Nat) (f : Port → Port) : (s.updPort k f).host = s.host := rfl
@[simp] theorem State.updPort_board (s : State) (k : Nat) (f : Port → Port) : (s.updPort k f).board = s.board := rfl
@[simp] theorem State.updPort_next (s : State) (k : Nat) (f : Port → Port) : (s.updPort k f).next = s.next := rfl
@[simp] theorem State.updPort_agenda (s : State) (k : Nat) (f : Port → Port) : (s.updPort k f).agenda = s.agenda := rfl
@[simp] theorem State.updPort_cur (s : State) (k : Nat) (f : Port → Port) : (s.updPort k f).cur = s.cur := rfl
@[simp] theorem State.updPort_free (s : State) (k : Nat) (f : Port → Port) : (s.updPort k f).free = s.free := rfl

@[simp] theorem State.spendBudgets_dtime (s : State) (n : Nat) : (s.spendBudgets n).dtime = s.dtime := rfl
@[simp] theorem State.spendBudgets_peer (s : State) (n : Nat) : (s.spendBudgets n).peer = s.peer := rfl
@[simp] theorem State.spendBudgets_poolFree (s : State) (n : Nat) : (s.spendBudgets n).poolFree = s.poolFree := rfl
@[simp] theorem State.spendBudgets_tokWait (s : State) (n : Nat) : (s.spendBudgets n).tokWait = s.tokWait := rfl
@[simp] theorem State.spendBudgets_mem (s : State) (n : Nat) : (s.spendBudgets n).mem = s.mem := rfl
@[simp] theorem State.spendBudgets_cores (s : State) (n : Nat) : (s.spendBudgets n).cores = s.cores := rfl
@[simp] theorem State.spendBudgets_host (s : State) (n : Nat) : (s.spendBudgets n).host = s.host := rfl
@[simp] theorem State.spendBudgets_league (s : State) (n : Nat) : (s.spendBudgets n).league = s.league := rfl
@[simp] theorem State.spendBudgets_board (s : State) (n : Nat) : (s.spendBudgets n).board = s.board := rfl
@[simp] theorem State.spendBudgets_boot (s : State) (n : Nat) : (s.spendBudgets n).boot = s.boot := rfl
@[simp] theorem State.spendBudgets_next (s : State) (n : Nat) : (s.spendBudgets n).next = s.next := rfl
@[simp] theorem State.spendBudgets_agenda (s : State) (n : Nat) : (s.spendBudgets n).agenda = s.agenda := rfl
@[simp] theorem State.spendBudgets_cur (s : State) (n : Nat) : (s.spendBudgets n).cur = s.cur := rfl
@[simp] theorem State.spendBudgets_free (s : State) (n : Nat) : (s.spendBudgets n).free = s.free := rfl

@[simp] theorem State.setBytes_mem_host (s : State) (a : Nat) (bs : List Byte) : (s.setBytes a bs).mem.host = s.mem.host := rfl
@[simp] theorem State.setBytes_mem_copies (s : State) (a : Nat) (bs : List Byte) : (s.setBytes a bs).mem.copies = s.mem.copies := rfl
@[simp] theorem State.setBytes_mem_fbuf (s : State) (a : Nat) (bs : List Byte) : (s.setBytes a bs).mem.fbuf = s.mem.fbuf := rfl
@[simp] theorem State.setBytes_mem_checked (s : State) (a : Nat) (bs : List Byte) : (s.setBytes a bs).mem.checked = s.mem.checked := rfl
@[simp] theorem State.setBytes_mem_ecc (s : State) (a : Nat) (bs : List Byte) : (s.setBytes a bs).mem.ecc = s.mem.ecc := rfl
@[simp] theorem State.setBytes_mem_retired (s : State) (a : Nat) (bs : List Byte) : (s.setBytes a bs).mem.retired = s.mem.retired := rfl
@[simp] theorem State.setBytes_mem_granKey (s : State) (a : Nat) (bs : List Byte) : (s.setBytes a bs).mem.granKey = s.mem.granKey := rfl
@[simp] theorem State.setBytes_mem_keyHeld (s : State) (a : Nat) (bs : List Byte) : (s.setBytes a bs).mem.keyHeld = s.mem.keyHeld := rfl
@[simp] theorem State.setBytes_mem_keys (s : State) (a : Nat) (bs : List Byte) : (s.setBytes a bs).mem.keys = s.mem.keys := rfl
@[simp] theorem State.setBytes_mem_congest (s : State) (a : Nat) (bs : List Byte) : (s.setBytes a bs).mem.congest = s.mem.congest := rfl

@[simp] theorem State.setNum_mem_host (s : State) (a n v : Nat) : (s.setNum a n v).mem.host = s.mem.host := rfl
@[simp] theorem State.setNum_mem_copies (s : State) (a n v : Nat) : (s.setNum a n v).mem.copies = s.mem.copies := rfl
@[simp] theorem State.setNum_mem_fbuf (s : State) (a n v : Nat) : (s.setNum a n v).mem.fbuf = s.mem.fbuf := rfl
@[simp] theorem State.setNum_mem_checked (s : State) (a n v : Nat) : (s.setNum a n v).mem.checked = s.mem.checked := rfl
@[simp] theorem State.setNum_mem_ecc (s : State) (a n v : Nat) : (s.setNum a n v).mem.ecc = s.mem.ecc := rfl
@[simp] theorem State.setNum_mem_retired (s : State) (a n v : Nat) : (s.setNum a n v).mem.retired = s.mem.retired := rfl
@[simp] theorem State.setNum_mem_granKey (s : State) (a n v : Nat) : (s.setNum a n v).mem.granKey = s.mem.granKey := rfl
@[simp] theorem State.setNum_mem_keyHeld (s : State) (a n v : Nat) : (s.setNum a n v).mem.keyHeld = s.mem.keyHeld := rfl
@[simp] theorem State.setNum_mem_keys (s : State) (a n v : Nat) : (s.setNum a n v).mem.keys = s.mem.keys := rfl
@[simp] theorem State.setNum_mem_congest (s : State) (a n v : Nat) : (s.setNum a n v).mem.congest = s.mem.congest := rfl

@[simp] theorem State.setCopy_mem_hbm (s : State) (u g : Nat) (x : Copy) : (s.setCopy u g x).mem.hbm = s.mem.hbm := rfl
@[simp] theorem State.setCopy_mem_host (s : State) (u g : Nat) (x : Copy) : (s.setCopy u g x).mem.host = s.mem.host := rfl
@[simp] theorem State.setCopy_mem_fbuf (s : State) (u g : Nat) (x : Copy) : (s.setCopy u g x).mem.fbuf = s.mem.fbuf := rfl
@[simp] theorem State.setCopy_mem_checked (s : State) (u g : Nat) (x : Copy) : (s.setCopy u g x).mem.checked = s.mem.checked := rfl
@[simp] theorem State.setCopy_mem_ecc (s : State) (u g : Nat) (x : Copy) : (s.setCopy u g x).mem.ecc = s.mem.ecc := rfl
@[simp] theorem State.setCopy_mem_retired (s : State) (u g : Nat) (x : Copy) : (s.setCopy u g x).mem.retired = s.mem.retired := rfl
@[simp] theorem State.setCopy_mem_granKey (s : State) (u g : Nat) (x : Copy) : (s.setCopy u g x).mem.granKey = s.mem.granKey := rfl
@[simp] theorem State.setCopy_mem_keyHeld (s : State) (u g : Nat) (x : Copy) : (s.setCopy u g x).mem.keyHeld = s.mem.keyHeld := rfl
@[simp] theorem State.setCopy_mem_keys (s : State) (u g : Nat) (x : Copy) : (s.setCopy u g x).mem.keys = s.mem.keys := rfl
@[simp] theorem State.setCopy_mem_congest (s : State) (u g : Nat) (x : Copy) : (s.setCopy u g x).mem.congest = s.mem.congest := rfl

@[simp] theorem State.dropCopy_mem_hbm (s : State) (u g : Nat) : (s.dropCopy u g).mem.hbm = s.mem.hbm := rfl
@[simp] theorem State.dropCopy_mem_host (s : State) (u g : Nat) : (s.dropCopy u g).mem.host = s.mem.host := rfl
@[simp] theorem State.dropCopy_mem_fbuf (s : State) (u g : Nat) : (s.dropCopy u g).mem.fbuf = s.mem.fbuf := rfl
@[simp] theorem State.dropCopy_mem_checked (s : State) (u g : Nat) : (s.dropCopy u g).mem.checked = s.mem.checked := rfl
@[simp] theorem State.dropCopy_mem_ecc (s : State) (u g : Nat) : (s.dropCopy u g).mem.ecc = s.mem.ecc := rfl
@[simp] theorem State.dropCopy_mem_retired (s : State) (u g : Nat) : (s.dropCopy u g).mem.retired = s.mem.retired := rfl
@[simp] theorem State.dropCopy_mem_granKey (s : State) (u g : Nat) : (s.dropCopy u g).mem.granKey = s.mem.granKey := rfl
@[simp] theorem State.dropCopy_mem_keyHeld (s : State) (u g : Nat) : (s.dropCopy u g).mem.keyHeld = s.mem.keyHeld := rfl
@[simp] theorem State.dropCopy_mem_keys (s : State) (u g : Nat) : (s.dropCopy u g).mem.keys = s.mem.keys := rfl
@[simp] theorem State.dropCopy_mem_congest (s : State) (u g : Nat) : (s.dropCopy u g).mem.congest = s.mem.congest := rfl

@[simp] theorem State.retire_mem_hbm (s : State) (a : Nat) : (s.retire a).mem.hbm = s.mem.hbm := by unfold State.retire; split <;> rfl
@[simp] theorem State.retire_mem_host (s : State) (a : Nat) : (s.retire a).mem.host = s.mem.host := by unfold State.retire; split <;> rfl
@[simp] theorem State.retire_mem_copies (s : State) (a : Nat) : (s.retire a).mem.copies = s.mem.copies := by unfold State.retire; split <;> rfl
@[simp] theorem State.retire_mem_fbuf (s : State) (a : Nat) : (s.retire a).mem.fbuf = s.mem.fbuf := by unfold State.retire; split <;> rfl
@[simp] theorem State.retire_mem_checked (s : State) (a : Nat) : (s.retire a).mem.checked = s.mem.checked := by unfold State.retire; split <;> rfl
@[simp] theorem State.retire_mem_ecc (s : State) (a : Nat) : (s.retire a).mem.ecc = s.mem.ecc := by unfold State.retire; split <;> rfl
@[simp] theorem State.retire_mem_granKey (s : State) (a : Nat) : (s.retire a).mem.granKey = s.mem.granKey := by unfold State.retire; split <;> rfl
@[simp] theorem State.retire_mem_keyHeld (s : State) (a : Nat) : (s.retire a).mem.keyHeld = s.mem.keyHeld := by unfold State.retire; split <;> rfl
@[simp] theorem State.retire_mem_keys (s : State) (a : Nat) : (s.retire a).mem.keys = s.mem.keys := by unfold State.retire; split <;> rfl
@[simp] theorem State.retire_mem_congest (s : State) (a : Nat) : (s.retire a).mem.congest = s.mem.congest := by unfold State.retire; split <;> rfl

@[simp] theorem State.note_mem_hbm (s : State) (sp : Space) (g k : Nat) (wr sync : Bool) : (s.note sp g k wr sync).mem.hbm = s.mem.hbm := rfl
@[simp] theorem State.note_mem_host (s : State) (sp : Space) (g k : Nat) (wr sync : Bool) : (s.note sp g k wr sync).mem.host = s.mem.host := rfl
@[simp] theorem State.note_mem_copies (s : State) (sp : Space) (g k : Nat) (wr sync : Bool) : (s.note sp g k wr sync).mem.copies = s.mem.copies := rfl
@[simp] theorem State.note_mem_fbuf (s : State) (sp : Space) (g k : Nat) (wr sync : Bool) : (s.note sp g k wr sync).mem.fbuf = s.mem.fbuf := rfl
@[simp] theorem State.note_mem_ecc (s : State) (sp : Space) (g k : Nat) (wr sync : Bool) : (s.note sp g k wr sync).mem.ecc = s.mem.ecc := rfl
@[simp] theorem State.note_mem_retired (s : State) (sp : Space) (g k : Nat) (wr sync : Bool) : (s.note sp g k wr sync).mem.retired = s.mem.retired := rfl
@[simp] theorem State.note_mem_granKey (s : State) (sp : Space) (g k : Nat) (wr sync : Bool) : (s.note sp g k wr sync).mem.granKey = s.mem.granKey := rfl
@[simp] theorem State.note_mem_keyHeld (s : State) (sp : Space) (g k : Nat) (wr sync : Bool) : (s.note sp g k wr sync).mem.keyHeld = s.mem.keyHeld := rfl
@[simp] theorem State.note_mem_keys (s : State) (sp : Space) (g k : Nat) (wr sync : Bool) : (s.note sp g k wr sync).mem.keys = s.mem.keys := rfl
@[simp] theorem State.note_mem_congest (s : State) (sp : Space) (g k : Nat) (wr sync : Bool) : (s.note sp g k wr sync).mem.congest = s.mem.congest := rfl

@[simp] theorem State.widenRecords_mem_hbm (s : State) (sp : Space) (k : Nat) : (s.widenRecords sp k).mem.hbm = s.mem.hbm := rfl
@[simp] theorem State.widenRecords_mem_host (s : State) (sp : Space) (k : Nat) : (s.widenRecords sp k).mem.host = s.mem.host := rfl
@[simp] theorem State.widenRecords_mem_copies (s : State) (sp : Space) (k : Nat) : (s.widenRecords sp k).mem.copies = s.mem.copies := rfl
@[simp] theorem State.widenRecords_mem_fbuf (s : State) (sp : Space) (k : Nat) : (s.widenRecords sp k).mem.fbuf = s.mem.fbuf := rfl
@[simp] theorem State.widenRecords_mem_ecc (s : State) (sp : Space) (k : Nat) : (s.widenRecords sp k).mem.ecc = s.mem.ecc := rfl
@[simp] theorem State.widenRecords_mem_retired (s : State) (sp : Space) (k : Nat) : (s.widenRecords sp k).mem.retired = s.mem.retired := rfl
@[simp] theorem State.widenRecords_mem_granKey (s : State) (sp : Space) (k : Nat) : (s.widenRecords sp k).mem.granKey = s.mem.granKey := rfl
@[simp] theorem State.widenRecords_mem_keyHeld (s : State) (sp : Space) (k : Nat) : (s.widenRecords sp k).mem.keyHeld = s.mem.keyHeld := rfl
@[simp] theorem State.widenRecords_mem_keys (s : State) (sp : Space) (k : Nat) : (s.widenRecords sp k).mem.keys = s.mem.keys := rfl
@[simp] theorem State.widenRecords_mem_congest (s : State) (sp : Space) (k : Nat) : (s.widenRecords sp k).mem.congest = s.mem.congest := rfl

end Sys2Proof.Machine
end

