-- ==== Sys2Proof/Laws/Issue.lean ====
section
/-!
SUPPORT. Cores and waves read after they are written, and what an instruction of a ready split comes to by what its body
answers.
-/

namespace Sys2Proof.Machine

/-! ### Cores and waves -/

@[simp] theorem State.core_setCore (s : State) (c : Nat) (k : Core) : (s.setCore c k).core c = k := by
  simp [State.core, State.setCore, Sparse.get]

theorem State.core_setCore_ne (s : State) {c d : Nat} (h : d ≠ c) (k : Core) : (s.setCore c k).core d = s.core d := by
  simp [State.core, State.setCore, Sparse.get, Sparse.get?_put_ne h]

@[simp] theorem State.setCore_setCore (s : State) (c : Nat) (k k' : Core) :
    (s.setCore c k).setCore c k' = s.setCore c k' := by
  simp [State.setCore]

@[simp] theorem State.core_updCore (s : State) (c : Nat) (f : Core → Core) : (s.updCore c f).core c = f (s.core c) := by
  simp [State.updCore]

theorem State.core_updCore_ne (s : State) {c d : Nat} (h : d ≠ c) (f : Core → Core) : (s.updCore c f).core d = s.core d :=
  s.core_setCore_ne h _

@[simp] theorem State.wave?_setWave (s : State) (c k : Nat) (w : Wave) : (s.setWave c k w).wave? c k = some w := by
  simp [State.wave?, State.setWave]

theorem State.wave?_setWave_ne (s : State) {c k d j : Nat} (h : d ≠ c ∨ j ≠ k) (w : Wave) :
    (s.setWave c k w).wave? d j = s.wave? d j := by
  by_cases hd : d = c
  · subst hd
    have hj : j ≠ k := by simpa using h
    simp [State.wave?, State.setWave, Sparse.get?_put_ne hj]
  · simp [State.wave?, State.setWave, State.core_updCore_ne s hd]

@[simp] theorem State.setWave_setWave (s : State) (c k : Nat) (w w' : Wave) :
    (s.setWave c k w).setWave c k w' = s.setWave c k w' := by
  simp [State.setWave, State.updCore]

@[simp] theorem State.put_put (s : State) (c : Ctx) (w w' : Wave) : (s.put c w).put c w' = s.put c w' := by
  simp [State.put]

@[simp] theorem State.mine_put (s : State) (c : Ctx) (w : Wave) : (s.put c w).mine c = w := by
  simp [State.mine, State.put]

@[simp] theorem State.updWave_setWave (s : State) (c k : Nat) (w : Wave) (f : Wave → Wave) :
    (s.setWave c k w).updWave c k f = s.setWave c k (f w) := by
  simp [State.updWave]

@[simp] theorem State.wave?_updWave (s : State) (c k : Nat) (f : Wave → Wave) :
    (s.updWave c k f).wave? c k = (s.wave? c k).map f := by
  unfold State.updWave
  split <;> simp_all

@[simp] theorem State.scheduled_put (s : State) (c d : Ctx) (w : Wave) (h : d.who = c.who) :
    (s.put c w).scheduled d = s.scheduled d := by
  simp [State.scheduled, State.codeOf, State.put, State.setWave, State.updCore, h]

/-- The split a context describes is the one it names. -/
theorem State.ctx?_who {s : State} {a : Who} {c : Ctx} (h : s.ctx? a = some c) : c.who = a := by
  unfold State.ctx? at h
  repeat' split at h
  all_goals simp_all
  rw [← h]

/-- The wave of a context stands in its slot. -/
theorem State.ctx?_wave {s : State} {a : Who} {c : Ctx} (h : s.ctx? a = some c) : s.wave? a.core a.slot = some c.w := by
  unfold State.ctx? at h
  repeat' split at h
  all_goals simp_all
  rw [← h]

/-! ### One instruction -/

/-- What a wave's registers hold leaves alone which blocks drain and which requests are open. -/
theorem Ctx.midHold_put (c : Ctx) (s : State) (v w : Wave) : c.midHold (s.put c v) w = c.midHold s w := by
  have hd : ((s.put c v).core c.who.core).draining = (s.core c.who.core).draining := by simp [State.put, State.setWave]
  unfold Ctx.midHold Ctx.midway
  rw [hd, State.put_league]

theorem settled_nil (s : State) (c : Ctx) (i : Instr) (e : Option Ext) (h : c.w.pend = []) : settled s c i e = [] := by
  unfold settled
  split
  · rw [h]; cases e <;> simp [settlePend]
  · rfl

/-- An instruction that may issue does what its body answers says. -/
theorem runWave_eq {i : Instr} {e : Option Ext} {s : State} {c : Ctx} (body : Ctx → State → Res) (h : Issues i e s c) :
    runWave i e body s = .next (conclude i e c c.w.regs (s.scheduled c) (body c (s.put c c.w))) := by
  have hw : ({ c.w with pend := [] } : Wave) = c.w := by rw [← h.pend]
  have hm : c.midHold (s.put c c.w) c.w = c.w := (c.midHold_put s c.w c.w).trans h.held
  simp only [runWave, h.split, h.ready, if_true, issue, h.form, settled_nil s c i e h.pend, hw]
  cases e <;> simp [readView, hm]

theorem runWave_next {i : Instr} {e : Option Ext} {s u : State} {c : Ctx} {body : Ctx → State → Res} (h : Issues i e s c)
    (hb : body c (s.put c c.w) = .next u) : runWave i e body s = .next (ended i e c s u) := by
  rw [runWave_eq body h, hb]
  simp [conclude, ended]

theorem runWave_nextR {i : Instr} {e : Option Ext} {s u : State} {c : Ctx} {body : Ctx → State → Res} (h : Issues i e s c)
    (hb : body c (s.put c c.w) = .nextR u) : runWave i e body s = .next (endedRegion i e c s u) := by
  rw [runWave_eq body h, hb]
  simp [conclude, endedRegion]

theorem runWave_jump {i : Instr} {e : Option Ext} {s u : State} {c : Ctx} {body : Ctx → State → Res} (h : Issues i e s c)
    (hb : body c (s.put c c.w) = .jump u) : runWave i e body s = .next (jumped i e c s u) := by
  rw [runWave_eq body h, hb]; rfl

theorem runWave_wait {i : Instr} {e : Option Ext} {s u : State} {c : Ctx} {body : Ctx → State → Res} (h : Issues i e s c)
    (hb : body c (s.put c c.w) = .wait u) : runWave i e body s = .next u := by
  rw [runWave_eq body h, hb]; rfl

theorem runWave_raise {i : Instr} {e : Option Ext} {s u : State} {c : Ctx} {body : Ctx → State → Res} {code a : Nat}
    (h : Issues i e s c) (hb : body c (s.put c c.w) = .raise u code a) :
    runWave i e body s = .next (u.raise c false code c.path.pc a) := by
  rw [runWave_eq body h, hb]; rfl

/-- The operand checks passed, the body goes on. -/
@[simp] theorem withOps_ok {s : State} {ops : List OpOk} {k : Res} (h : checkOps ops = none) : withOps s ops k = k := by
  simp [withOps, h]

theorem withOps_bad {s : State} {ops : List OpOk} {k : Res} {code : Nat} (h : checkOps ops = some code) :
    withOps s ops k = .raise s code 0 := by
  simp [withOps, h]

end Sys2Proof.Machine
end

