-- ==== Sys2Proof/Laws/Memory.lean ====
section
/-!
SUPPORT. Bytes of HBM, host memory and scratchpads: what a write leaves to read, byte by byte, and that every named
memory operation keeps the canonical form.
-/

namespace Sys2Proof.Machine

variable {s : State}

/-- Reset memory is in canonical form. -/
theorem State.reset_memOk : State.reset.memOk := by unfold State.memOk; decide

/-- A write of HBM keeps the canonical form. -/
theorem State.memOk_setBytes (h : s.memOk) (a : Nat) (bs : List Byte) : (s.setBytes a bs).memOk :=
  ⟨Sparse.wf_setRange bs a h.1, h.2⟩

/-- So does a number written to HBM. -/
theorem State.memOk_setNum (h : s.memOk) (a n v : Nat) : (s.setNum a n v).memOk := State.memOk_setBytes h a _

/-- So does a write of host memory. -/
theorem State.memOk_setHost (h : s.memOk) (a : Nat) (bs : List Byte) :
    State.memOk { s with mem := { s.mem with host := Sparse.setRange memDefault s.mem.host a bs } } :=
  ⟨h.1, Sparse.wf_setRange bs a h.2⟩

/-- A scratchpad in canonical form keeps it. -/
theorem scratch_wf_setRange {r : Core} (h : Memory.wf r.scratch = true) (a : Nat) (bs : List Byte) :
    Memory.wf (Sparse.setRange memDefault r.scratch a bs) = true := Sparse.wf_setRange bs a h

/-- What a byte of HBM reads as after a write. -/
theorem State.byte_setBytes (h : s.memOk) (a b : Nat) (bs : List Byte) :
    (s.setBytes a bs).byte b = if a ≤ b ∧ b < a + bs.length then bs.getD (b - a) memDefault else s.byte b :=
  Sparse.get_setRange bs a b h.1

/-- A byte outside the bytes written keeps its value. -/
theorem State.byte_setBytes_of_outside (h : s.memOk) {a b : Nat} {bs : List Byte} (ho : b < a ∨ a + bs.length ≤ b) :
    (s.setBytes a bs).byte b = s.byte b := by
  rw [State.byte_setBytes h, if_neg (by omega)]

/-- A write of HBM changes nothing but HBM. -/
theorem State.setBytes_frame (a : Nat) (bs : List Byte) :
    (s.setBytes a bs).cores = s.cores ∧ (s.setBytes a bs).kern = s.kern ∧ (s.setBytes a bs).host = s.host ∧
      (s.setBytes a bs).league = s.league ∧ (s.setBytes a bs).mem.host = s.mem.host ∧ (s.setBytes a bs).cur = s.cur :=
  ⟨rfl, rfl, rfl, rfl, rfl, rfl⟩

end Sys2Proof.Machine
end

