-- ==== Sys2Proof/Tests/Slice0.lean ====
section
/-!
SUPPORT. Tests: ill-formed terms that the form checks refuse; decodings of the words the spec writes out for instructions;
single steps on the spec's worked examples; and, for every statement with hypotheses, a state and operands that meet them.
-/

open Sys2Proof Sys2Proof.Machine

namespace Sys2Proof.Tests

set_option Elab.async false

/-- An extended form whose fields all hold 0. -/
def x0 : Ext := ⟨false, 0, 0, 0, 0, 0, false, false, false, 0, 0, 0, 0, 0, 0, none⟩

/-! ## Well-formedness: one ill-formed term for each check -/

/-- Fields the rows fix (R98, R99): B6 of a unary form, IMM9 and A6 of MOVI, literals that a row needs or cannot have, SUB
and MOD values that tell rows apart; a row without an encoding. -/
theorem test_encodable_refuses :
    [Instr.popcReg ⟨false, 1, 1, 5, 4⟩, .moviImm ⟨false, 100, 1, 4⟩, .brc x0, .braAbs { x0 with lit := some 0 },
      .tilemvLd { x0 with mod := 8 }, .tilemvSt x0, .chputRes { x0 with sub := 1 }, .chgetDone x0, .regroupKey { x0 with sub := 1 },
      .crd { x0 with sub := 1 }, .cwr { x0 with sub := 1, mod := 4 }, .ktcodePop { x0 with sub := 1, mod := 5 },
      .mgsig { x0 with sub := 10 }, .tokenGrant].all (fun i => !i.encodable) = true := by decide

/-- The form rules of R100 step 3: types outside an entry's list, a B6 or an OFF6 that must be 0, a size, a scope or a mode
that is reserved, a U that is fixed, MOD bits no entry has, SBS 7, a negated guard p0, a literal no field names. -/
theorem test_formOk_refuses :
    [Instr.addReg ⟨false, 4, 6, 5, 4⟩, .andReg ⟨false, 0, 6, 5, 4⟩, .popcReg ⟨false, 2, 0, 5, 4⟩, .faddReg ⟨false, 0, 6, 5, 4⟩,
      .addLit ⟨false, true, 1, 5, 4, 9⟩, .moviLit ⟨false, true, 0, 1, 4, 9⟩, .ldReg ⟨false, 7, 0, 4, 8⟩, .stReg ⟨false, 5, 0, 4, 8⟩,
      .ldLit ⟨false, 2, 1, 4, 8, 16⟩, .addExt { x0 with sbs := 7 }, .addExt { x0 with pn := true }, .addExt { x0 with lit := some 3 },
      .addExt { x0 with mod := 1 }, .movExt { x0 with mod := 0x200 }, .faddExt { x0 with ty := 4, c9 := 3 },
      .fminExt { x0 with ty := 4, mod := 1 }, .mad { x0 with ty := 2, mod := 1 }, .cmp { x0 with mod := 6 },
      .plog { x0 with u := true }, .cvt { x0 with ty := 4, sub := 4 }, .vdot { x0 with ty := 11, mod := 1 },
      .bqnt { x0 with ty := 5 }, .shfl { x0 with ty := 7, mod := 0x18 }, .lred { x0 with sub := 3 }, .loop { x0 with lit := some 4, mod := 1 },
      .ldExt { x0 with mod := 0x18 }, .stlExt { x0 with mod := 0x80 }, .atom { x0 with ty := 0, sub := 3 }, .atomn { x0 with mod := 1 },
      .fence x0, .fenceo 6, .fencer { x0 with mod := 0x14 }, .cflush { x0 with u := true, mod := 4 }, .rld { x0 with mod := 0x10 },
      .cpy { x0 with u := true, b9 := 1, mod := 0x80 }, .mma { x0 with ty := 13, mod := 0xC000 }, .accwr { x0 with d9 := 328 },
      .coll { x0 with u := true, mod := 0x20 }, .gthr { x0 with u := true, mod := 0x100 }, .bar { x0 with pg := 1 },
      .vgrow { x0 with mod := 5 }, .psend { x0 with u := true, mod := 2 }, .objnew { x0 with u := true, mod := 6 },
      .srd { x0 with mod := 18 }, .crd { x0 with u := true, mod := 13 }, .ctxsv { x0 with u := true, sub := 3, c9 := 322 },
      .tlbinv { x0 with u := true, sub := 5 }, .wcreate x0].all (fun i => !i.formOk) = true := by decide

/-! ## Decoding: words the spec writes out for instructions (spec/03 to spec/19) -/

/-- What a word and the words after it decode to. -/
abbrev reads (w : Word) (ws : List Word) (i : Instr) : Prop := decodeWords w ws = .ok i

theorem test_decode_integer :
    reads 0x80451010 [] (.subImm ⟨false, 1, 5, 4⟩) ∧ reads 0x01851010 [] (.subReg ⟨false, 0, 6, 5, 4⟩) ∧
    reads 0x01851030 [] (.divReg ⟨false, 0, 6, 5, 4⟩) ∧
    reads 0x00281C31 [6, 0x00010000] (.divExt { x0 with d9 := 7, a9 := 5, b9 := 6, mod := 1 }) ∧
    reads 0x01851018 [] (.mulReg ⟨false, 0, 6, 5, 4⟩) ∧ reads 0x11851020 [] (.mulhReg ⟨false, 1, 6, 5, 4⟩) ∧
    reads 0x11851040 [] (.maxReg ⟨false, 1, 6, 5, 4⟩) ∧ reads 0x80C51068 [] (.shlImm ⟨false, 3, 5, 4⟩) ∧
    reads 0x01851078 [] (.sarReg ⟨false, 0, 6, 5, 4⟩) ∧ reads 0x10051090 [] (.popcReg ⟨false, 1, 0, 5, 4⟩) ∧
    reads 0x10051098 [] (.clzReg ⟨false, 1, 0, 5, 4⟩) ∧ reads 0x700510B8 [] (.movReg ⟨false, 7, 0, 5, 4⟩) ∧
    reads 0x201654BC [] (.movReg ⟨true, 2, 0, 22, 21⟩) ∧ reads 0x990010C0 [] (.moviImm ⟨false, 100, 0, 4⟩) := by decide

theorem test_decode_extended :
    reads 0x0FF810C3 [0x40000000, 0, 0x3FC00000, 0] (.moviExt { x0 with d9 := 4, a9 := 511, ty := 4, lit := some 0x3FC00000 }) ∧
    reads 0x002014B9 [0x40000000, 0x00010000] (.movExt { x0 with d9 := 5, a9 := 4, ty := 4, mod := 1 }) ∧
    reads 0x00281029 [0x00000E06, 0] (.mad { x0 with d9 := 4, a9 := 5, b9 := 6, c9 := 7 }) ∧
    reads 0x00380C83 [0x1FF, 0, 0x804, 0] (.bfx { x0 with d9 := 3, a9 := 7, b9 := 511, lit := some 0x804 }) ∧
    reads 0x002810B1 [0x70034206, 0] (.sel { x0 with d9 := 4, a9 := 5, b9 := 6, c9 := 417, ty := 7 }) ∧
    reads 0x001684A9 [0x10000184, 0] (.cmp { x0 with d9 := 417, a9 := 2, b9 := 388, ty := 1 }) ∧
    reads 0x002010C9 [9, 0x00020000] (.lea { x0 with d9 := 4, a9 := 4, b9 := 9, mod := 2 }) := by decide

theorem test_decode_float_and_conversion :
    reads 0x41852100 [] (.faddReg ⟨false, 4, 6, 5, 8⟩) ∧ reads 0x40082530 [] (.frcpReg ⟨false, 4, 0, 8, 9⟩) ∧
    reads 0x00282101 [0x40000E06, 0x00040000] (.faddExt { x0 with d9 := 8, a9 := 5, b9 := 6, c9 := 7, ty := 4, mod := 4 }) ∧
    reads 0x00205159 [0xD0000000, 0x00011100] (.cvt { x0 with d9 := 20, a9 := 4, ty := 13, sub := 0x44, mod := 1 }) ∧
    reads 0x0000A161 [0xD0000030, 0] (.bqnt { x0 with d9 := 40, b9 := 48, ty := 13 }) ∧
    reads 0x00205169 [0xF0003C05, 0x04000000] (.vdot { x0 with d9 := 20, a9 := 4, b9 := 5, c9 := 30, ty := 15, mod := 0x400 }) := by decide

theorem test_decode_predicates_and_lanes :
    reads 0x0D0E8CD1 [0x000341A2, 0x00C00000] (.plog { x0 with d9 := 419, a9 := 417, b9 := 418, c9 := 416, mod := 0xC0 }) ∧
    reads 0x0D1D20D9 [0, 0] (.pmov { x0 with d9 := 328, a9 := 419 }) ∧ reads 0x0D1D20E1 [0, 0] (.ballot { x0 with d9 := 328, a9 := 419 }) ∧
    reads 0x0D0D20E9 [0, 0] (.vote { x0 with d9 := 328, a9 := 417 }) ∧ reads 0x0D0828F1 [0, 0] (.mprefix { x0 with d9 := 10, a9 := 417 }) ∧
    reads 0x000008F8 [] (.elect 2) ∧ reads 0x300688F9 [0, 0] (.electExt { x0 with d9 := 418, pg := 3 }) ∧
    reads 0x00182971 [0x70000185, 0x00030000] (.shfl { x0 with d9 := 10, a9 := 3, b9 := 389, ty := 7, mod := 3 }) ∧
    reads 0x00182979 [0, 0x00010000] (.lscan { x0 with d9 := 10, a9 := 3, mod := 1 }) := by decide

theorem test_decode_control :
    reads 0x0A4001C1 [0, 0] (.braAbs { x0 with a9 := 328 }) ∧
    reads 0x0D0801CB [0, 0, 8, 0x14] (.brc { x0 with a9 := 417, lit := some 0x1400000008 }) ∧
    reads 0xFFFEC9D0 [] (.bru (-3) true 2) ∧ reads 0x0000A1D8 [] (.call 40) ∧ reads 0x000001E0 [] .ret ∧
    reads 0x003001EB [0, 0, 0x18, 0] (.jmpi { x0 with a9 := 6, lit := some 24 }) ∧
    reads 0x0C4001F3 [0, 0x001A0000, 0xC, 0] (.loop { x0 with a9 := 392, mod := 0x1A, lit := some 12 }) ∧
    reads 0x000001F9 [0, 0x00010000] (.loopx { x0 with mod := 1 }) ∧ reads 0x0D080201 [0, 0] (.brkl { x0 with a9 := 417 }) ∧
    reads 0x00000208 [] .region ∧ reads 0x00000218 [] .yield ∧ reads 0x00000228 [] .brk ∧ reads 0 [] .nop := by decide

theorem test_decode_memory :
    reads 0x21042248 [] (.stReg ⟨false, 2, 4, 4, 8⟩) ∧
    reads 0x00202241 [0x194, 0x04110000] (.ldExt { x0 with d9 := 8, a9 := 4, b9 := 404, mod := 0x411 }) ∧
    reads 0x00200249 [0x1194, 0x04120000] (.stExt { x0 with a9 := 4, b9 := 404, c9 := 8, mod := 0x412 }) ∧
    reads 0x00380E53 [0x1FF, 0x05000000, 0x40, 0] (.ldlExt { x0 with d9 := 3, a9 := 7, b9 := 511, mod := 0x500, lit := some 64 }) ∧
    reads 0x0038025B [0x7FF, 0x05800000, 0x40, 0] (.stlExt { x0 with a9 := 7, b9 := 511, c9 := 3, mod := 0x580, lit := some 64 }) ∧
    reads 0x00200A71 [0x10030B84, 0x000501C0] (.atom { x0 with d9 := 2, a9 := 4, b9 := 388, c9 := 389, ty := 1, sub := 7, mod := 5 }) ∧
    reads 0x00000281 [0, 0x000F0000] (.fence { x0 with mod := 15 }) ∧ reads 0x00001288 [] (.fenceo 4) ∧
    reads 0x00000291 [0, 0x00080000] (.fencer { x0 with mod := 8 }) ∧
    reads 0x00200299 [0x184, 0x04000000] (.pref { x0 with a9 := 4, b9 := 388, mod := 0x400 }) ∧
    reads 0x0A4002A5 [0x149, 0x00100000] (.cflush { x0 with u := true, a9 := 328, b9 := 329, mod := 0x10 }) := by decide

theorem test_decode_remote :
    reads 0x001022B1 [4, 0x04140000] (.rld { x0 with d9 := 8, a9 := 2, b9 := 4, mod := 0x414 }) ∧
    reads 0x001002B9 [0xC04, 0x04160000] (.rst { x0 with a9 := 2, b9 := 4, c9 := 6, mod := 0x416 }) ∧
    reads 0x001022C1 [0x10000C04, 0x00140000] (.ratom { x0 with d9 := 8, a9 := 2, b9 := 4, c9 := 6, ty := 1, mod := 0x14 }) ∧
    reads 0x0A4D22C9 [0x294A, 0x1E140000] (.rmcst { x0 with d9 := 328, a9 := 329, b9 := 330, c9 := 20, mod := 0x1E14 }) := by decide

theorem test_decode_engines :
    reads 0x00000309 [0xD0001000, 0x00800000] (.mma { x0 with c9 := 8, ty := 13, mod := 0x80 }) ∧
    reads 0x0A555309 [0xD0001800, 0xA5050000] (.mma { x0 with d9 := 340, a9 := 330, c9 := 12, ty := 13, mod := 0xA505 }) ∧
    reads 0x0C20A311 [0, 0] (.accrd { x0 with d9 := 40, a9 := 388 }) ∧ reads 0x00000321 [0x40000000, 0] (.accz { x0 with ty := 4 }) ∧
    reads 0x0A500329 [0xD0000000, 0x00020000] (.tilemvLd { x0 with a9 := 330, ty := 13, mod := 2 }) ∧
    reads 0x0A500329 [0, 0x000A0000] (.tilemvSt { x0 with a9 := 330, mod := 10 }) ∧
    reads 0x0A48033D [0, 0x00020040] (.chputDone { x0 with u := true, a9 := 329, sub := 1, mod := 2 }) ∧
    reads 0x0AAD535D [0x0002AF56, 0x00060000] (.gthr { x0 with u := true, d9 := 340, a9 := 341, b9 := 342, c9 := 343, mod := 6 }) ∧
    reads 0x0AA0034D [0x186, 0x00050000] (.cwait { x0 with u := true, a9 := 340, b9 := 390, mod := 5 }) ∧
    reads 0x0AAD5355 [0, 0x00720000] (.coll { x0 with u := true, d9 := 340, a9 := 341, mod := 0x72 }) := by decide

theorem test_decode_barriers :
    reads 0x00000361 [0, 0x00030000] (.bar { x0 with mod := 3 }) ∧
    reads 0x00052369 [0, 0x00030000] (.bara { x0 with d9 := 328, mod := 3 }) ∧
    reads 0x00152379 [0x10, 0x00E30000] (.regroupKey { x0 with d9 := 328, a9 := 2, b9 := 16, mod := 0xE3 }) ∧
    reads 0x00000379 [0x10, 0x00E30040] (.regroupHome { x0 with b9 := 16, sub := 1, mod := 0xE3 }) ∧
    reads 0x00068781 [0, 0x00020000] (.vgrow { x0 with d9 := 417, mod := 2 }) := by decide

theorem test_decode_kernel :
    reads 0x0A4D2395 [0, 0] (.wcreate { x0 with u := true, d9 := 328, a9 := 329 }) ∧
    reads 0x0A4D239D [0x0002974A, 0x00020000] (.psend { x0 with u := true, d9 := 328, a9 := 329, b9 := 330, c9 := 331, mod := 2 }) ∧
    reads 0x0A4D23A5 [0x0002974A, 0] (.precv { x0 with u := true, d9 := 328, a9 := 329, b9 := 330, c9 := 331 }) ∧
    reads 0x0A4D23AD [0x14A, 0x00030000] (.objnew { x0 with u := true, d9 := 328, a9 := 329, b9 := 330, mod := 3 }) ∧
    reads 0x0A4D23B5 [0, 0] (.objdel { x0 with u := true, d9 := 328, a9 := 329 }) ∧
    reads 0x0A4D23BD [0x14A, 0x00050000] (.wsadd { x0 with u := true, d9 := 328, a9 := 329, b9 := 330, mod := 5 }) ∧
    reads 0x0A4D23C5 [0, 0] (.wswait { x0 with u := true, d9 := 328, a9 := 329 }) ∧
    reads 0x0A4D23CD [0x0002974A, 0] (.tarm { x0 with u := true, d9 := 328, a9 := 329, b9 := 330, c9 := 331 }) ∧
    reads 0x0A4D23D5 [0, 0] (.tcancel { x0 with u := true, d9 := 328, a9 := 329 }) ∧
    reads 0x0A4D23DD [0, 0] (.nslookup { x0 with u := true, d9 := 328, a9 := 329 }) := by decide

theorem test_decode_system :
    reads 0x000523E5 [0, 0x000E0000] (.srd { x0 with u := true, d9 := 328, mod := 14 }) ∧
    reads 0x000517ED [0, 0x00040000] (.crd { x0 with u := true, d9 := 325, mod := 4 }) ∧
    reads 0x0A0003ED [0, 0x00040040] (.ktcodePop { x0 with u := true, a9 := 320, sub := 1, mod := 4 }) ∧
    reads 0x0A0D03ED [0x00028785, 0x80] (.rft { x0 with u := true, d9 := 320, a9 := 321, b9 := 389, c9 := 323, sub := 2 }) ∧
    reads 0x0A4513ED [0x149, 0x00140140] (.tlbinv { x0 with u := true, d9 := 324, a9 := 328, b9 := 329, sub := 5, mod := 0x14 }) ∧
    reads 0x0A3513ED [0, 0x180] (.idle { x0 with u := true, d9 := 324, a9 := 326, sub := 6 }) ∧
    reads 0x0CA513ED [0, 0x240] (.pwracq { x0 with u := true, d9 := 324, a9 := 404, sub := 9 }) ∧
    reads 0x0A3517ED [0x147, 0x2C0] (.mgsig { x0 with u := true, d9 := 325, a9 := 326, b9 := 327, sub := 11 }) := by decide

/-- No instruction: a MAJ the table leaves free, a B0 word with a bit set that must be 0, and a SYS word with a free SUB. -/
theorem test_decode_refuses : (decodeWords 0x00000200 []).toOption = none ∧ (decodeWords 0x00000209 [0, 0]).toOption = none ∧
    decodeWords 0x000003ED [0, 0x300] = .error .sysSub := by decide

/-! ## Single steps on worked examples of the spec -/

/-- A machine with one native wave of a process in slot 1 of core 0, its code page mapped, after `f` has set it up. -/
def lab (f : Wave → Wave) : State := { (State.reset.placeProgram []).updWave 0 1 f with cur := ⟨0, 1, 0, 0⟩ }

/-- Register vn holds x in every lane, under a tag. -/
def reg (n x : Nat) (t : BitVec 4) (w : Wave) : Wave := w.setV n ⟨ofLanes fun _ => x, t⟩

/-- The wave after an instruction. -/
def after (i : Instr) (s : State) : Option Wave := match exec i s with
  | .next t => t.wave? 0 1
  | _ => none

/-- Lane 5 of a vector register after an instruction, with the register's tag. -/
def res (i : Instr) (n : Nat) (f : Wave → Wave) : Option (Nat × BitVec 4) :=
  (after i (lab f)).map fun w => (lane (w.v n).data 5, (w.v n).tag)

/-- v5 and v6 as z32 (tag 1). -/
def zz (a b : Nat) (w : Wave) : Wave := reg 6 b 1 (reg 5 a 1 w)

/-- R315, R316: the sum wraps and the result has tag 1. -/
theorem test_add_wraps : res (.addReg ⟨false, 1, 6, 5, 4⟩) 4 (zz 0xFFFFFFFF 2) = some (1, 1) := by decide +kernel
/-- R316: the elements of s16x2 wrap on their own. -/
theorem test_add_elements : res (.addExt { x0 with d9 := 4, a9 := 5, b9 := 6, ty := 9 }) 4 (fun w => reg 6 0x0001FFFF 10 (reg 5 0x7FFF0001 10 w)) =
    some (0x80000000, 10) := by decide +kernel
/-- R356: quotients and remainders of the entry's table. -/
theorem test_div_table : res (.divReg ⟨false, 0, 6, 5, 4⟩) 4 (zz 0xFFFFFFF9 2) = some (0xFFFFFFFD, 1) ∧
    res (.divReg ⟨false, 0, 6, 5, 4⟩) 4 (zz 0x80000000 0xFFFFFFFF) = some (0x80000000, 1) := by decide +kernel
theorem test_rem_table : res (.divExt { x0 with d9 := 4, a9 := 5, b9 := 6, mod := 1 }) 4 (zz 0xFFFFFFF9 2) = some (0xFFFFFFFF, 1) ∧
    res (.divExt { x0 with d9 := 4, a9 := 5, b9 := 6, mod := 1 }) 4 (zz 0xFFFFFFF9 0) = some (0xFFFFFFF9, 1) := by decide +kernel
/-- R385: max.z32 of 0xFFFF_FFFF and 1, and max.s32 of the same. -/
theorem test_max_signs : res (.maxReg ⟨false, 1, 6, 5, 4⟩) 4 (zz 0xFFFFFFFF 1) = some (0xFFFFFFFF, 1) ∧
    res (.maxReg ⟨false, 0, 6, 5, 4⟩) 4 (zz 0xFFFFFFFF 1) = some (1, 1) := by decide +kernel
/-- R418: the shifts of the entry's example. -/
theorem test_shifts : res (.sarReg ⟨false, 0, 6, 5, 4⟩) 4 (zz 0xFFFFFF80 3) = some (0xFFFFFFF0, 1) ∧
    res (.sarReg ⟨false, 0, 6, 5, 4⟩) 4 (zz 0xFFFFFF80 40) = some (0xFFFFFFFF, 1) ∧
    res (.shrReg ⟨false, 0, 6, 5, 4⟩) 4 (zz 0xFFFFFF80 3) = some (0x1FFFFFF0, 1) := by decide +kernel
/-- R404: a 64-bit source 0xFFFF_FFFF_0000_0001 gives 33; R341: a source of 0 gives w. -/
theorem test_counts : res (.popcExt { x0 with d9 := 8, a9 := 4, ty := 3 }) 8 (fun w => reg 5 0xFFFFFFFF 11 (reg 4 1 11 w)) = some (33, 1) ∧
    res (.ctzReg ⟨false, 1, 0, 5, 4⟩) 4 (zz 0 0) = some (32, 1) := by decide +kernel
/-- R317: bitwise results have tag 0. -/
theorem test_and_tag : res (.andReg ⟨false, 7, 6, 5, 4⟩) 4 (zz 0xF0F0 0xFF00) = some (0xF000, 0) := by decide +kernel
/-- R363, R366: the results of the entry's table; R6: 1.5 + 2.25 = 3.75. -/
theorem test_float_results : res (.faddReg ⟨false, 4, 6, 5, 4⟩) 4 (fun w => reg 6 0x40100000 2 (reg 5 0x3FC00000 2 w)) = some (0x40700000, 2) ∧
    res (.frsqReg ⟨false, 4, 0, 5, 4⟩) 4 (fun w => reg 5 0x40800000 2 w) = some (0x3F000000, 2) ∧
    res (.flg2Reg ⟨false, 4, 0, 5, 4⟩) 4 (fun w => reg 5 0x3F800000 2 w) = some (0, 2) ∧
    res (.fsqrtReg ⟨false, 4, 0, 5, 4⟩) 4 (fun w => reg 5 0x80000000 2 w) = some (0x80000000, 2) ∧
    res (.frcpReg ⟨false, 5, 0, 5, 4⟩) 4 (fun w => reg 5 0x7C000000 3 w) = some (0x00007C00, 3) := by decide +kernel
/-- R431: the worked lane, its block's scale bytes 0x7F and 0x80, added to 0.5. -/
theorem test_vdot_lane : res (.vdot { x0 with d9 := 20, a9 := 4, b9 := 5, c9 := 30, ty := 15, mod := 0x400 }) 20 (fun w =>
    (reg 31 0x80 12 (reg 30 0x7F 12 (reg 20 0x3F000000 2 (reg 5 0x07070707 8 (reg 4 0x83120107 8 w)))))) = some (0x40A80000, 2) := by
  decide +kernel

/-! ## Witnesses: states and operands that meet the hypotheses of each statement -/

/-- The split that issues in s may issue i (`Issues`), and its context meets p. -/
def meets (i : Instr) (e : Option Ext) (s : State) (p : Ctx → Bool) : Bool :=
  match s.ctx? s.cur with
  | some c => c.ready s && c.w.pend.isEmpty && decide (c.midHold s c.w = c.w) && (formCheck c i e).isNone && p c
  | none => false

/-- What `meets` says. -/
theorem meets_issues {i : Instr} {e : Option Ext} {s : State} {p : Ctx → Bool} (h : meets i e s p = true) :
    ∃ c, Issues i e s c ∧ p c = true := by
  unfold meets at h
  split at h
  · rename_i c hc
    simp only [Bool.and_eq_true, List.isEmpty_iff, Option.isNone_iff_eq_none, decide_eq_true_eq] at h
    exact ⟨c, ⟨hc, h.1.1.1.1, h.1.1.1.2, h.1.1.2, h.1.2⟩, h.2⟩
  · exact absurd h (by simp)

/-- The operand checks pass. -/
abbrev pass (ops : List OpOk) : Bool := (checkOps ops).isNone

/-- The issuing split may issue i and its operands pass. -/
def runs (i : Instr) (e : Option Ext) (s : State) (ops : Ctx → List OpOk) : Bool := meets i e s fun c => pass (ops c)

/-- The context of the issuing split. -/
def ctxOf (s : State) : Ctx := (s.ctx? s.cur).getD ⟨⟨0, 0, 0, 0⟩, agentWave 0 0, Half.fresh 0 0 false, ⟨0, 0, false, false, 0, .ready, none, []⟩⟩

/-- Scalar sn of the wave's own half holds x. -/
def sreg (n : Nat) (x : Nat) (w : Wave) : Wave := w.setS 0 n (BitVec.ofNat 64 x)

/-! ### Arithmetic -/

theorem witness_IntegerMouldCompletes :
    [Instr.addReg ⟨false, 1, 6, 5, 4⟩, .subImm ⟨true, 511, 63, 63⟩, .mulLit ⟨false, true, 0, 5, 0, 7⟩,
      .divExt { x0 with d9 := 255, a9 := 5, b9 := 511, pg := 1, pn := true, mod := 1, lit := some 3 }].all (fun i =>
      match Claims.intForm i with
      | some (op, o, e) => runs i e (lab (fun w => { zz 7 0 w with hold := 15 })) fun c =>
          [srcOk c o.lit (op.type o.ty) o.a, srcOk c o.lit (op.type o.ty) o.b, dstOk c o.u (tyRegs (op.type o.ty)) o.d]
      | none => false) = true := by decide +kernel

theorem witness_IntegerElementResults : 3 < elCount (IntOp.add.type 12) ∧ 0 < elCount (IntOp.sar.type 3) := by decide

theorem witness_BitCounts :
    [Instr.popcReg ⟨false, 1, 0, 5, 4⟩, .clzExt { x0 with d9 := 8, a9 := 4, ty := 8 }, .ctzReg ⟨true, 3, 0, 63, 0⟩].all (fun i =>
      match Claims.countForm i with
      | some (_, o, e) => runs i e (lab (zz 7 0)) fun c => [srcOk c o.lit o.ty o.a, dstOk c o.u 1 o.d]
      | none => false) = true ∧ 2 ^ 64 - 1 < 2 ^ 64 ∧ 0 < 2 ^ 64 := by decide +kernel

theorem witness_Moves :
    runs (.movReg ⟨false, 7, 0, 5, 4⟩) none (lab (zz 7 0)) (fun c => let o := B3.op3 ⟨false, 7, 0, 5, 4⟩
      [bitsOk c o.lit (movTy o) o.a, dstOk c o.u (tyRegs o.ty) o.d]) = true ∧
    (let x : Ext := { x0 with d9 := 254, a9 := 4, ty := 8 }
     meets (.movExt x) (some x) (lab (fun w => { zz 7 0 w with hold := 15 })) (fun c => let o := Ext.op3 x
      pass [bitsOk c o.lit (movTy o) o.a, dstOk c o.u (tyRegs o.ty) o.d] && decide (o.d < 320 ∧ tyBits o.ty = 64 ∧ c.lanes o ≠ 0 ∧ o.nw = false)) = true) ∧
    ([0, 388, 415, 511].map fun code => runs (.moviExt { x0 with d9 := 4, a9 := BitVec.ofNat 9 code, ty := 4, lit := if code = 511 then some 9 else none })
      (some { x0 with d9 := 4, a9 := BitVec.ofNat 9 code, ty := 4, lit := if code = 511 then some 9 else none }) (lab id) fun c =>
        [{ bitsOk c (if code = 511 then some 9 else none) 4 code with
          valid := (bitsOk c (if code = 511 then some 9 else none) 4 code).valid && ((388 ≤ code && code < 416) || code == 511) }, dstOk c false 1 4])
      = [false, true, true, true] ∧
    runs (.moviImm ⟨true, 256, 0, 63⟩) none (lab id) (fun c => let o := B3I.op3 false ⟨true, 256, 0, 63⟩
      [bitsOk c o.lit 2 511, dstOk c o.u (tyRegs 2) o.d]) = true := by decide +kernel

theorem witness_ExtendedIntegers :
    let s := lab (fun w => reg 7 1 11 (zz 7 0 w))
    let x : Ext := { x0 with d9 := 4, a9 := 5, b9 := 6, c9 := 6 }
    runs (.mad x) (some x) s (fun c => [srcOk c none 0 5, srcOk c none 0 6, srcOk c none 0 6, dstOk c false 1 4]) = true ∧
    (let x : Ext := { x with c9 := 0 }
     runs (.bfx x) (some x) s (fun c => [srcOk c none 0 5, bitsOk c none 7 6, dstOk c false 1 4]) = true) ∧
    runs (.bfi x) (some x) s (fun c => [srcOk c none 0 5, bitsOk c none 7 6, srcOk c none 0 6, dstOk c false 1 4]) = true ∧
    (let x : Ext := { x with c9 := 0, d9 := 431, u := true }
     runs (.cmp x) (some x) s (fun c => [srcOk c none 0 5, srcOk c none 0 6, predDstOk c 431]) = true) ∧
    (let x : Ext := { x with c9 := 416, mod := 1 }
     runs (.sel x) (some x) s (fun c => let tags := srcTags c 0 5 ++ srcTags c 0 6
      [bitsOk c none 0 5, { bitsOk c none 0 6 with tagged := tags.all (· == tags.headD 0) }, predOk 416, dstOk c false 1 4]) = true) ∧
    (let x : Ext := { x0 with d9 := 320, a9 := 383, b9 := 388, u := true, mod := 7 }
     runs (.lea x) (some x) s (fun c => [{ srcOk c none 2 383 with valid := (srcOk c none 2 383).valid && (383 < 384 || 383 == 511) },
        srcOk c none 0 388, { dstOk c true 2 320 with valid := (dstOk c true 2 320).valid && decide (320 < 384) }]) = true) := by
  decide +kernel

theorem witness_FloatMouldCompletes :
    let s := lab (fun w => reg 6 0 2 (reg 5 0 2 w))
    [Instr.faddReg ⟨false, 4, 6, 5, 4⟩, .fmulImm ⟨false, 255, 5, 4⟩, .fminLit ⟨false, true, 0, 5, 4, 3⟩,
      .fsubExt { x0 with d9 := 4, a9 := 5, b9 := 6, c9 := 388, ty := 4, mod := 4 },
      .ffma { x0 with d9 := 4, a9 := 5, b9 := 6, c9 := 5, ty := 4, mod := 3 }].all (fun i => match Claims.fltForm i with
      | some (op, o, e) => runs i e s fun c => [srcOk c o.lit o.ty o.a, srcOk c o.lit o.ty o.b] ++
          (if op = .fma then [srcOk c o.lit o.ty o.c] else if o.mod % 8 = 4 then [bitsOk c o.lit 7 o.c] else []) ++ [dstOk c o.u 1 o.d]
      | none => false) = true ∧
    [Instr.frcpReg ⟨false, 4, 0, 5, 4⟩, .fex2Ext { x0 with d9 := 4, a9 := 5, ty := 4, mod := 3 }].all (fun i => match Claims.fltUnary i with
      | some (_, o, e) => runs i e s fun c => [srcOk c o.lit o.ty o.a, dstOk c o.u 1 o.d]
      | none => false) = true := by decide +kernel

theorem witness_ConversionsComplete :
    let s := lab (fun w => reg 31 0x7F 12 (reg 30 0x7F 12 (reg 6 0 5 (reg 5 0 5 (reg 4 0 2 w)))))
    (let x : Ext := { x0 with d9 := 20, a9 := 4, ty := 13, sub := 0x44, mod := 4, c9 := 388 }
     runs (.cvt x) (some x) s (fun c => [srcOk c none 4 4, dstOk c false 1 20, bitsOk c none 7 388]) = true) ∧
    (let x : Ext := { x0 with d9 := 20, a9 := 5, b9 := 6, c9 := 30, ty := 13, mod := 0x400 }
     runs (.vdot x) (some x) s (fun c => [vRun c.w 5 1 1 (· == tagOf 13), vRun c.w 6 1 1 (· == tagOf 13),
      vRun c.w 20 1 1 (fun t => t == tagOf 4 || t == 0), scaleOk c 2 2 30]) = true) ∧
    (let x : Ext := { x0 with d9 := 20, a9 := 8, b9 := 40, ty := 13, mod := 0x1F0 }
     let s := lab (fun w => reg 11 0 2 (reg 10 0 2 (reg 9 0 2 (reg 8 0x3F800000 2 w))))
     meets (.bqnt x) (some x) s (fun c => pass [vRun c.w 8 4 4 (· == 2), vRun c.w 40 1 1 (fun t => t == 0 || t == tagScale),
      vDst c 1 20] && decide (c.act false x.pg x.pn ≠ 0)) = true) := by decide +kernel

theorem witness_PredicateOperations :
    let s := lab id
    let x : Ext := { x0 with d9 := 419, a9 := 417 }
    (let x : Ext := { x with b9 := 416, c9 := 431, mod := 0x80 }
     runs (.plog x) (some x) s (fun c => [predOk 417, predOk 416, predOk 431, predDstOk c 419]) = true) ∧
    runs (.pmov x) (some x) s (fun c => [predDstOk c 419, predOk 417]) = true ∧
    (let x : Ext := { x with a9 := 511, lit := some 5 }
     runs (.pmov x) (some x) s (fun c => [predDstOk c 419, OpOk.when x.lit.isSome]) = true) ∧
    (let x : Ext := { x with a9 := 383 }
     runs (.pmov x) (some x) s (fun c => [predDstOk c 419, sRun c 383]) = true) ∧
    (let x : Ext := { x with d9 := 328 }
     meets (.pmov x) (some x) s (fun c => pass [sDst c 328, predOk 417] && decide (c.lanes (Ext.op3 x) ≠ 0)) = true ∧
     runs (.ballot x) (some x) s (fun c => [sDst c 328, predOk 417]) = true ∧
     runs (.vote x) (some x) s (fun c => [sDst c 328, predOk 417]) = true) ∧
    (let x : Ext := { x with d9 := 10 }
     runs (.mprefix x) (some x) s (fun c => [vDst c 1 10, predOk 417]) = true) ∧
    meets (.elect 15) none s (fun c => pass [{ predDstOk c 431 with valid := (predDstOk c 431).valid && 431 != 416 }] &&
      (lowest (c.active 0 false) == some 0)) = true ∧
    (let x : Ext := { x0 with d9 := 417 }
     meets (.electExt x) (some x) s (fun c => pass [{ predDstOk c 417 with valid := (predDstOk c 417).valid && 417 != 416 }] &&
      (lowest (c.active 0 false) == some 0)) = true) := by decide +kernel

theorem witness_CrossLaneOperations :
    let s := lab (zz 7 0)
    (let x : Ext := { x0 with d9 := 10, a9 := 5, b9 := 388, ty := 7, mod := 0x17 }
     runs (.shfl x) (some x) s (fun c => [vRun c.w 5 1 1 (fun _ => true), srcOk c none 1 388, vDst c 1 10]) = true) ∧
    (let x : Ext := { x0 with d9 := 328, a9 := 5, ty := 1, sub := 2 }
     meets (.lred x) (some x) s (fun c => pass [srcOk c none 1 5, { dstOk c false 1 328 with valid := (dstOk c false 1 328).valid && decide (328 < 384) }] &&
      !(lanesOf (c.lanes (Ext.op3 x))).isEmpty) = true) ∧
    (let x : Ext := { x0 with d9 := 10, a9 := 5, ty := 7, sub := 5, mod := 1 }
     runs (.lscan x) (some x) s (fun c => [srcOk c none 7 5, vDst c 1 10]) = true) := by decide +kernel

/-! ### What an instruction writes and keeps -/

theorem witness_VectorResultWrites : Sparse.wf VReg.zero (lab (zz 7 0) |> ctxOf).w.regs.v = true ∧ 318 + tyRegs 3 ≤ 320 := by decide +kernel

theorem witness_ScalarAndPredicateResultWrites : let w := (ctxOf (lab (sreg 63 9))).w
    Sparse.wf 0 w.regs.s = true ∧ Sparse.wf 0 w.regs.p = true ∧ lowest (2 ^ 63 : Mask) = some 63 ∧ lowest (1 : Mask) = some 0 := by
  decide +kernel

theorem witness_EndKeepsRegistersAndMemory : ((lab id).wave? 0 1).isSome = true ∧ (ctxOf (lab id)).w.pend = [] ∧
    ((ctxOf (lab id)).w.halves.all fun h => h.stack.all fun x => x.jmpi.isNone || x.pending == 0) = true := by decide +kernel

theorem witness_FallThroughAndBackEdge :
    (let s := lab id
     let c := ctxOf s
     (s.wave? 0 1).map (fun w => w.halves[0]?) = some (some c.half) ∧ c.half.stack = [] ∧ c.half.levels.all (· == none) = true ∧
      c.who.path = 0 ∧ c.w.traps = 0) ∧
    ([1, 2].all fun r => let h : Half := { Half.fresh 0x1000 allLanes false with
        levels := [none, some ⟨0x1000, 0x1010, 0x1020, r, 0, 2, true⟩, none, none] }
      h.levels.length == 4 && h.stack.isEmpty && (h.innermost == some (1, ⟨0x1000, 0x1010, 0x1020, r, 0, 2, true⟩))) = true := by
  decide +kernel

/-! ### Control flow -/

theorem witness_TransfersOfControl :
    let s := lab (sreg 63 0x1040)
    [Instr.bra 0, .call 40, .ret, .braAbs { x0 with a9 := 383 }, .callDisp { x0 with lit := some 0 }].all (fun i => match Claims.gotoForm i with
      | some (e, _, ops, t) => meets i e s fun c => pass (ops c) &&
          ((s.put c c.w).checkTargets (c.space (s.put c c.w)) c.w.id.codeBase [t c]).1 == .ok
      | none => false) = true ∧
    [Instr.bru 0 false 0, .bru (-1) true 0, .bruDisp { x0 with a9 := 416, lit := some 0 },
      .bruAbs { x0 with a9 := 416, b9 := 383 }].map (fun i => match Claims.bruForm i with
      | some (e, ops, p, neg, t) => (meets i e s fun c => pass (ops c)) && (meets i e s fun c =>
          decide (c.active 0 false &&& (if neg then ~~~(c.w.p c.who.half p) else c.w.p c.who.half p) ≠ 0) &&
          ((s.put c c.w).checkTargets (c.space (s.put c c.w)) c.w.id.codeBase [t c]).1 == .ok)
      | none => false) = [true, false, true, true] := by decide +kernel

/-- The target checks of the issuing split pass. -/
def reach (s : State) (c : Ctx) (ts : List Nat) : Bool :=
  ((s.put c c.w).checkTargets (c.space (s.put c c.w)) c.w.id.codeBase ts).1 == .ok

/-- Predicate pn holds m. -/
def prd (n : Nat) (m : Mask) (w : Wave) : Wave := w.setP n allLanes m

/-- The three ways of BRC and both of JMPI: no lane, every lane, and some of the lanes go to the target. -/
theorem witness_DivergingBranches :
    ([0, allLanes, 1].map fun m =>
      let x : Ext := { x0 with a9 := 417, mod := 2, lit := some 0x1400000008 }
      let s := lab (prd 1 m)
      meets (.brc x) (some x) s fun c => pass [predOk 417, OpOk.when (decide ((1 : Int) ≤ 8) && decide ((8 : Int) ≤ 20))] &&
        reach s c [c.disp 8, (c.path.pc + BitVec.ofNat 64 (4 * (encode (.brc x)).length)).toNat] && c.half.stack.isEmpty &&
        decide (((c.active 0 false &&& c.pred 417 false = 0) ↔ m = 0) ∧ ((c.path.mask &&& ~~~(c.active 0 false &&& c.pred 417 false) = 0) ↔ m = allLanes)))
      = [true, true, true] ∧
    ([fun _ => 0x1040, fun l => 0x1040 + 4 * (l % 5)].map fun t =>
      let x : Ext := { x0 with a9 := 6, lit := some 24 }
      let s := lab fun w => (reg 7 0 11 w).setV 6 ⟨ofLanes t, 11⟩
      meets (.jmpi x) (some x) s fun c => pass [vRun c.w 6 2 2 (fun _ => true), OpOk.when true] && c.half.stack.isEmpty &&
        reach s c ((lanesOf (c.active 0 false)).foldr (fun l => insertAsc (opVal c none 8 6 l)) []))
      = [true, true] := by decide +kernel

/-- An entry of two paths, both at its join. -/
def joined : Half :=
  { Half.fresh 0x1000 allLanes false with stack := [⟨0x1040, none, [Path.at' [] 0x1040 1 true, Path.at' [] 0x1040 2 true], 0, [], 0⟩] }

theorem witness_PathsRunAndMerge :
    (let ps := [Path.at' [] 0x1000 1 true, Path.at' [] 0x1010 2 true]
     (ps.all fun q => q.held == 0 && !q.arrived) = true ∧ ([fun _ => false, fun q => q.pc == 0x1000].all fun st =>
       ((runPaths true st ps)[0]?).isSome && ((runPaths true st ps)[1]?).isSome) = true) ∧
    (joined.stack.all fun e => e.pending == 0 && !e.paths.isEmpty && e.paths.all fun p =>
      p.iters == e.iters && p.running && !p.arrived && p.pc == e.join && p.wait == .ready && p.mask != 0) = true := by decide +kernel

/-- A level whose body runs from the code's first word. -/
def body (r : Nat) : Level := ⟨0x1000, 0x1010, 0x1020, r, 0, 1, false⟩
/-- The wave's half in n levels. -/
def inLoops (n : Nat) (w : Wave) : Wave := w.updHalf 0 fun h => { h with levels := (List.replicate n (some (body 3)) ++ List.replicate (4 - n) none) }

theorem witness_LoopsComplete :
    -- LOOP by a count of 4, of 0, from a scalar, from the literal, and with rotation in two levels
    ([(0, 392, 12), (0, 388, 12), (0, 383, 12), (0, 511, 0x50000000C), (0x1A, 392, 12)].map fun (m, a, l) =>
      let x : Ext := { x0 with a9 := BitVec.ofNat 9 a, mod := BitVec.ofNat 16 m, lit := some (BitVec.ofNat 64 l) }
      let s := lab fun w => (inLoops 2 (sreg 63 7 { w with hold := 8 })).updHalf 0 fun h => { h with base := { h.base with pc := 0x1800 } }
      meets (.loop x) (some x) s fun c => decide (0 < asInt 32 (l % 2 ^ 32)) && (m == 0 || c.w.heldBlk 4 && !c.w.id.gang) &&
        (a == 511 || a == 392 || a == 388 || scalarOk c.w a) && reach s c [c.disp 12] && c.half.levels.countP (·.isSome) < 4 &&
        (c.half.levels.findIdx? (·.isNone)) == some 2 && c.half.rotating.isNone && (c.half.innermost.any fun q => !(q.2.start ≤ c.path.pc && c.path.pc ≤ q.2.stop)))
      = [true, true, true, true, true] ∧
    (let x : Ext := { x0 with mod := 1 }
     meets (.loopx x) (some x) (lab (inLoops 3)) (fun c => (c.half.levels.getD 1 none).isSome && !c.half.othersRun c.who.path &&
      !stranded (body 3) c.who.path c.half.stack) = true) ∧
    ([0, 1, allLanes].map fun m =>
      let x : Ext := { x0 with a9 := 417 }
      meets (.brkl x) (some x) (lab fun w => prd 1 m (inLoops 1 w)) fun c => pass [predOk 417] && c.half.innermost.isSome &&
        (c.active 0 false &&& c.pred 417 false) == m) = [true, true, true] := by decide +kernel

theorem witness_ExitRegionAndNoEffect :
    meets .exit none (lab id) (fun c => let w := ((Wave.updHalf { c.w with exited := c.w.exited ||| c.path.mask } 0 fun h => h.without c.path.mask).emptied 4 0 0).endHalf 0
      w.halves.all (·.ended)) = true ∧
    -- one of two paths exits
    meets .exit none (lab fun w => w.updHalf 0 fun h => { h with stack := [⟨0x1040, none, [Path.at' [] 0x1000 1 true, Path.at' [] 0x1010 2 true], 0,
      [], 0⟩] }) (fun c => let w := ((Wave.updHalf { c.w with exited := c.w.exited ||| c.path.mask } 0 fun h => h.without c.path.mask).emptied 4 0 0).endHalf 0
      !w.halves.all (·.ended)) = true ∧
    ([Instr.nop, .yield, .region].all fun i => meets i none (lab id) fun _ => true) = true ∧
    (ctxOf (lab id)).half.stack = [] ∧ joined.stack ≠ [] := by decide +kernel

/-! ### Memory -/

/-- Data pages: at 0x2000 one that is cached, at 0x3000 one that is not, both readable and writable; and the wave's block, of
one wave with two live lanes, in a launch of one block whose level 1 has barrier 3: 32 KiB of scratchpad, matrix state set 0. -/
def blab (f : Wave → Wave) : State :=
  let s := (State.reset.placeProgram []).setNum 0x22010 8 (0x24000 + 0x87)
  let s := s.setNum 0x22018 8 (0x25000 + 0xC7)
  let w8 (x : Nat) : List Byte := leBytes 8 x
  -- word 0: V 1 in bits 11:8, NLVL 3; levels 0 (extent 64), 1 (extent 1, domain 1, barrier 3) and 2 (extent 1)
  let rec' := leBytes 4 0x3100 ++ leBytes 4 (mkHandle 1 0 1).toNat ++ w8 0 ++ w8 0 ++ w8 0 ++ w8 64 ++ w8 (2 ^ 40 + 3 * 2 ^ 32 + 2 ^ 24 + 1) ++ w8 1 ++ leBytes 72 0
  let l : Launch := ⟨0, 0, 0, rec', .running, false, [], [], 0, 0, 0, []⟩
  let h := mkHandle 2 0 2
  let b : Block := ⟨0, 0, 0, .placed, [h], 0x4000, 0x8000, some 0, 0, true, 0, 0, none, none, [1], false, 0, false, none⟩
  let s := { s with host := { s.host with launches := [(0, l)], blocks := [(0, b)] } }
  let s := s.updCore 0 fun k => { k with msets := [MSet.fresh (some 0), MSet.fresh none] }
  { s.updWave 0 1 fun w => f { w with id := { w.id with blk := some 0, kind := .block }, exited := ~~~3 } with cur := ⟨0, 1, 0, 0⟩ }

/-- Lane l holds base + 4 l in the pair vn. -/
def addrs (n base : Nat) (w : Wave) : Wave := (reg (n + 1) 0 11 w).setV n ⟨ofLanes fun l => base + 4 * l, 11⟩

/-- An access of `Claims.accessOf` meets the hypotheses of completion. -/
def accessMeets (i : Instr) (s : State) (none' : Bool) : Bool := match Claims.accessOf i with
  | some x => meets i x.ext s fun c => pass (x.ops c) && (if none' then (x.lanes c).isEmpty else
      let s₀ := s.put c c.w
      let sp := if x.op.sync then c.syncSpace s₀ else c.space s₀
      let r := access (s₀.orderAtomn c (x.op.sync || 2 ≤ x.op.ord) (x.lanes c) x.op.n) sp x.op (x.lanes c)
      !s.hasReqs c.w.id.handle &&
      !(x.lanes c).isEmpty && c.path.prog.isNone && (s.reqsOf c).isEmpty && (lanesOk s₀ sp.proc x.op (x.lanes c)).isNone &&
        r.1.peer.isEmpty && r.1.parked.isEmpty && !r.1.filling && r.1.fault.isNone && !r.1.vals.isEmpty)
  | none => false

/-- Loads and stores of a cached and of an uncached page, an acquire, a release, an atomic; and no lane. -/
theorem witness_MemoryAccessesComplete :
    (accessMeets (.ldReg ⟨false, 2, 0, 4, 8⟩) (blab (addrs 4 0x2000)) false && accessMeets (.stReg ⟨false, 2, 63, 4, 8⟩) (blab (addrs 4 0x3000)) false &&
      accessMeets (.stExt { x0 with a9 := 4, b9 := 388, c9 := 8, mod := 0x412 }) (blab (addrs 4 0x2000)) false &&
      accessMeets (.ldExt { x0 with d9 := 8, a9 := 4, b9 := 388, mod := 0x411 }) (blab (addrs 4 0x2000)) false &&
      accessMeets (.atom { x0 with d9 := 2, a9 := 4, b9 := 388, c9 := 389, ty := 1, sub := 7, mod := 5 }) (blab (addrs 4 0x3000)) false &&
      accessMeets (.ldLit ⟨true, 3, 0, 60, 9, 0x2000⟩) (blab id) false &&
      accessMeets (.ldExt { x0 with d9 := 8, a9 := 4, b9 := 388, mod := 0x410, pg := 1 }) (blab fun w => prd 1 0 (addrs 4 0x2000 w)) true) = true := by
  decide +kernel

/-- The address space of the block's wave. -/
def dataSpace (s : State) : Space := (ctxOf s).space s

/-- The leaf of the uncached page. -/
def ncLeaf : Leaf := ⟨0x250C7, 0⟩

/-- The walk of a that `Claims.Reaches` asks for, decided. -/
def walked (s : State) (l : Leaf) (a : LaneAcc) : Bool :=
  let sp := dataSpace s
  a.va < 2 ^ 52 && !isWindow a.va && walkFrom s a.va 3 sp.root == .ok l &&
    (Sparse.get? (tlbKey sp.pasid a.va) (s.core sp.core).tlb).getD (l.lvl, l.pte) == (l.lvl, l.pte)

/-- `Claims.Reaches`, decided, in the local tier. -/
def reaches (s : State) (o : MemOp) (l : Leaf) (a : LaneAcc) : Bool :=
  let sp := dataSpace s
  walked s l a && (permit s sp.tdi o.acc l a.va).isNone && l.tier == 0 && !l.c && !s.mem.retired.contains (l.pa a.va / 4096) &&
    (o.acc == .write || !s.badRead (l.path sp.core) (o.skip l) (l.pa a.va) o.n) && decide (o.ord < 2)

theorem witness_ReachableAccessesPerform : let s := blab id
    (reaches s ⟨.read, 4, 1, 5, true, none⟩ ncLeaf ⟨0, 0x3000, 0, 0⟩ && reaches s ⟨.write, 16, 0, 0, false, none⟩ ncLeaf ⟨63, 0x3FF0, 9, 0⟩ &&
      reaches s ⟨.atomic, 8, 0, 5, true, some (7, 3)⟩ ncLeaf ⟨0, 0x3FF8, 9, 0⟩) = true ∧
    -- a store to a page without W and G, a load of one without R, and a store to one with G
    ([(0x250C3, Acc.write, Exc.permission), (0x250C5, .read, Exc.permission), (0x250E3, .write, Exc.writeToGlobalRo)].all fun (f, acc, code) =>
      let t := s.setNum 0x22018 8 f
      let l : Leaf := ⟨BitVec.ofNat 64 f, 0⟩
      walked t l ⟨0, 0x3000, 0, 0⟩ && !l.malformed && (permit t (dataSpace t).tdi acc l 0x3000).map (·.2) == some code) = true := by
  decide +kernel

theorem witness_UncachedLocalMemory : let s := blab id
    s.memOk ∧ ncLeaf.nc = true ∧ ncLeaf.tier = 0 ∧ 0x3FF0 % 16 = 0 ∧ 0x3000 % 1 = 0 ∧
    (reaches s ⟨.read, 1, 0, 0, false, none⟩ ncLeaf ⟨0, 0x3000, 0, 0⟩ && reaches s ⟨.write, 16, 0, 0, false, none⟩ ncLeaf ⟨0, 0x3FF0, 0, 0⟩ &&
      reaches s ⟨.atomic, 4, 1, 5, true, some (0, 0)⟩ ncLeaf ⟨0, 0x3FFC, 0, 0⟩) = true := by
  refine ⟨?_, ?_⟩
  · unfold State.memOk; decide +kernel
  · decide +kernel

/-- A scratchpad access meets the hypotheses: its lanes aligned and in the allocation, its full-empty bits as `full` says. -/
def spadMeets (i : Instr) (s : State) (full : Bool) : Bool := match Claims.spadOf i with
  | some (st, e, m) => meets i e s fun c => pass [spadAddrOk c m.a, offOk c m.lit m.off, dataOk c (!st) m.u m.sz m.d] &&
      (let n := szBytes m.sz
       let ls := spadLanes c m fun l => if st then dataVal c m.sz m.d l else 0
       !ls.isEmpty && (ls.all fun a => a.va % n == 0 && (s.spadOf c).1 ≤ a.va && a.va + n ≤ (s.spadOf c).1 + (s.spadOf c).2) &&
         (s.spadError 0 n ls).isNone && !s.hasReqs c.w.id.handle && s.feAll 0 (!st) ls == full)
  | none => false

/-- Plain loads and stores at both ends of the allocation; full-empty forms whose bits let them run, and whose bits do not. -/
theorem witness_ScratchpadAccesses :
    Sparse.wf memDefault ((blab id).core 0).scratch = true ∧
    (spadMeets (.ldlReg ⟨false, 2, 0, 7, 3⟩) (blab (reg 7 0x4000 1)) false && spadMeets (.stlReg ⟨false, 2, 63, 7, 3⟩) (blab (reg 7 0xBF00 1)) true &&
      spadMeets (.stlExt { x0 with a9 := 7, b9 := 388, c9 := 3, mod := 0x580 }) (blab (reg 7 0xBFFC 1)) true &&
      spadMeets (.ldlExt { x0 with d9 := 3, a9 := 7, b9 := 388, mod := 0x500 }) (blab (reg 7 0xBFFC 1)) false &&
      spadMeets (.ldlExt { x0 with d9 := 3, a9 := 7, b9 := 388, mod := 0x500 })
        ((blab (reg 7 0xBFFC 1)).updCore 0 fun k => { k with fe := [(0xBFF, true)] }) true &&
      spadMeets (.stlExt { x0 with a9 := 7, b9 := 388, c9 := 3, mod := 0x580 })
        ((blab (reg 7 0xBFFC 1)).updCore 0 fun k => { k with fe := [(0xBFF, true)] }) false) = true := by decide +kernel

/-- CMPST and EXPLD of two lanes, and of no lane; ATOMN. -/
theorem witness_PackedAndPendingAccesses :
    (let x : Ext := { x0 with d9 := 328, a9 := 329, b9 := 417, c9 := 8, mod := 0x402 }
     let s := blab fun w => prd 1 3 (sreg 9 0x2FFC w)
     meets (.cmpst x) (some x) s (fun c => pass [sDst c 328, sRun c 329, predOk 417,
        { dataOk c false false 2 8 with valid := 8 < 320 && (dataOk c false false 2 8).valid }] && c.path.prog.isNone && !s.hasReqs c.w.id.handle &&
        (match packElems (.cmpst x) ⟨.write, 4, 0, 0, false, none⟩ 0x2FFC (fun _ w => w) c (dataVal c 2 8) 0 [0, 1]
          ((((s.put c c.w).orderAtomn c true [] 0).releaseBy (c.space (s.put c c.w)) 0).bumpSfr c) with | .done _ => true | _ => false)) &&
     (let x := { x with pg := 2 }
      meets (.cmpst x) (some x) s (fun c => c.active x.pg x.pn == 0))) = true ∧
    (let x : Ext := { x0 with d9 := 8, a9 := 329, b9 := 417, c9 := 330, mod := 0x401 }
     let s := blab fun w => prd 1 3 (sreg 9 0x3000 w)
     meets (.expld x) (some x) s (fun c => pass [{ dataOk c true false 2 8 with valid := 8 < 320 && (dataOk c true false 2 8).valid },
        sRun c 329, predOk 417, sDst c 330] && c.path.prog.isNone && decide (c.active x.pg x.pn ≠ 0) &&
        (match packElems (.expld x) ⟨.read, 4, 0, 0, false, none⟩ 0x3000 (loadInto c 2 8 0) c (fun _ => 0) 0 [0, 1] (s.put c c.w) with
          | .done _ => true | _ => false))) = true ∧
    (let x : Ext := { x0 with a9 := 4, b9 := 388, ty := 1, mod := 10 }
     let s := blab (addrs 4 0x2000)
     meets (.atomn x) (some x) s (fun c => pass [addrOk c 4, srcOk c none 1 388] && c.path.prog.isNone && (s.reqsOf c).isEmpty &&
       (let o : MemOp := ⟨.atomic, 4, 2, 2, true, some (0, 1)⟩
        let ls : List LaneAcc := (lanesOf (c.act false 0 false)).map fun l => ⟨l, addrVal c 4 l, opVal c none 1 388 l, 0⟩
        let s₀ := s.put c c.w
        let t := (translateLanes s₀ (c.syncSpace s₀) o (ls.filter fun a => !isWindow a.va)).1
        !s.hasReqs c.w.id.handle && !ls.isEmpty && (lanesOk s₀ (c.syncSpace s₀).proc o ls).isNone && t.miss.isEmpty && t.bad.isEmpty && t.ok.all fun x => x.leaf.tier != 1))) = true := by
  decide +kernel

theorem witness_FencesAndCacheMaintenance : let s := blab fun w => prd 1 0 (sreg 9 0x80 (sreg 8 0x2000 (addrs 4 0x2000 w)))
    ([1, 2, 3].all fun ord => let x : Ext := { x0 with mod := BitVec.ofNat 16 (ord + 4 * 5) }
      meets (.fence x) (some x) s fun c => decide (c.act false 0 false ≠ 0) && !s.hasReqs c.w.id.handle) = true ∧
    meets (.fenceo 0) none s (fun c => decide (c.path.mask &&& c.w.live ≠ 0)) = true ∧
    (let x : Ext := { x0 with mod := 4 }
     meets (.fencer x) (some x) s (fun c => c.progress.k == 0 && decide (c.act false 0 false ≠ 0) && !s.hasReqs c.w.id.handle &&
      !s.openReqs ((s.put c c.w).cutWaves c.w.id.proc ((s.put c c.w).unitCores 1 0)) s.now)) = true ∧
    (let x : Ext := { x0 with a9 := 4, b9 := 388 }
     runs (.pref x) (some x) s (fun c => [addrOk c 4, offOk c none 388])) = true ∧
    (let x : Ext := { x0 with mod := 4, pg := 1 }
     meets (.fence { x with mod := 1 }) (some { x with mod := 1 }) s (fun c => c.act false x.pg x.pn == 0) &&
       meets (.fencer x) (some x) s (fun c => c.act false x.pg x.pn == 0)) = true ∧
    -- an empty range, one above 2^32 bytes, and one of a line
    ([(320, 0), (511, 2 ^ 32 + 1), (329, 0x80)].all fun (b, len) =>
      let x : Ext := { x0 with u := true, a9 := 328, b9 := BitVec.ofNat 9 b, mod := 8, lit := if b = 511 then some (BitVec.ofNat 64 len) else none }
      meets (.cinv x) (some x) s fun c => pass [sRun c 328, if 320 ≤ b ∧ b < 384 then sRun c b else offOk c x.lit b] &&
        offVal c x.lit b == len && !isWindow (c.sVal 328).toNat && decide (c.act true 0 false ≠ 0) &&
        (((s.put c c.w).orderAtomn c true [] 0).rangePages (c.space s) 0x2000 0x2080 [2]).1.bad.isEmpty) = true := by decide +kernel

/-! ### The League, engines and channels -/

/-- A request of the lab's wave for a lane, with an answer's status. -/
def asked (l : Nat) (st : Option Nat) : Req :=
  ⟨0, mkHandle 2 0 2, 0, l, Packet.plain 1 0 7 0, 0, false, false, none,
    st.map fun n => { Packet.plain 2 7 0 0 with status := BitVec.ofNat 4 n }, 0, false⟩

/-- The state with these requests outstanding. -/
def withReqs (s : State) (rs : List Req) : State := { s with league := { s.league with reqs := rs } }

/-- Every lane answered, a negative answer, a first pass to peer 7, and no lane; the instruction is a load, a store or an atomic. -/
theorem witness_RemoteAccessesComplete :
    let s := blab fun w => prd 1 0 (reg 6 9 1 (reg 2 7 1 (addrs 4 0x2000 w)))
    let s₀ := s.put (ctxOf s) (ctxOf s).w
    ([Instr.rld { x0 with d9 := 8, a9 := 2, b9 := 4, mod := 0x414 }, .rst { x0 with a9 := 2, b9 := 4, c9 := 6, mod := 0x416 },
        .ratom { x0 with d9 := 8, a9 := 2, b9 := 4, c9 := 6, ty := 1, mod := 0x14 }].all fun i => match Claims.remoteOf i with
      | some x => (meets i (some x.ext) s fun c => pass (x.ops c) && (negative (s.reqsOf c)).isNone &&
            !s.hasReqs c.w.id.handle && ((x.lanes c).all fun a => a.peer == 7 && a.off % x.op.n == 0 && a.off < 2 ^ 40) && (x.lanes c).length == 2) &&
          (let t := withReqs s [asked 0 (some 0), asked 1 (some 0)]
           meets i (some x.ext) t fun c => pass (x.ops c) && (negative (t.reqsOf c)).isNone &&
            (x.lanes c).all fun a => (c.progress.done ||| valMask (Claims.answers x.op.n (t.reqsOf c))).getLsbD a.l) &&
          (let t := withReqs s [asked 0 (some 0), asked 1 (some 7)]
           meets i (some x.ext) t fun c => pass (x.ops c) && (negative (t.reqsOf c)).isSome)
      | none => false) = true ∧
    (let x : Ext := { x0 with d9 := 8, a9 := 2, b9 := 4, mod := 0x414, pg := 1 }
     meets (.rld x) (some x) s fun c => (remLanes c x (fun _ => 0) fun _ => 0).isEmpty) = true ∧
    -- RMCST with an acknowledgement, with every port down (as at reset), and with no lane
    (let x : Ext := { x0 with d9 := 328, a9 := 329, b9 := 330, c9 := 6, mod := 0x1E14 }
     let s := blab fun w => prd 1 0 (reg 6 9 1 (sreg 9 4095 (sreg 10 0x100 w)))
     let ops (c : Ctx) : List OpOk := [sDst c 328, sRun c 329, sRun c 330, vRun c.w 6 1 1 fun _ => true]
     let ok (c : Ctx) : Bool := pass (ops c) && (c.sVal 329).toNat < 2 ^ 12 && (c.sVal 330).toNat < 2 ^ 40 && (c.sVal 330).toNat % 16 == 0 &&
       (c.sVal 330).toNat % 256 + 256 ≤ 256
     (meets (.rmcst x) (some x) (withReqs s [asked 0 (some 0)]) fun c => ok c && decide (c.active 0 false ≠ 0) &&
        ((withReqs s [asked 0 (some 0)]).reqsOf c).length == 1) &&
       (meets (.rmcst x) (some x) s fun c => ok c && decide (c.active 0 false ≠ 0) && (s.reqsOf c).isEmpty && (s.planeFor 1).isNone) &&
       (meets (.rmcst { x with pg := 1 }) (some { x with pg := 1 }) s fun c => ok c && c.active 1 false == 0)) = true ∧ s₀.peer = 0 := by
  decide +kernel

/-- A channel of two 16 KiB slots over the block's scratchpad. -/
def chan (resv : List Resv) : Chan := ⟨0, 0x4000, 0x4000, 2, 1, 1, resv.countP (·.put), resv.countP (!·.put), [⟨0, 0, 0, 0⟩, ⟨0, 0, 0, 0⟩], resv⟩

/-- The lab with that channel as channel 2. -/
def clab (resv : List Resv) (f : Wave → Wave) : State := (blab f).updCore 0 fun k => { k with chans := [(2, chan resv)] }

/-- A queued command of the copy queue or the FIFO. -/
def cmd (n : Nat) (i : Instr) : Cmd := ⟨n, n, i, 0x1000, ⟨0, 1, 0, 0, 0, some 0, false, 0, 0, none⟩, allLanes, [], [], [], [], .queued, [], false, 0⟩

/-- Posting to a FIFO with room and to a full one, with and without a lane; a channel operand and a scratchpad one; ACCRD. -/
theorem witness_MatrixInstructionsComplete :
    let f (w : Wave) : Wave := prd 1 0 (reg 9 1 2 (reg 8 1 2 (sreg 11 (2 ^ 31 + 2) (sreg 10 0 (sreg 12 (128 * 2 ^ 24 + 0x4000) w)))))
    let s := clab [] f
    let full := s.updCore 0 fun k => { k with fifo := List.replicate 64 (cmd 9 (.accz { x0 with mod := 1 })) }
    let s := s.updCore 0 fun k => { k with msets := [⟨some 0, [], [], List.replicate 12 0, List.replicate 8 1 ++ List.replicate 4 0, []⟩] }
    let posted (t : BitVec 4) : State := s.updCore 0 fun k => { k with msets := [⟨some 0, [], [], List.replicate 12 0, List.replicate 8 t ++ List.replicate 4 0, []⟩] }
    let ok (s : State) (i : Instr) (some' : Bool) : Bool := match Claims.postOf i with
      | some x => meets i (some x.ext) s fun c => let s₀ := s.put c c.w
          pass (x.ops s₀ c) && (if some' then decide (c.active x.ext.pg x.ext.pn ≠ 0) && (x.descs.all fun d => (s₀.descFault c d).isNone) &&
            (s₀.cmplFault c x.ext).isNone else c.active x.ext.pg x.ext.pn == 0)
      | none => false
    (ok (posted 3) (.mma { x0 with ty := 5, mod := 0x81 }) true && ok (posted 3) (.mma { x0 with a9 := 330, ty := 5, mod := 0x84 }) true &&
      ok s (.accz { x0 with ty := 4, mod := 3 }) true && ok s (.accwr { x0 with a9 := 8, b9 := 388 }) true &&
      ok s (.tilemvLd { x0 with a9 := 332, ty := 5, mod := 7 }) true && ok s (.tilemvSt { x0 with a9 := 332, mod := 8 }) true &&
      ok full (.accz { x0 with ty := 4, mod := 3 }) true && ok s (.accz { x0 with ty := 4, pg := 1 }) false) = true ∧
    (let x : Ext := { x0 with d9 := 8, a9 := 388, mod := 3 }
     (meets (.accrd x) (some x) s fun c => pass [(vRun c.w 8 2 2 fun _ => true).dst, rowOk c none 388, msetOk (s.put c c.w) c true] &&
        decide (c.active 0 false ≠ 0) && ((s.core 0).fifo.all fun x => !(x.poster.blk == c.w.id.blk && x.namesAcc 3)) &&
        !(s.mset 0 0).bad.contains 11) &&
      meets (.accrd { x with pg := 1 }) (some { x with pg := 1 }) s fun c => c.active 1 false == 0) = true := by decide +kernel

/-- The lab with a copy record at 0x3040 (one row of 64 bytes), a collective's descriptor at 0x3080 and lists behind it. -/
def qlab (f : Wave → Wave) : State :=
  let s := clab [] fun w => f (sreg 16 0x4000 (sreg 15 0x4000 (sreg 13 0x3040 (sreg 12 0x3080 w))))
  let s := s.setBytes 0x25040 (leBytes 8 0x3100 ++ [0, 1, 0, 0] ++ leBytes 4 64 ++ List.replicate 40 0 ++ [64, 0, 0, 0, 0, 0, 0, 0])
  -- SRC 0x3100, DST 0x3200, one block, tag 1, sum; pairing table 0x3400, side list 0x3500
  let s := s.setBytes 0x25080 (leBytes 8 0x3100 ++ leBytes 8 0x3200 ++ leBytes 8 1 ++ [1, 0, 5, 0] ++ leBytes 4 0 ++ leBytes 8 0x3400 ++ leBytes 8 0x3500 ++ leBytes 16 0)
  s.setBytes 0x25100 (leBytes 4 1 ++ leBytes 4 (16 * 2 ^ 16))

/-- What a posting reads stands in memory, and the wave owes no request. -/
def fetched (s : State) (c : Ctx) (need : List (Nat × Nat)) : Bool :=
  !s.hasReqs c.w.id.handle && match (Claims.posted c 0 need (s.put c c.w)).1 with | .ok _ => true | _ => false

/-- CPY to the scratchpad, GTHR and COLL with room in the queue, with none, and with no lane. -/
theorem witness_CopyQueuePostingsComplete :
    let s := qlab (prd 1 0)
    let full := s.updCore 0 fun k => { k with copyq := List.replicate 32 (cmd 9 (.coll { x0 with u := true })) }
    let cpy : Ext := { x0 with u := true, d9 := 320, a9 := 333, b9 := 335, c9 := 320 }
    let gthr : Ext := { x0 with u := true, d9 := 336, a9 := 332, b9 := 333, c9 := 338 }
    let gl := qlab fun w => sreg 18 (1 + 2 ^ 12) w
    let coll (k : Nat) : Ext := { x0 with u := true, d9 := 320, a9 := 332, sub := BitVec.ofNat 10 k, mod := 0x40 }
    let cops (s : State) (c : Ctx) : List OpOk := [sRun c 320, sRun c 333, destOk c 0 335, sRun c 320, sRun c 321, sRun c 322, OpOk.yes]
    ([(s, (0 : BitVec 4)), (full, 0), (s, 1)].all fun (s, pg) =>
      meets (.cpy { cpy with pg := pg }) (some { cpy with pg := pg }) s (fun c => pass (cops s c) && ((c.act true pg false == 0) == (pg == 1))) &&
        meets (.coll { coll 0 with pg := pg }) (some { coll 0 with pg := pg }) s fun c => pass [sRun c 320, sRun c 332, OpOk.when true]) = true ∧
    (meets (.cpy cpy) (some cpy) s fun c => fetched s c [(0x3040, 64)] &&
      (match (s.fetchNeed (c.space s) c.w.id.handle 2 0 [(0x3040, 64)]).1 with
        | .ok vals => let r := granBytes vals 0x3040 64
            shapeOk r && (shapeOf r).bytes == 64 && (destFault s c 0 0 (c.sOr 335).toNat 64).isNone
        | _ => false) && bits (c.sVal 322).toNat 63 32 == 0 && (s.core 0).copyq.isEmpty) = true ∧
    (meets (.gthr gthr) (some gthr) gl fun c => pass [descOk c 336, sRun c 332, sRun c 333, sRun c 338] &&
      (gthrShape (c.sVal 338).toNat == (1, 16, 0)) && (c.sVal 337).toNat % 8 == 0 && (c.sVal 333).toNat % 4 == 0 &&
      (destFault gl c 0 0 (c.sVal 336).toNat 16).isNone) = true ∧
    ([0, 2, 3, 4].all fun k => meets (.coll (coll k)) (some (coll k)) s fun c =>
      (match (s.fetchNeed (c.space s) c.w.id.handle 2 0 [(0x3080, 64)]).1 with
        | .ok vals => let r := granBytes vals 0x3080 64
            let q := collOf r
            q.tag == 1 && q.red == 0 && field r 28 4 == 0 && field r 48 16 == 0 && q.src == 0x3100 && q.pairs == 0x3400
        | _ => false) && (match (s.fetchNeed (c.space s) c.w.id.handle 2 0 [(0x3100, 32)]).1 with
        | .ok vals => sendOk (granBytes vals 0x3100 32) 0
        | _ => false) && fetched s c [(0x3400, 8), (0x3500, 32)] && fetched s c [(0x3408, 0), (0x3520, 0)]) = true := by decide +kernel

/-- CHINIT; a reserve granted and one that waits; a done of either kind; CWAIT whose target is reached, and not; no lane. -/
theorem witness_ChannelsAndCounterWaits :
    let s := clab [⟨true, 0, true, none⟩, ⟨false, 0, true, none⟩] fun w => prd 1 0 (sreg 11 (2 + 2 ^ 8 + 2 ^ 16) (sreg 10 0x4000 (sreg 9 0x4000 w)))
    (let x : Ext := { x0 with u := true, a9 := 329, b9 := 330, c9 := 331, mod := 3 }
     (meets (.chinit x) (some x) s fun c => c.w.id.blk == some 0 && pass [sRun c 329, sRun c 330, sRun c 331] &&
        (c.sVal 331).toNat < 2 ^ 24 && ((s.put c c.w).chan? 0 3).isNone) &&
      meets (.chinit { x with pg := 1 }) (some { x with pg := 1 }) s fun c => c.act true 1 false == 0) = true ∧
    (let x : Ext := { x0 with u := true, d9 := 328, mod := 2 }
     (meets (.chputRes x) (some x) s fun c => (s.heldChan c 2).any fun k => waitingResv c k true == 0 && (k.reserve true (some 0)).1.granted) &&
      (meets (.chgetWait x) (some x) (clab [] id) fun c => ((clab [] id).heldChan c 2).any fun k =>
        waitingResv c k false == 0 && !(k.reserve false (some 0)).1.granted)) = true ∧
    (let x : Ext := { x0 with u := true, a9 := 329, sub := 1, mod := 2 }
     (meets (.chputDone x) (some x) s fun c => (s.heldChan c 2).any fun k => k.base ≤ 0x4000 && (c.sVal 329).toNat == 0x4000 &&
        (k.undone true 0 (some (c.w.id.lvls.getD 1 0))).isSome && !s.hasReqs c.w.id.handle) &&
      (meets (.chgetDone x) (some x) s fun c => (s.heldChan c 2).any fun k =>
        (k.undone false 0 (some (c.w.id.lvls.getD 1 0))).isSome)) = true ∧
    ([(0, true), (1, false)].all fun (k, met) =>
      let x : Ext := { x0 with u := true, a9 := 332, b9 := BitVec.ofNat 9 (388 + k), mod := 0 }
      let s := blab (sreg 12 0x3000)
      meets (.cwait x) (some x) s fun c => pass [sRun c 332, offOk c none (388 + k)] && lowest (c.act true 0 false) == some 0 &&
        (s.reqsOf c).isEmpty && (let a : LaneAcc := ⟨0, 0x3000, 0, 0⟩
          let o : MemOp := ⟨.read, 8, 0, 0, false, none⟩
          (lanesOk (s.put c c.w) c.w.id.proc o [a]).isNone && (access ((s.put c c.w).orderAtomn c false [a] 8) (c.space s) o [a]).1 == ⟨[(0, 0)], [], [], false, none⟩ &&
          (decide (offVal c none (388 + k) ≤ 0) == met))) = true := by decide +kernel

/-! ### Barriers, regroup, register blocks -/

/-- The half's base path has made progress k. -/
def prog (k : Nat) (w : Wave) : Wave := w.updHalf 0 fun h => { h with base := { h.base with prog := some ⟨h.base.pc, 0, k, []⟩ } }

/-- The lab with barrier 3's instance in a phase and the wave's count. -/
def barLab (phase n : Nat) (f : Wave → Wave) : State := (blab f).updBar 0 (2 ^ 40) fun b =>
  { b with phase := phase, counts := if n = 0 then [] else [(memberKey (mkHandle 2 0 2) 0, n)] }

/-- A first arrival; one already behind; one still waiting for the earlier phase; a re-executed BAR before and after its
phase; BARA; BARW of the phase in progress and of an earlier one. -/
theorem witness_BarriersComplete :
    let b : Ext := { x0 with mod := 3 }
    let ok (i : Instr) (s : State) (ops : Ctx → List OpOk) (p : Ctx → Bar → Nat → Bool) : Bool :=
      meets i (some (match i with | .bar e => e | .bara e => e | .barw e => e | _ => x0)) s fun c => pass (ops c) && c.half.stack.isEmpty && !s.hasReqs c.w.id.handle &&
        (match (s.put c c.w).barRef c 3 with
          | some r => (s.launch? r.launch).isSome && p c ((s.put c c.w).bar r.launch r.key) (((s.put c c.w).bar r.launch r.key).count c.w.id.handle c.who.half)
          | none => false)
    (ok (.bar b) (barLab 0 0 id) (fun _ => []) (fun c x n => c.progress.k == 0 && n == x.phase) &&
      ok (.bar b) (barLab 1 0 id) (fun _ => []) (fun c x n => c.progress.k == 0 && decide (n < x.phase)) &&
      ok (.bar b) (barLab 0 1 id) (fun _ => []) (fun c x n => c.progress.k == 0 && decide (x.phase < n)) &&
      ok (.bar b) (barLab 0 1 (prog 1)) (fun _ => []) (fun c x _ => c.progress.k == 0 + 1 && !decide (0 < x.phase)) &&
      ok (.bar b) (barLab 1 1 (prog 1)) (fun _ => []) (fun c x _ => c.progress.k == 0 + 1 && decide (0 < x.phase)) &&
      ok (.bara { b with d9 := 328 }) (barLab 0 0 id) (fun c => [sDst c 328]) (fun c x n => c.progress.k == 0 && n ≤ x.phase) &&
      ok (.bara { b with d9 := 328 }) (barLab 0 1 id) (fun c => [sDst c 328]) (fun c x n => c.progress.k == 0 && decide (x.phase < n)) &&
      ok (.barw { b with a9 := 329 }) (barLab 0 1 (sreg 9 0)) (fun c => [sRun c 329]) (fun c _ n => n == 1 && (c.sVal 329).toNat == 0) &&
      ok (.barw { b with a9 := 329 }) (barLab 2 3 (sreg 9 0)) (fun c => [sRun c 329]) (fun c _ n => n == 3 && (c.sVal 329).toNat == 0)) = true := by
  decide +kernel

theorem witness_RegroupCompletes :
    let s := blab fun w => { reg 2 3 1 w with exited := 0 }
    let x : Ext := { x0 with d9 := 328, a9 := 2, b9 := 16, mod := 0xE0 }
    [Instr.regroupKey x, .regroupHome { x with d9 := 0, a9 := 0, sub := 1 }].all (fun i => match Claims.regroupForm i with
      | some (key, e) => meets i (some e) s fun c => c.w.traps == 0 && !s.hasReqs c.w.id.handle && !c.w.id.gang && c.w.id.blk == some 0 && ((s.block? 0).any fun b => b.waves.length == 1) &&
          (s.put c c.w).blockWaves 0 == [(0, 1, c.w)] && c.w.halves == [c.half] && c.half.stack.isEmpty && !c.half.ended &&
          c.half.levels.all (· == none) && pass [if key then vRun c.w e.a9.toNat 1 1 (fun t => t == 0 || t == 1) else OpOk.yes,
            if key then sDst c e.d9.toNat else OpOk.when (e.d9 == 0), vRun c.w e.b9.toNat (e.m 0 5 + 1) 1 fun _ => true]
      | none => false) = true := by decide +kernel

theorem witness_RegroupKeepsThreads : let t : Thread := ⟨0, 63, 15, 7, []⟩
    0 < 1 ∧ [t, { t with key := 0 }].length ≤ 64 * 1 ∧ ∀ x ∈ [t, { t with key := 0 }], x.key < 16 := by decide

/-- VGROW of a held block, of one refused, and of one to wait for; VSHRINK of a held block, of none, and in a rotating level. -/
theorem witness_RegisterBlocks :
    let g (k : Nat) : Ext := { x0 with d9 := 417, mod := BitVec.ofNat 16 k }
    let h (k : Nat) : Ext := { x0 with mod := BitVec.ofNat 16 k }
    let held (w : Wave) : Wave := { w with hold := 15 }
    let ops (c : Ctx) : List OpOk := [{ predDstOk c 417 with valid := 417 != 416 && (predDstOk c 417).valid }]
    let rot (w : Wave) : Wave := (held w).updHalf 0 fun h => { h with levels := [some { body 3 with rot := true }, none, none, none] }
    ((meets (.vgrow (g 1)) (some (g 1)) (lab held) fun c => pass (ops c) && c.w.heldBlk 1) &&
      (meets (.vgrow (g 4)) (some (g 4)) (lab (prog 1)) fun c => pass (ops c) && !c.w.heldBlk 4 && c.progress.k == 1) &&
      (meets (.vgrow (g 4)) (some (g 4)) (lab id) fun c => pass (ops c) && !c.w.heldBlk 4 && c.progress.k != 1) &&
      (meets (.vshrink (h 4)) (some (h 4)) (lab held) fun c => c.w.heldBlk 4 && c.half.rotating.isNone) &&
      (meets (.vshrink (h 1)) (some (h 1)) (lab id) fun c => !c.w.heldBlk 1) &&
      (meets (.vshrink (h 4)) (some (h 4)) (lab rot) fun c => c.w.heldBlk 4 && c.half.rotating.isSome)) = true := by decide +kernel

/-! ### The hardware kernel -/

/-- The lab with one more object of the wave's process, at index 3. -/
def olab (b : Body) (f : Wave → Wave) : State := (blab f).setObj 3 ⟨0, 1, 0, 0xFF, b⟩

theorem witness_KernelInstructionGuards :
    let e : Ext := { x0 with u := true, d9 := 328, a9 := 329 }
    [Instr.wcreate e, .psend { e with b9 := 330 }, .precv { e with b9 := 330 }, .objnew { e with a9 := 0, mod := 4 }, .objdel e, .wsadd { e with b9 := 320 },
      .wswait e, .tarm { e with b9 := 330, c9 := 331 }, .tcancel e, .nslookup e].all (fun i =>
      let x : Ext := match i with
        | .psend y | .precv y | .objnew y | .wsadd y | .tarm y => y
        | _ => e
      (meets i (some x) (lab (sreg 9 0x30000009)) fun c => ((Claims.kernOf x c i).any fun ops => pass ops) && decide (c.act true 0 false ≠ 0) &&
        c.path.wait == .ready && ((lab (sreg 9 0x30000009)).named (c.handle x.a9.toNat)).isNone)) = true ∧
    (let x := { e with pg := 1 }
     meets (.objdel x) (some x) (lab (prd 1 0)) fun c => c.act true 1 false == 0) = true := by decide +kernel

/-- A message of 64 bytes from process 1 without grants. -/
def msg : Msg := ⟨0, slotBytes (List.replicate 64 7) 1 []⟩

/-- PSEND with room and to a full port, PRECV of a message and of none. -/
theorem witness_PortMessages :
    let h := mkHandle 3 0 3
    let f (w : Wave) : Wave := sreg 10 0x3000 (sreg 9 h.toNat w)
    let p (ms : List Msg) : State := olab (.port 1 0 0 ms []) f
    let x : Ext := { x0 with u := true, d9 := 328, a9 := 329, b9 := 330 }
    ([[], [msg]].all fun ms => meets (.psend x) (some x) (p ms) fun c => ((Claims.kernOf x c (.psend x)).any fun ops => pass ops) &&
      (((p ms).put c c.w).handleFault c (c.handle 329) [3, 7] 0 true).isNone && ((p ms).rport? h).isNone && fetched (p ms) c [(0x3000, 64)] &&
      ((p ms).port? h) == some (1, 0, ms, []) && (grantsOf [] 0) == some [] && (p ms).grantsOk ((p ms).rootAt (hIndex (c.process (p ms)))) [] &&
      (p ms).firstInLine c .send h []) = true ∧
    ([[], [msg]].all fun ms => meets (.precv x) (some x) (p ms) fun c => ((Claims.kernOf x c (.precv x)).any fun ops => pass ops) &&
      (((p ms).put c c.w).handleFault c (c.handle 329) [3, 7] 0 false).isNone && (p ms).firstInLine c .recv h [] &&
      (ms.all fun m => m.grants.isEmpty && (p ms).allMoves m 0 [] == some [] &&
        (match ((p ms).storePieces (c.space (p ms)) c.w.id.handle 4 0 0 (piecesOf 0x3000 (m.bytes.take 64))).1 with | .ok _ => true | _ => false))) = true := by
  decide +kernel

/-- WCREATE from a template of zeros; OBJNEW of each type; OBJDEL of a live wave, an ended one, a port, a wait set, a timer. -/
theorem witness_ObjectCreationAndDeletion :
    let e : Ext := { x0 with u := true, d9 := 328, a9 := 329 }
    (meets (.wcreate e) (some e) (blab (sreg 9 0x3000)) fun c => pass [sDst c 328, sRun c 329] && fetched (blab (sreg 9 0x3000)) c [(0x3000, 80)] &&
      decide (c.act true 0 false ≠ 0)) = true ∧
    ([3, 4, 5].all fun t => let x : Ext := { x0 with u := true, d9 := 328, a9 := if t = 3 then 329 else 0, b9 := if t = 3 then 320 else 0, mod := BitVec.ofNat 16 t }
      meets (.objnew x) (some x) (lab (sreg 9 64)) fun c => ((Claims.kernOf x c (.objnew x)).any fun ops => pass ops) &&
        ((c.sOr x.a9.toNat).toNat ≤ 64) && (c.sOr 320) == 0 && ((lab id).freeIndex).isSome) = true ∧
    ([Body.wave 0 0 none none none none none, .wave 0 0 none none none (some 5) none, .port 1 0 0 [] [], .wset 0 [], .timer 0 0 0 0].all fun b =>
      let s := olab b (sreg 9 (mkHandle b.type 0 3).toNat)
      meets (.objdel e) (some e) s fun c => pass [sDst c 328, sRun c 329] && (s.handleFault c (c.handle 329) [2, 3, 4, 5, 7] 0 false).isNone) = true := by
  decide +kernel

theorem witness_FreedHandlesNameNothing : let s := olab (.timer 0 0 0 0) id
    ((s.obj? 3).any fun o => o.body.type != 0) = true ∧ 3 < 2 ^ 20 := by decide +kernel

/-- A wait set with a ready and an unready timer: both waits; WSADD; TARM and TCANCEL. -/
theorem witness_WaitSetsAndTimers :
    let e : Ext := { x0 with u := true, d9 := 328, a9 := 329 }
    let ws (ms : List (BitVec 32)) : State := (olab (.wset 0 ms) (sreg 10 (mkHandle 5 0 4).toNat ∘ sreg 9 (mkHandle 4 0 3).toNat)).setObj 4
      ⟨0, 1, 0, 0xFF, .timer 0 0 1 9⟩
    ((ws [0, mkHandle 5 0 4]).readyMember [0, mkHandle 5 0 4]) = some (1, 9) ∧
    ([[0, mkHandle 5 0 4], [0, 0]].all fun ms => meets (.wswait e) (some e) (ws ms) fun c => pass [sDst c 328, sRun c 329] &&
      ((ws ms).expireDue.handleFault c (c.handle 329) [4] 0 false).isNone && (ws ms).expireDue.firstInLine c .wset (mkHandle 4 0 3) [] &&
      ((ws ms).expireDue.readyMember ms == if ms == [0, 0] then none else some (1, 9))) = true ∧
    ([320, 330].all fun b => let x : Ext := { e with b9 := BitVec.ofNat 9 b, mod := 63 }
      meets (.wsadd x) (some x) (ws [0, 0]) fun c => pass [sDst c 328, sRun c 329, sRun c b] &&
        ((ws [0, 0]).handleFault c (c.handle 329) [4] 0 false).isNone && (b == 320 ||
          ((ws [0, 0]).rport? (c.handle b)).isNone && ((ws [0, 0]).handleFault c (c.handle b) [2, 3, 5] 1 false).isNone)) = true ∧
    ([Instr.tarm { e with b9 := 330, c9 := 331 }, .tcancel e].all fun i => let s := olab (.timer 0 0 1 9) (sreg 9 (mkHandle 5 0 3).toNat)
      meets i (some (match i with | .tarm y => y | _ => e)) s fun c => pass [sDst c 328, sRun c 329] &&
        (s.handleFault c (c.handle 329) [5] 0 false).isNone && ((s.expire 3).named (mkHandle 5 0 3)).isSome) = true := by decide +kernel

/-- A name of this device that is bound, one that is not, and one of device 1: answered with a handle, a status, no answer. -/
theorem witness_NameLookups :
    let e : Ext := { x0 with u := true, d9 := 328, a9 := 329 }
    let s (n : Nat) : State := let s := olab (.port 1 0 5 [] []) (sreg 9 n)
      { s with kern := { s.kern with names := [(5, mkHandle 3 0 3)] } }
    ([5, 6].all fun n => meets (.nslookup e) (some e) (s n) fun c => pass [sDst c 328, sRun c 329] && decide (c.act true 0 false ≠ 0) &&
      bits (c.sVal 329).toNat 63 55 == (s n).peer.toNat && ((s n).named (c.process (s n))).isSome && ((s n).named (mkHandle 3 0 3)).isSome &&
      (((s n).kern.names.find? fun x => x.1 == c.sVal 329).isSome == (n == 5))) = true ∧
    ([(0, 0), (0, 3 * 2 ^ 48), (7, 0)].all fun (st, w) =>
      let t := withReqs (s (2 ^ 55)) [{ asked 0 (some 0) with answer := some { Packet.plain 0x0D 1 0 0 with status := BitVec.ofNat 4 st, ext := BitVec.ofNat 384 w } }]
      meets (.nslookup e) (some e) t fun c => bits (c.sVal 329).toNat 63 55 == 1 &&
        (((t.reqsOf c).findSome? (·.answer)).any fun a => a.status.toNat == st && bits (Packet.word a 2).toNat 63 48 == w / 2 ^ 48) &&
        (((t.put c c.w).dropReqs c).newObj c fun _ => .rport 1 0 0).isSome) = true := by decide +kernel

/-! ### Special registers and privileged instructions -/

/-- Core 0's firmware agent, ready, with the pages of process 1; the user wave in slot 1 with n exceptions pending; 2 MiB of
uncached memory at 0x20_0000. -/
def alab (n : Nat) (f : Wave → Wave) : State :=
  let s := (State.reset.placeProgram []).setNum 0x21008 8 (0x200000 + 0xC7)
  let s := s.updWave 0 1 fun w => { w with traps := n }
  let s := s.updCore 0 fun k => { k with ctl := { k.ctl with kpasid := 1 } }
  let s := s.setWave 0 0 (f ((agentWave 0 0).updHalf 0 fun h => { h with base := { h.base with wait := .ready } }))
  { s with cur := ⟨0, 0, 0, 0⟩ }

/-- The handle of the wave in slot 1. -/
def user : Nat := (mkHandle 2 0 2).toNat

theorem witness_SpecialRegisterReads :
    (let c := ctxOf (lab id)
     c.w.id.gang = false ∧ c.who.core < 128) ∧
    ([(14, 8), (17, 319), (15, 328)].all fun (k, d) => let x : Ext := { x0 with d9 := BitVec.ofNat 9 d, mod := BitVec.ofNat 16 k }
      runs (.srd x) (some x) (lab fun w => { w with hold := 15 }) fun c => [dstOk c false (if k = 14 ∨ k = 15 then 2 else 1) d]) = true := by decide +kernel

theorem witness_ControlRegisters :
    ([0, 4, 12].all fun k => let x : Ext := { x0 with u := true, d9 := 383, mod := BitVec.ofNat 16 k }
      runs (.crd x) (some x) (alab 0 id) fun c => [sDst c 383]) = true ∧
    ([Instr.cwr { x0 with u := true, a9 := 511, sub := 1, mod := 3, lit := some 64 }, .ktcodePop { x0 with u := true, a9 := 320, sub := 1, mod := 4 },
      .kmodeIntlkWrite { x0 with u := true, a9 := 389, sub := 1 }].all fun i =>
        let x : Ext := match i with | .cwr e | .ktcodePop e | .kmodeIntlkWrite e => e | _ => x0
        runs i (some x) (alab 0 id) fun c => [uOpOk c x.lit x.a9.toNat]) = true ∧ 127 < 128 := by decide +kernel

/-- Each verdict to a trapped wave, to one that is not trapped, a verdict that is none, and CONTINUE to the whole block. -/
theorem witness_VerdictsApplied :
    ([(0, 1), (3, 1), (3, 0), (4, 1)].all fun (v, n) => [0, 10].all fun m =>
      let x : Ext := { x0 with u := true, d9 := 324, a9 := 325, b9 := BitVec.ofNat 9 (388 + v), c9 := 326, sub := 2, mod := BitVec.ofNat 16 m }
      let s := alab n (sreg 6 0x1004 ∘ sreg 5 user)
      meets (.rft x) (some x) s fun c => pass [sDst c 324, sRun c 325, uOpOk c none (388 + v), sRun c 326] &&
        (match (s.put c c.w).waveOf (c.handle 325) with
          | some w => let s₀ := s.put c c.w
              let v := if 2 ≤ v && m == 1 then 1 else v
              n == 0 || (s₀.checkTargets (s₀.waveSpace 0 1 w) w.id.codeBase (w.returnsTo (s₀.afterPc (s₀.waveSpace 0 1 w)) v 0 (c.sVal 326) (8 ≤ m))).1 == .ok
          | none => false) &&
        (c.uVal none 8 (388 + v)).toNat == v && (c.sVal 326).toNat < 2 ^ 52 && (s.waveFault (c.handle 325)).isNone &&
        s.resident (c.handle 325) == some (0, 1) && ((s.waveOf (c.handle 325)).any fun w => w.traps == n)) = true ∧
    (let x : Ext := { x0 with u := true, d9 := 324, a9 := 325, b9 := 388, c9 := 326, sub := 2 }
     let s := (alab 0 (sreg 5 (mkHandle 2 0 3).toNat)).setObj 3 ⟨0, 1, 1, 0xFF, .wave 0 0 none none none none none⟩
     meets (.rft x) (some x) s fun c => (s.waveFault (c.handle 325)).isNone && (s.resident (c.handle 325)).isNone) = true := by decide +kernel

/-- The wave saved whole, its image kept, its image kept in a buffer, with its block's matrix state; a wave that is not
resident, and one of another core. CTXLD of a saved wave and of one that is resident, from its image. -/
theorem witness_ContextSwitches :
    let s (n : Nat) : State := alab n (sreg 6 0x200000 ∘ sreg 5 user)
    ([(0, 320, 0), (2, 320, 0), (1, 320, 1), (1, 326, 1), (0, 320, 1)].all fun (m, b, n) =>
      let x : Ext := { x0 with u := true, d9 := 324, a9 := 325, b9 := BitVec.ofNat 9 b, sub := 3, mod := BitVec.ofNat 16 m, c9 := if m = 2 then 326 else 0 }
      meets (.ctxsv x) (some x) (s n) fun c => pass [sDst c 324, sRun c 325, { sRun c b with valid := (sRun c b).valid && (m == 1 || b == 320) }, OpOk.yes] &&
        ((s n).waveFault (c.handle 325)).isNone && (s n).resident (c.handle 325) == some (0, 1) && !(s n).midWave (c.handle 325) (m != 1) &&
        (((s n).waveOf (c.handle 325)).any fun w => w.chain.isNone && w.traps == n && w.id.blk.isNone)) = true ∧
    (let v := s 1
     let w := ((v.drainAtomn 0 1).wave? 0 1).getD (agentWave 0 0)
     match ((v.drainAtomn 0 1).storePieces ((ctxOf v).space v) (agentHandle 0) 4 0 0 (piecesOf 0x200000 ((w.image 0).take 64))).1 with
      | .ok _ => true | _ => false) = true ∧
    (let x : Ext := { x0 with u := true, d9 := 324, a9 := 325, b9 := 320, sub := 3 }
     let t := (s 0).setObj 2 ⟨0, 1, 1, 0xFF, .wave 0 0 none none none none none⟩
     meets (.ctxsv x) (some x) t fun c => (t.waveFault (c.handle 325)).isNone && (t.resident (c.handle 325)).isNone) = true ∧
    (let x : Ext := { x0 with u := true, d9 := 324, a9 := 325, b9 := 320, sub := 4 }
     let w := (ctxOf (lab id)).w
     let t := ((s 0).setObj 2 ⟨0, 1, 1, 0xFF, .wave 0x300000 0 none (some w) none none none⟩).setNum 0x300000 8 (2 ^ 56)
     let t := t.updCore 0 fun k => { k with waves := k.waves.filter fun y => y.1 != 1 }
     let bs := t.bytes 0x300000 (imageSize (holdCount (headerHold (t.num 0x300000 8))))
     (meets (.ctxld x) (some x) t fun c => pass [sDst c 324, sRun c 325, sRun c 320] && (t.named (c.handle 325)).isSome) &&
       t.freeSlot 0 == some 1 && t.poolFor 0 (headerHold (field bs 0 8)) &&
       ((t.unqueue (.inl (mkHandle 2 0 2))).loadIn 0 1 (mkHandle 2 0 2) bs).isSome &&
       (meets (.ctxld x) (some x) (s 0) fun c => ((s 0).named (c.handle 325)).any fun o => match o.body with | .wave _ _ (some _) _ _ _ _ => true | _ => false)) = true := by
  decide +kernel

/-- TLBINV of one page and of every page, at scopes core and sys, first and after its wait; IDLE with nothing, with an event
and with a signal; MGSIG with room and with 16 signals waiting. -/
theorem witness_InvalidatesIdleAndSignals :
    ([(4, 328, 329), (0x24, 320, 320), (0x14, 328, 329), (0x34, 320, 320)].all fun (m, a, b) => [none, some 1].all fun k =>
      let x : Ext := { x0 with u := true, d9 := 324, a9 := BitVec.ofNat 9 a, b9 := BitVec.ofNat 9 b, sub := 5, mod := BitVec.ofNat 16 m }
      let s := alab 0 (sreg 9 1 ∘ sreg 8 0x2000 ∘ match k with | some n => prog n | none => id)
      meets (.tlbinv x) (some x) s fun c => pass [sDst c 324, sRun c a, sRun c b] && (x.m 5 1 == 1 || (c.sVal a).toNat % 4096 == 0 &&
        1 ≤ (c.sVal b).toNat && (c.sVal b).toNat ≤ 2 ^ 20) && (c.path.prog.isNone == k.isNone) && s.league.invs.isEmpty && !s.storesOpen [0] 0) = true ∧
    (let x : Ext := { x0 with u := true, d9 := 324, a9 := 320, sub := 6 }
     let ops (c : Ctx) : List OpOk := [OpOk.when (scalarOk c.w 324 && scalarOk c.w 325 && 324 % 2 == 0 && 324 != 320), sRun c 320]
     let ev := (alab 0 id).updCore 0 fun k => { k with latched := 2 }
     let sg := (alab 0 id).updCore 0 fun k => { k with sigQ := [(7, 3)] }
     (meets (.idle x) (some x) (alab 0 id) fun c => pass (ops c) && (alab 0 id).latchedAt 0 0 == 0) &&
       (meets (.idle x) (some x) ev fun c => pass (ops c) && ev.latchedAt 0 0 != 0 && (ev.core 0).sigQ.isEmpty) &&
       (meets (.idle x) (some x) sg fun c => pass (ops c) && sg.latchedAt 0 0 != 0 && !(sg.core 0).sigQ.isEmpty)) = true ∧
    ([0, 16].all fun n => [0, 127, 255].all fun t => let x : Ext := { x0 with u := true, d9 := 325, a9 := 326, b9 := 327, sub := 11 }
      let s := (alab 0 (sreg 6 t)).updCore t fun k => { k with sigQ := List.replicate n (0, 0) }
      meets (.mgsig x) (some x) s fun c => pass [sDst c 325, sRun c 326, sRun c 327] && (c.sVal 326).toNat == t &&
        !s.hasReqs c.w.id.handle && (s.core t).sigQ.length == n) = true := by decide +kernel

/-- OBJRD and OBJWR of entry 3, an entry made, one refused; PWRACQ of no token, of some, of more than are free; PWRREL. -/
theorem witness_DescriptorsAndTokens :
    (let x : Ext := { x0 with u := true, d9 := 324, a9 := 325, b9 := 326, sub := 7 }
     let s := alab 0 (sreg 6 0x200000 ∘ sreg 5 3)
     meets (.objrd x) (some x) s fun c => pass [sDst c 324, sRun c 325, sRun c 326] && (c.sVal 326).toNat % 64 == 0 &&
      (match (s.storePieces (c.space s) c.w.id.handle 4 0 0 (piecesOf 0x200000 (s.entryBytes 3))).1 with | .ok _ => true | _ => false)) = true ∧
    ([(6, true), (5, false)].all fun (t, made) => let x : Ext := { x0 with u := true, d9 := 324, a9 := 325, b9 := 326, sub := 8 }
      let e := leBytes 8 (t * 2 ^ 60 + 0xFF) ++ leBytes 8 1000 ++ leBytes 8 10 ++ leBytes 8 20
      let s := (alab 0 (sreg 6 0x200000 ∘ sreg 5 3)).setBytes 0x200000 e
      meets (.objwr x) (some x) s fun c => pass [sDst c 324, sRun c 325, sRun c 326] &&
        (match (Claims.posted c 0 [(0x200000, 128)] (s.put c c.w)).1 with
          | .ok vals => entryOk (granBytes vals 0x200000 128) && ((match s.writeEntry 3 (granBytes vals 0x200000 128) with | .inl _ => true | .inr _ => false) == made)
          | _ => false)) = true ∧
    ([(0, 128), (16, 128), (16, 3)].all fun (k, free) => let x : Ext := { x0 with u := true, d9 := 324, a9 := BitVec.ofNat 9 (388 + k), sub := 9 }
      let s := { alab 0 id with poolFree := free }
      meets (.pwracq x) (some x) s fun c => pass [sDst c 324, uOpOk c none (388 + k)] && k ≤ poolSize s.board.watts && s.tokWait.isEmpty) = true ∧
    (let x : Ext := { x0 with u := true, d9 := 324, a9 := 404, sub := 10 }
     let s := (alab 0 id).updCore 0 fun k => { k with ctl := { k.ctl with held := 16 } }
     meets (.pwrrel x) (some x) s fun c => pass [sDst c 324, uOpOk c none 404] && (s.core 0).ctl.held == 16) = true := by decide +kernel

/-! ### Exceptions, the step -/

theorem witness_Breakpoint : meets .brk none (lab id) (fun _ => true) = true ∧ ((lab id).core 0).trapQ = [] ∧
    (ctxOf (lab id)).path.pc.toNat < 2 ^ 52 ∧
    (let c := ctxOf (lab id)
     let t := (lab id).takeException c false 0x60 c.path.pc 0
     (Claims.ownRecord c 0x60).inchain = false ∧ t.resident c.w.id.handle = some (0, 1) ∧ ((t.waveOf c.w.id.handle).map fun w => w.traps) = some 1) := by
  decide +kernel

/-- A user wave, a firmware agent and an agent with an exception of its own queued. -/
theorem witness_TrapInstruction : meets (.trap 255) none (lab id) (fun c => !c.w.priv) = true ∧
    meets (.trap 0) none (alab 0 id) (fun c => c.w.priv && ((alab 0 id).core 0).trapQ.isEmpty) = true ∧
    (let c := ctxOf (lab id)
     let t := (lab id).takeException c false 0x103 c.path.pc 0
     (match walkFrom t c.path.pc.toNat 3 (t.waveSpace 0 1 c.w).root with | .ok _ => true | _ => false) = true) := by decide +kernel

theorem witness_ExceptionEntry :
    ((lab id).wave? 0 1 = some (ctxOf (lab id)).w ∧ (ctxOf (lab id)).w.priv = false) ∧
    ((alab 0 id).wave? 0 0 = some (ctxOf (alab 0 id)).w ∧ (ctxOf (alab 0 id)).w.priv = true) ∧
    (let s := alab 0 id
     let t := s.takeException (ctxOf s) false 0x100 0 0
     ((t.core 0).trapQ.any fun x => x.privileged) = true ∧ (t.core mgmtCore).sigQ.length < 16) ∧ 0xFFFF < 2 ^ 16 := by decide +kernel

/-- After a YIELD a turn of the wave goes to the other ready wave until that one has issued (R437). -/
theorem test_yield_makes_way :
    (let s := (lab id).setWave 0 2 (ctxOf (lab id)).w
     let y := s.yields 0 1
     s.issuer ⟨0, 1, 0, 0⟩ = ⟨0, 1, 0, 0⟩ ∧ y.issuer ⟨0, 1, 0, 0⟩ = ⟨0, 2, 0, 0⟩ ∧
       (y.issuing ⟨0, 2, 0, 0⟩).issuer ⟨0, 1, 0, 0⟩ = ⟨0, 1, 0, 0⟩) := by decide +kernel

/-- A privileged instruction of a user wave; a form that is not allowed, one that is not accepted on the management core; an
operand that fails its check. -/
theorem witness_ChecksBeforeEffect :
    ((Instr.crd { x0 with u := true }).isSys = true ∧ (ctxOf (lab id)).ready (lab id) = true ∧ (ctxOf (lab id)).w.priv = false) ∧
    (Instr.addReg ⟨false, 4, 6, 5, 4⟩).formOk = false ∧ mgmtAccepts (.addReg ⟨false, 0, 6, 5, 4⟩) = false ∧
    (let x : Ext := { x0 with d9 := 4, a9 := 500, b9 := 5 }
     meets (.addExt x) (some x) (lab id) fun c => checkOps [srcOk c none 0 500] == some Exc.invalidOperand) = true := by decide +kernel

/-- A step fetches and executes: the page of a placed program meets every hypothesis. -/
theorem witness_StepRunsDecoded : let s := State.reset.withFetchWord 32 0
    let a : Who := ⟨0, 1, 0, 0⟩
    let c := ctxOf s
    let sp := c.space s
    let l : Leaf := ⟨0x2308B, 0⟩
    s.agenda = [.issue a] ∧ s.issuer a = a ∧ isWindow 0x1000 = false ∧ s.ctx? a = some c ∧ c.ready s = true ∧ pcInRange c.w.id.codeBase 0x1000 = true ∧
    walkFrom s 0x1000 3 sp.root = .ok l ∧ permit s sp.tdi .fetch l 0x1000 = none ∧ l.tier = 0 ∧ s.badData (l.pa 0x1000) 64 = false ∧
    (s.core sp.core).tlb = [] ∧ (s.core sp.core).icache = [] := by decide +kernel

theorem witness_MemoryStaysCanonical : State.reset.memOk ∧ (State.reset.withFetchWord 32 0).memOk := by
  unfold State.memOk; decide +kernel

/-- A step runs the instruction a word places: the turn of NOP leaves the PC at the next word. -/
theorem test_step_runs_placed : (match step (State.reset.withFetchWord 32 0) with | .next _ => true | _ => false) = true ∧
    (match issueTurn (State.reset.withFetchWord 32 0) ⟨0, 1, 0, 0⟩ with
      | .next t => (t.wave? 0 1).map fun w => w.halves.map fun h => h.base.pc
      | _ => none) = some [0x1004] := by decide +kernel

/-! ### Events -/

/-- The state with every port up at version 1. -/
def linked (s : State) : State := { s with league := { s.league with ports := List.replicate 32 ⟨true, 1⟩ } }

/-- The half's base path waits in i. -/
def waits (i : Instr) (w : Wave) : Wave := w.updHalf 0 fun h => { h with base := { h.base with wait := .on i 0 } }

/-- What a body answers where its split goes on: 0 next, 1 next with a region closed, 2 wait, 3 an exception. -/
def woken (s : State) (i : Instr) (body : Ctx → State → Res) : Option Nat :=
  (s.ctx? s.cur).bind fun c =>
    if c.path.wait == .on i 0 && c.path.running && !c.path.arrived && c.w.traps == 0 && c.w.halves.all (·.reread.isEmpty) then
      match body c (s.updPath c fun p => { p with wait := .ready }) with
      | .next _ => some 0
      | .nextR _ => some 1
      | .wait _ => some 2
      | .raise _ _ _ => some 3
      | .jump _ => some 4
    else none

theorem witness_WakeEvents :
    (let cw (k : Nat) : Ext := { x0 with u := true, a9 := 332, b9 := BitVec.ofNat 9 (388 + k) }
     ([(0, 0x3000), (1, 0x3000), (0, 0x3004)].map fun (k, a) =>
        woken (blab fun w => waits (.cwait (cw k)) (sreg 12 a w)) (.cwait (cw k)) (cwaitBody (cw k))) = [some 0, some 2, some 3]) ∧
    (let l : Ext := { x0 with d9 := 3, a9 := 7, b9 := 388, mod := 0x500 }
     let s := (blab fun w => waits (.ldlExt l) (reg 7 0xBFFC 1 w)).updCore 0 fun k => { k with fe := [(0xBFF, true)], feWoke := [(0xBFF, 1)] }
     woken s (.ldlExt l) (ldlBody (.ldlExt l) (Ext.loadArgs l)) = some 0) ∧
    (let l : Ext := { x0 with a9 := 7, b9 := 388, c9 := 3, mod := 0x580 }
     woken ((blab fun w => waits (.stlExt l) (reg 7 0xBFFC 1 w)).updCore 0 fun k => { k with feWoke := [(0xBFF, 1)] }) (.stlExt l) (stlBody (.stlExt l) (Ext.storeArgs l)) = some 1) ∧
    (let e : Ext := { x0 with mod := 4 }
     woken (blab (waits (.fencer e))) (.fencer e) (fencerBody e) = some 0) ∧
    (let x : Ext := { x0 with u := true, d9 := 328, a9 := 329, b9 := 330 }
     let s (b : Body) (i : Instr) : State := olab b fun w => waits i (sreg 10 0x3000 (sreg 9 (mkHandle b.type 0 3).toNat w))
     woken (s (.port 1 0 0 [] []) (.psend x)) (.psend x) (psendBody x) = some 1 ∧
     woken (s (.port 1 0 0 [msg] []) (.precv x)) (.precv x) (precvBody x) = some 1 ∧
     (let x := { x with b9 := 0 }
      woken (s (.wset 0 [mkHandle 2 0 3]) (.wswait x)) (.wswait x) (wswaitBody x) = some 2)) ∧
    (let x : Ext := { x0 with u := true, d9 := 324, a9 := 404, sub := 9 }
     let s := { alab 0 (waits (.pwracq x)) with tokWait := [.agent 0] }
     woken s (.pwracq x) (pwracqBody x) = some 0 ∧ s.agentWait 0 (fun i => match i with | .pwracq _ => true | _ => false) = some ⟨0, 0, 0, 0⟩) ∧
    (let x : Ext := { x0 with u := true, d9 := 324, a9 := 320, sub := 6 }
     let s := (alab 0 (waits (.idle x))).updCore 0 fun k => { k with latched := 2 }
     woken s (.idle x) (idleWaitBody x) = some 0 ∧ s.agentWait 0 (fun i => match i with | .idle _ => true | _ => false) = some ⟨0, 0, 0, 0⟩) := by
  decide +kernel

/-- A fault record of die 0, popped or not, and a split parked on it. -/
def flab (popped : Bool) (kind : Nat) : State :=
  let s := lab fun w => w.updHalf 0 fun h => { h with base := { h.base with wait := .parked [(5, 0x2000)] } }
  { s with mem := { s.mem with fbuf := updAt (fun _ => ⟨6, [⟨2, kind, 0, 0, 1, 5, false, 1, popped, false⟩]⟩) 0 s.mem.fbuf } }

theorem witness_MemoryEvents :
    ((lab id).wave? 0 1).isSome = true ∧
    ((flab false 0).mem.fbuf[0]?.any fun b => 0 < b.recs.length && (b.recs.findIdx? fun r => !r.popped) == some 0) = true ∧
    ((flab true 3).faultRec? 0 5).isSome = true ∧ unitDie 0 = 0 ∧ ((flab true 3).wave? 0 1).isSome = true ∧
    ((flab true 0).cmdsOn 0 5 = [] ∧ (flab true 0).parkedOn 0 5 = [(⟨0, 1, 0, 0⟩, false, 0x2000)]) ∧ 7 < (lab id).mem.congest.length := by
  decide +kernel

theorem witness_BlockPoolEvents :
    let g : Ext := { x0 with d9 := 417, mod := 2 }
    (let s := (lab id).updCore 0 fun k => { k with poolQ := [⟨1, 2⟩], pool := 1 }
     (s.core 0).poolQ = [⟨1, 2⟩] ∧ (s.core 0).pool = 0 + 1 ∧ (s.wave? 0 1).isSome = true) ∧
    (let s := (lab id).updCore 0 fun k => { k with draining := [⟨2, 3⟩] }
     (s.core 0).draining.find? (s.drained 0) = some ⟨2, 3⟩) ∧
    (let s := lab (waits (.vgrow g))
     (s.core 0).draining = [] ∧ ((s.core 0).waves.all fun x => x.1 == 0 || (!x.2.stopping && s.vgrowBlocked 0 x.1 x.2)) = true ∧ (s.core 0).waves.map (·.1) = [1]) ∧
    (let s := blab id
     (s.block? 0).isSome = true ∧ ((s.launch? 0).any fun l => 1 < l.nlvl && Level.bar (l.level 1) && Level.domain (l.level 1) != 5) = true) := by
  decide +kernel

/-- A record of the user wave at the head of core 0's trap queue. -/
def tlab (trap : BitVec 64) : State :=
  let s := (lab id).setObj 1 ⟨0, 1, 0, 0xFF, .process 1 (BitVec.ofNat 64 loadRoot) trap 0⟩
  s.takeException (ctxOf s) false 0x60 0x1000 0

theorem witness_AgentEvents :
    (let s := (alab 0 id).updCore 0 fun k => { k with agentHalted := true }
     (s.core 0).agentHalted = true ∧ (s.wave? 0 0).isSome = true) ∧
    ([0, 0x1000].all fun t => ((tlab t).core 0).trapQ.all (fun r => !r.privileged && (tlab t).deliverable r && r.ofW.isNone &&
      ((((tlab t).updCore 0 fun k => { k with trapQ := [] }).process? r.proc).any fun p => p.2.2.1 == t)) && ((tlab t).core 0).trapQ.length == 1) = true ∧
    (let r : TrapRec := { (ctxOf (lab id)).record false 0x60 0x1000 0 with ofW := some (mkHandle 2 0 3, none) }
     let s := (tlab 0).updCore 0 fun k => { k with trapQ := [r] }
     r.privileged = false ∧ s.deliverable r = true) ∧ 0 ≠ mgmtCore := by decide +kernel

/-- A FIFO with one entry of block 0 at its head. -/
def mxlab (x : Cmd) : State := (clab [] id).updCore 0 fun k => { k with fifo := [x] }

theorem witness_MatrixEvents :
    (let x := { cmd 9 (.mma { x0 with ty := 5, mod := 0x81 }) with scal := [] }
     (mxlab x).fifoHead 0 = some x ∧ x.mma? = some (0x81, 5) ∧ (mxlab x).mmaError 0 x 0x81 = none ∧
     (let s := (mxlab x).updMSet 0 0 fun m => { m with bad := [9] }
      s.fifoHead 0 = some x ∧ (s.mmaError 0 x 0x81).isSome = true)) ∧
    (let x := { cmd 9 (.mma { x0 with ty := 5, mod := 0x81 }) with st := .fired }
     ((mxlab x).core 0).fifo = [x] ∧ x.mma? = some (0x81, 5) ∧ (mxlab x).msetOf 0 x.poster.blk = some 0) ∧
    ([Instr.accz { x0 with ty := 4 }, .accwr { x0 with a9 := 8 }].all fun i => (mxlab (cmd 9 i)).fifoHead 0 == some (cmd 9 i) &&
      (mxlab (cmd 9 i)).msetOf 0 (some 0) == some 0) = true ∧
    ([Instr.tilemvLd { x0 with a9 := 332, ty := 5 }, .tilemvSt { x0 with a9 := 332, mod := 8 }].all fun i =>
      let x := { cmd 9 i with scal := [0, 0, BitVec.ofNat 64 (128 * 2 ^ 24 + 0x4000), 0] }
      (mxlab x).fifoHead 0 == some x && (match x.desc 2 0 with | some (d, none) => d.chan.isNone && ((mxlab x).operandError 0 ((mxlab x).mset 0 0) (some (d, none)) 0).isNone | _ => false) &&
        ((mxlab x).mset 0 0).bad.isEmpty) = true ∧
    Ext.cmpl x0 ≠ 2 ∧ 2 ^ 32 - 1 < 2 ^ 32 := by decide +kernel

/-- A copy queue with one command of block 0, of the record at 0x3040. -/
def cplab (x : Cmd) : State := (qlab id).updCore 0 fun k => { k with copyq := [x] }

/-- The command of a copy to the scratchpad at 0x4000. -/
def cpyCmd (st : CmdSt) : Cmd :=
  { cmd 9 (.cpy { x0 with u := true, b9 := 335 }) with
    poster := ⟨mkHandle 2 0 2, 1, 0, mkHandle 1 0 1, 0, some 0, false, 0, 0, none⟩, st := st, scal := [0, 0, 0, 0, 0x4000, 0, 0, 0, 0]
    record := leBytes 8 0x3100 ++ [0, 1, 0, 0] ++ leBytes 4 64 ++ List.replicate 40 0 ++ [64, 0, 0, 0, 0, 0, 0, 0]
    buf := List.replicate 64 7 }

/-- The command of a gather of one row. -/
def gthrCmd (st : CmdSt) : Cmd :=
  { cpyCmd st with ins := .gthr { x0 with u := true }, scal := [0x4000, 0, 0x3100, 0, 0x3080, 0, BitVec.ofNat 64 (1 + 2 ^ 12)], buf := List.replicate 16 7 }

/-- The command of a collective. -/
def collCmd (st : CmdSt) : Cmd :=
  { cpyCmd st with
    ins := .coll { x0 with u := true, mod := 0x40 }
    record := leBytes 8 0x3100 ++ leBytes 8 0x3200 ++ leBytes 8 1 ++ [1, 0, 5, 0] ++ leBytes 36 0, buf := leBytes 4 7 }

theorem witness_CopyEvents :
    (let x := cpyCmd .queued
     let s := cplab x
     let els := (List.range (shapeOf x.record).count).map (copyElem (shapeOf x.record) (coords x.scal))
     s.copyHead 0 = some x ∧ (els.all fun e => match e with | .bad _ => false | _ => true) = true ∧
     (match (s.fetchNeed (s.engSpace 0 x) (engHandle 0) (x.id + 2) x.order.2 (els.filterMap fun e => match e with
        | .at' a => some (a, (shapeOf x.record).es) | _ => none)).1 with | .ok _ => true | _ => false) = true) ∧
    (let x := gthrCmd .queued
     let s := cplab x
     s.copyHead 0 = some x ∧ (match (s.fetchNeed (s.engSpace 0 x) (engHandle 0) (x.id + 2) x.order.2 [(0x3080, 4)]).1 with
       | .ok _ => true | _ => false) = true) ∧
    ([cpyCmd .landed, gthrCmd .landed].all fun x => (cplab x).copyCmd 0 9 == some x && (match (cplab x).landData 0 x with | .ok _ => true | _ => false)) = true ∧
    (let x := cpyCmd .written
     ((cplab x).core 0).fifo = [] ∧ ((cplab x).core 0).copyq = [x] ∧ bits (x.scal.getD 1 0).toNat 2 2 = 0 ∧ bits (x.scal.getD 1 0).toNat 6 6 = 0) ∧
    (let x := collCmd .written
     let s := cplab x
     s.copyCmd 0 9 = some x ∧ x.collOp = 0 ∧ s.league.reqs = [] ∧
     (match (s.storePieces (s.engSpace 0 x) (engHandle 0) (x.id + 2) 0 x.order.2 (piecesOf 0x3200 x.buf)).1 with | .ok _ => true | _ => false) = true) ∧
    ([(true, none), (false, none)].map fun (put, w) => ((clab [⟨put, 0, false, w⟩] id).chan? 0 2).any fun k =>
      k.resv == [⟨put, 0, false, w⟩] && k.grantable ⟨put, 0, false, w⟩) = [true, false] ∧
    (let x : Ext := { x0 with u := true, d9 := 328, mod := 2 }
     let s := clab [⟨true, 0, false, some 0⟩] fun w => prog 1 (waits (.chputRes x) w)
     s.reserveWaiter 0 0 2 ⟨true, 0, false, some 0⟩ = some ⟨0, 1, 0, 0⟩ ∧ woken s (.chputRes x) (reserveBody (.chputRes x) true x) = some 1) ∧
    (let x : Ext := { x0 with u := true, d9 := 328, mod := 2 }
     let s := (clab [⟨false, 0, false, some 0⟩] fun w => prog 1 (waits (.chgetWait x) w)).updChan 0 2 fun k => { k with slots := [⟨1, 0, 0, 0⟩, ⟨0, 0, 0, 0⟩] }
     s.reserveWaiter 0 0 2 ⟨false, 0, false, some 0⟩ = some ⟨0, 1, 0, 0⟩ ∧ woken s (.chgetWait x) (reserveBody (.chgetWait x) false x) = some 1) := by
  decide +kernel

/-- Timers due and not; contexts due, funded, spent and suspended. -/
theorem witness_TimerEvents :
    ([(0, 0, 0), (0, 5, 1), (7, 0, 0)].all fun (d, p, n) =>
      (olab (.timer d p n 0) id).obj? 3 == some ⟨0, 1, 0, 0xFF, .timer d p n 0⟩) = true ∧
    ([(0, 5, false), (9, 0, false), (9, 0, true)].all fun (r, left, u) =>
      (State.reset.setObj 3 ⟨0, 1, 0, 0xFF, .sctx 9 5 8 8 left 7 r 0 u⟩).obj? 3 == some ⟨0, 1, 0, 0xFF, .sctx 9 5 8 8 left 7 r 0 u⟩) = true ∧
    ∀ b, (State.reset.setObj 3 ⟨0, 1, 0, 0xFF, b⟩).host.blocks = [] ∧
      ∀ c, ∀ x ∈ ((State.reset.setObj 3 ⟨0, 1, 0, 0xFF, b⟩).core c).waves, x.2.id.sc ≠ mkHandle 6 0 3 :=
  ⟨by decide +kernel, by decide +kernel, fun _ => ⟨rfl, fun _ x h => absurd (show x ∈ [] from h) (by simp)⟩⟩

/-- A launch record of process 1, context 7: four tickets of one wave, cores 0, 1, 16 and 17, an entry, a hint and a signal. -/
def lrec (hint sig lvl2 peers route : Nat) : List Byte :=
  leBytes 4 (7 * 2 ^ 24 + 0x3100) ++ leBytes 4 (mkHandle 1 0 1).toNat ++ leBytes 8 0x1000 ++ leBytes 8 0 ++ leBytes 8 sig ++ leBytes 8 64 ++
    leBytes 8 (2 ^ 40 + 3 * 2 ^ 32 + 2 ^ 28 + 2 ^ 24 + 1) ++ leBytes 8 lvl2 ++ leBytes 40 0 ++ [0, 0, 2, 2] ++ leBytes 4 0 ++ leBytes 8 peers ++
    leBytes 8 (hint * 2 ^ 32) ++ leBytes 8 route

/-- The level of the tickets: scope and domain package, extent 4. -/
def lvl2 : Nat := 4 * 2 ^ 28 + 4 * 2 ^ 24 + 4

/-- The block lab with that launch, changed by g, and context 7 as object 5. -/
def llab (g : Launch → Launch) : State :=
  let s := (blab id).updLaunch 0 fun l => g { l with record := lrec 0 0 lvl2 0 0 }
  s.setObj 5 ⟨0, 1, 0, 0xFF, .sctx 9 5 8 8 5 7 0 0 false⟩

/-- With entry x in the list of context 7 of cluster 0; object 4 a wave that is not resident, its image at 0x30_0000. -/
def rlab (x : List (BitVec 32 ⊕ Nat)) : State :=
  let s := (llab id).setNum 0x300000 8 (2 ^ 56)
  let w := { agentWave 0 0 with id := { (agentWave 0 0).id with handle := mkHandle 2 0 4, proc := mkHandle 1 0 1, kind := .single } }
  let s := s.setObj 4 ⟨0, 1, 2, 0xFF, .wave 0x300000 0 none (some w) none none none⟩
  { s with kern := { s.kern with runq := [(7, x.map fun y => (y, 0))] } }

/-- Block 0 saved. -/
def saved (s : State) : State := s.updBlock 0 fun b => { b with st := .saved, waves := [], spadLen := 0, image := some ⟨none, [], [], []⟩ }

theorem witness_DispatchEvents :
    (rlab [.inl (mkHandle 2 0 4)]).chosen 0 = some (.inl (mkHandle 2 0 4), [0]) ∧
    ((rlab [.inl (mkHandle 2 0 4)]).joinLists.chosen 0).isSome = true ∧
    ((llab id).joinLists.chosen 0 = none ∧ earliest ((llab id).joinLists.funded.filter fun x => !((llab id).joinLists.entries 0 x.2).isEmpty) = none) ∧
    (let s := rlab [.inl (mkHandle 2 0 4)]
     let h := mkHandle 2 0 4
     clusterOf 0 = 0 ∧ s.freeSlot 0 = some 2 ∧
     (match s.named h with
      | some ⟨_, _, _, _, .wave a _ _ _ _ _ _⟩ =>
        ((s.unqueue (.inl h)).loadIn 0 2 h (s.bytes a.toNat (imageSize (holdCount (headerHold (s.num a.toNat 8)))))).isSome
      | _ => false) = true) ∧
    (let s := saved (rlab [.inr 0])
     (match s.chosen (clusterOf 0) with | some (.inr 0, cores) => cores.contains 0 | _ => false) = true ∧
     ((s.block? 0).map (·.st)) = some .saved) := by decide +kernel

/-- Block 0 with its exit as given. -/
def leaves (s : State) (nd idem : Bool) : State := s.updBlock 0 fun b => { b with leaving := some nd, idem := idem }

theorem witness_BlockEvents :
    (let s := llab id
     (s.launch? 0).any (fun l => l.st == .running && l.cores.contains 1 && !l.stopped.contains 1 && !s.claiming 1 && s.placeRoom l 1 &&
         s.roomFor l.waves && l.waits.isEmpty && s.thermalWeight 1 == 0 && (l.bound s.peer.toNat (l.counterOf 1) 0).1 == 4 &&
         s.counter 0 (l.counterOf 1) == 0 && (s.setNum (counterAddr 0 (l.counterOf 1)) 8 4).counter 0 (l.counterOf 1) == 4) = true ∧
     (s.updCore 1 fun k => { k with ctl := { k.ctl with temp := 800 } }).thermalWeight 1 = 7 ∧
     ([⟨1, 0, 0⟩, ⟨1, 3, 0⟩] : List ClaimWait).all (fun x => x.core == 1 && decide (x.left = 0 ∨ x.since + 1000 ≤ s.now) == (x.left == 0)) = true ∧
     (s.launch? 0).any (fun l => !l.cores.contains 2) = true) ∧
    ([(0, false), (0x100000, true)].all fun (t, late) =>
      let s := (llab id).updBlock 0 fun b => { b with waves := [mkHandle 2 0 2] }
      let s := { s with host := { s.host with blocks := Sparse.put 1 { ((s.block? 0).getD ⟨0, 1, 0, .flushed, [], 0, 0, none, 0, true, 0, 0, none, none, [], false, 0, false, none⟩) with st := .flushed, waves := [], slots := [] } s.host.blocks }
                        kern := { s.kern with runq := [(7, [(.inr 1, 0)])] }, dtime := BitVec.ofNat 64 t }
      s.idlest 0 == some 0 && ((s.waitingBlocks (clusterOf 0)).any fun w => (s.without 0).blockFits w 0) && (s.core 0).swapping.isNone &&
        decide ((s.core 0).lastIssue + max 4096 ((s.core 0).ctl.window.toNat * 10 / 13) ≤ s.now) == late) = true ∧
    ([(50, true, .drain), (51, true, .flush), (0, false, .save)].all fun (h, idem, m) =>
      let s := leaves ((llab id).updLaunch 0 fun l => { l with record := lrec h 0 lvl2 0 0 }) false idem
      (s.block? 0).any fun b => b.st == .placed && b.leaving == some false && s.manner b false == m && (s.launch? b.launch).isSome) = true ∧
    (let s := (llab id).updBlock 0 fun b => { b with drainUntil := some 5 }
     (s.block? 0).any (fun b => b.st == .placed && b.drainUntil == some 5) = true ∧ s.now < 5 ∧ 5 ≤ State.now { s with dtime := 5 }) := by
  decide +kernel
/-- The bytes of a wait packet of process 1 for the record at 0x3000. -/
def waitBytes : List Byte := [2, 0, 0, 0] ++ leBytes 4 (mkHandle 1 0 1).toNat ++ leBytes 8 0x3000 ++ leBytes 112 0

/-- Queue 0 of the physical function with these packets, a ring of 8 and a tail at 3, enabled or not. -/
def ulab (en : Bool) (size : Nat) (ps : List QPkt) : State := (blab id).updQueue 0 0 fun _ => ⟨0x4000, size, 3, 3, 1, en, 0, ps⟩

/-- A packet of a type with its progress. -/
def qp (bs : List Byte) (started : Bool) : QPkt := ⟨5, true, bs, started, false, []⟩

theorem witness_QueueEvents :
    (ulab true 8 []).hasQueue 0 0 = true ∧ (State.reset.hasQueue 16 63 = true) ∧
    ([(true, 8), (false, 8), (false, 0)].all fun (en, size) =>
      let k := (ulab en size []).queue 0 0
      k.en == en && k.size == size && ringSizeOk size == (size == 8)) = true ∧
    (ringSizeOk 4096 = true ∧ ringSizeOk 1 = false ∧ 5 < 8 ∧ (3 + 8 - 1) % 8 + (5 + 8 - 3) % 8 ≤ 8 - 1 ∧ 8 - 1 < (3 + 8 - 1) % 8 + (1 + 8 - 3) % 8) ∧
    ([(List.replicate 128 0, 0), (waitBytes, 2), (3 :: List.replicate 127 0, 3)].all fun (bs, t) =>
      let s := ulab true 8 [qp bs false]
      (s.queue 0 0).startable == some (qp bs false) && (qp bs false).type == t && s.waitOk 0 (qp bs false) == (t == 2)) = true ∧
    (let p := qp waitBytes true
     let s := ulab true 8 [p]
     (s.queue 0 0).waiting = some p ∧ s.procOf 0 p.waitProc = true ∧
     (match (s.devAccess (s.hostSpace p.waitProc) (queueHandle 0 0) (p.n + 2) ⟨.read, 8, 1, 5, true, none⟩ ⟨0, p.waitAddr, 0, 0⟩).1 with
      | .ok _ => true | _ => false) = true) := by decide +kernel

theorem witness_RegisterWrites :
    (State.reset.hasQueue 16 63 = true ∧ State.reset.hasQueue 1 0 = true ∧ State.reset.hasQueue 17 0 = false ∧ State.reset.boot.min = false) ∧
    ((State.reset.queue 16 63).en = false ∧ ringSizeOk 4096 = true ∧ ringSizeOk 0 = false ∧ (1 : BitVec 64).getLsbD 0 = true ∧ (1 : BitVec 64).getLsbD 16 = false) ∧
    (0x2001 % 8 ≠ 0 ∧ 0x40 < 0x48 ∧ 0x48 < 0x10000 ∧ 0x38 < 0x40 ∧ (0x30fc0 - 0x30000) / 64 = 63) := by decide +kernel

/-- The launch lab with launch 0 in a state of its life, a signal and a peer set. -/
def olab' (st : LaunchSt) (sig peers : Nat) : State := llab fun l => { l with record := lrec 0 sig lvl2 peers 0, st := st }

/-- A packet of the launch exchange from peer 1, of a kind, for the set of key 9 at peers 0 and 1. -/
def setPkt (kind : Nat) : Packet := { Packet.plain 0x13 1 0 0 with ext := BitVec.ofNat 384 (9 + kind * 2 ^ 32 + 2 * 2 ^ 80) }

/-- The peer set of key 9, peers 0 and 1. -/
def peers9 : Nat := 2 * 2 ^ 16 + 9 * 2 ^ 32

theorem witness_LaunchEvents :
    ([0, 8].all fun sig =>
      let p := qp ([1, 0, 0, 0] ++ List.replicate 20 0 ++ [sig] ++ List.replicate 103 0) false
      let s := ulab true 8 [p]
      (s.queue 0 0).startable == some p && p.type == 1 && (s.host.launches.all fun x => x.2.st != .checking []) &&
        (field p.bytes 24 8 % 16 == 0) == (sig == 0)) = true ∧
    ([(0, true), (64, false)].all fun (rec', good) =>
      let s := (olab' (.checking []) 0 0).updLaunch 0 fun l => { l with record := l.record.set 100 rec' }
      (s.launch? 0).any fun l => l.st == .checking [] && !l.setOk s.peer.toNat && (s.recordStatus l == 0) == good && l.dies.length == 1 && l.route == 0) = true ∧
    ([0, 0x3000].all fun sig =>
      let s := olab' (.ending []) sig 0
      (s.launch? 0).any fun l => l.st == .ending [] && l.signalAddr == sig && !l.raised &&
        !s.strays && (let u := l.cores.foldl (fun u k => u.release k 5) (s.drainOrphans l.cores.contains)
         u.procOf l.fn l.proc && (sig == 0 || match (u.devAccess (u.hostSpace l.proc) launchHandle 2 ⟨.write, 16, 2, 5, true, none⟩
           ⟨0, l.signalAddr, 2 ^ 63 + l.ended % 2 ^ 32 * 2 ^ 16 + l.status + u.now * 2 ^ 64, 0⟩).1 with | .ok _ => true | _ => false))) = true ∧
    ((olab' .running 0 0).launch? 0).any (fun l => l.st == .running && !(olab' .running 0 0).launchOver 0 l) = true ∧
    (let s := ((List.range 4).foldl (fun s u => s.setNum (counterAddr 0 u) 8 4) (olab' .running 0 0)).updBlock 0 fun b => { b with st := .ended }
     (s.launch? 0).any (fun l => s.launchOver 0 l) = true ∧ s.strays = false) ∧
    ([0, 20000000].all fun t => let s := { olab' .arriving 0 peers9 with dtime := BitVec.ofNat 64 t }
      (s.launch? 0).any fun l => l.st == .arriving && decide (l.since + 20000000 ≤ s.now) == (t != 0)) = true ∧
    ([0, 1, 2].all fun k => let p := setPkt k
      p.type == 0x13 && p.dst == State.reset.peer && (linked State.reset).linkOk p && (Packet.word p 2).toNat / 2 ^ 32 == k && (Packet.word p 2).toNat % 2 ^ 32 == 9 &&
        (Packet.word p 3).toNat % 2 ^ 16 == 0 && (Packet.word p 3).toNat / 2 ^ 16 % 2 ^ 16 == 2 && p.src.toNat == 1) = true ∧
    (State.reset.host.peerSets = [] ∧ (olab' .arriving 0 peers9).host.launches.length = 1 ∧
      ((olab' .arriving 0 peers9).launch? 0).any (fun l => l.key == 9 && l.peerBase == 0 && l.peerCount == 2) = true) ∧
    ((9 : BitVec 32).toNat = (⟨9, 0, 2, [], [1], false, 0⟩ : PeerSet).key ∧ (State.reset.now < 10000000) ∧ 10000000 ≤ State.now { State.reset with dtime := 10000000 }) := by
  decide +kernel

/-- The machine in service, with a request of a command and its arguments in the mailbox. -/
def mlab (cmd : Nat) (args : List Nat) : State :=
  { State.reset with boot := { State.reset.boot with step := 8, doorbell := true
                                                     req := Sparse.setRange memDefault [] 0 (leBytes 8 cmd ++ args.flatMap fun x => leBytes 8 x) } }

/-- `Claims.Asked`, decided. -/
def isAsked (s : State) (cmd n : Nat) : Bool :=
  s.mailReady && s.mailCmd == cmd && !s.boot.min && field (Sparse.range memDefault s.boot.req 0 64) 2 6 == 0 &&
    field (Sparse.range memDefault s.boot.req 0 64) (8 + 8 * n) (56 - 8 * n) == 0

theorem isAsked_asked {s : State} {cmd n : Nat} (h : isAsked s cmd n = true) : Claims.Asked s cmd n := by
  simp only [isAsked, Bool.and_eq_true, beq_iff_eq, Bool.not_eq_true'] at h
  exact ⟨h.1.1.1.1, h.1.1.1.2, h.1.1.2, h.1.2, h.2⟩

theorem witness_MailboxEvents :
    ([(1, [3]), (2, [16, 63]), (2, [17, 0]), (3, [2 ^ 20]), (3, [2 ^ 20 - 1]), (4, [1, 0, 4]), (4, [0, 0, 4]), (5, [(mkHandle 1 0 1).toNat]), (5, [7]), (6, [])].all
      fun (cmd, args) => isAsked (mlab cmd args) cmd args.length && ((List.range args.length).all fun i => Claims.mailArg (mlab cmd args) i == args.getD i 0)) = true ∧
    ((mlab 3 [5]).host.queues = [] ∧ (mlab 6 []).board.eeWritable = true ∧ isAsked { mlab 6 [] with board := { State.reset.board with eeWritable := false } } 6 0 = true) ∧
    ((blab id).queueDone 0 = false ∧ (lab id).queueDone 0 = true) ∧
    ((State.reset.filling 1) = false ∧ (lab fun w => w.updHalf 0 fun h => { h with base := { h.base with wait := .filling } }).filling 1 = true) ∧
    (let s := mlab 4 [1, 0, 4]
     let b (f : Tdi → Tdi) (g : List (Nat × Nat)) : State := { s.updTdi 1 f with mem := { s.mem with granKey := g } }
     ([(b id [(2, 5)], true, true), (b id [], false, true), (b (fun t => { t with st := .locked }) [], false, false)].all fun (s, taken, un) =>
       isAsked s 4 3 && ((List.range 4).any (fun i => (Sparse.get? i s.mem.granKey).isSome)) == taken &&
         ((s.tdi? 1).any fun t => t.st == .unlocked) == un && s.freeSlots != []) = true ∧ s.tdi? 0 = none) ∧
    (let s := { lab id with boot := (mlab 5 [(mkHandle 1 0 1).toNat]).boot }
     isAsked s 5 1 = true ∧ (s.process? (mkHandle 1 0 1)).isSome = true ∧ (s.process? 7).isNone = true) ∧
    ([(0, false), (7, false), (7, true)].all fun (cmd, min) => let s := { mlab cmd [] with boot := { (mlab cmd []).boot with min := min } }
      s.mailReady && s.mailCmd == cmd) = true := by decide +kernel

theorem witness_Training : (List.range 8).all State.reset.board.stackGood = true ∧
    Board.stackGood { State.reset.board with chanErr := [(33, 1)] } 1 = false := by
  constructor
  · simp [Board.stackGood, Board.readBack, State.reset, Sparse.get, Sparse.get?]
  · rw [Board.stackGood, List.all_eq_false]
    refine ⟨1, by decide, fun e => ?_⟩
    have h := congrArg (Config.trainPattern 33 ^^^ ·) (beq_iff_eq.1 e)
    simp [Board.readBack, Sparse.get, Sparse.get?] at h

theorem witness_SystemEvents :
    ([Tdisp.unlocked, .locked, .run, .error].all fun st => ((State.reset.updTdi 1 fun t => { t with st := st, slots := [63] }).tdi? 1).any fun t => t.st == st) = true ∧
    (let b := State.reset.board
     b.eeReadable = true ∧ b.eeCount < 3 ∧ b.eeWritable = true ∧ b.pufStable = true ∧ b.coresGood.all id = true ∧
     3 ≤ Board.eeCount { b with eeCount := 3 } ∧ Board.eeReadable { b with eeReadable := false } = false ∧ Board.pufStable { b with pufStable := false } = false) ∧
    (dieOf 127 = 3 ∧ dieOf 0 ≠ 3 ∧ State.reset.dieTemp 3 < 760 ∧
      840 ≤ (State.reset.updCore 127 fun k => { k with ctl := { k.ctl with temp := 840 } }).dieTemp 3) ∧ 255 < 256 := by decide +kernel
/-- Window 2: the first 2 MiB of process 1, with all rights, for every importer. -/
def window : BitVec 256 :=
  BitVec.ofNat 256 (2 ^ 63 + 2 ^ 62 + 2 ^ 61 + 2 ^ 60 + 2 ^ 128 * (1 + 2 ^ 20) + 2 ^ 192 * (512 * 2 ^ 9))

/-- The block lab with that window, these requests and these closed pairs. -/
def nlab (rs : List Req) : State := let s := linked (blab id)
  { s with league := { s.league with windows := [(2, window)], reqs := rs } }

/-- A packet of a type from peer 1 to this device, at offset 0x3000, four bytes. -/
def pkt (type : Nat) : Packet := { Packet.plain type 1 0 7 with offset := 0x3000, lenm1 := 3 }

/-- A request of tag 7 outstanding to peer 1. -/
def req (type : Nat) (suspended : Bool) (answer : Option Packet) : Req :=
  ⟨7, mkHandle 2 0 2, 0, 0, Packet.plain type 0 1 7, 0, suspended, false, none, answer, 0, false⟩

theorem witness_RemoteEvents :
    ([1, 3, 5].all fun t => let a : Acc := if t = 1 then .read else if t = 3 then .write else .atomic
      (pkt t).dst == (nlab []).peer && (nlab []).linkOk (pkt t) && (pkt t).type.toNat == t &&
        (match ((nlab []).exported 1 0x3000 4 a).1 with | .ok _ pa => pa == 0x25000 | _ => false) &&
        (match ((nlab []).exported 1 0x6000 4 a).1 with | .no _ => true | _ => false)) = true ∧
    ((nlab []).windowFor 1 0x200000 = none) ∧
    ([(2, 1), (4, 3), (6, 5), (8, 7)].all fun (t, q) => let r := req q false none
      let s := nlab [r]
      s.linkOk (pkt t) && r.inst.isNone && s.league.reqs == [r] && r.tag == (pkt t).tag.toNat && r.pkt.dst == (pkt t).src && (pkt t).dst == s.peer && !(Packet.word (pkt t) 2).getLsbD 63) = true ∧
    (7 < 4096 ∧ (nlab []).now < (req 1 false none).at' + 100000 ∧ (req 1 false none).at' + 100000 ≤ State.now { nlab [] with dtime := 100000 }) ∧
    ([(none : Option (BitVec 512)), some 2, some 7].all fun m =>
      let s := nlab []
      let s := { s with league := { s.league with sw := { s.league.sw with groups := (m.map fun x => (0, x)).toList } } }
      Sparse.get? ((pkt 7).plane.toNat * 4096 + (pkt 7).group.toNat) s.league.sw.groups == m &&
        (m.any fun x => !((List.range 512).filter fun k => x.getLsbD k && k != (pkt 7).src.toNat).isEmpty) == (m == some 7)) = true ∧
    (let m : Mcast := ⟨0, 7, 1, [0], 0, [], 0⟩
     0 ∈ m.waiting ∧ m.waiting = [0] ∧ (nlab []).now < m.at' + 20000 ∧ m.at' + 20000 ≤ State.now { nlab [] with dtime := 20000 }) ∧
    (let p := { pkt 0x14 with ext := 1 }
     p.type = 0x14 ∧ (Packet.word p 2).getLsbD 0 = true ∧ p.src.toNat ∉ (nlab []).league.sw.managers ∧ 1 ∈ [1]) := by decide +kernel

/-- A port message from peer 1 for port h of object 3: word 2 with its flags. -/
def portPkt (flags : Nat) : Packet := { Packet.plain 0x0B 1 0 7 with ext := BitVec.ofNat 384 ((mkHandle 3 0 3).toNat + flags + 2 ^ 64) }

theorem witness_MessageEvents :
    (let p := pkt 9
     p.type = 9 ∧ p.dst = (nlab []).peer ∧ (nlab []).linkOk p = true ∧ (nlab []).league.reqs = [] ∧ (nlab []).league.acks = [] ∧ 255 < 256) ∧
    (let v : Inval := ⟨3, [1], 0, mkHandle 2 0 2⟩
     (pkt 0x0A).type = 0x0A ∧ v.left = [(pkt 0x0A).src.toNat] ∧ v.page = BitVec.ofNat 40 ((pkt 0x0A).offset.toNat / 4096) ∧
     (nlab []).now < v.at' + 1000000 ∧ v.at' + 1000000 ≤ State.now { nlab [] with dtime := 1000000 } ∧ (nlab []).windowsOver v.page.toNat ≠ []) ∧
    (let ob (ms : List Msg) : State := linked (olab (.port 1 0x26000 0 ms []) id)
     let r : RemoteSender := ⟨0, 1, 7, []⟩
     let w (f : Nat) : Nat := (Packet.word (portPkt f) 2).toNat
     let h : BitVec 32 := BitVec.ofNat 32 (Packet.word (portPkt 0) 2).toNat
     (portPkt 0).type == 0x0B && (portPkt 0).dst == (ob []).peer && (ob []).linkOk (portPkt 0) && (Packet.word (portPkt 0) 4).toNat == (ob []).boot.epoch &&
       bits (w (2 ^ 33)) 33 33 == 1 && bits (w 0) 33 33 == 0 && r.src == (portPkt 0).src.toNat && r.tag == (portPkt 0).tag.toNat && (nlab []).port? h == none && (ob []).port? h == some (1, 0x26000, [], []) &&
       ((ob []).kernWaits .send h).isEmpty && (ob [msg]).port? h == some (1, 0x26000, [msg], []) && bits (Packet.word (portPkt 0) 2).toNat 63 63 == 0 &&
       bits (Packet.word (portPkt (2 ^ 32)) 2).toNat 32 32 == 1 && bits (Packet.word (portPkt 0) 2).toNat 32 32 == 0 &&
       bits (Packet.word (portPkt (2 ^ 63)) 2).toNat 51 48 != 15 && bits (Packet.word (portPkt (2 ^ 63 + 15 * 2 ^ 48)) 2).toNat 51 48 == 15 &&
       (req 0x0B false none).tag == (portPkt 0).tag.toNat && (req 0x0B false none).pkt.dst == (portPkt 0).src) = true ∧
    (let p := { Packet.plain 0x0C 1 0 7 with ext := 0x41 }
     let s := { nlab [] with kern := { (nlab []).kern with names := [(0x41, mkHandle 3 0 3)] } }
     let s := s.setObj 3 ⟨0, 1, 0, 0xFF, .port 1 0x26000 0x41 [] []⟩
     p.dst == s.peer && s.linkOk p && ((nlab []).kern.names.all fun x => x.1 != Packet.word p 2) && s.kern.names == [(Packet.word p 2, mkHandle 3 0 3)] &&
       (s.named (mkHandle 3 0 3)).map (·.owner.toNat) == some 1 && (match s.obj? 1 with | some ⟨_, _, _, _, .process q _ _ _⟩ => q == 1 | _ => false) &&
       s.league.windows.contains (2, window) && (Win.mk window.toNat).valid && (Win.mk window.toNat).pasid == 1 && (Win.mk window.toNat).imports p.src.toNat) = true := by
  decide +kernel

/-- A shuffle of block 0: 16 bytes from peer 3 with tag 1, its collective 5. -/
def shufCmd : Cmd :=
  { collCmd .written with ins := .coll { x0 with u := true, sub := 3, mod := 0x40 }, record := (collCmd .written).record ++ leBytes 4 1 ++ leBytes 2 3 ++ leBytes 2 16 ++ leBytes 8 0x3100 ++ leBytes 8 0x20 ++ leBytes 8 0, buf := List.replicate 16 7 }

/-- The copy lab with that collective in progress and a side-cache entry for tag 2. -/
def slab : State := let s := linked (cplab shufCmd)
  { s with league := { s.league with colls := [⟨[(0, 9)], 5, [], [], [], [], [], false⟩], side := [⟨5, 2, 16, 0x3300, 0, mkHandle 1 0 1⟩] } }

/-- A segment of collective 5 with a tag and a pair ID. -/
def seg (src : BitVec 9) (tag pair : Nat) : Packet := { segPacket src 5 ⟨tag, 0, 16, 0x3100, 0x20⟩ pair 0 (List.replicate 16 9) with dst := 0 }

/-- The coded packet of segments of tags 1 and t. -/
def codedSeg (t : Nat) : Packet := (codedPackets (seg 3 1 4) (seg 4 t 4)).headD (seg 3 1 4)

/-- A packet about the barrier of the set of key 9. -/
def barPkt (kind : Nat) : Packet := { barPacket kind 0 9 0 2 0 with src := 1 }

/-- The one local participant receives. -/
theorem receiver_alone {s : State} {ident tag core : Nat} {y : Cmd} {p q n : Nat} {l : Launch} (hs : s.shuffles ident = [(core, y)])
    (hl : s.collLevel y = some (p, q, n, l))
    (ht : ((l.instanceTickets q n).filter fun t => (l.localRange s.peer.toNat).1 ≤ t &&
      t < (l.localRange s.peer.toNat).1 + (l.localRange s.peer.toNat).2) = [s.ticketOf y])
    (he : (s.collEntry core y.id).isSome = true) : s.collReceiver ident tag = some (core, y) := by
  simp only [State.collReceiver, hs, List.head?_cons, hl, ht, List.length_singleton, Nat.mod_one, List.getD_cons_zero]
  simp [he]

theorem slab_receiver (tag : Nat) : slab.collReceiver 5 tag = some (0, shufCmd) := by
  have h : ∃ x, slab.collLevel shufCmd = some x ∧ slab.shuffles 5 = [(0, shufCmd)] ∧ (slab.collEntry 0 shufCmd.id).isSome = true ∧
      ((x.2.2.2.instanceTickets x.2.1 x.2.2.1).filter fun t => (x.2.2.2.localRange slab.peer.toNat).1 ≤ t &&
        t < (x.2.2.2.localRange slab.peer.toNat).1 + (x.2.2.2.localRange slab.peer.toNat).2) = [slab.ticketOf shufCmd] :=
    ⟨(slab.collLevel shufCmd).get (by decide +kernel), by simp, by decide +kernel, by decide +kernel, by decide +kernel⟩
  obtain ⟨⟨p, q, n, l⟩, hl, hs, he, ht⟩ := h
  exact receiver_alone hs hl ht he

theorem witness_ShuffleEvents :
    ([0, 4].all fun pair => let p := seg 3 1 pair
      p.type == 0x10 && p.dst == slab.peer && (Packet.seg p).pair == pair && sameKey (seg 4 2 pair) p && sameKey (passedSegment p) p && slab.league.sw.segs == [] &&
        slab.linkOk p) = true ∧
    (State.now slab ≤ 0 + 2000 ∧ 0 + 2000 < State.now { slab with dtime := 2001 }) ∧
    (let p := seg 3 1 0
     let h := Packet.seg p
     h.ident = 5 ∧ (blab id).collReceiver h.ident h.tag = none ∧ slab.league.reqs = [] ∧
     ([(fun s : State => s, 0), (fun s => s.setNum 0x22018 8 0, 1), (fun s => s.setNum 0x22018 8 0x250C3, 2)].all fun (f, k) =>
      (match ((f slab).storePieces (slab.engSpace 0 shufCmd) (engHandle 0) (segHalf shufCmd h) 0 shufCmd.order.2
          (piecesOf (((collOf shufCmd.record).dst + Packet.recvOff p + 256 * h.seg) % 2 ^ 64) (Packet.bytes p 16))).1 with
        | .ok _ => k == 0 | .fault _ _ => k == 2 | _ => k == 1)) = true) ∧
    ([(2, true), (3, false)].all fun (t, some') => let p := codedSeg t
      let h := Packet.seg p
      let other := Packet.seg { p with ext := p.ext >>> 128 }
      p.type == 0x11 && p.dst == slab.peer && slab.linkOk p && !Packet.second p && (Packet.codedFor p).1 == h && h.ident == 5 &&
        !slab.decodeFull && (slab.league.side.find? fun y => y.ident = h.ident && y.tag.toNat = other.tag).isSome == some') = true ∧
    (let p := codedSeg 2
     let h := Packet.seg p
     (match slab.fetchNeed (slab.engSpace 0 shufCmd) (engHandle 0) (2 ^ 63 + segHalf shufCmd h) shufCmd.order.2 [(0x3300, 16)] with
      | (.ok _, u) => u.league.reqs.isEmpty && (match (u.storePieces (u.engSpace 0 shufCmd) (engHandle 0) (segHalf shufCmd h) 0 shufCmd.order.2
          (piecesOf (((collOf shufCmd.record).dst + (Packet.codedFor p).2.2 + 256 * h.seg) % 2 ^ 64) (List.replicate 16 0))).1 with | .ok _ => true | _ => false)
      | _ => false) = true) ∧
    (let p := { seg 3 1 0 with type := 0x12 }
     let s := { slab with league := { slab.league with colls := [⟨[(0, 9)], 5, [(3, 1, 0)], [], [], [], [], false⟩] } }
     s.collSender 5 3 1 0 = some (0, shufCmd) ∧ (Packet.seg p) = ⟨1, 0, 5, 16, 0⟩ ∧
     (shufCmd.sendData.find? (fun q => q.1.tag = (Packet.seg p).tag && q.1.peer = p.src.toNat)).isSome = true ∧
     (let a := segAnswer 0x04 3 0 ⟨1, 0, 5, 16, 0⟩
      s.linkOk a = true ∧ a.type = 4 ∧ (Packet.word a 2).getLsbD 63 = true ∧ (Packet.seg a).ident = 5 ∧ (Packet.seg a).tag = 1 ∧ (Packet.seg a).seg = 0)) := by
  decide +kernel

theorem witness_LinkEvents :
    (let l := linked (llab fun l => { l with record := lrec 0 0 (5 * 2 ^ 28 + 5 * 2 ^ 24 + 2) peers9 0 })
     ([3, 4, 6].all fun k => setKind (barPkt k) == k && (barPkt k).type == 0x13 && (barPkt k).dst == l.peer && l.linkOk (barPkt k) &&
        (l.launchBySet (setKey (barPkt k)) (setBase (barPkt k)) (setCount (barPkt k))).isSome && setBase (barPkt k) == 0 && setCount (barPkt k) == 2) = true ∧
     (l.launchBySet 8 0 2) = none ∧ l.league.peerBars = []) ∧
    (slab.league.ports[31]?).isSome = true ∧ State.reset.linkOk (pkt 1) = false ∧ (pkt 1).dst = State.reset.peer := by
  decide +kernel

/-! ### Further clauses of the statements -/

/-- The wave's half with a stack of n entries over a path of every lane, the top one's only path running. -/
def deep (n : Nat) (w : Wave) : Wave := w.updHalf 0 fun h =>
  { h with stack := List.replicate n ⟨0x1040, none, [Path.at' [] 0x1000 allLanes true], 0, [], 0⟩ }

/-- BRC and JMPI whose lanes part above one entry and at the limit of 16; a BRC for depth 0 only above an entry. -/
theorem witness_DivergingAboveAnEntry :
    ([(1, 0), (16, 0), (1, 2)].all fun (n, m) =>
      let x : Ext := { x0 with a9 := 417, mod := BitVec.ofNat 16 m, lit := some 0x1400000008 }
      let s := lab (deep n ∘ prd 1 1)
      meets (.brc x) (some x) s fun c => pass [predOk 417, OpOk.when (decide ((1 : Int) ≤ 8) && decide ((8 : Int) ≤ 20))] &&
        reach s c [c.disp 8, (c.path.pc + BitVec.ofNat 64 (4 * (encode (.brc x)).length)).toNat] && c.half.stack.length == n &&
        decide (c.active 0 false &&& c.pred 417 false ≠ 0) && decide (c.path.mask &&& ~~~(c.active 0 false &&& c.pred 417 false) ≠ 0)) = true ∧
    ([1, 16].all fun n =>
      let x : Ext := { x0 with a9 := 6, lit := some 24 }
      let s := lab fun w => deep n ((reg 7 0 11 w).setV 6 ⟨ofLanes fun l => 0x1040 + 4 * (l % 5), 11⟩)
      meets (.jmpi x) (some x) s fun c => pass [vRun c.w 6 2 2 (fun _ => true), OpOk.when true] && c.half.stack.length == n &&
        reach s c [0x1040, 0x1044, 0x1048, 0x104C, 0x1050]) = true := by decide +kernel

/-- Misaligned lanes, lanes beyond 2^52; an access that its page refuses. -/
theorem witness_MemoryAccessesTrap :
    ([(0x2002, Exc.misalignedAccess), (2 ^ 52, Exc.permission)].all fun (a, code) =>
      match Claims.accessOf (.ldReg ⟨false, 2, 0, 4, 8⟩) with
      | some x => meets (.ldReg ⟨false, 2, 0, 4, 8⟩) none (blab (fun w => (reg 5 (a / 2 ^ 32) 11 (reg 4 (a % 2 ^ 32) 11 w)))) fun c =>
          pass (x.ops c) && c.path.prog.isNone && (lanesOk ((blab id).put c c.w) c.w.id.proc x.op (x.lanes c)).map (·.1) == some code
      | none => false) = true ∧
    (match Claims.accessOf (.stReg ⟨false, 2, 0, 4, 8⟩) with
      | some x => let s := (blab (addrs 4 0x3000)).setNum 0x22018 8 0x250C3
          meets (.stReg ⟨false, 2, 0, 4, 8⟩) none s fun c => pass (x.ops c) && (lanesOk (s.put c c.w) c.w.id.proc x.op (x.lanes c)).isNone &&
            (let r := (access ((s.put c c.w).orderAtomn c false (x.lanes c) x.op.n) (c.space s) x.op (x.lanes c)).1
             r.parked.isEmpty && r.peer.isEmpty && !r.filling && r.fault == some (Exc.permission, 0x3000))
      | none => false) = true := by decide +kernel

/-- A misaligned offset, and an aligned one outside the allocation. -/
theorem witness_ScratchpadTraps :
    ([(0x4002, true), (0xC000, false), (0x3FFC, false)].all fun (a, mis) => match Claims.spadOf (.stlReg ⟨false, 2, 0, 7, 3⟩) with
      | some (_, _, m) => meets (.stlReg ⟨false, 2, 0, 7, 3⟩) none (blab (reg 7 a 1)) fun c =>
          pass [spadAddrOk c m.a, offOk c m.lit m.off, dataOk c false m.u m.sz m.d] &&
          (let ls := spadLanes c m fun l => dataVal c m.sz m.d l
           !ls.isEmpty && ls.all fun x => x.va == a && (x.va % 4 != 0) == mis &&
             (decide (x.va < ((blab id).spadOf c).1) || decide (((blab id).spadOf c).1 + ((blab id).spadOf c).2 < x.va + 4) || mis))
      | none => false) = true := by decide +kernel

/-- EXPLD with no lane. -/
theorem witness_NoLaneExpld :
    let x : Ext := { x0 with d9 := 8, a9 := 329, b9 := 417, c9 := 330, mod := 0x401, pg := 2 }
    runs (.expld x) (some x) (blab fun w => prd 1 3 (sreg 9 0x3000 w)) (fun c => [{ dataOk c true false 2 8 with valid := 8 < 320 && (dataOk c true false 2 8).valid },
        sRun c 329, predOk 417, sDst c 330]) = true ∧
    meets (.expld x) (some x) (blab fun w => prd 1 3 (sreg 9 0x3000 w)) (fun c => c.active x.pg x.pn == 0) = true := by decide +kernel

/-- CHINIT of a wave that belongs to no block. -/
theorem witness_ChinitOfNoBlock :
    let x : Ext := { x0 with u := true, a9 := 329, b9 := 330, c9 := 331, mod := 3 }
    meets (.chinit x) (some x) (lab id) (fun c => c.w.id.blk.isNone && decide (c.act true 0 false ≠ 0) && pass [sRun c 329, sRun c 330, sRun c 331]) = true := by
  decide +kernel

/-- The block lab with a second wave of the block in slot 2, changed by g. -/
def blab2 (f g : Wave → Wave) : State :=
  let s := blab f
  let w := (ctxOf s).w
  (s.setWave 0 2 (g { w with id := { w.id with handle := mkHandle 2 0 4 } })).updBlock 0 fun b => { b with waves := [mkHandle 2 0 2, mkHandle 2 0 4] }

/-- A block of two waves: the other has not arrived, or waits in the same form. -/
theorem witness_RegroupOfTwoWaves :
    ([true, false].all fun here =>
      let x : Ext := { x0 with d9 := 328, a9 := 2, b9 := 16, mod := 0xE0 }
      let i : Instr := .regroupKey x
      let at' (w : Wave) : Wave := if here then w.updHalf 0 fun h => { h with base := { h.base with wait := .on i 0 } } else w
      let s := blab2 (reg 2 3 1) at'
      meets i (some x) s fun c =>
        let s₀ := s.put c c.w
        let s₁ := s₀.waitOn c i
        let ps : List (Nat × Part) := (s₁.blockWaves 0).filterMap fun y => y.2.2.regrouping.map fun q => (y.1, ⟨y.2.1, y.2.2, q.1⟩)
        !s.hasReqs c.w.id.handle && !c.w.id.gang && c.w.id.blk == some 0 && pass [vRun c.w 2 1 1 (fun _ => true), sDst c 328, vRun c.w 16 1 1 fun _ => true] &&
          ((s₀.blockWaves 0).all fun y => y.2.1 == 1 || (y.2.2.regrouping.all fun q => q.2 == i)) &&
          (if here then ps.length == 2 && s₁.blockWaves 0 == (ps.map fun y => (y.1, y.2.slot, y.2.w)) && regroupOk true x (ps.map (·.2)) &&
              ps.all fun y => s₁.wave? y.1 y.2.slot == some y.2.w && y.2.w.traps == 0 && (y.2.w.regrouping == some (y.2.path, i))
            else ps.length == 1)) = true := by decide +kernel

/-- The state with an older wave that waits in slot 2. -/
def after' (s : State) (w : Wave) : State := { s.setWave 0 2 w with next := 1 }

/-- PSEND, PRECV and WSWAIT behind an earlier waiter. -/
theorem witness_EarlierWaiters :
    let h := mkHandle 3 0 3
    let x : Ext := { x0 with u := true, d9 := 328, a9 := 329, b9 := 330 }
    let f (w : Wave) : Wave := sreg 10 0x3000 (sreg 9 h.toNat w)
    (let s := after' (olab (.port 1 0 0 [] []) f) (waits (.psend x) (f (ctxOf (blab id)).w))
     meets (.psend x) (some x) s fun c => ((Claims.kernOf x c (.psend x)).any fun ops => pass ops) && ((s.put c c.w).handleFault c (c.handle 329) [3, 7] 0 true).isNone &&
       fetched s c [(0x3000, 64)] && s.port? h == some (1, 0, [], []) && !s.firstInLine c .send h []) = true ∧
    (let s := after' (olab (.port 1 0 0 [msg] []) f) (waits (.precv x) (f (ctxOf (blab id)).w))
     meets (.precv x) (some x) s fun c => ((Claims.kernOf x c (.precv x)).any fun ops => pass ops) && ((s.put c c.w).handleFault c (c.handle 329) [3, 7] 0 false).isNone &&
       s.port? h == some (1, 0, [msg], []) && !s.firstInLine c .recv h []) = true ∧
    (let e : Ext := { x0 with u := true, d9 := 328, a9 := 329 }
     let f (w : Wave) : Wave := sreg 9 (mkHandle 4 0 3).toNat w
     let s := after' ((olab (.wset 0 [mkHandle 5 0 4]) f).setObj 4 ⟨0, 1, 0, 0xFF, .timer 0 0 1 9⟩) (waits (.wswait e) (f (ctxOf (blab id)).w))
     meets (.wswait e) (some e) s fun c => pass [sDst c 328, sRun c 329] && (s.expireDue.handleFault c (c.handle 329) [4] 0 false).isNone &&
       !s.expireDue.firstInLine c .wset (mkHandle 4 0 3) [] && (s.expireDue.readyMember [mkHandle 5 0 4]).isSome) = true := by decide +kernel

/-- A CTXSV of a wave that stands in the middle of a chain; with its image kept, of one that a request still concerns. -/
theorem witness_CtxsvOfOneThatRuns :
    ([0, 1].all fun m =>
      let x : Ext := { x0 with u := true, d9 := 324, a9 := 325, b9 := 320, sub := 3, mod := BitVec.ofNat 16 m }
      let s := (alab m (sreg 6 0x200000 ∘ sreg 5 user)).updWave 0 1 fun w => { w with chain := some ⟨0, 0, 1, false, []⟩ }
      meets (.ctxsv x) (some x) s fun c => pass [sDst c 324, sRun c 325, { sRun c 320 with valid := (sRun c 320).valid && (m == 1 || 320 == 320) }, OpOk.yes] &&
        (s.waveFault (c.handle 325)).isNone && s.resident (c.handle 325) == some (0, 1) && !s.stoppable 0 1 &&
        ((s.waveOf (c.handle 325)).any fun w => w.traps == m)) = true := by decide +kernel

/-- An exception of a wave that is trapped already. -/
theorem witness_LaterException :
    let s := lab fun w => { w with traps := 1 }
    (s.wave? 0 1 = some (ctxOf s).w ∧ (ctxOf s).w.priv = false ∧ (ctxOf s).w.traps ≠ 0) := by decide +kernel

/-- `Claims.WaitsIn` for the split whose turn it is, since number 0, decided. -/
def stands (s : State) (i : Instr) : Bool :=
  let c := ctxOf s
  s.ctx? s.cur == some c && c.path.wait == .on i 0 && c.path.running && !c.path.arrived && c.w.traps == 0 && c.w.halves.all (·.reread.isEmpty)

/-- A split that waits in i and that p holds of, with the state in which it looks again. -/
def waitMeets (s : State) (i : Instr) (p : Ctx → State → Bool) : Bool := stands s i && p (ctxOf s) (Claims.looks s (ctxOf s))

/-- A counter that has reached its target in a cached and in an uncached page. -/
theorem witness_CounterReached :
    ([(0x2000, 1), (0x3000, 0), (0x3000, 1)].all fun (va, ord) =>
      let e : Ext := { x0 with u := true, a9 := 332, b9 := 388, mod := BitVec.ofNat 16 ord }
      let s := blab fun w => waits (.cwait e) (sreg 12 va w)
      waitMeets s (.cwait e) fun c u => pass [sRun c 332, offOk c none 388] && lowest (c.act true 0 false) == some 0 && (s.reqsOf c).isEmpty &&
        (let a : LaneAcc := ⟨0, va, 0, 0⟩
         let o : MemOp := ⟨.read, 8, ord, 0, ord == 1, none⟩
         let u₁ := u.orderAtomn c (ord == 1) [a] 8
         (lanesOk u (c.space u).proc o [a]).isNone && (access u₁ (if o.sync then c.syncSpace u₁ else c.space u₁) o [a]).1 == ⟨[(0, 0)], [], [], false, none⟩ &&
           (va != 0x3000 || (reaches u₁ o ncLeaf a && ncLeaf.nc && c.who.core != mgmtCore && u₁.num (ncLeaf.pa va) 8 == 0)))) = true := by decide +kernel

/-- An LDL and an STL whose granule has come to the value that they wait for. -/
theorem witness_GranulesReady :
    ([(false, 0x500), (true, 0x580)].all fun (st, m) =>
      let e : Ext := if st then { x0 with a9 := 7, b9 := 388, c9 := 3, mod := BitVec.ofNat 16 m } else { x0 with d9 := 3, a9 := 7, b9 := 388, mod := BitVec.ofNat 16 m }
      let i : Instr := if st then .stlExt e else .ldlExt e
      let g : MemArgs := if st then Ext.storeArgs e else Ext.loadArgs e
      let s := (blab fun w => waits i (reg 7 0xBFFC 1 w)).updCore 0 fun k => { k with fe := if st then [] else [(0xBFF, true)], feWoke := [(0xBFF, 1)] }
      waitMeets s i fun c u => pass [spadAddrOk c g.a, offOk c g.lit g.off, dataOk c (!st) g.u g.sz g.d] &&
        (let ls := spadLanes c g fun l => if st then dataVal c g.sz g.d l else 0
         g.fe != 0 && !ls.isEmpty && s.feAll 0 (!st) ls && (st || (s.spadError 0 4 ls).isNone) && !s.hasReqs c.w.id.handle && u.next == s.next &&
           ls.all fun x => x.va % 4 == 0 && (s.spadOf c).1 ≤ x.va && x.va + 4 ≤ (s.spadOf c).1 + (s.spadOf c).2 &&
             decide (0 < Sparse.get 0 (s.core 0).feWoke (x.va / 16)) && decide (Sparse.get 0 (s.core 0).feQuiet (x.va / 16) < Sparse.get 0 (s.core 0).feWoke (x.va / 16)))) = true := by
  decide +kernel

/-- A FENCER that no access holds up, seen for the first time and again. -/
theorem witness_FencerUnhindered :
    ([id, prog 1].all fun p =>
      let e : Ext := { x0 with mod := 4 }
      let s := blab (waits (.fencer e) ∘ p)
      waitMeets s (.fencer e) fun c u => decide (c.act e.u e.pg e.pn ≠ 0) && !s.hasReqs c.w.id.handle &&
        !s.openReqs (u.cutWaves c.w.id.proc (u.unitCores 1 0)) (if c.progress.k = 0 then s.now else c.progress.k - 1)) = true := by decide +kernel

/-- A ready member, a message and room for one, each split first in its line. -/
theorem witness_ObjectsReady :
    (let e : Ext := { x0 with u := true, d9 := 328, a9 := 329 }
     let s := (olab (.wset 0 [mkHandle 5 0 4]) (waits (.wswait e) ∘ sreg 9 (mkHandle 4 0 3).toNat)).setObj 4 ⟨0, 1, 0, 0xFF, .timer 0 0 1 9⟩
     waitMeets s (.wswait e) fun c u => decide (c.act true 0 false ≠ 0) && pass [sDst c 328, sRun c 329] &&
       (u.expireDue.handleFault c (c.handle 329) [4] 0 false).isNone && u.expireDue.firstInLine c .wset (mkHandle 4 0 3) [] &&
       (u.expireDue.readyMember [mkHandle 5 0 4]) == some (0, 9)) = true ∧
    (let h := mkHandle 3 0 3
     let x : Ext := { x0 with u := true, d9 := 328, a9 := 329, b9 := 330 }
     let f (i : Instr) (w : Wave) : Wave := waits i (sreg 10 0x3000 (sreg 9 h.toNat w))
     let s (i : Instr) (ms : List Msg) : State := olab (.port 1 0 0 ms []) (f i)
     (waitMeets (s (.precv x) [msg]) (.precv x) fun c u => ((Claims.kernOf x c (.precv x)).any fun ops => pass ops) &&
        (u.handleFault c h [3, 7] 0 false).isNone && u.port? h == some (1, 0, [msg], []) && msg.grants.isEmpty && u.firstInLine c .recv h [] &&
        ((s (.precv x) [msg]).league.reqs.isEmpty) && (match (Claims.posted c 0 [] u).1 with | .ok _ => true | _ => false) &&
        (let v := (Claims.posted c 0 [] u).2.dropEngReqs c.w.id.handle (c.who.half + 2)
         match (v.storePieces (c.space v) c.w.id.handle (c.who.half + 4) 0 0 (piecesOf 0x3000 (msg.bytes.take 64))).1 with | .ok _ => true | _ => false)) &&
       (waitMeets (s (.psend x) []) (.psend x) fun c u => ((Claims.kernOf x c (.psend x)).any fun ops => pass ops) &&
        (u.handleFault c h [3, 7] 0 true).isNone && (u.rport? h).isNone && (match (Claims.posted c 0 [(0x3000, 64)] u).1 with | .ok _ => true | _ => false) &&
        (let v := (Claims.posted c 0 [(0x3000, 64)] u).2.dropEngReqs c.w.id.handle (c.who.half + 2)
         (v.rport? h).isNone && v.port? h == some (1, 0, [], []) && v.firstInLine c .send h [] && !v.hasReqs c.w.id.handle))) = true := by
  decide +kernel

/-- Tokens for the head waiter; an event, and a signal, for IDLE. -/
theorem witness_AgentsReady :
    (let x : Ext := { x0 with u := true, d9 := 324, a9 := 404, sub := 9 }
     let s := { alab 0 (waits (.pwracq x)) with tokWait := [.agent 0, .agent 1] }
     (waitMeets s (.pwracq x) fun c _ => pass [sDst c 324, uOpOk c none 404] && (c.uVal none 8 404).toNat == 16) &&
       s.agentWait 0 (fun i => match i with | .pwracq _ => true | _ => false) == some ⟨0, 0, 0, 0⟩ && decide (16 ≤ poolSize s.board.watts) && decide (16 ≤ s.poolFree)) = true ∧
    ([[], [(7, 3)]].all fun q =>
      let x : Ext := { x0 with u := true, d9 := 324, a9 := 320, sub := 6 }
      let s := (alab 0 (waits (.idle x))).updCore 0 fun k => { k with latched := 2, sigQ := q }
      (waitMeets s (.idle x) fun c _ => pass [OpOk.when (scalarOk c.w 324 && scalarOk c.w 325 && 324 % 2 == 0 && 324 != 320), sRun c 320] &&
        s.latchedAt 0 (c.sVal 320).toNat != 0) &&
        s.agentWait 0 (fun i => match i with | .idle _ => true | _ => false) == some ⟨0, 0, 0, 0⟩) = true := by decide +kernel

/-- `Claims.OnlyGrower` for the split in slot 1, decided. -/
def growsOnly (u : State) (e : Ext) (f : Instr → Bool) : Bool :=
  let a : Who := ⟨0, 1, 0, 0⟩
  (u.ctx? a).any fun c => c.who == a && c.path.growing f == some e && c.w.halves.all fun h => h.stack.isEmpty && h.innermost.isNone

/-- A request whose split waits in VGROW: the block free, or an older one of that name still draining; the youngest wave of a
core whose waves all wait for a block. -/
theorem witness_GrowsAnswered :
    let g : Ext := { x0 with d9 := 417, mod := 2 }
    let s := (lab (waits (.vgrow g))).updCore 0 fun k => { k with poolQ := [⟨1, 2⟩], pool := 1 }
    (growsOnly (s.updCore 0 fun k => { k with poolQ := [], pool := 0 }) g (waitsBlk 2) && growsOnly (s.updCore 0 fun k => { k with poolQ := [] }) g fun _ => true) = true ∧
    (s.core 0).draining = [] ∧ (⟨1, 2⟩ : Drain) ∈ ((s.updCore 0 fun k => { k with draining := [⟨1, 2⟩] }).core 0).draining ∧
    ((s.core 0).waves.map (·.1)).Nodup := by decide +kernel

/-- A user record whose wave can be saved, and one whose wave stands in a chain. -/
theorem witness_RecordsDelivered :
    ([true, false].all fun ok =>
      let s := if ok then tlab 0x1000 else (tlab 0x1000).updWave 0 1 fun w => { w with chain := some ⟨0, 0, 1, false, []⟩ }
      (s.core 0).trapQ.length == 1 && (s.core 0).trapQ.all fun r => !r.privileged && s.deliverable r == ok) = true := by decide +kernel

/-- An atomic left pending whose data is bad, one of two; a fault buffer in minimal mode; an answered record. -/
theorem witness_MinimalMode :
    (let s := { lab id with boot := { (lab id).boot with min := true } }
     s.boot.min = true) ∧ (lab id).boot.min = false ∧ (flab true 0).rereads 0 5 = [] ∧
    ((flab true 0).cores.all fun x => x.2.waves.all fun y => y.2.due.isEmpty) = true := by decide +kernel

/-- A spent budget whose context has one wave, or one placed block. -/
theorem witness_BudgetOfWavesAndBlocks :
    let h := mkHandle 6 0 3
    let sc : Body := .sctx 9 5 8 8 0 7 9 0 false
    let s := (lab fun w => { w with id := { w.id with sc := h } }).setObj 3 ⟨0, 1, 0, 0xFF, sc⟩
    ((s.createdOn (s.cores.map (·.1))).filter fun x => x.2.2.id.sc == h).map (fun x => (x.1, x.2.1)) = [(0, 1)] ∧ s.host.blocks = [] ∧
    (let t := (llab id).setObj 5 ⟨0, 1, 0, 0xFF, .sctx 9 5 8 8 0 7 9 0 false⟩
     ((t.createdOn (t.cores.map (·.1))).filter fun x => x.2.2.id.sc == mkHandle 6 0 5) = [] ∧
     t.host.blocks.map (fun x => (x.1, x.2.st, t.blockSc x.2, x.2.leaving)) = [(0, .placed, mkHandle 6 0 5, none)]) := by decide +kernel

/-- PASIDDOWN with a queue that holds an unfinished launch of the PASID, and with one that does not. -/
theorem witness_PasiddownQueues :
    ([(1, true), (2, false)].all fun (x, yes) =>
      let p := qp ([1, 0, 0, 0] ++ leBytes 4 (mkHandle 1 0 1).toNat ++ List.replicate 120 0) true
      let s := { ulab true 8 [p] with boot := (mlab 3 [x]).boot }
      isAsked s 3 1 && s.host.queues.length == 1 && s.host.queues.all fun y => (y.2.pkts.any fun k => k.type == 1 && !k.finished &&
        s.ofPasid (BitVec.ofNat 20 x) (BitVec.ofNat 32 (field k.bytes 4 4))) == yes) = true := by decide +kernel

/-- A launch whose answer comes in time, and too late. -/
theorem witness_LateAnswers :
    ([0, 20000000].all fun t => [1, 2].all fun k => let s := { linked (olab' .arriving 0 peers9) with dtime := BitVec.ofNat 64 t }
      let p := setPkt k
      p.dst == s.peer && s.linkOk p && s.host.launches.length == 1 && (s.launch? 0).any fun l => l.st == .arriving && l.key == 9 &&
        decide (l.since + 20000000 ≤ s.now) == (t != 0)) = true := by decide +kernel

/-- A held message of a wave that is to be saved, and of one that is not. -/
theorem witness_UnwantedMessages :
    ([true, false].all fun halted =>
      let r := { req 0x0B false none with pkt := { Packet.plain 0x0B 0 1 7 with tag := 7 } }
      let s := nlab [r]
      let s := s.updWave 0 1 fun w => { w with stopping := halted }
      s.unwanted r == halted && !r.pkt.ext.getLsbD 33 && r.pkt.type == 0x0B) = true := by decide +kernel

/-- A DONE for a participant whose command has fired, and one that comes before. -/
theorem witness_DonesHeard :
    (let k : Coll := ⟨[(0, 9)], 5, [], [], [], [], [], false⟩
     slab.league.colls = [k] ∧ slab.collOf' 5 (slab.ticketOf shufCmd) k = true ∧ 1 ∉ k.doneFrom) ∧
    (linked (blab id)).league.colls = [] ∧ (linked (blab id)).league.dones = [] := by decide +kernel

/-- Shuffle participants that disagree. -/
theorem witness_ShuffleDisagrees :
    (let x := { shufCmd with st := .landed }
     let y := { x with id := 10, ins := .coll { x0 with u := true, sub := 4, mod := 0x40 } }
     let s := (cplab x).updCore 0 fun k => { k with copyq := [x, y] }
     (s.copyCmd 0 9 == some x && decide (2 < x.collOp) && s.collLanded x && s.collDiffers x)) = true := by decide +kernel

/-- An instruction of each family that can be encoded. -/
theorem witness_EncodeDecodeRoundTrip : ([Instr.fence { x0 with mod := 5 }, .ldReg ⟨false, 2, 0, 4, 8⟩].all fun i => i.encodable) = true := by
  decide +kernel

end Sys2Proof.Tests
end

-- ==== Window table reads and writes; the refutation of O59 ====
section
/-!
What a read of BAR0 shows of a window entry, and what a write leaves to read (R274, R276). Claims.SystemEvents says the
latter of every state; it holds where the window table is in canonical form, and fails where an entry is listed twice.
-/

namespace Sys2Proof.Machine

/-- A read in the window table shows the word of the entry that the table gives at its index (R274, R290). -/
theorem State.readBar_window (s : State) {i w : Nat} (hi : i < 256) (hw : w < 4) :
    s.readBar 0 (0x20000 + 32 * i + 8 * w) = (winShown (Sparse.get 0 s.league.windows i)).extractLsb' (64 * w) 64 := by
  have hentry : (0x20000 + 32 * i + 8 * w - 0x20000) / 32 = i := by omega
  have hword : (0x20000 + 32 * i + 8 * w - 0x20000) / 8 % 4 = w := by omega
  unfold State.readBar
  rw [if_neg (by simp; omega), if_neg (by simp), if_neg (by omega), if_neg (by omega), if_neg (by simp; omega),
    if_neg (by omega), if_neg (by simp; omega), if_pos (by simp; omega), hentry, hword]

/-- Each word of an entry is shown under the mask of its fields, RES bits zero (R9, R274). -/
theorem extractLsb'_winShown (x : BitVec 256) {w : Nat} (hw : w < 4) :
    (winShown x).extractLsb' (64 * w) 64 = x.extractLsb' (64 * w) 64 &&&
      [0xF80000FFFFE00000, 0x000FFFFFFFE00000, 0x000000FFFFFFFFFF, 0x000000000007FFFF].getD w 0 := by
  unfold winShown
  rw [BitVec.extractLsb'_and]
  congr 1
  interval_cases w <;> rfl

/-- A number with its word `w` replaced holds the new word there. -/
theorem elem_replaced (old w : Nat) {v : Nat} (hv : v < 2 ^ 64) :
    elem 64 w (old - elem 64 w old * 2 ^ (64 * w) + v * 2 ^ (64 * w)) = v := by
  have hp : 0 < 2 ^ (64 * w) := by positivity
  unfold elem
  rw [Nat.add_mul_div_right _ _ hp, Nat.mul_comm (old / _ % _), Nat.sub_mul_div]
  omega

/-- A word of an entry is that of the number it is made from. -/
theorem toNat_extractLsb'_ofNat (x : Nat) {w : Nat} (hw : w < 4) :
    ((BitVec.ofNat 256 x).extractLsb' (64 * w) 64).toNat = elem 64 w x := by
  rw [BitVec.extractLsb'_toNat, BitVec.toNat_ofNat, Nat.shiftRight_eq_div_pow, elem]
  interval_cases w <;> omega

/-- A write of an entry keeps the window table in canonical form. -/
theorem State.windowWrite_wf {s : State} (hs : Sparse.wf 0 s.league.windows = true) (i w : Nat) (v : BitVec 64) :
    Sparse.wf 0 (s.windowWrite i w v).league.windows = true := by
  unfold State.windowWrite
  split
  · exact Sparse.wf_set hs _ _
  · exact hs

/-- In a window table in canonical form a word written reads back with its RES bits zero (R274): the read-back clause of
Claims.SystemEvents with the hypothesis that it lacks. -/
theorem State.readBar_windowWrite {s : State} (hs : Sparse.wf 0 s.league.windows = true) {i w : Nat} (hi : i < 256) (hw : w < 4)
    (v : BitVec 64) : (s.windowWrite i w v).readBar 0 (0x20000 + 32 * i + 8 * w) =
      v &&& [0xF80000FFFFE00000, 0x000FFFFFFFE00000, 0x000000FFFFFFFFFF, 0x000000000007FFFF].getD w 0 := by
  rw [State.readBar_window _ hi hw, extractLsb'_winShown _ hw]
  congr 1
  have hwritten : (decide (i < 256) && decide (w < 4)) = true := by simp [hi, hw]
  rw [State.windowWrite, if_pos hwritten]
  simp only [Sparse.get_set hs, if_true]
  refine BitVec.eq_of_toNat_eq ?_
  rw [toNat_extractLsb'_ofNat _ hw, elem_replaced _ _ v.isLt]

/-- The hypothesis of `State.readBar_windowWrite` holds after reset and a first write. -/
theorem windowWrite_reset_wf : Sparse.wf 0 (State.reset.windowWrite 0 0 0x8000000000000000).league.windows = true :=
  State.windowWrite_wf (by decide) 0 0 _

/-- Refutes O59: the read-back clause of Claims.SystemEvents speaks of every state, also of one whose window table is not in
canonical form. Where entry 0 stands there twice with V set, a write of zeros to its word 0 strikes one of the two and the other
is read back, V still set. The writes of the model leave no such table (`State.windowWrite_wf`), and without one the clause holds
(`State.readBar_windowWrite`). -/
theorem not_hostAndBootEvents : ¬ Obligations.HostAndBootEvents := by
  rintro ⟨-, -, -, -, -, -, -, -, -, hwindow⟩
  have hread := ((hwindow { State.reset with league := { State.reset.league with windows := [(0, 1 <<< 63), (0, 1 <<< 63)] } }
    0 0 0).2.2 (by decide) (by decide)).1
  rw [State.readBar_window _ (by decide) (by decide)] at hread
  exact absurd hread (by decide)

end Sys2Proof.Machine
end

-- ==== The state after reset; O55 ====
section
/-!
What is found after power-on reset: no core, queue, object or window entry is listed, so each of them reads as its
reset value (R250, R291, R222, R274), and so do the registers that show them.
-/

namespace Sys2Proof.Machine

/-- Every core of the package stands as after reset (R250). -/
@[simp] theorem State.core_reset (c : Nat) : State.reset.core c = Core.reset := rfl

/-- Every queue of every function stands as after reset (R291). -/
@[simp] theorem State.queue_reset (fn q : Nat) : State.reset.queue fn q = Queue.reset := rfl

/-- A handle whose index has no entry in the object table names nothing (R222). -/
theorem State.named_eq_none {s : State} {h : BitVec 32} (hfree : s.obj? (hIndex h) = none) : s.named h = none := by
  simp [State.named, hfree]

/-- KTCODE reads 0 while the trap queue is empty (R254). -/
theorem State.ctlReg_ktcode_of_empty {s : State} {c : Nat} (hempty : (s.core c).trapQ = []) : s.ctlReg c 4 = 0 := by
  simp [State.ctlReg, hempty]

/-- Every register of a queue that stands as after reset reads 0 (R291). -/
theorem State.readBar_queue_reset {s : State} {fn off : Nat} (hlo : 0x30000 ≤ off) (hhi : off < 0x31000)
    (hq : s.queue fn ((off - 0x30000) / 64) = Queue.reset) : s.readBar fn off = 0 := by
  unfold State.readBar
  rw [if_pos (by simp; omega), hq]
  split <;> rfl

/-- An entry of the window table that is 0 reads 0 at every offset in it (R274). -/
theorem State.readBar_window_zero {s : State} {off : Nat} (hlo : 0x20000 ≤ off) (hhi : off < 0x22000)
    (hw : Sparse.get 0 s.league.windows ((off - 0x20000) / 32) = 0) : s.readBar 0 off = 0 := by
  unfold State.readBar
  rw [if_neg (by simp; omega), if_neg (by simp), if_neg (by omega), if_neg (by omega), if_neg (by simp; omega),
    if_neg (by omega), if_neg (by simp; omega), if_pos (by simp; omega), hw]
  simp [winShown]

/-- Settles O55: every table of the reset state is empty, so each entry reads as its default, and the registers over the
tables read as the lemmas above say of such an entry. -/
theorem resetState : Obligations.ResetState := by
  unfold Obligations.ResetState
  refine ⟨State.reset_memOk, rfl, rfl, rfl, fun _ => rfl, fun k => ?keyHeld, fun _ => State.named_eq_none rfl, fun c => ?core,
    fun _ _ hlo hhi => State.readBar_queue_reset hlo hhi (State.queue_reset _ _),
    fun _ hlo hhi => State.readBar_window_zero hlo hhi rfl, fun p hp => ?ports⟩
  case keyHeld => simp [State.reset]
  case core =>
    rw [State.core_reset]
    exact ⟨rfl, rfl, rfl, rfl, rfl, rfl, rfl, rfl, rfl, State.ctlReg_ktcode_of_empty rfl⟩
  case ports => rw [List.eq_of_mem_replicate hp]

end Sys2Proof.Machine
end

-- ==== Paths, merges and back edges; O14, O16, O17, O19 ====
section
/-!
What a split's paths, its divergence stack and its loop levels are after the shared operations of Machine/Ops.lean and
Machine/Issue.lean: the laws over which the statements of control flow are settled (R27 to R30, R160 to R170, R358).
-/

namespace Sys2Proof

variable {α : Type}

/-- A list with one place changed, read at any place. -/
theorem updAt_getElem? (f : α → α) (n m : Nat) (l : List α) :
    (updAt f n l)[m]? = if m = n then l[m]?.map f else l[m]? := by
  induction l generalizing n m with
  | nil => simp [updAt]
  | cons a as ih => cases n <;> cases m <;> simp [updAt, ih]

@[simp] theorem updAt_getElem?_self (f : α → α) (n : Nat) (l : List α) : (updAt f n l)[n]? = l[n]?.map f := by
  simp [updAt_getElem?]

/-- A place set to what it holds leaves the list. -/
theorem updAt_eq_self {f : α → α} {n : Nat} {l : List α} (h : ∀ a, l[n]? = some a → f a = a) : updAt f n l = l := by
  refine List.ext_getElem? fun m => ?_
  rw [updAt_getElem?]
  split
  · next hm => subst hm; cases ha : l[m]? <;> simp_all
  · rfl

end Sys2Proof

namespace Sys2Proof.Machine

/-! ### Waves and halves -/

@[simp] theorem Wave.updHalf_halves (w : Wave) (n : Nat) (f : Half → Half) : (w.updHalf n f).halves = updAt f n w.halves := rfl

/-- A half put back as it is leaves the wave. -/
theorem Wave.updHalf_eq_self {w : Wave} {n : Nat} {h : Half} (hh : w.halves[n]? = some h) : (w.updHalf n fun _ => h) = w := by
  rw [Wave.updHalf, updAt_eq_self fun a ha => by simpa [hh] using ha]

/-- At depth 0 the one path is the base split (R27). -/
theorem Half.updPath_of_noStack {h : Half} (hs : h.stack = []) (f : Path → Path) :
    h.updPath 0 f = { h with base := f h.base } := by
  simp [Half.updPath, hs]

/-- A path changed leaves the half's loop levels. -/
theorem Half.updPath_levels (h : Half) (k : Nat) (f : Path → Path) : (h.updPath k f).levels = h.levels := by
  unfold Half.updPath
  repeat' split
  all_goals rfl

/-- A core changed but for its waves leaves every wave. -/
theorem State.wave?_updCore (s : State) (c : Nat) {f : Core → Core} (hf : ∀ k, (f k).waves = k.waves) (d j : Nat) :
    (s.updCore c f).wave? d j = s.wave? d j := by
  by_cases hd : d = c
  · subst hd; simp [State.wave?, hf]
  · simp [State.wave?, State.core_updCore_ne s hd]

/-! ### Loop levels -/

/-- With no level active none is innermost. -/
theorem Half.innermost_eq_none {h : Half} (hl : ∀ l ∈ h.levels, l = none) : h.innermost = none := by
  have hnone (n : Nat) : (h.levels[n]?).join = none := by
    cases hn : h.levels[n]? with
    | none => rfl
    | some l => exact hl l (List.mem_of_getElem? hn)
  simp [Half.innermost, hnone]

/-- The innermost level stands at its number, one of four (R164). -/
theorem Half.level_of_innermost {h : Half} {n : Nat} {l : Level} (hi : h.innermost = some (n, l)) :
    n < 4 ∧ h.levels[n]? = some (some l) := by
  have hmem := List.mem_of_getLast? hi
  simp only [List.mem_filterMap, List.mem_range, Option.map_eq_some_iff, Prod.mk.injEq] at hmem
  obtain ⟨m, hm, l', hlvl, rfl, rfl⟩ := hmem
  exact ⟨hm, by simpa [Option.join_eq_some_iff] using hlvl⟩

/-- A back edge falls through where no level is active. -/
theorem Wave.backEdge_of_noLevel {w : Wave} {half : Nat} {h : Half} (hh : w.halves[half]? = some h) (hi : h.innermost = none)
    (fuel path : Nat) (pc nxt : Dword) : w.backEdge fuel half path pc nxt = some (w, nxt) := by
  cases fuel <;> simp [Wave.backEdge, hh, hi]

/-- The back edge while iterations remain (R165): one fewer, and with rotation the register base turned. -/
theorem Wave.backEdge_again {w : Wave} {half n : Nat} {h : Half} {l : Level} (hh : w.halves[half]? = some h) (hs : h.stack = [])
    (hi : h.innermost = some (n, l)) (hrem : 1 < l.remaining) (fuel path : Nat) (nxt : Dword) :
    ∃ w' h', w.backEdge (fuel + 1) half path l.stop nxt = some (w', l.start) ∧ w'.rrb = (if l.rot then w.rrb - 1 else w.rrb) ∧
      w'.regs = w.regs ∧ w'.halves[half]? = some h' ∧
      h'.levels = updAt (fun _ => some { l with index := l.index + 1, remaining := l.remaining - 1 }) n h.levels := by
  have hpos : l.remaining - 1 > 0 := by omega
  simp only [Wave.backEdge, hh, hi]
  rw [if_neg (by simp), if_pos hpos, if_neg (by simp [hs])]
  refine ⟨_, _, rfl, rfl, rfl, by simp [Wave.updPath, hh]; rfl, ?_⟩
  rw [Half.updPath_levels]

/-- The end of a level without a stack (R166): its record is freed. -/
theorem Wave.endLevel_of_noStack {w : Wave} {half n : Nat} {h : Half} (hh : w.halves[half]? = some h) (hs : h.stack = [])
    (path : Nat) : ∃ h', (w.endLevel half path n).halves[half]? = some h' ∧ h'.stack = [] ∧
      h'.levels = updAt (fun _ => none) n h.levels := by
  simp [Wave.endLevel, hh, hs]

/-- After the last iteration the level ends, and the back edges of the levels around it are looked at (R165). -/
theorem Wave.backEdge_last {w : Wave} {half path n : Nat} {h : Half} {l : Level} (hh : w.halves[half]? = some h)
    (hi : h.innermost = some (n, l)) (hrem : l.remaining ≤ 1) (fuel : Nat) (nxt : Dword) :
    w.backEdge (fuel + 1) half path l.stop nxt = (w.endLevel half path n).backEdge fuel half path l.stop nxt := by
  have hzero : ¬ l.remaining - 1 > 0 := by omega
  simp [Wave.backEdge, hh, hi, hzero]

/-! ### Merges -/

/-- With an empty stack there is nothing to settle. -/
theorem Half.settle_of_noStack {h : Half} (hs : h.stack = []) (fuel : Nat) : h.settle fuel = (h, none) := by
  cases fuel <;> simp [Half.settle, hs]

theorem Wave.settle_of_noStack {w : Wave} {half : Nat} {h : Half} (hh : w.halves[half]? = some h) (hs : h.stack = [])
    (fuel : Nat) : w.settle fuel half = w := by
  cases fuel <;> simp [Wave.settle, hh, Half.settle_of_noStack hs, Wave.updHalf_eq_self hh]

/-- Nothing merges at depth 0. -/
theorem State.merge_of_noStack {s : State} {a : Who} {w : Wave} {h : Half} (hw : s.wave? a.core a.slot = some w)
    (hh : w.halves[a.half]? = some h) (hs : h.stack = []) (fuel : Nat) : s.merge fuel a = s := by
  cases fuel with
  | zero => rfl
  | succ fuel =>
    obtain ⟨base, ended, stack, lv, rg, sn, rr⟩ := h
    cases hs
    simp [State.merge, hw, Wave.settle_of_noStack hh rfl, hh]

/-! ### The end of an instruction at depth 0 -/

/-- A register put back leaves the wave's halves and exceptions (R97). -/
theorem Wave.putBack_frame (w : Wave) (r : OldReg) : (w.putBack r).halves = w.halves ∧ (w.putBack r).traps = w.traps := by
  unfold Wave.putBack
  split <;> exact ⟨rfl, rfl⟩

theorem overwrite_frame (late : Bool) (n : Nat) (g : Regs) (w : Wave) (r : OldReg) (qs : List OldReg) :
    (overwrite late n g w r qs).2.2.halves = w.halves ∧ (overwrite late n g w r qs).2.2.traps = w.traps := by
  simp only [overwrite]
  split
  · split
    · exact w.putBack_frame _
    · exact ⟨rfl, rfl⟩
  · exact ⟨rfl, rfl⟩

theorem overtake_frame (lat : Option Nat) (g : Regs) (r : OldReg) (ps : List Pend) (w : Wave) (s : State) :
    (overtake lat g r ps w s).2.2.1.halves = w.halves ∧ (overtake lat g r ps w s).2.2.1.traps = w.traps := by
  induction ps generalizing w s with
  | nil => exact ⟨rfl, rfl⟩
  | cons p ps ih =>
    simp only [overtake]
    split
    · exact ih w s
    · obtain ⟨hhalves, htraps⟩ := ih _ _
      exact ⟨hhalves.trans (overwrite_frame _ _ _ _ _ _).1, htraps.trans (overwrite_frame _ _ _ _ _ _).2⟩

/-- The bookkeeping of outstanding writes leaves the halves and the exceptions of the issuing wave (R97). -/
theorem State.track_frame {s : State} {c : Ctx} {w : Wave} (hw : s.wave? c.who.core c.who.slot = some w) (i : Instr)
    (e : Option Ext) (old : Regs) :
    ∃ w', (s.track c i e old).wave? c.who.core c.who.slot = some w' ∧ w'.halves = w.halves ∧ w'.traps = w.traps := by
  cases e with
  | none =>
    simp only [State.track, hw, State.wave?_setWave]
    exact ⟨_, rfl, rfl, rfl⟩
  | some e =>
    simp only [State.track, hw, State.wave?_setWave]
    refine ⟨_, rfl, ?_⟩
    refine List.foldlRecOn (motive := fun x : List Pend × List OldReg × Wave × State =>
        x.2.2.1.halves = w.halves ∧ x.2.2.1.traps = w.traps)
      _ _ ⟨rfl, rfl⟩ fun x ⟨hhalves, htraps⟩ r _ => ?_
    have hframe := overtake_frame (latency i) w.regs r x.1 x.2.2.1 x.2.2.2
    exact ⟨hframe.1.trans hhalves, hframe.2.trans htraps⟩

/-- An instruction that falls through, with no region to close, moves its split where its back edges lead, and merges. -/
theorem finish_of_backEdge {i : Instr} {e : Option Ext} {c : Ctx} {s : State} {w v : Wave} {pc : Dword}
    (hw : s.wave? c.who.core c.who.slot = some w)
    (hback : Wave.backEdge 4 { w with chain := if (e.map (·.ch)).getD false then w.chain else none, lastIssue := s.now } c.who.half
      c.who.path c.path.pc (nextPc c i) = some (v, pc)) :
    ∃ t : State, finish i e c s true false = (t.setWave c.who.core c.who.slot
      (v.updPath c.who.half c.who.path fun p => { p with pc := pc, wait := .ready, prog := none })).merge 70 c.who := by
  have hcore (t : State) (x : Nat) : (t.updCore c.who.core fun k => { k with lastIssue := x }).wave? c.who.core c.who.slot =
      t.wave? c.who.core c.who.slot := t.wave?_updCore _ (by intro; rfl) _ _
  simp only [finish, Bool.false_and, Bool.false_eq_true, if_false, Bool.not_true, hcore, State.wave?_updWave, hw, Option.map_some,
    hback]
  exact ⟨_, rfl⟩

/-- An instruction that falls through at depth 0, outside every loop level, leaves its split ready behind it (R27, R81). -/
theorem finish_of_noStack {i : Instr} {e : Option Ext} {c : Ctx} {s : State} {w : Wave} {h : Half}
    (hw : s.wave? c.who.core c.who.slot = some w) (hh : w.halves[c.who.half]? = some h) (hs : h.stack = [])
    (hl : ∀ l ∈ h.levels, l = none) (hp : c.who.path = 0) :
    ∃ w', (finish i e c s true false).wave? c.who.core c.who.slot = some w' ∧ w'.traps = w.traps ∧
      w'.halves[c.who.half]? = some { h with base := { h.base with pc := nextPc c i, wait := .ready, prog := none } } := by
  obtain ⟨t, ht⟩ := finish_of_backEdge hw (Wave.backEdge_of_noLevel (by exact hh) (Half.innermost_eq_none hl) _ _ _ _)
  have hnew (v : Wave) (hv : v.halves = w.halves) (f : Path → Path) :
      (v.updPath c.who.half c.who.path f).halves[c.who.half]? = some { h with base := f h.base } := by
    simp [Wave.updPath, hv, hh, hp, Half.updPath_of_noStack hs]
  rw [ht, State.merge_of_noStack (State.wave?_setWave _ _ _ _) (hnew _ (by rfl) _) hs]
  exact ⟨_, State.wave?_setWave _ _ _ _, rfl, hnew _ (by rfl) _⟩

/-- Settles O14. Depth 0: the bookkeeping of `ended` leaves the halves, and `finish` then only moves the base split. The back edge
is `Wave.backEdge_again` and `Wave.backEdge_last`, after which no level is left to be innermost. -/
theorem fallThroughAndBackEdge : Obligations.FallThroughAndBackEdge := by
  refine ⟨?depthZero, ?backEdge⟩
  case depthZero =>
    intro i e c s u w hw hh hs hl hp ht
    have htracked : ∃ w', (if s.scheduled c then u.track c i e c.w.regs else u).wave? c.who.core c.who.slot = some w' ∧
        w'.halves = w.halves ∧ w'.traps = w.traps := by
      split
      · exact State.track_frame hw i e _
      · exact ⟨w, hw, rfl, rfl⟩
    obtain ⟨w', hw', hhalves, htraps⟩ := htracked
    obtain ⟨x, hx, hxtraps, hxhalf⟩ := finish_of_noStack (i := i) (e := e) hw' (hhalves ▸ hh) hs hl hp
    exact ⟨x, _, hx, hxtraps.trans (htraps.trans ht), hxhalf, hs, rfl⟩
  case backEdge =>
    intro w half path h n l nxt hh hlen hs hi
    obtain ⟨hn, hlvl⟩ := Half.level_of_innermost hi
    refine ⟨fun hrem => ?again, fun hrem honly => ?last⟩
    case again =>
      obtain ⟨w', h', hback, hrrb, hregs, hhalf, hlevels⟩ := Wave.backEdge_again hh hs hi hrem 3 path nxt
      exact ⟨w', h', hback, hrrb, hregs, hhalf, by simp [hlevels, hlvl]⟩
    case last =>
      obtain ⟨h', hhalf, -, hlevels⟩ := Wave.endLevel_of_noStack (n := n) hh hs path
      have hnone : h'.innermost = none := by
        refine Half.innermost_eq_none fun x hx => ?_
        obtain ⟨k, hk⟩ := List.mem_iff_getElem?.mp hx
        rw [hlevels, updAt_getElem?] at hk
        cases x with
        | none => rfl
        | some x =>
          split at hk
          · simp_all
          · next hne => exact absurd (honly k x hk) hne
      refine ⟨w.endLevel half path n, h', ?_, rfl, rfl, hhalf, by simp [hlevels, hlvl]⟩
      rw [Wave.backEdge_last hh hi hrem, Wave.backEdge_of_noLevel hhalf hnone]

/-! ### Paths of an entry -/

/-- Whether a path of an entry runs: it has not arrived, is not stalled, no LOOP holds it, and where one runs at a time it is the
first that could (R28). -/
theorem runPaths_running {serial : Bool} {st : Path → Bool} {ps : List Path} {k : Nat} {p q : Path} (hq : ps[k]? = some q)
    (hp : (runPaths serial st ps)[k]? = some p) : p = { q with running := !q.arrived && !st q && q.held == 0 &&
      (!serial || (ps.findIdx? fun r => !r.arrived && !st r) == some k) } := by
  simpa [runPaths, List.getElem?_zipIdx, hq, eq_comm] using hp

/-- A path is the first that can run where it has not arrived and is not stalled, and every earlier one has or is. -/
theorem firstPath_iff {st : Path → Bool} {ps : List Path} {k : Nat} {q : Path} (hq : ps[k]? = some q) :
    (ps.findIdx? fun r => !r.arrived && !st r) = some k ↔ q.arrived = false ∧ st q = false ∧
      ∀ j r, j < k → ps[j]? = some r → r.arrived = true ∨ st r = true := by
  obtain ⟨hk, rfl⟩ := List.getElem?_eq_some_iff.mp hq
  rw [List.findIdx?_eq_some_iff_getElem]
  constructor
  · rintro ⟨_, hfree, hbefore⟩
    simp only [Bool.and_eq_true, Bool.not_eq_true'] at hfree
    refine ⟨hfree.1, hfree.2, fun j r hj hr => ?_⟩
    obtain ⟨-, rfl⟩ := List.getElem?_eq_some_iff.mp hr
    have hblocked := hbefore j hj
    simp only [Bool.and_eq_true, Bool.not_eq_true', not_and, Bool.not_eq_false] at hblocked
    cases harr : ps[j].arrived with
    | true => exact .inl rfl
    | false => exact .inr (hblocked harr)
  · rintro ⟨harr, hst, hbefore⟩
    refine ⟨hk, by simp [harr, hst], fun j hj => ?_⟩
    rcases hbefore j _ hj (List.getElem?_eq_getElem (hj.trans hk)) with h | h <;> simp [h]

/-- Paths that start: all run where they run together, the first one where they run one at a time (R28). -/
theorem runPaths_starting (serial : Bool) {ps : List Path} (hnew : ∀ p ∈ ps, p.arrived = false ∧ p.held = 0) :
    runPaths serial (fun _ => false) ps = ps.zipIdx.map fun x => { x.1 with running := !serial || x.2 == 0 } := by
  refine List.ext_getElem? fun k => ?_
  cases hq : ps[k]? with
  | none => simp [runPaths, List.getElem?_zipIdx, hq]
  | some q =>
    have hfirst : ps.findIdx? (fun r => !r.arrived) = some 0 := by
      cases ps with
      | nil => simp at hq
      | cons p ps => simp [List.findIdx?_cons, (hnew p (by simp)).1]
    obtain ⟨harr, hheld⟩ := hnew q (List.mem_of_getElem? hq)
    simp [runPaths, List.getElem?_zipIdx, hq, hfirst, harr, hheld, BEq.comm (a := 0)]

/-- The lanes of paths that merge. -/
theorem Entry.mask_getLsbD (e : Entry) (l : Nat) : e.mask.getLsbD l = e.paths.any fun p => p.mask.getLsbD l := by
  have hfold (ps : List Path) (m : Mask) : (ps.foldl (fun m p => m ||| p.mask) m).getLsbD l =
      (m.getLsbD l || ps.any fun p => p.mask.getLsbD l) := by
    induction ps generalizing m with
    | nil => simp
    | cons p ps ih => simp [ih, Bool.or_assoc]
  simp [Entry.mask, hfold]

/-- An entry whose paths are all at its join in the iterations it recorded: each has arrived (R28). -/
theorem Entry.arrive_of_atJoin {e : Entry} (hat : ∀ p ∈ e.paths, p.running = true ∧ p.arrived = false ∧ p.pc = e.join ∧
    p.wait = .ready ∧ p.mask ≠ 0 ∧ p.iters = e.iters) :
    e.arrive = { e with paths := e.paths.map fun p => { p with arrived := true, running := false } } := by
  unfold Entry.arrive
  congr 1
  refine List.map_congr_left fun p hp => ?_
  obtain ⟨hrun, -, hpc, hwait, -, hiters⟩ := hat p hp
  simp [hrun, hpc, hwait, hiters]

/-- The bottom entry gives way once all its paths have arrived and none is pending (R28). -/
theorem Half.settle_of_arrived {h : Half} {e : Entry} (hs : h.stack = [e]) (harr : ∀ p ∈ e.arrive.paths, p.arrived = true)
    (hpend : e.pending = 0) (fuel : Nat) :
    (h.settle (fuel + 1)).1 = { h with
      stack := [], base := { h.base with pc := e.join, mask := e.arrive.mask, running := true, wait := .ready, prog := none } } := by
  have hall : e.arrive.paths.all (·.arrived) = true := by simpa using harr
  have hgone : e.arrive.pending = 0 := hpend
  simp only [Half.settle, hs, hall, hgone, Half.pop]
  split
  · split
    · rfl
    · rw [Half.settle_of_noStack rfl]; rfl
  · simp_all

/-- Settles O17: which path runs is `runPaths_running` with `firstPath_iff`; an entry whose paths are all at its join gives way by
`Half.settle_of_arrived`. -/
theorem pathsRunAndMerge : Obligations.PathsRunAndMerge := by
  refine ⟨?oneAtATime, ?merge⟩
  case oneAtATime =>
    intro st ps k p q hheld hq hp
    rw [runPaths_running hq hp, ← firstPath_iff hq]
    have hq0 : q.held = 0 := hheld q (List.mem_of_getElem? hq)
    refine ⟨fun hrun => ?_, fun hfirst => ?_⟩
    · simp only [Bool.and_eq_true, Bool.not_true, Bool.false_or, beq_iff_eq] at hrun
      exact hrun.2
    · obtain ⟨harr, hst, -⟩ := (firstPath_iff hq).mp hfirst
      simp [harr, hst, hq0, hfirst]
  case merge =>
    intro h e hs hpend hne hat
    have harr : ∀ p ∈ e.arrive.paths, p.arrived = true := by
      rw [Entry.arrive_of_atJoin hat]; simp
    rw [Half.settle_of_arrived hs harr hpend 99]
    refine ⟨rfl, rfl, rfl, fun l => ?_⟩
    rw [Entry.mask_getLsbD, Entry.arrive_of_atJoin hat]
    simp [List.any_map, Function.comp_def]

/-! ### Branches that divide -/

/-- A split divides below the depth limit: one entry, whose paths all run at depth 0, and otherwise the first one alone (R28). -/
theorem divide_of_lt {c : Ctx} (s : State) (join : Nat) (jmpi : Option Dword) (paths : List (Nat × Mask)) (pending : Mask)
    (hd : c.half.stack.length < c.maxDepth) : divide c s join jmpi paths pending =
      .jump (s.updWave c.who.core c.who.slot fun w => w.updHalf c.who.half fun h => h.push c.who.path
        { join := BitVec.ofNat 64 join, jmpi := jmpi, pending := pending, iters := c.path.iters, parent := c.who.path
          paths := paths.zipIdx.map fun x => Path.at' c.path.iters x.1.1 x.1.2 (c.half.stack.isEmpty || x.2 == 0) }) := by
  have hnew : ∀ p ∈ paths.map fun x => Path.at' c.path.iters x.1 x.2 true, p.arrived = false ∧ p.held = 0 := by
    rintro p hp
    obtain ⟨x, -, rfl⟩ := List.mem_map.mp hp
    exact ⟨rfl, rfl⟩
  rw [divide, if_neg (by omega)]
  simp only [runPaths_starting _ hnew, List.zipIdx_map, List.map_map, Bool.not_not]
  rfl

/-- A split that would divide at the depth limit raises (R30, R33). -/
theorem divide_of_le {c : Ctx} (s : State) (join : Nat) (jmpi : Option Dword) (paths : List (Nat × Mask)) (pending : Mask)
    (hd : c.maxDepth ≤ c.half.stack.length) : divide c s join jmpi paths pending = .raise s Exc.divstackOverflow 0 := by
  rw [divide, if_pos hd]

/-- A transfer whose targets pass goes on. -/
theorem transfer_of_ok {c : Ctx} {s u : State} {ts : List Nat} (k : State → Res)
    (hok : s.checkTargets (c.space s) c.w.id.codeBase ts = (.ok, u)) : transfer c s ts k = k u := by
  simp [transfer, transferIn, hok]

theorem mem_insertAsc {x y : Nat} : ∀ {xs : List Nat}, x ∈ insertAsc y xs ↔ x = y ∨ x ∈ xs
  | [] => by simp [insertAsc]
  | z :: zs => by
    simp only [insertAsc]
    split
    · simp
    · split
      · next h => simp [h]
      · simp [mem_insertAsc, or_left_comm]

theorem insertAsc_pairwise (y : Nat) : ∀ {xs : List Nat}, xs.Pairwise (· < ·) → (insertAsc y xs).Pairwise (· < ·)
  | [], _ => by simp [insertAsc]
  | z :: zs, h => by
    obtain ⟨hz, hzs⟩ := List.pairwise_cons.mp h
    simp only [insertAsc]
    split
    · next hlt => exact List.pairwise_cons.mpr ⟨by simpa [hlt] using fun a ha => hlt.trans (hz a ha), h⟩
    · split
      · exact h
      · refine List.pairwise_cons.mpr ⟨fun a ha => ?_, insertAsc_pairwise y hzs⟩
        rcases mem_insertAsc.mp ha with rfl | ha
        · omega
        · exact hz a ha

/-- The targets of JMPI: the ascending list of the lanes' targets, each once (R160). -/
theorem targets_eq {t : Nat → Nat} {ls ts : List Nat} (hsorted : ts.Pairwise (· < ·))
    (hmem : ∀ y, y ∈ ts ↔ y ∈ ls.map t) :
    ls.foldr (fun l => insertAsc (t l)) [] = ts := by
  have hpair : ∀ ls : List Nat, (ls.foldr (fun l => insertAsc (t l)) []).Pairwise (· < ·) := fun ls => by
    induction ls with
    | nil => simp
    | cons l ls ih => exact insertAsc_pairwise _ ih
  have hin : ∀ (ls : List Nat) (y : Nat), y ∈ ls.foldr (fun l => insertAsc (t l)) [] ↔ y ∈ ls.map t := fun ls y => by
    induction ls with
    | nil => simp
    | cons l ls ih => rw [List.foldr_cons, mem_insertAsc, ih, List.map_cons, List.mem_cons]
  exact (hpair ls).eq_of_mem_iff hsorted fun y => (hin ls y).trans (hmem y).symm

/-- BRC behind its checks (R160, R332). -/
theorem brcBody_of_ok {e : Ext} {s u : State} {c : Ctx} {t j : Int} (ht : t = asInt 32 ((e.lit.getD 0).toNat % 2 ^ 32))
    (hj : j = asInt 32 ((e.lit.getD 0).toNat / 2 ^ 32))
    (hops : checkOps [predOk e.a9.toNat, OpOk.when (decide (1 ≤ t) && decide (t ≤ j))] = none)
    (hok : s.checkTargets (c.space s) c.w.id.codeBase [c.disp t, (nextPc c (.brc e)).toNat] = (.ok, u)) :
    brcBody e c s =
      let taken := c.active 0 false &&& c.pred e.a9.toNat (e.m 0 1 == 1)
      let rest := c.path.mask &&& ~~~taken
      if e.m 1 1 = 1 && !c.half.stack.isEmpty then .raise u Exc.invalidOperand 0
      else if taken = 0 then .next u
      else if rest = 0 then .jump (u.setPc c (c.disp t))
      else divide c u (c.disp j) none [(c.disp t, taken), ((nextPc c (.brc e)).toNat, rest)] 0 := by
  subst ht hj
  rw [brcBody, withOps_ok hops, transfer_of_ok _ hok]

/-- The empty mask has no lane. -/
theorem lanesOf_zero : lanesOf 0 = [] := by decide

/-- JMPI with no Active lane falls through. -/
theorem jmpiBody_of_noLane {e : Ext} {s : State} {c : Ctx}
    (hops : checkOps [vRun c.w e.a9.toNat 2 2 (fun _ => true), OpOk.when (decide (0 < asInt 64 (e.lit.getD 0).toNat))] = none)
    (hact : c.active 0 false = 0) : jmpiBody e c s = .next s := by
  rw [jmpiBody, withOps_ok hops]
  simp only [hact, lanesOf_zero, List.foldr_nil, List.isEmpty_nil, if_true]

/-- JMPI behind its checks, its lanes' targets ascending (R160, R375). -/
theorem jmpiBody_of_ok {e : Ext} {s u : State} {c : Ctx} {x : Nat} {xs : List Nat}
    (hops : checkOps [vRun c.w e.a9.toNat 2 2 (fun _ => true), OpOk.when (decide (0 < asInt 64 (e.lit.getD 0).toNat))] = none)
    (hsorted : (x :: xs).Pairwise (· < ·))
    (hmem : ∀ y, y ∈ x :: xs ↔ y ∈ (lanesOf (c.active 0 false)).map fun l => opVal c none 8 e.a9.toNat l)
    (hok : s.checkTargets (c.space s) c.w.id.codeBase (x :: xs) = (.ok, u)) :
    jmpiBody e c s =
      let t (l : Nat) : Nat := opVal c none 8 e.a9.toNat l
      let first := (x :: xs).take (maxPaths c.w.id.gang)
      if xs = [] then .jump (u.setPc c x)
      else divide c u (c.disp (asInt 64 (e.lit.getD 0).toNat)) (some c.path.pc)
          (first.map fun y => (y, maskOf fun l => (c.active 0 false).getLsbD l && t l == y))
          (maskOf fun l => (c.active 0 false).getLsbD l && !first.contains (t l)) := by
  rw [jmpiBody, withOps_ok hops]
  simp only [targets_eq hsorted hmem, List.isEmpty_cons, Bool.false_eq_true, if_false, transfer_of_ok _ hok]
  cases xs <;> rfl

/-- Settles O16: BRC and JMPI behind their checks, and `divide` below and at the depth limit. -/
theorem divergingBranches : Obligations.DivergingBranches := by
  refine ⟨?brc, ?jmpi⟩
  case brc =>
    intro e s u c t j next taken rest hi hops hok
    have hbody := brcBody_of_ok rfl rfl hops hok
    dsimp only at hbody
    refine ⟨fun hm hs => ?notAtDepthZero, fun hm => ?_⟩
    case notAtDepthZero => exact runWave_raise hi (by rw [hbody, if_pos (by simp [hm, hs])])
    rw [if_neg (by simpa using hm)] at hbody
    refine ⟨fun htaken => ?none, fun htaken hrest => ?all, fun htaken hrest hdepth => ?overflow,
      fun htaken hrest hdepth => ?part⟩
    case none => exact runWave_next hi (by rw [hbody, if_pos htaken])
    case all => exact runWave_jump hi (by rw [hbody, if_neg htaken, if_pos hrest])
    case overflow => exact runWave_raise hi (by rw [hbody, if_neg htaken, if_neg hrest, divide_of_le _ _ _ _ _ hdepth])
    case part =>
      refine runWave_jump hi ?_
      rw [hbody, if_neg htaken, if_neg hrest, divide_of_lt _ _ _ _ _ hdepth]
      cases c.half.stack.isEmpty <;> rfl
  case jmpi =>
    intro e s u c x xs a j t act hi hops
    refine ⟨fun hact => ?none, fun hsorted hmem hok => ?_⟩
    case none => exact runWave_next hi (jmpiBody_of_noLane hops hact)
    have hbody := jmpiBody_of_ok hops hsorted hmem hok
    dsimp only at hbody
    refine ⟨fun hone => ?one, fun hmore hdepth => ?overflow, fun hmore hdepth => ?part⟩
    case one => exact runWave_jump hi (by rw [hbody, if_pos hone])
    case overflow => exact runWave_raise hi (by rw [hbody, if_neg hmore, divide_of_le _ _ _ _ _ hdepth])
    case part =>
      intro first
      refine runWave_jump hi ?_
      rw [hbody, if_neg hmore, divide_of_lt _ _ _ _ _ hdepth, List.zipIdx_map, List.map_map]
      rfl

/-! ### EXIT, NOP, YIELD and REGION -/

@[simp] theorem State.updWave_put (s : State) (c : Ctx) (w : Wave) (f : Wave → Wave) :
    (s.put c w).updWave c.who.core c.who.slot f = s.put c (f w) := by
  simp [State.put]

/-- EXIT: its split's lanes have exited; the wave ends with its last lane and otherwise goes on (R45, R358). -/
theorem exitBody_put (s : State) (c : Ctx) (w : Wave) :
    exitBody c (s.put c w) =
      let w := ((Wave.updHalf { w with exited := w.exited ||| c.path.mask } c.who.half fun h => h.without c.path.mask).emptied 4
        c.who.half c.who.path).endHalf c.who.half
      if w.halves.all (·.ended) then .wait ((s.put c w).finishWave c.who.core c.who.slot) else .jump (s.put c w) := by
  simp only [exitBody, State.updWave_put, State.mine_put]

/-- A region closed: REGCNT counts it, and a new one is open at depth 0 alone (R170). -/
theorem State.closeRegion_wave {s : State} {c : Ctx} {w : Wave} {h : Half} (pc : Dword)
    (hw : s.wave? c.who.core c.who.slot = some w) (hh : w.halves[c.who.half]? = some h) :
    (s.closeRegion c pc).wave? c.who.core c.who.slot = some (if h.stack.isEmpty then
      Wave.updHalf { w with regcnt := w.regcnt + 1, srrb := w.rrb } c.who.half fun h => { h with region := pc, snap := h.levels }
      else { w with regcnt := w.regcnt + 1 }) := by
  simp [State.closeRegion, hw, hh]

/-- Settles O19: each body's answer, and the wave that `closeRegion` leaves. -/
theorem exitRegionAndNoEffect : Obligations.ExitRegionAndNoEffect := by
  refine ⟨?exit, ?noEffect, ?region⟩
  case exit =>
    intro s c hi w
    refine ⟨fun hmore => ?goesOn, fun hlast => ?ends⟩
    case goesOn => exact runWave_jump hi ((exitBody_put s c c.w).trans (if_neg (by simpa using hmore)))
    case ends => exact runWave_wait hi ((exitBody_put s c c.w).trans (if_pos hlast))
  case noEffect =>
    exact fun s c => ⟨fun hi => runWave_next hi rfl, fun hi => runWave_next hi rfl, fun hi => runWave_nextR hi rfl⟩
  case region =>
    intro s c w h pc hw hh
    have hclosed := State.closeRegion_wave pc hw hh
    by_cases hs : h.stack = []
    · rw [if_pos (by simp [hs])] at hclosed
      exact ⟨_, { h with region := pc, snap := h.levels }, hclosed, by simp [hh], rfl, rfl, rfl, rfl, rfl,
        fun _ => ⟨rfl, rfl, rfl⟩, fun hne => absurd hs hne⟩
    · rw [if_neg (by simp [hs])] at hclosed
      exact ⟨_, h, hclosed, hh, rfl, rfl, rfl, rfl, rfl, fun hempty => absurd hempty hs, fun _ => ⟨rfl, rfl, rfl⟩⟩

end Sys2Proof.Machine
end

-- ==== Memory operations, saved waves and blocks; laws for O58 ====
section
/-!
What the operations of Machine/Mem.lean leave of a state: they change memory and use up free values, and nothing else. And what
an eviction leaves of the blocks (R206, R207, R232, R241).
-/

namespace Sys2Proof.Machine

/-! ### Operations on memory -/

/-- t is s but for its memory and the free values used. -/
def State.MemOnly (s t : State) : Prop := ∃ m n, t = { s with mem := m, free := n }

namespace State.MemOnly

variable {s t u : State}

theorem refl (s : State) : MemOnly s s := ⟨_, _, rfl⟩

theorem trans (h : MemOnly s t) (h' : MemOnly t u) : MemOnly s u := by
  obtain ⟨m, n, rfl⟩ := h
  obtain ⟨m', n', rfl⟩ := h'
  exact ⟨m', n', rfl⟩

theorem foldl {α : Type} {f : State → α → State} (hf : ∀ s a, MemOnly s (f s a)) (as : List α) (s : State) :
    MemOnly s (as.foldl f s) :=
  List.foldlRecOn (motive := MemOnly s) _ _ (refl s) fun _ h a _ => h.trans (hf _ a)

theorem host (h : MemOnly s t) : t.host = s.host := by obtain ⟨m, n, rfl⟩ := h; rfl

theorem dtime (h : MemOnly s t) : t.dtime = s.dtime := by obtain ⟨m, n, rfl⟩ := h; rfl

end State.MemOnly

theorem State.pick_memOnly {α : Type} [DecidableEq α] (s : State) (a b : α) : s.MemOnly (s.pick a b).2 := by
  unfold State.pick
  split <;> exact ⟨_, _, rfl⟩

theorem State.setCopy_memOnly (s : State) (u g : Nat) (c : Copy) : s.MemOnly (s.setCopy u g c) := ⟨_, _, rfl⟩

theorem State.dropCopy_memOnly (s : State) (u g : Nat) : s.MemOnly (s.dropCopy u g) := ⟨_, _, rfl⟩

theorem State.readGran_memOnly (s : State) (g : Nat) (us : List Nat) (skip : Nat) : s.MemOnly (s.readGran g us skip).2 := by
  induction us generalizing skip with
  | nil => exact .refl s
  | cons u us ih =>
    obtain ⟨⟨v, t⟩, hr⟩ : ∃ x, s.readGran g us (skip - 1) = x := ⟨_, rfl⟩
    have hnext := ih (skip - 1)
    rw [hr] at hnext
    simp only [State.readGran, hr]
    split
    · exact hnext.trans (State.setCopy_memOnly _ _ _ _)
    · next c _ =>
      have hchosen : s.MemOnly (if skip > 0 then (mergeBytes c.dirty c.data v, t)
          else if t.granBad g us 0 (~~~c.dirty) then (c.data, t) else t.pick (mergeBytes c.dirty c.data v) c.data).2 := by
        split
        · exact hnext
        · split
          · exact hnext
          · exact hnext.trans (t.pick_memOnly _ _)
      generalize (if skip > 0 then (mergeBytes c.dirty c.data v, t)
        else if t.granBad g us 0 (~~~c.dirty) then (c.data, t) else t.pick (mergeBytes c.dirty c.data v) c.data) = r at hchosen ⊢
      split
      · exact hchosen
      · exact hchosen.trans (State.setCopy_memOnly _ _ _ _)

theorem State.writeGran_memOnly (s : State) (us : List Nat) (g : Nat) (m : BitVec 16) (d : BitVec 128) :
    s.MemOnly (s.writeGran us g m d) := by
  unfold State.writeGran
  split
  · exact ⟨_, _, rfl⟩
  · split
    · exact State.setCopy_memOnly _ _ _ _
    · exact (s.readGran_memOnly g (_ :: _) 0).trans (State.setCopy_memOnly _ _ _ _)

theorem State.passGran_memOnly (s : State) (us : List Nat) (g : Nat) (m : BitVec 16) (d : BitVec 128) :
    s.MemOnly (s.passGran us g m d) := by
  refine .foldl (fun s u => ?_) us s
  split
  · exact State.setCopy_memOnly _ _ _ _
  · exact .refl s

theorem State.pushCopy_memOnly (s : State) (u : Nat) (mids below : List Nat) (g : Nat) : s.MemOnly (s.pushCopy u mids below g) := by
  unfold State.pushCopy
  split
  · split
    · exact .refl s
    · exact ((s.passGran_memOnly _ _ _ _).trans (State.writeGran_memOnly _ _ _ _ _)).trans (State.setCopy_memOnly _ _ _ _)
  · exact .refl s

theorem State.push_memOnly (s : State) (us : List Nat) (n : Nat) : s.MemOnly (s.push us n) := by
  induction us generalizing n with
  | nil => cases n <;> exact .refl s
  | cons u us ih =>
    cases n with
    | zero => exact .refl s
    | succ n => exact (ih n).trans (.foldl (fun s g => s.pushCopy_memOnly _ _ _ g) _ _)

theorem State.discard_memOnly (s : State) (us : List Nat) (n : Nat) : s.MemOnly (s.discard us n) := by
  induction us generalizing n with
  | nil => cases n <;> exact .refl s
  | cons u us ih =>
    cases n with
    | zero => exact .refl s
    | succ n =>
      refine (ih n).trans (.foldl (fun s x => ?_) _ _)
      split
      · exact .refl s
      · split
        · exact State.dropCopy_memOnly _ _ _
        · exact (s.readGran_memOnly _ _ _).trans (State.setCopy_memOnly _ _ _ _)

theorem State.flushUnit_memOnly (s : State) (core u : Nat) (on : Nat → Bool) : s.MemOnly (s.flushUnit core u on) :=
  .foldl (fun s g => (s.pushCopy_memOnly _ _ _ g).trans (State.dropCopy_memOnly _ _ _)) _ _

theorem State.flushWaves_memOnly (s : State) (core : Nat) (on : Nat → Bool) : s.MemOnly (s.flushWaves core on) :=
  .foldl (fun s (x : Nat × List (Nat × Copy)) => s.flushUnit_memOnly core x.1 on) _ _

/-- A release pushes copies alone (R206). -/
theorem State.release_memOnly (s : State) (core scope : Nat) : s.MemOnly (s.release core scope) := by
  unfold State.release
  split
  · exact s.push_memOnly _ _
  · exact (s.flushWaves_memOnly _ _).trans (State.push_memOnly _ _ _)

/-- An acquire drops copies alone (R206). -/
theorem State.acquire_memOnly (s : State) (core scope : Nat) : s.MemOnly (s.acquire core scope) := s.discard_memOnly _ _

theorem State.pushGran_memOnly (s : State) (g : Nat) (us : List Nat) (n : Nat) : s.MemOnly (s.pushGran g us n) := by
  induction us generalizing n with
  | nil => cases n <;> exact .refl s
  | cons u us ih =>
    cases n with
    | zero => exact .refl s
    | succ n => exact ((ih n).trans (State.pushCopy_memOnly _ _ _ _ _)).trans (State.dropCopy_memOnly _ _ _)

theorem State.writeVia_memOnly (s : State) (us : List Nat) (pa n v : Nat) : s.MemOnly (s.writeVia us pa n v) :=
  s.writeGran_memOnly _ _ _ _

theorem State.readVia_memOnly (s : State) (us : List Nat) (skip pa n : Nat) : s.MemOnly (s.readVia us skip pa n).2 :=
  s.readGran_memOnly _ _ _

theorem State.writeAt_memOnly (s : State) (us : List Nat) (scope pa n v : Nat) : s.MemOnly (s.writeAt us scope pa n v) :=
  (s.pushGran_memOnly _ _ _).trans (State.writeVia_memOnly _ _ _ _ _)

theorem State.markG_memOnly (s : State) (l : Leaf) (g : Nat) : s.MemOnly (s.markG l g) := by
  unfold State.markG
  split <;> exact ⟨_, _, rfl⟩

theorem State.joinCopy_memOnly (s : State) (sp : Space) (g : Nat) : s.MemOnly (s.joinCopy sp g) := by
  unfold State.joinCopy
  dsimp only
  split
  · exact .refl s
  · exact (s.pushCopy_memOnly _ _ _ _).trans (State.dropCopy_memOnly _ _ _)

theorem performAtom_memOnly (s : State) (sp : Space) (o : MemOp) (t : LaneTr) (op ty : Nat) :
    s.MemOnly (performAtom s sp o t op ty).2 := by
  have hatom {u : State} (h : s.MemOnly u) (us : List Nat) (b : Bool) (v : Nat) : s.MemOnly
      (if b then (u.readVia us 4 t.pa o.n).2.writeVia us t.pa o.n v else (u.readVia us 4 t.pa o.n).2) := by
    split
    · exact (h.trans (u.readVia_memOnly _ _ _ _)).trans (State.writeVia_memOnly _ _ _ _ _)
    · exact h.trans (u.readVia_memOnly _ _ _ _)
  simp only [performAtom]
  split
  · exact hatom (s.pushGran_memOnly _ _ _) _ _ _
  · exact hatom ((s.joinCopy_memOnly _ _).trans (State.pushGran_memOnly _ _ _ _)) _ _ _

/-- One lane's access changes memory alone. -/
theorem performLane_memOnly (s : State) (sp : Space) (o : MemOp) (t : LaneTr) : s.MemOnly (performLane s sp o t).2 := by
  unfold performLane
  split
  · dsimp only
    split
    · exact ⟨_, _, rfl⟩
    · split <;> exact ⟨_, _, rfl⟩
    · exact .refl s
  · have hmarked (k : Bool) : s.MemOnly (State.markG (if k then s.note sp (t.pa / 16) o.scope
        (o.acc = .write || o.acc = .atomic) o.sync else s) t.leaf (t.pa / 16)) := by
      refine .trans ?_ (State.markG_memOnly _ _ _)
      split
      · exact ⟨_, _, rfl⟩
      · exact .refl s
    dsimp only
    split
    · split
      · exact ((hmarked _).trans (State.joinCopy_memOnly _ _ _)).trans (State.writeAt_memOnly _ _ _ _ _ _)
      · exact ((hmarked _).trans (State.joinCopy_memOnly _ _ _)).trans (State.writeVia_memOnly _ _ _ _ _)
    · exact (hmarked _).trans (performAtom_memOnly _ _ _ _ _ _)
    · exact ((hmarked _).trans (State.joinCopy_memOnly _ _ _)).trans (State.readVia_memOnly _ _ _ _ _)

theorem State.performAtomn_memOnly (s : State) (sp : Space) (x : AtomnOp) : s.MemOnly (s.performAtomn sp x).2 := by
  simp only [State.performAtomn]
  split
  · unfold State.retire
    split <;> exact ⟨_, _, rfl⟩
  · exact performLane_memOnly _ _ _ _

/-! ### Saving a wave leaves the blocks -/

/-- A wave of no block stands at no barrier. -/
theorem State.barRef_of_noBlock {s : State} (hb : s.host.blocks = []) (c : Ctx) (id : Nat) : s.barRef c id = none := by
  cases hc : c.w.id.blk <;> simp [State.barRef, State.block?, hb, hc, Sparse.get?]

/-- Where there is no block no arrival is withdrawn. -/
theorem State.withdrawBars_of_noBlock {s : State} (hb : s.host.blocks = []) (core slot : Nat) : s.withdrawBars core slot = s := by
  unfold State.withdrawBars
  refine List.foldlRecOn (motive := fun t => t = s) _ _ rfl fun t ht h _ => ?_
  subst ht
  split
  · rfl
  · split
    · rw [State.barRef_of_noBlock hb]
    · rfl

@[simp] theorem State.drainAtomn_host (s : State) (core slot : Nat) : (s.drainAtomn core slot).host = s.host := by
  unfold State.drainAtomn
  split
  · rfl
  · refine List.foldlRecOn (motive := fun y : State × Wave => y.1.host = s.host) _ _ rfl fun y hy x _ => ?_
    exact (State.performAtomn_memOnly _ _ _).host.trans hy

@[simp] theorem State.forgetNames_host (s : State) (core slot : Nat) : (s.forgetNames core slot).host = s.host := by
  unfold State.forgetNames
  split
  · exact State.giveUp_host _ _
  · rfl

@[simp] theorem State.quiesce_host (s : State) (core slot : Nat) : (s.quiesce core slot).host = s.host := by
  simp [State.quiesce]

@[simp] theorem State.release_host (s : State) (core scope : Nat) : (s.release core scope).host = s.host :=
  (s.release_memOnly core scope).host

@[simp] theorem State.vacate_host (s : State) (c k : Nat) : (s.vacate c k).host = s.host := by
  unfold State.vacate
  split <;> rfl

@[simp] theorem State.updWaveObj_host (s : State) (h : BitVec 32)
    (f : BitVec 64 → Nat → Option (Nat × Nat) → Option Wave → Option WaveId → Option Nat → Option TrapRec → Body)
    (st : Option (BitVec 8)) : (s.updWaveObj h f st).host = s.host := rfl

@[simp] theorem State.saveOut_host (s : State) (core slot : Nat) : (s.saveOut core slot).host = s.host := by
  unfold State.saveOut
  dsimp only
  split <;> simp

@[simp] theorem State.readyWave_host (s : State) (h : BitVec 32) : (s.readyWave h).host = s.host := by
  unfold State.readyWave
  split <;> rfl

@[simp] theorem State.haltWave_host (s : State) (core slot : Nat) : (s.haltWave core slot).host = s.host := by
  simp [State.haltWave, State.askBack]

/-- An eviction makes no block. -/
theorem State.evict_host_of_noBlock {s : State} (hb : s.host.blocks = []) (core slot : Nat) :
    (s.evict core slot).host = s.host := by
  have hforget (w : Wave) : ((s.forgetReqs w.id.handle 0).forgetReqs w.id.handle 1).host = s.host := by simp [State.forgetReqs]
  have hsave (w : Wave) : (((s.forgetReqs w.id.handle 0).forgetReqs w.id.handle 1).saveWave core slot).host = s.host := by
    rw [State.saveWave, State.withdrawBars_of_noBlock (by rw [hforget, hb]), State.saveOut_host, hforget]
  unfold State.evict
  split
  · rfl
  · dsimp only
    split
    · exact hsave _
    · split
      · exact hsave _
      · rw [State.readyWave_host, hsave]

/-- Neither does the halt or the eviction of a wave at its next boundary. -/
theorem State.evictSoon_host_of_noBlock {s : State} (hb : s.host.blocks = []) (core slot : Nat) :
    (s.evictSoon core slot).host = s.host := by
  unfold State.evictSoon
  split
  · exact State.evict_host_of_noBlock hb core slot
  · exact s.haltWave_host core slot

end Sys2Proof.Machine
end

-- ==== Timers, scheduling contexts, kernel units and blocks; O58 ====
section
/-!
Objects and blocks read after they are changed, the choice of the kernel units, and the events of timers, contexts and blocks
over them (R47, R232, R233, R240, R241, R262 to R265, R268, R296, R459).
-/

namespace Sys2Proof

/-- A table with a listed value changed, read at any key. -/
theorem Sparse.get?_upd {α : Type} (k j : Nat) (f : α → α) (m : List (Nat × α)) :
    Sparse.get? j (Sparse.upd k f m) = if j = k then (Sparse.get? k m).map f else Sparse.get? j m := by
  unfold Sparse.upd
  split
  · next a ha =>
    by_cases hj : j = k
    · simp [hj, ha]
    · simp [hj, Sparse.get?_put_ne hj]
  · next hn =>
    by_cases hj : j = k
    · simp [hj, hn]
    · simp [hj]

end Sys2Proof

namespace Sys2Proof.Machine

/-! ### Objects and blocks -/

@[simp] theorem State.obj?_setObj (s : State) (i : Nat) (o : Obj) : (s.setObj i o).obj? i = some o := by
  simp [State.obj?, State.setObj]

theorem State.obj?_setObj_ne (s : State) {i j : Nat} (h : j ≠ i) (o : Obj) : (s.setObj i o).obj? j = s.obj? j := by
  simp [State.obj?, State.setObj, Sparse.get?_put_ne h]

@[simp] theorem State.obj?_updObj (s : State) (i : Nat) (f : Obj → Obj) : (s.updObj i f).obj? i = (s.obj? i).map f := by
  simp [State.obj?, State.updObj, Sparse.get?_upd]

theorem State.obj?_updObj_ne (s : State) {i j : Nat} (h : j ≠ i) (f : Obj → Obj) : (s.updObj i f).obj? j = s.obj? j := by
  simp [State.obj?, State.updObj, Sparse.get?_upd, h]

@[simp] theorem State.block?_updBlock (s : State) (b : Nat) (f : Block → Block) : (s.updBlock b f).block? b = (s.block? b).map f := by
  simp [State.block?, State.updBlock, Sparse.get?_upd]

@[simp] theorem State.block?_updCore (s : State) (c : Nat) (f : Core → Core) (b : Nat) : (s.updCore c f).block? b = s.block? b := rfl

/-- A block that must leave is marked, and its core's agent told (R262, R374). -/
theorem State.mustLeave_of_placed {s : State} {blk : Nat} {b : Block} (hb : s.block? blk = some b) (hst : b.st = .placed)
    (noDrain : Bool) :
    s.mustLeave blk noDrain = (s.updBlock blk fun b => { b with
      leaving := some (noDrain || b.leaving == some true)
      drainUntil := if noDrain then none else b.drainUntil }).updCore b.core fun k => { k with latched := k.latched ||| 2 } := by
  simp [State.mustLeave, hb, hst]

/-! ### Timers and contexts -/

/-- The expiry of a timer: one for each deadline that has passed (R240). -/
theorem Body.expired_of_due {d p n r now : Nat} (hdue : d ≤ now ∧ d ≠ 2 ^ 64 - 1) : (Body.timer d p n r).expired now =
    let k := if p = 0 then 1 else (now - d) / p + 1
    .timer (if p = 0 then 2 ^ 64 - 1 else min (d + k * p) (2 ^ 64 - 1)) p (min 255 (n + k)) (if n = 0 then d else r) := by
  simp only [Body.expired]
  rw [if_neg (by simpa using hdue)]

theorem Body.expired_of_notDue {d p n r now : Nat} (hdue : ¬(d ≤ now ∧ d ≠ 2 ^ 64 - 1)) :
    (Body.timer d p n r).expired now = .timer d p n r := by
  simp only [Body.expired]
  rw [if_pos (by simpa [Classical.or_iff_not_imp_left] using hdue)]

/-- The last of a context's releases that are due (R241). -/
theorem Body.released_of_due {p b d dl left idx r k now : Nat} {u : Bool} (hdue : r ≤ now) :
    (Body.sctx p b d dl left idx r k u).released now =
      .sctx p b d (r + (now - r) / p * p + d) b idx (r + ((now - r) / p + 1) * p) (k + (now - r) / p + 1) false := by
  simp only [Body.released]
  rw [if_neg (by omega)]

theorem Body.released_of_notDue {p b d dl left idx r k now : Nat} {u : Bool} (hdue : ¬r ≤ now) :
    (Body.sctx p b d dl left idx r k u).released now = .sctx p b d dl left idx r k u := by
  simp only [Body.released]
  rw [if_pos (by omega)]

/-- The suspension of a context whose budget is spent, noted once (R241). -/
def State.suspend (s : State) (i : Nat) (o : Obj) (body : Body) (idx : Nat) : State :=
  let susp := s.setObj i { o with body := body }
  State.updCore { susp with kern := { susp.kern with overruns := susp.kern.overruns ++ [idx] } } mgmtCore
    fun q => { q with latched := q.latched ||| 32 }

theorem State.suspend_core (s : State) (i : Nat) (o : Obj) (body : Body) (idx : Nat) : (s.suspend i o body idx).core mgmtCore =
    { s.core mgmtCore with latched := (s.core mgmtCore).latched ||| 32 } :=
  State.core_updCore _ _ _

/-- A context with budget left stays as it is. -/
theorem State.overrun_of_left {s : State} {i p b d dl left idx r k : Nat} {u : Bool} {o : Obj} (ho : s.obj? i = some o)
    (hbody : o.body = .sctx p b d dl left idx r k u) (hleft : left ≠ 0) : s.overrun i = s := by
  obtain ⟨gen, owner, st, tdi, body⟩ := o
  cases hbody
  cases left with
  | zero => exact absurd rfl hleft
  | succ left => simp [State.overrun, ho]

/-- The waves of a context that are made by WCREATE (R241). -/
def State.wavesOf (s : State) (h : BitVec 32) : List (Nat × Nat × Wave) :=
  (s.createdOn (s.cores.map fun (x : Nat × Core) => x.1)).filter fun x => x.2.2.id.sc == h

/-- One block of those that a context's spent budget makes leave (R241). -/
def State.blockLeaves (h : BitVec 32) (s : State) (x : Nat × Block) : State :=
  if x.2.st = .placed && s.blockSc x.2 == h && x.2.leaving != some true then s.mustLeave x.1 true else s

/-- A context whose budget is spent: suspended once, then its waves and its blocks leave (R241). -/
theorem State.overrun_of_spent {s : State} {i p b d dl idx r k : Nat} {u : Bool} {o : Obj} (ho : s.obj? i = some o)
    (hbody : o.body = .sctx p b d dl 0 idx r k u) :
    s.overrun i =
      let v := if u then s else s.suspend i o (.sctx p b d dl 0 idx r k true) idx
      let t := (v.wavesOf (mkHandle 6 o.gen i)).foldl (fun t x => t.evictSoon x.1 x.2.1) v
      t.host.blocks.foldl (State.blockLeaves (mkHandle 6 o.gen i)) t := by
  obtain ⟨gen, owner, st, tdi, body⟩ := o
  cases hbody
  simp only [State.overrun, ho]
  rfl

/-- Timers expire once for each deadline passed, contexts take their releases, and a spent budget makes a context's waves and
blocks leave (R240, R241). -/
theorem timerEvents : Claims.TimerEvents := by
  refine ⟨?expiry, ?release, ?budget⟩
  case expiry =>
    intro s i d p n r o ho hbody
    refine ⟨_, rfl, rfl, rfl, fun j hj => State.obj?_updObj_ne _ hj _, ?_⟩
    intro k next
    rw [State.expire, State.obj?_updObj, ho, Option.map_some, hbody]
    by_cases hdue : d ≤ s.now ∧ d ≠ 2 ^ 64 - 1
    · rw [Body.expired_of_due hdue, if_pos hdue]
    · rw [Body.expired_of_notDue hdue, if_neg hdue, ← hbody]
  case release =>
    intro s i p b d dl left idx r k u o ho hbody
    refine ⟨_, rfl, rfl, fun j hj => State.obj?_updObj_ne _ hj _, ?_⟩
    intro n
    rw [State.periodRelease, State.obj?_updObj, ho, Option.map_some, hbody]
    by_cases hdue : r ≤ s.now
    · rw [Body.released_of_due hdue, if_pos hdue]
    · rw [Body.released_of_notDue hdue, if_neg hdue, ← hbody]
  case budget =>
    intro s i p b d dl left idx r k u o ho hbody h susp v ws leaves
    refine ⟨fun hleft => congrArg Host.Outcome.next (State.overrun_of_left ho hbody hleft), ?_⟩
    rintro rfl
    have hover : exec (.scBudgetExhausted i) s =
        .next ((ws.foldl (fun t x => t.evictSoon x.1 x.2.1) v).host.blocks.foldl leaves
          (ws.foldl (fun t x => t.evictSoon x.1 x.2.1) v)) :=
      congrArg Host.Outcome.next (State.overrun_of_spent ho hbody)
    have hvhost : v.host = s.host := by cases u <;> rfl
    refine ⟨?once, ?noWave, ?oneWave, ?oneBlock, _, rfl, hover⟩
    case once =>
      rintro rfl
      refine ⟨rfl, State.obj?_setObj _ _ _, fun j hj => State.obj?_setObj_ne _ hj _, ?_⟩
      exact congrArg Core.latched (s.suspend_core i o (.sctx p b d dl 0 idx r k true) idx)
    case noWave =>
      intro hws hb
      rw [hover, hws, List.foldl_nil, hvhost, hb, List.foldl_nil]
    case oneWave =>
      intro core slot w hws hb
      rw [hover, hws, List.foldl_cons, List.foldl_nil, State.evictSoon_host_of_noBlock (by rw [hvhost, hb]), hvhost, hb]
      rfl
    case oneBlock =>
      intro n q hws hb hst hsc hleave
      have hq : v.block? n = some q := by simp [State.block?, hvhost, hb, Sparse.get?]
      have hmust := State.mustLeave_of_placed hq hst true
      refine ⟨v.mustLeave n true, ?_, ?_, ?_⟩
      · rw [hover, hws, List.foldl_nil, hvhost, hb]
        exact congrArg Host.Outcome.next (if_pos (by simp [hst, hsc, hleave]))
      · rw [hmust, State.block?_updCore, State.block?_updBlock, hq]; rfl
      · rw [hmust]; exact congrArg Core.latched (State.core_updCore _ _ _)

/-! ### The kernel unit's choice -/

/-- A context of deadline and index x stands no later than y in the order of R232. -/
def NoLater (x y : Nat × Nat) : Prop := x.1 < y.1 ∨ (x.1 = y.1 ∧ x.2 ≤ y.2)

theorem NoLater.trans {x y z : Nat × Nat} (h : NoLater x y) (h' : NoLater y z) : NoLater x z := by
  unfold NoLater at *
  omega

theorem earliest_concat_of_none {xs : List (Nat × Nat)} (h : earliest xs = none) (y : Nat × Nat) :
    earliest (xs ++ [y]) = some y := by
  unfold earliest at *
  rw [List.foldl_append, h]
  rfl

theorem earliest_concat_of_some {xs : List (Nat × Nat)} {x : Nat × Nat} (h : earliest xs = some x) (y : Nat × Nat) :
    earliest (xs ++ [y]) = some (if y.1 < x.1 ∨ (y.1 = x.1 ∧ y.2 < x.2) then y else x) := by
  unfold earliest at *
  rw [List.foldl_append, h, List.foldl_cons, List.foldl_nil]
  exact (apply_ite some _ _ _).symm

/-- Only of no context is none the earliest. -/
theorem earliest_eq_none {xs : List (Nat × Nat)} (h : earliest xs = none) : xs = [] := by
  cases xs using List.reverseRecOn with
  | nil => rfl
  | append_singleton xs y _ =>
    cases hx : earliest xs with
    | none => simp [earliest_concat_of_none hx] at h
    | some x => simp [earliest_concat_of_some hx] at h

/-- The earliest of some contexts is one of them, and no later than any. -/
theorem earliest_spec {xs : List (Nat × Nat)} {x : Nat × Nat} (h : earliest xs = some x) : x ∈ xs ∧ ∀ y ∈ xs, NoLater x y := by
  induction xs using List.reverseRecOn generalizing x with
  | nil => simp [earliest] at h
  | append_singleton xs y ih =>
    cases hz : earliest xs with
    | none =>
      rw [earliest_concat_of_none hz] at h
      cases h
      simp [earliest_eq_none hz, NoLater]
    | some z =>
      obtain ⟨hmem, hmin⟩ := ih hz
      rw [earliest_concat_of_some hz, Option.some.injEq] at h
      split at h
      · next hlt =>
        subst h
        have hyz : NoLater y z := by unfold NoLater; omega
        exact ⟨by simp, fun w hw => by
          rcases List.mem_append.mp hw with hw | hw
          · exact hyz.trans (hmin w hw)
          · simp_all [NoLater]⟩
      · next hge =>
        subst h
        have hzy : NoLater z y := by unfold NoLater; omega
        exact ⟨by simp [hmem], fun w hw => by
          rcases List.mem_append.mp hw with hw | hw
          · exact hmin w hw
          · simp_all⟩

/-- The kernel unit's choice: an entry of the earliest context among those with an entry that some core of the cluster can take,
with all of its cores that can take it (R232). -/
theorem State.chosen_spec {s : State} {cl : Nat} {x : BitVec 32 ⊕ Nat} {cores : List Nat} (h : s.chosen cl = some (x, cores)) :
    cores = (clusterCores cl).filter (s.canTake x) ∧ cores ≠ [] ∧ ∃ dl i, (dl, i) ∈ s.funded ∧ x ∈ s.entries cl i ∧
      ∀ dl' i' y, (dl', i') ∈ s.funded → y ∈ s.entries cl i' → (∃ k ∈ clusterCores cl, s.canTake y k = true) →
        NoLater (dl, i) (dl', i') := by
  simp only [State.chosen, Option.bind_eq_some_iff, Option.map_eq_some_iff, Prod.mk.injEq] at h
  obtain ⟨⟨dl, i⟩, hearliest, y, hfind, rfl, rfl⟩ := h
  obtain ⟨hmem, hmin⟩ := earliest_spec hearliest
  refine ⟨rfl, ?nonempty, dl, i, (List.mem_filter.mp hmem).1, List.mem_of_find?_eq_some hfind, ?_⟩
  case nonempty =>
    have hany := List.find?_some hfind
    obtain ⟨k, hk, hcan⟩ := List.any_eq_true.mp hany
    exact List.ne_nil_of_mem (List.mem_filter.mpr ⟨hk, hcan⟩)
  intro dl' i' z hfunded hz ⟨k, hk, hcan⟩
  refine hmin (dl', i') (List.mem_filter.mpr ⟨hfunded, ?_⟩)
  rw [List.find?_isSome]
  exact ⟨z, hz, List.any_eq_true.mpr ⟨k, hk, hcan⟩⟩

/-- One of several cores is one of them. -/
theorem State.anyOf_mem (s : State) {cores : List Nat} (h : cores ≠ []) : s.anyOf cores ∈ cores := by
  have hlt : Config.which s.free 232 % cores.length < cores.length := Nat.mod_lt _ (List.length_pos_iff.mpr h)
  rw [State.anyOf, List.getD_eq_getElem _ _ hlt]
  exact List.getElem_mem hlt

/-- A choice of one slot is one of the free ones, and there is one where any is free (R233). -/
theorem slotChoice_one (free : Nat) (ks : List Nat) :
    (slotChoice free 1 ks).head? = ks[Config.which free 265 % ks.length]? := by
  cases h : ks[Config.which free 265 % ks.length]? <;> simp [slotChoice, h]

/-- A slot of a core in which a wave can be refilled (R60, R233). -/
def State.slotFree (s : State) (core k : Nat) : Prop :=
  1 ≤ k ∧ k < 32 ∧ s.wave? core k = none ∧ ∀ d ∈ (s.core core).draining, d.slot = k → d.blk ≠ 0

theorem State.mem_freeSlots {s : State} {core k : Nat} :
    k ∈ ((List.range 31).map (· + 1)).filter (fun k => (s.wave? core k).isNone && !((s.core core).draining.any fun d =>
      d.slot == k && d.blk == 0)) ↔ s.slotFree core k := by
  have hrange : k ∈ (List.range 31).map (· + 1) ↔ 1 ≤ k ∧ k < 32 := by
    simp only [List.mem_map, List.mem_range]
    exact ⟨fun ⟨a, ha, hk⟩ => by omega, fun hk => ⟨k - 1, by omega, by omega⟩⟩
  rw [List.mem_filter, hrange]
  simp [State.slotFree, and_assoc]

theorem State.anySlot_free {s : State} {core k : Nat} (h : s.anySlot core = some k) : s.slotFree core k := by
  rw [State.anySlot, slotChoice_one] at h
  exact State.mem_freeSlots.mp (List.mem_of_getElem? h)

theorem State.anySlot_isSome {s : State} {core k : Nat} (h : s.slotFree core k) : (s.anySlot core).isSome = true := by
  rw [State.anySlot, slotChoice_one]
  rw [List.getElem?_eq_getElem (Nat.mod_lt _ (List.length_pos_of_mem (State.mem_freeSlots.mpr h)))]
  rfl

/-- A kernel unit serves the earliest context with an entry that can go, and gives its wave or block a core and slot
(R232, R233). -/
theorem dispatchEvents : Claims.DispatchEvents := by
  refine ⟨?choice, ?dispatch, ?refill, ?slot, ?restore⟩
  case choice =>
    intro s cl x cores h
    obtain ⟨rfl, -, hctx⟩ := State.chosen_spec h
    exact ⟨fun k => List.mem_filter, hctx⟩
  case dispatch =>
    intro s cl u
    have hexec (t : State) (ht : s.dispatch cl = t) : exec (.kernelDispatch cl) s = .next t := congrArg Host.Outcome.next ht
    refine ⟨fun x cores h => ⟨u.anyOf_mem (State.chosen_spec h).2.1, ?taken⟩, fun h hnone => ?idle, ?freed⟩
    case taken => exact hexec _ (by simp only [State.dispatch]; rw [h])
    case idle => exact hexec _ (by simp only [State.dispatch]; rw [h, hnone]; rfl)
    case freed =>
      intro dl x rest core slot h hordered cores hstay hvictim
      have hany : (u.createdOn cores).any (fun y => y.2.2.stopping) = false := by
        rw [List.any_eq_false]; exact fun y hy => by simp [hstay y hy]
      refine hexec _ ?_
      simp only [State.dispatch]
      rw [h, hordered, List.findSome?_cons, if_neg (by rw [hany]; exact Bool.false_ne_true), hvictim]
  case refill =>
    intro s u core slot h cores o a rd at' w id e v hchosen hcore hslot hnamed hbody hload
    refine congrArg Host.Outcome.next ?_
    obtain ⟨gen, owner, st, tdi, body⟩ := o
    cases hbody
    simp only [State.refill, hchosen]
    rw [if_pos (by simp [hcore])]
    simp only [State.takeEntry, hslot, hnamed, hload]
    rfl
  case slot => exact fun s core => ⟨fun slot h => State.anySlot_free h, fun ⟨k, hk⟩ => State.anySlot_isSome hk⟩
  case restore =>
    intro s core blk cores b hchosen hcore hb hst
    refine congrArg Host.Outcome.next ?_
    simp only [State.restoreChosen, hchosen]
    rw [if_pos (by simp [hcore, hb, hst])]
    simp only [State.takeEntry, State.takeBlock, hb, hst]

/-! ### Placement -/

/-- The agent of a core may go on with its loop for a launch (R296). -/
def State.mayClaim (s : State) (core : Nat) (l : Launch) : Prop :=
  l.st = .running ∧ core ∈ l.cores ∧ core ∉ l.stopped ∧ s.claiming core = false ∧
    s.placeRoom l core = true ∧ s.roomFor l.waves = true

theorem State.mayClaim_iff {s : State} {core : Nat} {l : Launch} : s.mayClaim core l ↔
    (l.st ≠ .running || !l.cores.contains core || l.stopped.contains core || s.claiming core || !s.placeRoom l core ||
      !s.roomFor l.waves) = false := by
  simp [State.mayClaim, and_assoc]

section
variable {s : State} {core li : Nat} {l : Launch} (hl : s.launch? li = some l)
include hl

theorem State.claim_of_not_mayClaim (h : ¬s.mayClaim core l) : s.claim core li = s := by
  rw [State.mayClaim_iff, Bool.not_eq_false] at h
  simp only [State.claim, hl]
  exact if_pos h

theorem State.claim_begins_wait (h : s.mayClaim core l) (hown : l.waits.find? (fun x => x.core = core) = none)
    (hw : s.thermalWeight core ≠ 0) : s.claim core li =
      s.updLaunch li fun l => { l with waits := l.waits ++ [⟨core, s.thermalWeight core, s.now⟩] } := by
  simp only [State.claim, hl, State.mayClaim_iff.mp h, hown, Bool.false_eq_true, if_false]

theorem State.claim_waits (h : s.mayClaim core l) {x : ClaimWait} (hown : l.waits.find? (fun x => x.core = core) = some x)
    (hwait : ¬(x.left = 0 ∨ x.since + 1000 ≤ s.now)) : s.claim core li = s := by
  simp only [State.claim, hl, State.mayClaim_iff.mp h, hown, Bool.false_eq_true, if_false]
  exact if_neg (by simpa using hwait)

theorem State.claim_now (h : s.mayClaim core l)
    (hnow : (l.waits.find? (fun x => x.core = core) = none ∧ s.thermalWeight core = 0) ∨
      ∃ x, l.waits.find? (fun x => x.core = core) = some x ∧ (x.left = 0 ∨ x.since + 1000 ≤ s.now)) :
    s.claim core li = s.claimNow core li l := by
  rcases hnow with ⟨hown, hw⟩ | ⟨x, hown, hover⟩
  · simp only [State.claim, hl, State.mayClaim_iff.mp h, hown, hw, Bool.false_eq_true, if_false]
  · simp only [State.claim, hl, State.mayClaim_iff.mp h, hown, Bool.false_eq_true, if_false]
    exact if_pos (by simpa using hover)

end

/-- The state behind the claim's ATOM on the counter: the waits for others' claims count it (R296). -/
def State.behindClaim (s : State) (core li : Nat) (l : Launch) : State :=
  let unit := l.counterOf core
  (((s.release core 4).setNum (counterAddr li unit) 8 (s.counter li unit + 1)).acquire core 4).updLaunch li fun m =>
    { m with waits := (m.waits.filter fun x => x.core ≠ core).map fun x =>
        if l.counterOf x.core = unit then { x with left := x.left - 1 } else x }

/-- The claim takes no time (R296). -/
theorem State.behindClaim_now (s : State) (core li : Nat) (l : Launch) : (s.behindClaim core li l).now = s.now :=
  congrArg BitVec.toNat (((State.acquire_memOnly _ core 4).dtime).trans (s.release_memOnly core 4).dtime)

/-- The block of a ticket as its agent claims it. -/
def claimedBlock (li ticket core now : Nat) (l : Launch) : Block where
  launch := li
  ticket := ticket
  core := core
  st := .claimed
  waves := []
  spadBase := 0
  spadLen := 0
  mset := none
  tokens := 0
  idem := l.idem
  placedAt := now
  enq := now
  drainUntil := none
  leaving := none
  slots := []
  engErr := false
  engHeld := 0
  faulted := false
  image := none

/-- A claimed block placed, or in line for its tokens (R296). -/
def State.placeOrWait (s : State) (l : Launch) (blk : Block) (core : Nat) : State :=
  let v := { s with host := { s.host with
    nextBlock := s.host.nextBlock + 1
    blocks := Sparse.put s.host.nextBlock blk s.host.blocks } }
  if l.mstate && !v.tokensFree l.tokens then { v with tokWait := v.tokWait ++ [.block s.host.nextBlock] }
  else v.placeBlock l s.host.nextBlock core

theorem State.claimNow_of_noTicket {s : State} {core li : Nat} {l : Launch}
    (h : (l.bound s.peer.toNat (l.counterOf core) (s.counter li (l.counterOf core))).1 ≤ s.counter li (l.counterOf core)) :
    s.claimNow core li l = (s.behindClaim core li l).updLaunch li fun l => { l with stopped := core :: l.stopped } :=
  if_pos h

theorem State.claimNow_of_ticket {s : State} {core li : Nat} {l : Launch}
    (h : s.counter li (l.counterOf core) < (l.bound s.peer.toNat (l.counterOf core) (s.counter li (l.counterOf core))).1) :
    s.claimNow core li l = (s.behindClaim core li l).placeOrWait l
      (claimedBlock li (l.bound s.peer.toNat (l.counterOf core) (s.counter li (l.counterOf core))).2 core s.now l) core := by
  rw [← State.behindClaim_now s core li l]
  exact if_neg (Nat.not_le.mpr h)

/-! ### Pre-emption -/

@[simp] theorem State.block?_updWave (s : State) (c k : Nat) (f : Wave → Wave) (b : Nat) :
    (s.updWave c k f).block? b = s.block? b := by simp [State.block?]

/-- A wave changed leaves every core's control registers. -/
theorem State.core_updWave_ctl (s : State) (c k : Nat) (f : Wave → Wave) (d : Nat) :
    ((s.updWave c k f).core d).ctl = (s.core d).ctl := by
  unfold State.updWave
  split
  · by_cases hd : d = c
    · subst hd; simp [State.setWave]
    · simp [State.setWave, State.core_updCore_ne s hd]
  · rfl

theorem State.wave?_updWave_ne (s : State) {c k d j : Nat} (h : d ≠ c ∨ j ≠ k) (f : Wave → Wave) :
    (s.updWave c k f).wave? d j = s.wave? d j := by
  unfold State.updWave
  split
  · exact s.wave?_setWave_ne h _
  · rfl

/-- Waves that need not stop any more (R265). -/
def State.unhalt (s : State) (core : Nat) (ks : List Nat) : State :=
  ks.foldl (fun s k => s.updWave core k fun w => { w with stopping := false }) s

theorem State.unhalt_frame (s : State) (core : Nat) (ks : List Nat) : (∀ b, (s.unhalt core ks).block? b = s.block? b) ∧
    (s.unhalt core ks).now = s.now ∧ ∀ d, ((s.unhalt core ks).core d).ctl = (s.core d).ctl := by
  refine List.foldlRecOn
    (motive := fun t : State => (∀ b, t.block? b = s.block? b) ∧ t.now = s.now ∧ ∀ d, (t.core d).ctl = (s.core d).ctl)
    _ _ ⟨fun _ => rfl, rfl, fun _ => rfl⟩ fun t ⟨hblock, hnow, hctl⟩ k _ => ?_
  exact ⟨fun b => (t.block?_updWave _ _ _ b).trans (hblock b), (congrArg BitVec.toNat (t.updWave_dtime _ _ _)).trans hnow,
    fun d => (t.core_updWave_ctl _ _ _ d).trans (hctl d)⟩

/-- Of each wave of the core only the mark to stop may change. -/
theorem State.unhalt_wave {s : State} {core j : Nat} {w : Wave} (hw : s.wave? core j = some w) (ks : List Nat) :
    ∃ x, (s.unhalt core ks).wave? core j = some { w with stopping := x } := by
  refine List.foldlRecOn (motive := fun t : State => ∃ x, t.wave? core j = some { w with stopping := x })
    _ _ ⟨w.stopping, hw⟩ fun t ⟨x, hx⟩ k _ => ?_
  by_cases hj : j = k
  · subst hj; exact ⟨false, by simp [hx]⟩
  · exact ⟨x, (t.wave?_updWave_ne (.inr hj) _).trans hx⟩

section
variable {s : State} {blk : Nat} {b : Block} {nd : Bool} (hb : s.block? blk = some b) (hleaving : b.leaving = some nd)
include hb hleaving

/-- Only the manner that the agent chooses is carried out (R264). -/
theorem State.leave_of_ne {m : Manner} (hm : s.manner b nd ≠ m) : s.leave blk m = s := by
  simp [State.leave, hb, hleaving, hm]

variable (hst : b.st = .placed)
include hst

theorem State.leave_drain (hm : s.manner b nd = .drain) : s.leave blk .drain =
    (s.unhalt b.core (s.slotsOf b)).updBlock blk fun k => { k with
      leaving := none, drainUntil := some (s.now + 1000 * (s.core b.core).ctl.drain.toNat) } := by
  obtain ⟨-, hnow, hctl⟩ := s.unhalt_frame b.core (s.slotsOf b)
  rw [← hnow, ← hctl]
  simp only [State.leave, hb, hleaving, hst, hm]
  rfl

theorem State.leave_save (hm : s.manner b nd = .save) : s.leave blk .save =
    if s.canLeave blk b then s.saveBlock blk else (s.slotsOf b).foldl (fun s k => s.haltWave b.core k) s := by
  simp [State.leave, hb, hleaving, hst, hm]

theorem State.leave_flush (hm : s.manner b nd = .flush) : s.leave blk .flush =
    if s.canLeave blk b then s.flushBlock blk else (s.slotsOf b).foldl (fun s k => s.haltWave b.core k) s := by
  simp [State.leave, hb, hleaving, hst, hm]

end

/-- A core's agent claims blocks, gives up its idlest when another could run, and drains, flushes or saves one that must leave
(R262 to R265, R268, R296). -/
theorem blockEvents : Claims.BlockEvents := by
  refine ⟨?placement, ?swap, ?leave, ?manner, ?limit⟩
  case placement =>
    intro s core li l hl unit c bound blk goes own u tick u' v now
    have hexec (t : State) (ht : s.claim core li = t) : exec (.blockPlacement core li) s = .next t :=
      congrArg Host.Outcome.next ht
    refine ⟨fun h => hexec _ (State.claim_of_not_mayClaim hl h),
      fun h hown hw => hexec _ (State.claim_begins_wait hl h hown hw),
      fun h hown hnow => ?waits, fun h hnow hc => ?stops, fun h hnow hc => ?claims⟩
    case waits =>
      obtain ⟨x, hx⟩ := Option.ne_none_iff_exists'.mp hown
      exact hexec _ (State.claim_waits hl h hx fun hover => hnow (.inr ⟨x, hx, hover⟩))
    case stops => exact hexec _ ((State.claim_now hl h hnow).trans (State.claimNow_of_noTicket hc))
    case claims => exact hexec _ ((State.claim_now hl h hnow).trans (State.claimNow_of_ticket hc))
  case swap =>
    intro s core blk hidlest fits late
    refine ⟨fun hlate hnone hfits => congrArg Host.Outcome.next ?due, fun hnot => congrArg Host.Outcome.next ?notDue⟩
    case due =>
      unfold State.swap
      have hdue : s.swapDue core ≤ s.now := hlate
      rw [if_neg (by simpa [hnone] using hdue), hidlest]
      exact if_pos hfits
    case notDue =>
      unfold State.swap
      split
      · rfl
      · next hdue =>
        simp only [Bool.or_eq_true, decide_eq_true_eq, not_or, Nat.not_lt, Option.not_isSome_iff_eq_none] at hdue
        rw [hidlest]
        refine if_neg ?_
        rcases hnot with hlate | hswap | hfits
        · exact absurd hlate (Nat.not_lt.mpr hdue.1)
        · exact absurd hdue.2 hswap
        · exact fun h => Bool.false_ne_true (hfits.symm.trans h)
  case leave =>
    intro s blk b nd hb hst hleaving
    have hother {m : Manner} (hm : s.manner b nd ≠ m) : s.leave blk m = s := State.leave_of_ne hb hleaving hm
    refine ⟨fun hm => ?drain, fun hm => congrArg Host.Outcome.next (State.leave_save hb hleaving hst hm),
      fun hm => congrArg Host.Outcome.next (State.leave_flush hb hleaving hst hm),
      fun hm => congrArg Host.Outcome.next (hother hm), fun hm => congrArg Host.Outcome.next (hother hm),
      fun hm => congrArg Host.Outcome.next (hother hm)⟩
    case drain =>
      refine ⟨_, { b with leaving := none, drainUntil := some (s.now + 1000 * (s.core b.core).ctl.drain.toNat) },
        congrArg Host.Outcome.next (State.leave_drain hb hleaving hst hm), ?_, rfl, rfl, rfl, fun k w hw => ?_⟩
      · rw [State.block?_updBlock, (s.unhalt_frame _ _).1, hb]; rfl
      · exact State.unhalt_wave hw _
  case manner =>
    intro s b nd l hl drain age
    have hhint : (l.hint ≠ 0 && 1000 * l.hint ≤ drain + age && !nd) = true ↔
        l.hint ≠ 0 ∧ 1000 * l.hint - age ≤ drain ∧ nd = false := by
      simp [and_assoc]
    have hflush : (b.idem && age ≤ drain) = true ↔ b.idem = true ∧ age ≤ drain := by simp
    simp only [State.manner, hl, Option.map_some, Option.getD_some]
    rw [if_congr hhint rfl (if_congr hflush rfl rfl)]
  case limit =>
    intro s blk t b hb hst huntil
    refine ⟨fun hlt => congrArg Host.Outcome.next ?early, fun hle => ?due⟩
    case early =>
      simp only [State.drainLimit, hb, huntil]
      exact if_neg (by omega)
    case due =>
      have hlimit : s.drainLimit blk = s.mustLeave blk true := by
        simp only [State.drainLimit, hb, huntil]
        exact if_pos hle
      refine ⟨_, { b with leaving := some true, drainUntil := none },
        congrArg Host.Outcome.next (hlimit.trans (State.mustLeave_of_placed hb hst true)), ?_, rfl, rfl, rfl, ?_⟩
      · rw [State.block?_updCore, State.block?_updBlock, hb]; rfl
      · exact congrArg Core.latched (State.core_updCore _ _ _)

/-- Settles O58: each event's function is read case by case through the laws above; the only induction is over the contexts
whose earliest the kernel unit picks. -/
theorem schedulingEvents : Obligations.SchedulingEvents := ⟨timerEvents, dispatchEvents, blockEvents⟩

end Sys2Proof.Machine
end

-- ==== Results written to registers; O11, O12 ====
section
/-!
Lanes of a register, registers read after they are written, and what a result leaves on its three paths: vector, scalar and
predicate (R48, R49, R52, R83, R102).
-/

namespace Sys2Proof

theorem pack_lt (w : Nat) (xs : List Nat) : pack w xs < 2 ^ (w * xs.length) := by
  induction xs with
  | nil => simp [pack]
  | cons x xs ih =>
    have hx : x % 2 ^ w < 2 ^ w := Nat.mod_lt _ (by positivity)
    calc pack w (x :: xs) < 2 ^ w * (pack w xs + 1) := by rw [pack]; linarith
      _ ≤ 2 ^ w * 2 ^ (w * xs.length) := Nat.mul_le_mul_left _ ih
      _ = 2 ^ (w * (x :: xs).length) := by rw [← pow_add, List.length_cons]; ring_nf

/-- Element `l` of a packed list is its place `l`, cut to the width (R116). -/
theorem elem_pack (w l : Nat) (xs : List Nat) : elem w l (pack w xs) = xs.getD l 0 % 2 ^ w := by
  have hp : 0 < 2 ^ w := by positivity
  induction xs generalizing l with
  | nil => simp [pack, elem]
  | cons x xs ih =>
    cases l with
    | zero => simp [elem, pack]
    | succ l =>
      rw [List.getD_cons_succ, ← ih l, elem, elem, pack, Nat.mul_succ, pow_add, Nat.mul_comm (2 ^ (w * l)),
        ← Nat.div_div_eq_div_mul, Nat.add_mul_div_left _ _ hp, Nat.div_eq_of_lt (Nat.mod_lt _ hp), Nat.zero_add]

end Sys2Proof

namespace Sys2Proof.Machine

/-! ### Lanes of a register -/

/-- A lane of a register made from its lanes. -/
theorem lane_ofLanes (g : Nat → Nat) {l : Nat} (hl : l < 64) : lane (ofLanes g) l = g l % 2 ^ 32 := by
  have hlt : pack 32 ((List.range 64).map g) < 2 ^ 2048 :=
    (pack_lt 32 _).trans_eq (congrArg (2 ^ ·) (by rw [List.length_map, List.length_range]))
  rw [lane, ofLanes, BitVec.toNat_ofNat, Nat.mod_eq_of_lt hlt, elem_pack]
  simp [hl]

/-- A lane of a blended register: the new value in the lanes of the mask, the old one elsewhere (R102). -/
theorem lane_blend (m : Mask) (old : BitVec 2048) (g : Nat → Nat) {l : Nat} (hl : l < 64) :
    lane (blend m old g) l = if m.getLsbD l then g l % 2 ^ 32 else lane old l := by
  rw [blend, lane_ofLanes _ hl]
  split
  · rfl
  · rw [lane, elem, Nat.mod_mod]

/-- Only the empty mask has no lowest lane. -/
theorem lowest_eq_none_iff {m : Mask} : lowest m = none ↔ m = 0 := by
  simp only [lowest, List.find?_eq_none, List.mem_range, Bool.not_eq_true]
  refine ⟨fun h => BitVec.eq_of_getLsbD_eq fun l hl => by simp [h l hl], ?_⟩
  rintro rfl l -
  simp

/-! ### Registers read after they are written -/

/-- The rotation keeps the names apart (R52). -/
theorem Wave.phys_inj {w : Wave} {n m : Nat} (hn : n < 320) (hm : m < 320) : w.phys n = w.phys m ↔ n = m := by
  unfold Wave.phys
  split <;> split <;> omega

theorem Wave.v_setV_same {w : Wave} (hw : Sparse.wf VReg.zero w.regs.v = true) (n : Nat) (r : VReg) : (w.setV n r).v n = r := by
  have hphys : (w.setV n r).phys n = w.phys n := rfl
  rw [Wave.v, hphys, Wave.setV, Sparse.get_set hw, if_pos rfl]

theorem Wave.v_setV_ne {w : Wave} (hw : Sparse.wf VReg.zero w.regs.v = true) {n m : Nat} (hn : n < 320) (hm : m < 320) (h : m ≠ n)
    (r : VReg) : (w.setV n r).v m = w.v m := by
  have hphys : (w.setV n r).phys m = w.phys m := rfl
  rw [Wave.v, hphys, Wave.setV, Sparse.get_set hw, if_neg (mt (Wave.phys_inj hm hn).mp h), Wave.v]

/-- A vector register written keeps the table of the vector registers in canonical form. -/
theorem Wave.wf_setV {w : Wave} (hw : Sparse.wf VReg.zero w.regs.v = true) (n : Nat) (r : VReg) :
    Sparse.wf VReg.zero (w.setV n r).regs.v = true :=
  Sparse.wf_set hw _ _

@[simp] theorem Wave.setV_s (w : Wave) (n : Nat) (r : VReg) (half k : Nat) : (w.setV n r).s half k = w.s half k := rfl
@[simp] theorem Wave.setV_p (w : Wave) (n : Nat) (r : VReg) (half k : Nat) : (w.setV n r).p half k = w.p half k := rfl
@[simp] theorem Wave.setV_halves (w : Wave) (n : Nat) (r : VReg) : (w.setV n r).halves = w.halves := rfl
@[simp] theorem Wave.setV_exited (w : Wave) (n : Nat) (r : VReg) : (w.setV n r).exited = w.exited := rfl
@[simp] theorem Wave.setV_rrb (w : Wave) (n : Nat) (r : VReg) : (w.setV n r).rrb = w.rrb := rfl
@[simp] theorem Wave.setV_hold (w : Wave) (n : Nat) (r : VReg) : (w.setV n r).hold = w.hold := rfl

/-! ### The paths of a result (R49, R83, R102) -/

theorem tyBits_eq (ty : Nat) : tyBits ty = 32 ∨ tyBits ty = 64 := by
  unfold tyBits
  split <;> simp

section
variable {c : Ctx} {w : Wave} {ty code l : Nat} {tag : BitVec 4} {m : Mask} {f : Nat → Nat}

/-- With no lane nothing is written. -/
theorem writeDst_noLane : writeDst c w ty code tag 0 f = w := by
  rw [writeDst, lowest_eq_none_iff.mpr rfl]

theorem writeDst_vector32 (hl : lowest m = some l) (hcode : code < 320) (hty : tyBits ty = 32) :
    writeDst c w ty code tag m f = w.setV code ⟨blend m (w.v code).data fun l => f l % 2 ^ 32, tag⟩ := by
  simp [writeDst, hl, hcode, hty]

theorem writeDst_vector64 (hl : lowest m = some l) (hcode : code < 320) (hty : tyBits ty = 64) :
    writeDst c w ty code tag m f = (w.setV code ⟨blend m (w.v code).data fun l => f l % 2 ^ 32, tag⟩).setV (code + 1)
      ⟨blend m (w.v (code + 1)).data fun l => f l / 2 ^ 32 % 2 ^ 32, tag⟩ := by
  simp [writeDst, hl, hcode, hty]

theorem writeDst_scalar (hl : lowest m = some l) {d : Nat} (hd : d < 64) :
    writeDst c w ty (320 + d) tag m f = w.setS c.who.half d (widen ty (f l)) := by
  have hlo : ¬320 + d < 320 := by omega
  have hhi : 320 + d < 384 := by omega
  simp only [writeDst, hl, if_neg hlo, if_pos hhi, Nat.add_sub_cancel_left]

theorem writeDst_predicate (hl : lowest m = some l) (d : Nat) :
    writeDst c w ty (416 + d) tag m f = w.setP d m (maskOf fun l => f l % 2 == 1) := by
  have hlo : ¬416 + d < 320 := by omega
  have hhi : ¬416 + d < 384 := by omega
  simp only [writeDst, hl, if_neg hlo, if_neg hhi, Nat.add_sub_cancel_left]

/-- The registers of a vector result after it: its tag, and its lanes blended in. -/
theorem writeDst_v (hw : Sparse.wf VReg.zero w.regs.v = true) (hd : code + tyRegs ty ≤ 320) (hl : lowest m = some l) {k : Nat}
    (hk : k < tyRegs ty) : (writeDst c w ty code tag m f).v (code + k) =
      ⟨blend m (w.v (code + k)).data fun l => f l / 2 ^ (32 * k) % 2 ^ 32, tag⟩ := by
  rcases tyBits_eq ty with hty | hty <;> simp only [tyRegs, hty] at hd hk
  · obtain rfl : k = 0 := by omega
    rw [writeDst_vector32 hl (by omega) hty, Nat.add_zero, Wave.v_setV_same hw]
    simp
  · rw [writeDst_vector64 hl (by omega) hty]
    obtain rfl | rfl : k = 0 ∨ k = 1 := by omega
    · rw [Wave.v_setV_ne (Wave.wf_setV hw _ _) (by omega) (by omega) (by omega), Nat.add_zero, Wave.v_setV_same hw]
      simp
    · rw [Wave.v_setV_same (Wave.wf_setV hw _ _)]

/-- A vector result leaves every other vector register. -/
theorem writeDst_v_ne (hw : Sparse.wf VReg.zero w.regs.v = true) (hd : code + tyRegs ty ≤ 320) (hl : lowest m = some l) {n : Nat}
    (hn : n < 320) (hne : ∀ k < tyRegs ty, n ≠ code + k) : (writeDst c w ty code tag m f).v n = w.v n := by
  rcases tyBits_eq ty with hty | hty <;> simp only [tyRegs, hty] at hd hne
  · rw [writeDst_vector32 hl (by omega) hty, Wave.v_setV_ne hw (by omega) hn (by simpa using hne 0 (by omega))]
  · rw [writeDst_vector64 hl (by omega) hty, Wave.v_setV_ne (Wave.wf_setV hw _ _) (by omega) hn (hne 1 (by omega)),
      Wave.v_setV_ne hw (by omega) hn (by simpa using hne 0 (by omega))]

/-- A vector result leaves scalars, predicates, splits, lane states, rotation and blocks. -/
theorem writeDst_vector_frame (hcode : code < 320) : let t := writeDst c w ty code tag m f
    (∀ half n, t.s half n = w.s half n) ∧ (∀ half n, t.p half n = w.p half n) ∧ t.halves = w.halves ∧ t.exited = w.exited ∧
      t.rrb = w.rrb ∧ t.hold = w.hold := by
  cases hl : lowest m with
  | none => simp [writeDst, hl]
  | some l =>
    rcases tyBits_eq ty with hty | hty
    · simp [writeDst_vector32 hl hcode hty]
    · simp [writeDst_vector64 hl hcode hty]

end

/-- Settles O11, by the registers of a vector result and by what it leaves. -/
theorem vectorResultWrites : Obligations.VectorResultWrites := by
  intro c w ty d tag m f hw hd
  have hcode : d < 320 := by
    have : 0 < tyRegs ty := by rcases tyBits_eq ty with hty | hty <;> simp [tyRegs, hty]
    omega
  refine ⟨?noLane, fun hm k hk => ?written, fun n hn hne => ?others, writeDst_vector_frame hcode⟩
  case noLane =>
    rintro rfl
    exact writeDst_noLane
  case written =>
    obtain ⟨l₀, hl₀⟩ := Option.ne_none_iff_exists'.mp (mt lowest_eq_none_iff.mp hm)
    rw [writeDst_v hw hd hl₀ hk]
    exact ⟨rfl, fun l hl => by rw [lane_blend _ _ _ hl, Nat.mod_mod]⟩
  case others =>
    cases hl : lowest m with
    | none => rw [lowest_eq_none_iff.mp hl, writeDst_noLane]
    | some l => exact writeDst_v_ne hw hd hl hn hne

/-! ### Scalars and predicates read after they are written (R48) -/

theorem Wave.setS_zero (w : Wave) (half : Nat) (v : BitVec 64) : w.setS half 0 v = w := by simp [Wave.setS]

theorem Wave.setP_zero (w : Wave) (m v : Mask) : w.setP 0 m v = w := by simp [Wave.setP]

/-- A scalar after a write of one: s0 reads zero, and ignores the write (R48). -/
theorem Wave.s_setS_same {w : Wave} (hw : Sparse.wf 0 w.regs.s = true) (half n : Nat) (v : BitVec 64) :
    (w.setS half n v).s half n = if n = 0 then 0 else v := by
  by_cases hn : n = 0
  · simp [Wave.s, hn]
  · have hphys : (w.setS half n v).physS half n = w.physS half n := by simp [Wave.setS, hn, Wave.physS]
    rw [Wave.s, if_neg hn, if_neg hn, hphys, Wave.setS, if_neg hn, Sparse.get_set hw, if_pos rfl]

theorem Wave.s_setS_ne {w : Wave} (hw : Sparse.wf 0 w.regs.s = true) {half n m : Nat} (h : w.physS half m ≠ w.physS half n)
    (v : BitVec 64) : (w.setS half n v).s half m = w.s half m := by
  by_cases hn : n = 0
  · rw [hn, Wave.setS_zero]
  · have hphys : (w.setS half n v).physS half m = w.physS half m := by simp [Wave.setS, hn, Wave.physS]
    rw [Wave.s, Wave.s, hphys, Wave.setS, if_neg hn, Sparse.get_set hw, if_neg h]

theorem Wave.setS_frame (w : Wave) (half n : Nat) (v : BitVec 64) :
    (w.setS half n v).regs.v = w.regs.v ∧ (w.setS half n v).regs.p = w.regs.p := by
  unfold Wave.setS
  split <;> exact ⟨rfl, rfl⟩

theorem Wave.setP_frame (w : Wave) (n : Nat) (m v : Mask) :
    (w.setP n m v).regs.v = w.regs.v ∧ (w.setP n m v).regs.s = w.regs.s := by
  unfold Wave.setP
  split <;> exact ⟨rfl, rfl⟩

/-- The stored predicates after a write of one: its lanes replaced, p0 untouched (R48). -/
theorem Wave.get_setP {w : Wave} (hw : Sparse.wf 0 w.regs.p = true) (d n : Nat) (m v : Mask) :
    Sparse.get 0 (w.setP d m v).regs.p n = if n = d ∧ d ≠ 0 then (Sparse.get 0 w.regs.p n &&& ~~~m) ||| (v &&& m)
      else Sparse.get 0 w.regs.p n := by
  by_cases hd : d = 0
  · simp [hd, Wave.setP_zero]
  · rw [Wave.setP, if_neg hd, Sparse.get_set hw]
    by_cases hn : n = d
    · subst hn; simp [hd]
    · simp [hn]

/-- The widening of a result by its type (R83). -/
theorem widen_of_wide {ty v : Nat} (hv : v < 2 ^ tyBits ty) (hty : tyBits ty = 64) : (widen ty v).toNat = v := by
  rw [hty] at hv
  rw [widen, if_pos hty, BitVec.toNat_ofNat, Nat.mod_eq_of_lt hv]

theorem widen_of_signed {ty v : Nat} (hty : tyBits ty = 32) (hs : ty = 0 ∨ ty = 9) : (widen ty v).toInt = asInt 32 v := by
  rw [widen, if_neg (by omega), if_pos hs, BitVec.toInt_signExtend_of_le (by decide), BitVec.toInt_eq_toNat_cond,
    BitVec.toNat_ofNat, asInt]
  split <;> split <;> omega

theorem widen_of_unsigned {ty v : Nat} (hv : v < 2 ^ tyBits ty) (hty : tyBits ty = 32) (hs : ty ≠ 0) (hs' : ty ≠ 9) :
    (widen ty v).toNat = v := by
  rw [hty] at hv
  rw [widen, if_neg (by omega), if_neg (by simp [hs, hs']), BitVec.toNat_setWidth, BitVec.toNat_ofNat, Nat.mod_eq_of_lt hv]
  omega

/-- Settles O12, by the widening of a result and by the reads after a scalar or a predicate is written. -/
theorem scalarAndPredicateResultWrites : Obligations.ScalarAndPredicateResultWrites := by
  refine ⟨fun ty v hv => ⟨widen_of_wide hv, widen_of_signed, widen_of_unsigned hv⟩, ?_⟩
  intro c w ty tag m f l hs hp hl
  refine ⟨?scalar, ?predicate⟩
  case scalar =>
    rintro d hd t rfl
    rw [writeDst_scalar hl hd]
    exact ⟨Wave.s_setS_same hs _ _ _, fun n _ hphys => Wave.s_setS_ne hs hphys _, Wave.setS_frame _ _ _ _⟩
  case predicate =>
    rintro d - t rfl
    rw [writeDst_predicate hl]
    exact ⟨fun n => Wave.get_setP hp d n _ _, rfl, Wave.setP_frame _ _ _ _⟩

end Sys2Proof.Machine

end

-- ==== Register blocks and special registers; O33, O40 ====
section
/-!
What the bodies of VGROW, VSHRINK and SRD answer (R54, R57, R58, R421).
-/

namespace Sys2Proof.Machine

/-- A core with a wave's request for a block among those of its pool; one that waits already is not repeated (R57, R58). -/
def Core.queueGrow (r : Core) (slot k : Nat) : Core :=
  if r.poolQ.any fun q => q.slot == slot && q.blk == k then r else { r with poolQ := r.poolQ ++ [⟨slot, k⟩] }

theorem Core.queueGrow_pool (r : Core) (slot k : Nat) : (r.queueGrow slot k).pool = r.pool := by
  unfold Core.queueGrow
  split <;> rfl

theorem Core.mem_queueGrow (r : Core) (slot k : Nat) : ∃ q ∈ (r.queueGrow slot k).poolQ, q.slot = slot ∧ q.blk = k := by
  unfold Core.queueGrow
  split
  · next h => simpa using h
  · exact ⟨⟨slot, k⟩, by simp, rfl, rfl⟩

/-- The cases of VGROW that complete, over its body (R57). -/
theorem vgrowBody_answered {e : Ext} {c : Ctx} {s : State}
    (hops : checkOps [{ predDstOk c e.d9.toNat with valid := e.d9.toNat != 416 && (predDstOk c e.d9.toNat).valid }] = none)
    (hk : c.progress.k = 1) : vgrowBody e c s = .next s := by
  simp [vgrowBody, hops, hk]

theorem vgrowBody_held {e : Ext} {c : Ctx} {s : State}
    (hops : checkOps [{ predDstOk c e.d9.toNat with valid := e.d9.toNat != 416 && (predDstOk c e.d9.toNat).valid }] = none)
    (hk : c.progress.k ≠ 1) (hheld : c.w.heldBlk (e.m 0 3) = true) :
    vgrowBody e c s = .next (s.put c ((s.mine c).setP (e.d9.toNat - 416) allLanes allLanes)) := by
  simp [vgrowBody, hops, hk, hheld]

theorem vgrowBody_waits {e : Ext} {c : Ctx} {s : State}
    (hops : checkOps [{ predDstOk c e.d9.toNat with valid := e.d9.toNat != 416 && (predDstOk c e.d9.toNat).valid }] = none)
    (hk : c.progress.k ≠ 1) (hheld : c.w.heldBlk (e.m 0 3) = false) :
    vgrowBody e c s = .wait ((s.updCore c.who.core fun r => r.queueGrow c.who.slot (e.m 0 3)).waitOn c (.vgrow e)) := by
  simp only [vgrowBody, withOps_ok hops, if_neg hk, hheld, Bool.false_eq_true, if_false]
  rfl

/-- A wave without outstanding writes has none in a block. -/
theorem Wave.busyBlk_of_noPend {w : Wave} (hp : w.pend = []) (k : Nat) : w.busyBlk k = false := by
  simp [Wave.busyBlk, hp]

/-- Settles O33, by the answers of the bodies of VGROW and VSHRINK. -/
theorem registerBlocks : Obligations.RegisterBlocks := by
  intro e s c
  dsimp only
  refine ⟨fun h hops => ⟨fun hk => ?answered, fun hheld hk => ?held, fun hheld hk => ?waits⟩,
    fun h => ⟨fun hheld => ?absent, fun hheld hrot => ?given, fun hk hheld hrot => ?rotating⟩⟩
  case answered => exact runWave_next h (vgrowBody_answered hops hk)
  case held => exact runWave_next h (by rw [vgrowBody_held hops hk hheld, State.mine_put, State.put_put])
  case waits =>
    refine ⟨_, runWave_wait h (vgrowBody_waits hops hk hheld), rfl, ?_, ?_⟩
    · rw [State.core_updCore]
      exact Core.mem_queueGrow _ _ _
    · rw [State.core_updCore, Core.queueGrow_pool]
      simp [State.put, State.setWave]
  case absent => exact runWave_next h (by simp [vshrinkBody, hheld])
  case given =>
    have hlast : (e.m 0 3 = 4 && c.half.rotating.isSome) = false := by
      by_cases hk : e.m 0 3 = 4
      · simp [hrot hk]
      · simp [hk]
    refine runWave_next h ?_
    simp only [vshrinkBody, hheld, hlast, State.mine_put, State.put_put, Wave.busyBlk_of_noPend h.pend, h.pend, List.map_nil,
      Bool.false_or]
    rfl
  case rotating => exact runWave_raise h (by simp [vshrinkBody, hk, hheld, hrot])

/-- In a native wave of a core the numbers of its place (R54). -/
theorem srdVal_place {c : Ctx} (s : State) (l : Nat) (hg : c.w.id.gang = false) (hc : c.who.core < 128) :
    srdVal c s 0 l = l ∧ srdVal c s 3 l = c.w.id.lvls.getD 1 0 ∧ srdVal c s 10 l = c.who.core := by
  have hcore : c.who.core ≠ mgmtCore := by unfold mgmtCore; omega
  refine ⟨?_, ?_, ?_⟩
  · simp [srdVal, hg]
  · simp [srdVal, hg]
  · simpa [srdVal, hcore] using hc

/-- SRD of an allowed destination: each lane's value, with one number of the free values used (R421). -/
theorem srdBody_of_pass {e : Ext} {c : Ctx} {s : State} (hd : e.d9.toNat < 384)
    (hops : checkOps [dstOk c e.u (if e.m 0 6 = 14 ∨ e.m 0 6 = 15 then 2 else 1) e.d9.toNat] = none) :
    srdBody e c s = .next (({ s with free := s.free + 1 } : State).put c
      (writeDst c (s.mine c) (if e.m 0 6 = 14 ∨ e.m 0 6 = 15 then 3 else 1) e.d9.toNat
        (if e.m 0 6 = 14 ∨ e.m 0 6 = 15 then 11 else 1) (c.act e.u e.pg e.pn) (srdVal c s (e.m 0 6)))) := by
  simp only [srdBody, if_neg (show ¬384 ≤ e.d9.toNat by omega), Bool.or_eq_true, decide_eq_true_eq]
  rw [withOps_ok hops]

/-- Settles O40, by the body of SRD and the numbers of a native wave's place. -/
theorem specialRegisterReads : Obligations.SpecialRegisterReads := by
  constructor
  · intro c s l hg hc
    obtain ⟨hlane, hwave, hcore⟩ := srdVal_place s l hg hc
    exact ⟨hlane, rfl, hwave, hcore, rfl, rfl, rfl, rfl⟩
  · intro e s c h d k wide hd hops
    refine ⟨{ s.put c c.w with free := s.free + 1 }, ?_, rfl, rfl, rfl⟩
    have hbody := srdBody_of_pass (s := s.put c c.w) hd hops
    rw [State.mine_put] at hbody
    exact runWave_next h hbody

end Sys2Proof.Machine

end

-- ==== The checks before an instruction's effect; O49 ====
section
/-!
The order of the checks before a body, and the exceptions that come to their taking alone (R66, R98, R100, R101, R248).
-/

namespace Sys2Proof.Machine

/-- The low 16 bits of KTCODE are the exception's code (R251). -/
theorem mkCode_low (regcnt : BitVec 20) (reread priv inchain async : Bool) (half slot code : Nat) :
    (mkCode regcnt reread priv inchain async half slot code).toNat % 2 ^ 16 = code % 2 ^ 16 := by
  rw [← BitVec.toNat_setWidth, mkCode, BitVec.setWidth_append_eq_right, BitVec.toNat_ofNat]

/-- Only DATA_INTEGRITY and ENGINE_COMMAND have a sequel (R196, R256). -/
theorem State.sequel_of_plain (s : State) {r : TrapRec} (slot : Nat) (hdata : r.code.toNat % 2 ^ 16 ≠ Exc.dataIntegrity)
    (heng : r.code.toNat % 2 ^ 16 ≠ Exc.engineCommand) : s.sequel r slot = s := by
  unfold State.sequel
  dsimp only
  split
  · rw [if_neg hdata, if_neg heng]
  · rw [if_neg hdata]

/-- An exception but for those two is the taking of it alone (R248). -/
theorem State.raise_of_plain (s : State) (c : Ctx) (reread : Bool) {code : Nat} (pc : Dword) (addr : Nat) (hcode : code < 2 ^ 16)
    (hdata : code ≠ Exc.dataIntegrity) (heng : code ≠ Exc.engineCommand) :
    s.raise c reread code pc addr = s.takeException c reread code pc addr := by
  have hlow : (c.record reread code pc addr).code.toNat % 2 ^ 16 = code := by
    rw [Ctx.record, mkCode_low, Nat.mod_eq_of_lt hcode]
  unfold State.raise
  dsimp only
  rw [State.sequel_of_plain _ _ (by rwa [hlow]) (by rwa [hlow]), ite_self]

/-- An instruction whose form the issuing wave may not execute raises what the check answers and changes nothing else (R100). -/
theorem runWave_refused {i : Instr} {e : Option Ext} {s : State} {c : Ctx} {code : Nat} (body : Ctx → State → Res)
    (hs : s.ctx? s.cur = some c) (hr : c.ready s = true) (hf : formCheck c i e = some code) (hcode : code < 2 ^ 16)
    (hdata : code ≠ Exc.dataIntegrity) (heng : code ≠ Exc.engineCommand) :
    runWave i e body s = .next (s.takeException c false code c.path.pc 0) := by
  simp only [runWave, hs, hr, if_true, issue, hf]
  rw [State.raise_of_plain _ _ _ _ _ hcode hdata heng]

/-- A privileged instruction runs under the checks of its form and mode. -/
theorem exec_of_isSys {i : Instr} (h : i.isSys = true) : ∃ e body, exec i = runWave i e body := by
  cases i with
  | crd _ | cwr _ | ktcodePop _ | kmodeIntlkWrite _ | rft _ | ctxsv _ | ctxld _ | tlbinv _ | idle _ | objrd _ | objwr _ | pwracq _
  | pwrrel _ | mgsig _ => exact ⟨_, _, rfl⟩
  | _ => simp [Instr.isSys] at h

/-- The order of the checks before an instruction's own (R100, R101): what the management core does not accept, then privilege,
then the form and the chain. -/
theorem formCheck_of_notAccepted {c : Ctx} {i : Instr} (e : Option Ext) (hk : c.w.id.kind = .mgmt) (ha : mgmtAccepts i = false) :
    formCheck c i e = some Exc.illegal := by
  simp [formCheck, hk, ha]

theorem formCheck_of_user {c : Ctx} {i : Instr} (e : Option Ext) (hp : c.w.priv = false) (hi : i.isSys = true) :
    formCheck c i e = some Exc.privileged := by
  have hk : c.w.id.kind ≠ .mgmt := by
    intro hk
    simp [Wave.priv, hk] at hp
  simp [formCheck, hk, hi, hp]

theorem formCheck_of_badForm {c : Ctx} {i : Instr} {e : Option Ext} (hk : c.w.id.kind = .mgmt → mgmtAccepts i = true)
    (hp : i.isSys = true → c.w.priv = true) (hbad : i.formOk = false ∨ chainOk c i e = false) :
    formCheck c i e = some Exc.illegal := by
  have hmgmt : (decide (c.w.id.kind = .mgmt) && !mgmtAccepts i) = false := by simpa using hk
  have hsys : (i.isSys && !c.w.priv) = false := by simpa using hp
  have hform : (!i.formOk || !chainOk c i e) = true := by simpa using hbad
  simp [formCheck, hmgmt, hsys, hform]

/-- Operand checks answer one of the four exceptions of R100 steps 4 to 6 and R196. -/
theorem checkOps_code {ops : List OpOk} {code : Nat} (h : checkOps ops = some code) :
    code = Exc.invalidOperand ∨ code = Exc.blockNotHeld ∨ code = Exc.formatMismatch ∨ code = Exc.dataIntegrity := by
  unfold checkOps at h
  split_ifs at h <;> simp_all

/-- Settles O49, by the order of the checks of a form and by the exceptions that have no sequel. -/
theorem checksBeforeEffect : Obligations.ChecksBeforeEffect := by
  refine ⟨?privilege, fun i e body s c hs hr => ⟨fun hk ha => ?accepted, fun hk hp hbad => ?form⟩, ?operands⟩
  case privilege =>
    intro i s c hi hs hr hp
    obtain ⟨e, body, hexec⟩ := exec_of_isSys hi
    rw [hexec]
    exact runWave_refused body hs hr (formCheck_of_user e hp hi) (by decide) (by decide) (by decide)
  case accepted => exact runWave_refused body hs hr (formCheck_of_notAccepted e hk ha) (by decide) (by decide) (by decide)
  case form => exact runWave_refused body hs hr (formCheck_of_badForm hk hp hbad) (by decide) (by decide) (by decide)
  case operands =>
    intro i e ops rest s c code h hops hdata
    have hsmall : code < 2 ^ 16 ∧ code ≠ Exc.engineCommand := by
      rcases checkOps_code hops with rfl | rfl | rfl | rfl <;> decide
    rw [runWave_raise h (withOps_bad hops), State.raise_of_plain _ _ _ _ _ hsmall.1 hdata hsmall.2]

end Sys2Proof.Machine

end

-- ==== The end of an instruction; O13 ====
section
/-!
What the end of an instruction leaves of its wave, of the other waves and of memory where no target of a JMPI is pending (R76, R81,
R165, R248).
-/

namespace Sys2Proof

/-- What holds of every place of a list holds of every place after one is changed by what keeps it. -/
theorem forall_mem_updAt {α : Type} {P : α → Prop} {f : α → α} {n : Nat} {l : List α} (hl : ∀ a ∈ l, P a)
    (hf : ∀ a, P a → P (f a)) : ∀ x ∈ updAt f n l, P x := by
  intro x hx
  obtain ⟨k, hk⟩ := List.mem_iff_getElem?.mp hx
  rw [updAt_getElem?] at hk
  split at hk
  · obtain ⟨a, ha, rfl⟩ := Option.map_eq_some_iff.mp hk
    exact hf a (hl a (List.mem_of_getElem? ha))
  · exact hl x (List.mem_of_getElem? hk)

end Sys2Proof

namespace Sys2Proof.Machine

/-! ### Stacks without pending targets -/

/-- No JMPI of an entry has targets pending (R76). -/
def Entry.NoTargets (e : Entry) : Prop := e.jmpi = none ∨ e.pending = 0

/-- No JMPI of a half has targets pending (R76). -/
def Half.NoTargets (h : Half) : Prop := ∀ e ∈ h.stack, e.NoTargets

/-- A half whose stack is not empty, by its top and what is below. -/
theorem Half.noTargets_iff {h : Half} {e : Entry} {es : List Entry} (hs : h.stack = e :: es) :
    h.NoTargets ↔ e.NoTargets ∧ ∀ x ∈ es, x.NoTargets := by
  rw [Half.NoTargets, hs, List.forall_mem_cons]

theorem Half.updPath_noTargets {h : Half} (hn : h.NoTargets) (k : Nat) (f : Path → Path) : (h.updPath k f).NoTargets := by
  unfold Half.updPath
  split
  · split <;> exact hn
  · next e es hs =>
    refine (Half.noTargets_iff rfl).mpr ?_
    exact (Half.noTargets_iff hs).mp hn

theorem Half.pop_noTargets {h : Half} {below : List Entry} (hn : ∀ x ∈ below, x.NoTargets) (e : Entry) :
    (h.pop e below).NoTargets := by
  cases below with
  | nil => exact fun x hx => by simp [Half.pop] at hx
  | cons b bs =>
    obtain ⟨hb, hbs⟩ := List.forall_mem_cons.mp hn
    refine (Half.noTargets_iff rfl).mpr ?_
    exact ⟨hb, hbs⟩

/-- Arrivals, merges and pops make no target pending. -/
theorem Half.settle_noTargets (fuel : Nat) {h : Half} (hn : h.NoTargets) : (h.settle fuel).1.NoTargets := by
  induction fuel generalizing h with
  | zero => exact hn
  | succ fuel ih =>
    rw [Half.settle]
    split
    · exact hn
    · next e es hs =>
      obtain ⟨htop, hbelow⟩ := (Half.noTargets_iff hs).mp hn
      dsimp only
      split
      · split
        · exact Half.pop_noTargets hbelow _
        · exact ih (Half.pop_noTargets hbelow _)
      · generalize (if es.isEmpty then _ else runPaths true e.arrive.stalled e.arrive.paths : List Path) = ps
        split
        · exact hn
        · refine ih ((Half.noTargets_iff rfl).mpr ?_)
          exact ⟨htop, hbelow⟩

theorem lineage_noTargets {es : List Entry} (hn : ∀ x ∈ es, x.NoTargets) (f : Path → Path) (e : Entry) :
    ∀ x ∈ lineage f e es, x.NoTargets := by
  induction es generalizing e with
  | nil => simp [lineage]
  | cons b bs ih =>
    obtain ⟨hb, hbs⟩ := List.forall_mem_cons.mp hn
    exact List.forall_mem_cons.mpr ⟨hb, ih hbs b⟩

/-! ### A wave whose registers stand -/

/-- A wave that differs from another in where its splits stand: its registers, exited lanes, thread tags, blocks and names are
the same, and no target is pending that was not before. -/
structure Wave.Stands (w w' : Wave) : Prop where
  regs : w'.regs = w.regs
  exited : w'.exited = w.exited
  tids : w'.tids = w.tids
  hold : w'.hold = w.hold
  id : w'.id = w.id
  targets : (∀ h ∈ w.halves, h.NoTargets) → ∀ h ∈ w'.halves, h.NoTargets

theorem Wave.Stands.refl (w : Wave) : w.Stands w := ⟨rfl, rfl, rfl, rfl, rfl, fun h => h⟩

theorem Wave.Stands.trans {u v w : Wave} (h : u.Stands v) (h' : v.Stands w) : u.Stands w :=
  ⟨h'.regs.trans h.regs, h'.exited.trans h.exited, h'.tids.trans h.tids, h'.hold.trans h.hold, h'.id.trans h.id,
    fun hn => h'.targets (h.targets hn)⟩

theorem Wave.stands_updHalf (w : Wave) (n : Nat) {f : Half → Half}
    (hf : ∀ h : Half, h.NoTargets → (f h).NoTargets) : w.Stands (w.updHalf n f) :=
  ⟨rfl, rfl, rfl, rfl, rfl, fun hn => forall_mem_updAt hn hf⟩

theorem Wave.stands_updPath (w : Wave) (half k : Nat) (f : Path → Path) : w.Stands (w.updPath half k f) :=
  w.stands_updHalf half fun _ hn => Half.updPath_noTargets hn k f

theorem Wave.Stands.updPath {w v : Wave} (h : w.Stands v) (half k : Nat) (f : Path → Path) : w.Stands (v.updPath half k f) :=
  h.trans (v.stands_updPath half k f)

/-- The end of a level (R166). -/
theorem Wave.stands_endLevel (w : Wave) (half path n : Nat) : w.Stands (w.endLevel half path n) := by
  refine ⟨rfl, rfl, rfl, rfl, rfl, fun hall => forall_mem_updAt hall fun h hn => ?_⟩
  have hmap : ∀ x ∈ h.stack.map fun e => { e with paths := e.paths.map (Path.unhold n) }, x.NoTargets := by
    intro x hx
    obtain ⟨y, hy, rfl⟩ := List.mem_map.mp hx
    exact hn y hy
  dsimp only
  split
  · exact hn
  · next e es hs =>
    rw [hs] at hmap
    obtain ⟨htop, hbelow⟩ := List.forall_mem_cons.mp hmap
    refine (Half.noTargets_iff rfl).mpr ?_
    exact ⟨htop, lineage_noTargets hbelow _ _⟩

/-- A split left with no lane (R169). -/
theorem Wave.stands_emptied (fuel : Nat) (w : Wave) (half path : Nat) : w.Stands (w.emptied fuel half path) := by
  induction fuel generalizing w with
  | zero => exact .refl w
  | succ fuel ih =>
    rw [Wave.emptied]
    split
    · exact .refl w
    · split
      · exact .refl w
      · dsimp only
        have hended (n : Nat) (l : Level) (back : Mask) : w.Stands (
            if back ≠ 0 then (w.endLevel half path n).updPath half path fun p => { p with pc := l.after, wait := .ready, prog := none }
            else (w.endLevel half path n).emptied fuel half path) := by
          split
          · exact (w.stands_endLevel _ _ _).updPath _ _ _
          · exact (w.stands_endLevel _ _ _).trans (ih _)
        split
        · split
          · exact .refl w
          · exact hended _ _ _
        · exact hended _ _ _

/-- Merges and pops (R28, R161). -/
theorem Wave.stands_settle (fuel : Nat) (w : Wave) (half : Nat) : w.Stands (w.settle fuel half) := by
  induction fuel generalizing w with
  | zero => exact .refl w
  | succ fuel ih =>
    rw [Wave.settle]
    split
    · exact .refl w
    · next h hh =>
      have hset : w.Stands (w.updHalf half fun _ => (h.settle 100).1) := ⟨rfl, rfl, rfl, rfl, rfl, fun hall =>
        forall_mem_updAt hall fun _ _ => Half.settle_noTargets 100 (hall h (List.mem_of_getElem? hh))⟩
      dsimp only
      split
      · exact hset
      · exact (hset.trans (Wave.stands_emptied _ _ _ _)).trans (ih _)

/-- Back edges (R165). -/
theorem Wave.stands_backEdge (fuel : Nat) {w v : Wave} {half path : Nat} {pc nxt pc' : Dword}
    (h : w.backEdge fuel half path pc nxt = some (v, pc')) : w.Stands v := by
  induction fuel generalizing w with
  | zero =>
    obtain ⟨rfl, -⟩ := Prod.mk.inj (Option.some.inj h)
    exact .refl w
  | succ fuel ih =>
    rw [Wave.backEdge] at h
    have hsame {x : Wave} (hx : some (w, nxt) = some (x, pc')) : w.Stands x := by
      obtain ⟨rfl, -⟩ := Prod.mk.inj (Option.some.inj hx)
      exact .refl w
    split at h
    · exact hsame h
    · split at h
      · exact hsame h
      · split at h
        · exact hsame h
        · split at h
          · dsimp only at h
            split at h
            · exact absurd h (by simp)
            · obtain ⟨rfl, -⟩ := Prod.mk.inj (Option.some.inj h)
              exact ⟨rfl, rfl, rfl, rfl, rfl, fun hall =>
                forall_mem_updAt (forall_mem_updAt hall fun _ hn => hn) fun _ hn => Half.updPath_noTargets hn _ _⟩
          · exact (w.stands_endLevel _ _ _).trans (ih h)

/-! ### States that differ in one wave's splits -/

/-- A state that another becomes where the splits of one wave alone go on: its registers stand, and so do every other wave and
the memory. -/
structure State.Stands (core slot : Nat) (s t : State) : Prop where
  mine : ∀ w, s.wave? core slot = some w → ∃ w', t.wave? core slot = some w' ∧ w.Stands w'
  others : ∀ d k, (d ≠ core ∨ k ≠ slot) → t.wave? d k = s.wave? d k
  mem : t.mem = s.mem

section
variable {core slot : Nat} {s t u : State}

theorem State.Stands.trans (h : State.Stands core slot s t) (h' : State.Stands core slot t u) : State.Stands core slot s u := by
  refine ⟨fun w hw => ?_, fun d k hne => (h'.others d k hne).trans (h.others d k hne), h'.mem.trans h.mem⟩
  obtain ⟨v, hv, hwv⟩ := h.mine w hw
  obtain ⟨x, hx, hvx⟩ := h'.mine v hv
  exact ⟨x, hx, hwv.trans hvx⟩

/-- Where every wave and the memory are those of before. -/
theorem State.Stands.of_eq (hw : ∀ d k, t.wave? d k = s.wave? d k) (hm : t.mem = s.mem) : State.Stands core slot s t :=
  ⟨fun w h => ⟨w, (hw core slot).trans h, .refl w⟩, fun d k _ => hw d k, hm⟩

theorem State.Stands.refl : State.Stands core slot s s := .of_eq (fun _ _ => rfl) rfl

theorem State.stands_setWave {w w' : Wave} (hw : s.wave? core slot = some w) (h : w.Stands w') :
    State.Stands core slot s (s.setWave core slot w') := by
  refine ⟨fun v hv => ⟨w', s.wave?_setWave _ _ _, ?_⟩, fun d k hne => s.wave?_setWave_ne hne w', rfl⟩
  obtain rfl : w = v := Option.some.inj (hw.symm.trans hv)
  exact h

theorem State.Stands.updWave {f : Wave → Wave} (h : State.Stands core slot s t) (hf : ∀ w : Wave, w.Stands (f w)) :
    State.Stands core slot s (t.updWave core slot f) := by
  unfold State.updWave
  split
  · next w hw => exact h.trans (State.stands_setWave hw (hf w))
  · exact h

theorem State.Stands.updCore {f : Core → Core} (h : State.Stands core slot s t) (d : Nat)
    (hf : ∀ k, (f k).waves = k.waves := by intro k; rfl) :
    State.Stands core slot s (t.updCore d f) :=
  h.trans (.of_eq (fun _ _ => t.wave?_updCore d hf _ _) rfl)

/-- A wave whose split has raised an exception. -/
theorem Wave.stands_faulted (w : Wave) (c : Ctx) (reread : Bool) : w.Stands (w.faulted c reread) := by
  unfold Wave.faulted
  split
  · exact ⟨rfl, rfl, rfl, rfl, rfl, fun h => h⟩
  · have hpath := w.stands_updPath c.who.half c.who.path Path.faulted
    exact ⟨hpath.regs, hpath.exited, hpath.tids, hpath.hold, hpath.id, hpath.targets⟩

/-- A privileged fault (R255). -/
theorem State.stands_privTrap (s : State) (core slot half path : Nat) (r : TrapRec) :
    State.Stands core slot s (s.privTrap core slot half path r) := by
  unfold State.privTrap
  dsimp only
  split
  · refine State.Stands.updCore (State.Stands.updCore .refl _) _ fun k => ?_
    split <;> rfl
  · refine State.Stands.updWave (State.Stands.updCore .refl _) fun w => Wave.Stands.updPath ?_ _ _ _
    exact ⟨rfl, rfl, rfl, rfl, rfl, fun h => h⟩

/-- The taking of an exception (R248). -/
theorem State.stands_takeException (s : State) (c : Ctx) (reread : Bool) (code : Nat) (pc : Dword) (addr : Nat) :
    State.Stands c.who.core c.who.slot s (s.takeException c reread code pc addr) := by
  have hfault (w v : Wave) (hv : v.regs = (w.faulted c reread).regs ∧ v.exited = (w.faulted c reread).exited ∧
      v.tids = (w.faulted c reread).tids ∧ v.hold = (w.faulted c reread).hold ∧ v.id = (w.faulted c reread).id ∧
      v.halves = (w.faulted c reread).halves) : w.Stands v := by
    obtain ⟨hregs, hexited, htids, hhold, hid, hhalves⟩ := hv
    exact (w.stands_faulted c reread).trans ⟨hregs, hexited, htids, hhold, hid, by rw [hhalves]; exact fun h => h⟩
  unfold State.takeException
  dsimp only
  split
  · exact s.stands_privTrap _ _ _ _ _
  · split
    · exact State.Stands.updWave .refl fun w => hfault w _ ⟨rfl, rfl, rfl, rfl, rfl, rfl⟩
    · exact State.Stands.updWave (State.Stands.updCore .refl _) fun w => hfault w _ ⟨rfl, rfl, rfl, rfl, rfl, rfl⟩

/-- A region closed (R170). -/
theorem State.stands_closeRegion (s : State) (c : Ctx) (pc : Dword) : State.Stands c.who.core c.who.slot s (s.closeRegion c pc) := by
  refine State.Stands.updWave .refl fun w => ?_
  have hcount : w.Stands { w with regcnt := w.regcnt + 1 } := ⟨rfl, rfl, rfl, rfl, rfl, fun h => h⟩
  dsimp only
  split
  · split
    · refine Wave.Stands.trans (v := { w with regcnt := w.regcnt + 1, srrb := w.rrb }) ⟨rfl, rfl, rfl, rfl, rfl, fun h => h⟩
        (Wave.stands_updHalf _ _ fun _ hn => ?_)
      exact hn
    · exact hcount
  · exact hcount

/-- A merge where no target is pending, which starts no path (R28, R76). -/
theorem State.stands_merge {a : Who} {w : Wave} (hw : s.wave? a.core a.slot = some w) (hn : ∀ h ∈ w.halves, h.NoTargets)
    (fuel : Nat) : State.Stands a.core a.slot s (s.merge fuel a) := by
  cases fuel with
  | zero => exact .refl
  | succ fuel =>
    have hset := w.stands_settle 70 a.half
    have hput : State.Stands a.core a.slot s (if w.settle 70 a.half = w then s else s.setWave a.core a.slot (w.settle 70 a.half)) := by
      split
      · exact .refl
      · exact State.stands_setWave hw hset
    simp only [State.merge, hw]
    split
    · next e es _ _ _ _ hh =>
      have hall := hset.targets hn _ (List.mem_of_getElem? hh)
      have htop : e.NoTargets := hall e (by simp)
      split
      · next at' hj =>
        have hpend : e.pending = 0 := htop.resolve_left (by simp [hj])
        simp only [hpend, beq_self_eq_true, Bool.true_or, if_true]
        exact hput
      · exact hput
    · exact hput

/-- A block's flag cleared (R263). -/
theorem State.stands_clearIdem (s : State) (c : Ctx) : State.Stands core slot s (s.clearIdem c) := by
  unfold State.clearIdem
  split
  · exact .of_eq (fun _ _ => rfl) rfl
  · exact .refl

/-- The exception of a back edge that is not taken (R76). -/
theorem State.Stands.loopNest {c d : Ctx} (h : State.Stands c.who.core c.who.slot s t) (hd : d.who = c.who) (pc : Dword) :
    State.Stands c.who.core c.who.slot s (t.raise d false Exc.loopNest pc 0) := by
  rw [State.raise_of_plain _ _ _ _ _ (by decide) (by decide) (by decide)]
  have htaken := t.stands_takeException d false Exc.loopNest pc 0
  rw [hd] at htaken
  exact h.trans htaken

theorem State.Stands.updPath {c : Ctx} (h : State.Stands c.who.core c.who.slot s t) (f : Path → Path) :
    State.Stands c.who.core c.who.slot s (t.updPath c f) :=
  h.updWave fun w => w.stands_updPath _ _ f

end

/-- The end of an instruction moves the splits of its wave alone (R81). -/
theorem finish_stands (i : Instr) (e : Option Ext) (c : Ctx) {s : State} {w : Wave} (hw : s.wave? c.who.core c.who.slot = some w)
    (hn : ∀ h ∈ w.halves, h.NoTargets) (falls closes : Bool) :
    State.Stands c.who.core c.who.slot s (finish i e c s falls closes) := by
  have hmerge {t : State} (h : State.Stands c.who.core c.who.slot s t) : State.Stands c.who.core c.who.slot s (t.merge 70 c.who) := by
    obtain ⟨v, hv, hwv⟩ := h.mine w hw
    exact h.trans (State.stands_merge hv (hwv.targets hn) 70)
  have hregion {t : State} (h : State.Stands c.who.core c.who.slot s t) (pc : Dword) :
      State.Stands c.who.core c.who.slot s (if closes then t.closeRegion c pc else t) := by
    split
    · exact h.trans (t.stands_closeRegion c pc)
    · exact h
  simp only [finish]
  generalize ht : (if closes && clearsIdem i then _ else _ : State) = t
  have hst : State.Stands c.who.core c.who.slot s t := by
    have hissued (n : Nat) : State.Stands c.who.core c.who.slot s ((s.updWave c.who.core c.who.slot fun w =>
        { w with chain := if (e.map (·.ch)).getD false then w.chain else none, lastIssue := s.now }).updCore c.who.core
          fun k => { k with lastIssue := n }) := by
      refine State.Stands.updCore (State.Stands.updWave .refl fun w => ?_) _
      exact ⟨rfl, rfl, rfl, rfl, rfl, fun h => h⟩
    rw [← ht]
    split
    · exact (hissued _).trans (State.stands_clearIdem _ c)
    · exact hissued _
  split
  · exact hmerge hst
  · split
    · exact hst
    · next v hv =>
      split
      · refine State.Stands.loopNest (c := c) ?_ ?_ _
        · exact (hregion hst _).updPath _
        · rfl
      · next x pc hx =>
        exact hmerge (hregion (hst.trans (State.stands_setWave hv ((Wave.stands_backEdge 4 hx).updPath _ _ _))) _)

/-- The bookkeeping of an instruction's writes, where none was outstanding before (R97). -/
theorem State.stands_track {s : State} {c : Ctx} {w : Wave} (hw : s.wave? c.who.core c.who.slot = some w) (hp : w.pend = [])
    (i : Instr) (e : Option Ext) (old : Regs) : State.Stands c.who.core c.who.slot s (s.track c i e old) := by
  have hpend (ps : List Pend) : w.Stands { w with pend := ps } := ⟨rfl, rfl, rfl, rfl, rfl, fun h => h⟩
  cases e with
  | none =>
    simp only [State.track, hw]
    exact State.stands_setWave hw (hpend _)
  | some e =>
    simp only [State.track, hw, hp]
    generalize hx : List.foldl _ _ _ = x
    have hkept : x.1 = [] ∧ x.2.2 = (w, s) := by
      rw [← hx]
      refine List.foldlRecOn (motive := fun x : List Pend × List OldReg × Wave × State => x.1 = [] ∧ x.2.2 = (w, s))
        _ _ ⟨rfl, rfl⟩ fun x ⟨hps, hws⟩ r _ => ?_
      rw [hps, hws]
      exact ⟨rfl, rfl⟩
    obtain ⟨ps, before, v, t⟩ := x
    obtain ⟨-, hvt⟩ := hkept
    obtain ⟨rfl, rfl⟩ := Prod.mk.inj hvt
    exact State.stands_setWave hw (hpend _)

/-- Settles O13: the bookkeeping of outstanding writes and the end of the instruction move the splits of the wave alone. -/
theorem endKeepsRegistersAndMemory : Obligations.EndKeepsRegistersAndMemory := by
  intro i e c s u w falls closes hw hp hn t
  have htracked : State.Stands c.who.core c.who.slot u (if s.scheduled c then u.track c i e c.w.regs else u) := by
    split
    · exact State.stands_track hw hp i e _
    · exact .refl
  obtain ⟨v, hv, hwv⟩ := htracked.mine w hw
  have hst : State.Stands c.who.core c.who.slot u t := htracked.trans (finish_stands i e c hv (hwv.targets hn) falls closes)
  obtain ⟨w', hw', hstands⟩ := hst.mine w hw
  exact ⟨⟨w', hw', hstands.regs, hstands.exited, hstands.tids, hstands.hold, hstands.id⟩,
    fun a => by rw [State.byte, hst.mem, State.byte], by rw [hst.mem], by rw [hst.mem], hst.others⟩

end Sys2Proof.Machine

end

-- ==== Splits that look again: the wakes; O56 ====
section
/-!
The events that wake a split of O56: each executes the instruction that the split waits in.
-/

namespace Sys2Proof.Machine

/-- A split that waits in an instruction and could go on is waiting in it (R248). -/
theorem Ctx.waiting_of_waitsIn {s : State} {a : Who} {c : Ctx} {i : Instr} {n : Nat} (h : Claims.WaitsIn s a c i n) :
    c.waiting = some i := by
  obtain ⟨-, hwait, hrun, harr, htraps, hreread⟩ := h
  have hnone : c.w.halves.all (·.reread.isEmpty) = true := by simpa using hreread
  simp [Ctx.waiting, hwait, hrun, harr, htraps, hnone]

section
variable {s v : State} {a : Who} {c : Ctx} {i : Instr} {n : Nat} {f : Instr → Option (Option Ext × (Ctx → State → Res))}
  {e : Option Ext} {body : Ctx → State → Res}

/-- A waiting split that looks again and completes (R185). -/
theorem State.resume_next (h : Claims.WaitsIn s a c i n) (hf : f i = some (e, body)) (hb : body c (Claims.looks s c) = .next v) :
    s.resume a f = ended i e c s v := by
  simp only [Claims.looks] at hb
  simp only [State.resume, h.1, Ctx.waiting_of_waitsIn h, Option.bind_some, hf, Option.map_some, hb]
  rfl

theorem State.resume_nextR (h : Claims.WaitsIn s a c i n) (hf : f i = some (e, body)) (hb : body c (Claims.looks s c) = .nextR v) :
    s.resume a f = endedRegion i e c s v := by
  simp only [Claims.looks] at hb
  simp only [State.resume, h.1, Ctx.waiting_of_waitsIn h, Option.bind_some, hf, Option.map_some, hb]
  rfl

/-- One that looks again and raises. -/
theorem State.resume_raise {code addr : Nat} (h : Claims.WaitsIn s a c i n) (hf : f i = some (e, body))
    (hb : body c (Claims.looks s c) = .raise v code addr) : s.resume a f = v.raise c false code c.path.pc addr := by
  simp only [Claims.looks] at hb
  simp only [State.resume, h.1, Ctx.waiting_of_waitsIn h, Option.bind_some, hf, Option.map_some, hb]
  rfl

/-- One that looks again and waits on: nothing happens where it has asked nothing of the League and come no further; it keeps its
place otherwise, unless it waits for something else now. -/
theorem State.resume_wait {d : Ctx} (h : Claims.WaitsIn s a c i n) (hf : f i = some (e, body))
    (hb : body c (Claims.looks s c) = .wait v) (hd : v.ctx? a = some d) :
    (∀ j m, d.path.wait = .on j m → s.resume a f = if v.league.reqs = s.league.reqs ∧ d.path.prog = c.path.prog then s
      else v.updPath c fun p => { p with wait := c.path.wait }) ∧
    ((∀ j m, d.path.wait ≠ .on j m) → s.resume a f = v) := by
  simp only [Claims.looks] at hb
  simp only [State.resume, h.1, Ctx.waiting_of_waitsIn h, Option.bind_some, hf, Option.map_some, hb, hd]
  obtain ⟨who, w, half, ⟨pc, mask, running, arrived, held, wait, prog, iters⟩⟩ := d
  cases wait with
  | on j m => exact ⟨fun _ _ _ => rfl, fun hne => absurd rfl (hne j m)⟩
  | ready | parked _ | filling | quiet => exact ⟨fun _ _ h => (nomatch h), fun _ => rfl⟩

end

/-- An event that resumes a split in an instruction lets it go on with that instruction's body. -/
theorem wakes_of_resume {ev i : Instr} {a : Who} {e : Option Ext} {body : Ctx → State → Res}
    {f : Instr → Option (Option Ext × (Ctx → State → Res))} (hev : ∀ s, exec ev s = .next (s.resume a f)) (hf : f i = some (e, body)) :
    Claims.Wakes ev i a e body := by
  intro s c n h u
  refine ⟨fun v d hb hd => ?_, fun v hb => ?_, fun v hb => ?_, fun v code addr hb => ?_⟩
  · obtain ⟨hon, hother⟩ := State.resume_wait h hf hb hd
    rw [hev]
    split
    · next j m hwait => rw [hon j m hwait]
    · next hne => rw [hother hne]
  · rw [hev, State.resume_next h hf hb]
  · rw [hev, State.resume_nextR h hf hb]
  · rw [hev, State.resume_raise h hf hb]

/-- The wakes of splits (R157, R185, R211, R229). -/
theorem wakes (a : Who) (e : Ext) : Claims.Wakes (.cwaitSatisfied a) (.cwait e) a (some e) (cwaitBody e) ∧
    Claims.Wakes (.fullEmptyWake a) (.ldlExt e) a (some e) (ldlBody (.ldlExt e) (Ext.loadArgs e)) ∧
    Claims.Wakes (.fullEmptyWake a) (.stlExt e) a (some e) (stlBody (.stlExt e) (Ext.storeArgs e)) ∧
    Claims.Wakes (.fencerComplete a) (.fencer e) a (some e) (fencerBody e) ∧
    Claims.Wakes (.kernelObjectWake a) (.psend e) a (some e) (psendBody e) ∧
    Claims.Wakes (.kernelObjectWake a) (.precv e) a (some e) (precvBody e) ∧
    Claims.Wakes (.kernelObjectWake a) (.wswait e) a (some e) (wswaitBody e) :=
  ⟨wakes_of_resume (fun _ => rfl) rfl, wakes_of_resume (fun _ => rfl) rfl, wakes_of_resume (fun _ => rfl) rfl,
    wakes_of_resume (fun _ => rfl) rfl, wakes_of_resume (fun _ => rfl) rfl, wakes_of_resume (fun _ => rfl) rfl,
    wakes_of_resume (fun _ => rfl) rfl⟩

end Sys2Proof.Machine

end

-- ==== One uncached read of local memory; O56 ====
section
/-!
What a single uncached 8-byte read of local memory answers: the read of a CWAIT whose counter has reached its target.
-/

namespace Sys2Proof

theorem leNat_lt (bs : List Byte) : leNat bs < 2 ^ (8 * bs.length) := by
  induction bs with
  | nil => simp [leNat]
  | cons b bs ih =>
    have hb : b.toNat < 256 := b.isLt
    rw [leNat, List.length_cons, Nat.mul_succ, Nat.pow_add]
    omega

theorem leNat_append (as bs : List Byte) : leNat (as ++ bs) = leNat as + 2 ^ (8 * as.length) * leNat bs := by
  induction as with
  | nil => simp [leNat]
  | cons a as ih =>
    rw [List.cons_append, leNat, ih, leNat, List.length_cons, Nat.mul_succ, Nat.pow_add]
    ring

@[simp] theorem Sparse.length_range {α : Type} (d : α) (m : List (Nat × α)) (k n : Nat) : (Sparse.range d m k n).length = n := by
  induction n generalizing k with
  | zero => rfl
  | succ n ih => simp [Sparse.range, ih]

theorem Sparse.range_add {α : Type} (d : α) (m : List (Nat × α)) (k i j : Nat) :
    Sparse.range d m k (i + j) = Sparse.range d m k i ++ Sparse.range d m (k + i) j := by
  induction i generalizing k with
  | zero => simp [Sparse.range]
  | succ i ih =>
    have hnext : k + (i + 1) = k + 1 + i := by omega
    rw [Nat.add_right_comm, Sparse.range, ih, Sparse.range, List.cons_append, hnext]

end Sys2Proof

namespace Sys2Proof.Machine

/-! ### Reads leave HBM -/

@[simp] theorem State.setCopy_hbm (s : State) (u g : Nat) (c : Copy) : (s.setCopy u g c).mem.hbm = s.mem.hbm := rfl
@[simp] theorem State.dropCopy_hbm (s : State) (u g : Nat) : (s.dropCopy u g).mem.hbm = s.mem.hbm := rfl

@[simp] theorem State.pick_mem {α : Type} [DecidableEq α] (s : State) (a b : α) : (s.pick a b).2.mem = s.mem := by
  unfold State.pick
  split <;> rfl

@[simp] theorem State.readGran_hbm (s : State) (g : Nat) (us : List Nat) (skip : Nat) :
    (s.readGran g us skip).2.mem.hbm = s.mem.hbm := by
  induction us generalizing skip with
  | nil => rfl
  | cons u us ih =>
    have hnext := ih (skip - 1)
    obtain ⟨⟨v, t⟩, hr⟩ : ∃ x, s.readGran g us (skip - 1) = x := ⟨_, rfl⟩
    rw [hr] at hnext
    simp only [State.readGran, hr]
    split
    · exact hnext
    · next c _ =>
      have hchosen : (if skip > 0 then (mergeBytes c.dirty c.data v, t)
          else if t.granBad g us 0 (~~~c.dirty) then (c.data, t) else t.pick (mergeBytes c.dirty c.data v) c.data).2.mem.hbm =
          s.mem.hbm := by
        split
        · exact hnext
        · split
          · exact hnext
          · rw [State.pick_mem]; exact hnext
      generalize (if skip > 0 then (mergeBytes c.dirty c.data v, t)
        else if t.granBad g us 0 (~~~c.dirty) then (c.data, t) else t.pick (mergeBytes c.dirty c.data v) c.data) = r at hchosen ⊢
      split
      · exact hchosen
      · exact hchosen

/-- A write at a unit of a path leaves HBM. -/
theorem State.writeGran_hbm (s : State) (u : Nat) (us : List Nat) (g : Nat) (m : BitVec 16) (d : BitVec 128) :
    (s.writeGran (u :: us) g m d).mem.hbm = s.mem.hbm := by
  unfold State.writeGran
  dsimp only
  split
  · rfl
  · simp

@[simp] theorem State.passGran_hbm (s : State) (us : List Nat) (g : Nat) (m : BitVec 16) (d : BitVec 128) :
    (s.passGran us g m d).mem.hbm = s.mem.hbm := by
  refine List.foldlRecOn (motive := fun t : State => t.mem.hbm = s.mem.hbm) _ _ rfl fun t ht u _ => ?_
  split <;> exact ht

/-- A copy pushed to a unit leaves HBM. -/
theorem State.pushCopy_hbm (s : State) (u v : Nat) (mids below : List Nat) (g : Nat) :
    (s.pushCopy u mids (v :: below) g).mem.hbm = s.mem.hbm := by
  unfold State.pushCopy
  split
  · split
    · rfl
    · simp [State.writeGran_hbm]
  · rfl

/-- On a core with caches a wave's separate copy goes to the first of them (R207). -/
theorem State.joinCopy_hbm (s : State) {sp : Space} (hcore : sp.core ≠ mgmtCore) (g : Nat) :
    (s.joinCopy sp g).mem.hbm = s.mem.hbm := by
  unfold State.joinCopy
  dsimp only
  split
  · rfl
  · rw [State.dropCopy_hbm, cachePath, if_neg hcore, State.pushCopy_hbm]

@[simp] theorem State.markG_hbm (s : State) (l : Leaf) (g : Nat) : (s.markG l g).mem.hbm = s.mem.hbm := by
  unfold State.markG
  split <;> rfl

theorem State.num_of_hbm {s t : State} (h : t.mem.hbm = s.mem.hbm) (a n : Nat) : t.num a n = s.num a n := by
  unfold State.num State.bytes
  rw [h]

/-- Eight aligned bytes are half of their granule. -/
theorem State.homeGran_half (s : State) {pa : Nat} (hpa : pa % 8 = 0) :
    (s.homeGran (pa / 16)).toNat / 2 ^ (8 * (pa % 16)) % 2 ^ 64 = s.num pa 8 := by
  have hsplit : s.num (16 * (pa / 16)) 16 = s.num (16 * (pa / 16)) 8 + 2 ^ 64 * s.num (16 * (pa / 16) + 8) 8 := by
    unfold State.num State.bytes
    rw [show 16 = 8 + 8 from rfl, Sparse.range_add, leNat_append, Sparse.length_range]
  have hlt (a : Nat) : s.num a 8 < 2 ^ 64 := by
    have h := leNat_lt (s.bytes a 8)
    rwa [State.bytes, Sparse.length_range] at h
  have hlo := hlt (16 * (pa / 16))
  have hhi := hlt (16 * (pa / 16) + 8)
  have hgran : (s.homeGran (pa / 16)).toNat = s.num (16 * (pa / 16)) 16 := by
    rw [State.homeGran, BitVec.toNat_ofNat, Nat.mod_eq_of_lt]
    omega
  rw [hgran, hsplit]
  obtain h | h : pa % 16 = 0 ∨ pa % 16 = 8 := by omega
  · have hpa' : 16 * (pa / 16) = pa := by omega
    rw [h, hpa', Nat.mul_zero, Nat.pow_zero, Nat.div_one, Nat.add_mul_mod_self_left, Nat.mod_eq_of_lt (hpa' ▸ hlo)]
  · have hpa' : 16 * (pa / 16) + 8 = pa := by omega
    rw [h, hpa', show 8 * 8 = 64 from rfl, Nat.add_mul_div_left _ _ (by decide), Nat.div_eq_of_lt hlo, Nat.zero_add,
      Nat.mod_eq_of_lt (hpa' ▸ hhi)]

/-! ### One uncached read of local memory -/

/-- The walk and the translation that the core holds agree: the translation is the walk's leaf, and memory stays. -/
theorem State.translate_of_walk {s : State} {sp : Space} {va : Nat} {l : Leaf} (hwalk : walkFrom s va 3 sp.root = .ok l)
    (hheld : (Sparse.get? (tlbKey sp.pasid va) (s.core sp.core).tlb).getD (l.lvl, l.pte) = (l.lvl, l.pte)) :
    ∃ t, s.translate sp va = (.ok l, t) ∧ t.mem = s.mem := by
  simp only [State.translate, hwalk]
  cases hg : Sparse.get? (tlbKey sp.pasid va) (s.core sp.core).tlb with
  | none =>
    dsimp only
    split
    · exact ⟨_, rfl, rfl⟩
    · exact ⟨_, rfl, rfl⟩
  | some x =>
    rw [hg, Option.getD_some] at hheld
    subst hheld
    refine ⟨s, ?_, rfl⟩
    simp [State.pick]

/-- What the checks of an address say depends on memory alone (R183). -/
theorem permit_of_mem {s t : State} (h : t.mem = s.mem) (tdi : Nat) (a : Acc) (l : Leaf) (va : Nat) :
    permit t tdi a l va = permit s tdi a l va := by
  unfold permit
  rw [h]

theorem State.badRead_home_of_mem {s t : State} (h : t.mem = s.mem) (skip pa n : Nat) :
    t.badRead [] skip pa n = s.badRead [] skip pa n := by
  unfold State.badRead State.granBad State.eccAt
  rw [h]

/-- The page offset keeps the alignment of eight bytes. -/
theorem Leaf.pa_aligned (l : Leaf) {va : Nat} (hva : va % 8 = 0) : l.pa va % 8 = 0 := by
  have hsize : ∃ k, 2 ^ l.size = 8 * 2 ^ k := by
    unfold Leaf.size
    split_ifs
    · exact ⟨27, by norm_num⟩
    · exact ⟨18, by norm_num⟩
    · exact ⟨13, by norm_num⟩
    · exact ⟨9, by norm_num⟩
  obtain ⟨k, hk⟩ := hsize
  have hoff : va % (8 * 2 ^ k) % 8 = va % 8 := Nat.mod_mul_right_mod _ _ _
  rw [Leaf.pa, hk, ← Nat.mul_assoc, Nat.mul_comm _ 8, Nat.mul_assoc]
  omega

/-- An aligned eight-byte read of an uncached local page by a core with caches performs, gives the number at its physical address,
and leaves HBM (R183, R377). -/
theorem access_uncached_read {s : State} {sp : Space} {scope : Nat} {leaf : Nat → Leaf} {a : LaneAcc}
    (hreach : Claims.Reaches s sp ⟨.read, 8, 0, scope, false, none⟩ leaf a) (htier : (leaf (a.va / 4096)).tier = 0)
    (hnc : (leaf (a.va / 4096)).nc = true) (hva : a.va % 8 = 0) (hcore : sp.core ≠ mgmtCore) :
    ∃ t, access s sp ⟨.read, 8, 0, scope, false, none⟩ [a] =
      (⟨[(a.l, s.num ((leaf (a.va / 4096)).pa a.va) 8)], [], [], false, none⟩, t) ∧ t.mem.hbm = s.mem.hbm := by
  obtain ⟨-, hwin, hwalk, hheld, hpermit, -, hc, hlocal⟩ := hreach
  obtain ⟨hretired, hbad⟩ := hlocal htier
  generalize leaf (a.va / 4096) = l at *
  obtain ⟨u, htrans, hmem⟩ := State.translate_of_walk hwalk hheld
  have hpath : l.path sp.core = [] := by simp [Leaf.path, hnc]
  have hbad' := hbad (by simp)
  rw [hpath] at hbad'
  have hfound : translateLanes s sp ⟨.read, 8, 0, scope, false, none⟩ [a] =
      (⟨[⟨a, l, l.pa a.va, partOf l a.va⟩], [], []⟩, u) := by
    simp only [translateLanes, htrans, permit_of_mem hmem, hpermit, htier, hc, hpath, State.badRead_home_of_mem hmem, hbad', hmem,
      hretired]
    simp
  have hread : performLane u sp ⟨.read, 8, 0, scope, false, none⟩ ⟨a, l, l.pa a.va, partOf l a.va⟩ =
      (s.num (l.pa a.va) 8, (u.markG l (l.pa a.va / 16)).joinCopy sp (l.pa a.va / 16)) := by
    have hhbm : ((u.markG l (l.pa a.va / 16)).joinCopy sp (l.pa a.va / 16)).mem.hbm = s.mem.hbm := by
      rw [State.joinCopy_hbm _ hcore, State.markG_hbm, hmem]
    have hhome : ((u.markG l (l.pa a.va / 16)).joinCopy sp (l.pa a.va / 16)).homeGran (l.pa a.va / 16) =
        s.homeGran (l.pa a.va / 16) := by
      rw [State.homeGran, State.num_of_hbm hhbm, State.homeGran]
    have hvalue := s.homeGran_half (l.pa_aligned hva)
    rw [← hhome] at hvalue
    simp only [performLane, htier, hc, hpath, State.readVia, State.readGran]
    simpa using hvalue
  refine ⟨(u.markG l (l.pa a.va / 16)).joinCopy sp (l.pa a.va / 16), ?_, by
    rw [State.joinCopy_hbm _ hcore, State.markG_hbm, hmem]⟩
  have hpart : ([a].partition fun a => isWindow a.va) = ([], [a]) := by simp [List.partition_eq_filter_filter, hwin]
  simp only [access, hpart, hfound]
  simp [htier, performWins, performAll, hread, worst, State.openRecords]

end Sys2Proof.Machine

end

-- ==== CWAIT, full-empty accesses and FENCER; O56 ====
section
/-!
Where the waits of CWAIT, of the full-empty accesses and of FENCER end.
-/

namespace Sys2Proof.Machine

/-! ### What a split that looks again finds -/

/-- What is read of a core but its waves stands where a wave is written. -/
theorem State.core_updWave {β : Type} (g : Core → β) (hg : ∀ k ws, g { k with waves := ws } = g k) (s : State) (c k : Nat)
    (f : Wave → Wave) (d : Nat) : g ((s.updWave c k f).core d) = g (s.core d) := by
  unfold State.updWave
  split
  · by_cases hd : d = c
    · subst hd
      rw [State.setWave, State.core_updCore, hg]
    · rw [State.setWave, State.core_updCore_ne _ hd]
  · rfl

section
variable (s : State) (c : Ctx)

@[simp] theorem Claims.looks_league : (Claims.looks s c).league = s.league := by simp [Claims.looks]
@[simp] theorem Claims.looks_host : (Claims.looks s c).host = s.host := by simp [Claims.looks]
@[simp] theorem Claims.looks_kern : (Claims.looks s c).kern = s.kern := by simp [Claims.looks]
@[simp] theorem Claims.looks_dtime : (Claims.looks s c).dtime = s.dtime := by simp [Claims.looks]
@[simp] theorem Claims.looks_board : (Claims.looks s c).board = s.board := by simp [Claims.looks]
@[simp] theorem Claims.looks_poolFree : (Claims.looks s c).poolFree = s.poolFree := by simp [Claims.looks]
@[simp] theorem Claims.looks_tokWait : (Claims.looks s c).tokWait = s.tokWait := by simp [Claims.looks]

@[simp] theorem Claims.looks_fe (d : Nat) : ((Claims.looks s c).core d).fe = (s.core d).fe :=
  State.core_updWave (·.fe) (fun _ _ => rfl) s _ _ _ d
@[simp] theorem Claims.looks_feWoke (d : Nat) : ((Claims.looks s c).core d).feWoke = (s.core d).feWoke :=
  State.core_updWave (·.feWoke) (fun _ _ => rfl) s _ _ _ d
@[simp] theorem Claims.looks_feQuiet (d : Nat) : ((Claims.looks s c).core d).feQuiet = (s.core d).feQuiet :=
  State.core_updWave (·.feQuiet) (fun _ _ => rfl) s _ _ _ d
@[simp] theorem Claims.looks_scratch (d : Nat) : ((Claims.looks s c).core d).scratch = (s.core d).scratch :=
  State.core_updWave (·.scratch) (fun _ _ => rfl) s _ _ _ d
@[simp] theorem Claims.looks_badSpad (d : Nat) : ((Claims.looks s c).core d).badSpad = (s.core d).badSpad :=
  State.core_updWave (·.badSpad) (fun _ _ => rfl) s _ _ _ d
@[simp] theorem Claims.looks_latched (d : Nat) : ((Claims.looks s c).core d).latched = (s.core d).latched :=
  State.core_updWave (·.latched) (fun _ _ => rfl) s _ _ _ d
@[simp] theorem Claims.looks_sigQ (d : Nat) : ((Claims.looks s c).core d).sigQ = (s.core d).sigQ :=
  State.core_updWave (·.sigQ) (fun _ _ => rfl) s _ _ _ d

@[simp] theorem Claims.looks_reqsOf : (Claims.looks s c).reqsOf c = s.reqsOf c := by simp [State.reqsOf]
@[simp] theorem Claims.looks_hasReqs (h : BitVec 32) : (Claims.looks s c).hasReqs h = s.hasReqs h := by simp [State.hasReqs]
@[simp] theorem Claims.looks_spadOf (d : Ctx) : (Claims.looks s c).spadOf d = s.spadOf d := by
  have hblock : (Claims.looks s c).block? = s.block? := by funext b; simp [State.block?]
  simp [State.spadOf, hblock]
@[simp] theorem Claims.looks_spad (core a n : Nat) : (Claims.looks s c).spad core a n = s.spad core a n := by simp [State.spad]
@[simp] theorem Claims.looks_feAll (core : Nat) (full : Bool) (ls : List LaneAcc) :
    (Claims.looks s c).feAll core full ls = s.feAll core full ls := by simp [State.feAll]
@[simp] theorem Claims.looks_spadError (core n : Nat) (ls : List LaneAcc) :
    (Claims.looks s c).spadError core n ls = s.spadError core n ls := by simp [State.spadError, State.spadBad]
end

/-- Requests given up where there is none that is to be. -/
theorem State.giveUp_of_none {s : State} {p : Req → Bool} (h : ∀ r ∈ s.league.reqs, p r = false) : s.giveUp p = s := by
  have hwithdraw : s.withdraw p = s := by
    unfold State.withdraw
    have hheld : s.league.reqs.filter (fun r => p r && r.suspended && r.answer.isNone && !r.pkt.ext.getLsbD 33) = [] :=
      List.filter_eq_nil_iff.mpr fun r hr => by simp [h r hr]
    have hmap : s.league.reqs.map (fun r => if p r && r.suspended && r.answer.isNone && !r.pkt.ext.getLsbD 33 then
        { r with pkt := { r.pkt with ext := r.pkt.ext ||| BitVec.ofNat 384 (2 ^ 33) } } else r) = s.league.reqs :=
      (List.map_congr_left (g := id) fun r hr => by simp [h r hr]).trans (List.map_id _)
    dsimp only
    rw [hheld, hmap]
    rfl
  have hleft : s.league.reqs.filterMap (fun r => if !p r then some r else if r.answer.isSome then none
      else some { r with orphan := true }) = s.league.reqs :=
    (List.filterMap_congr (g := some) fun r hr => by simp [h r hr]).trans List.filterMap_some
  unfold State.giveUp
  dsimp only
  rw [hwithdraw, hleft]

/-- A split without requests has none to take. -/
theorem State.dropReqs_of_none {s : State} {c : Ctx} (h : s.reqsOf c = []) : s.dropReqs c = s :=
  State.giveUp_of_none fun r hr => by simpa using List.filter_eq_nil_iff.mp h r hr

/-! ### CWAIT (R157) -/

/-- A split accesses memory from its own core. -/
theorem Ctx.space_core (c : Ctx) (s : State) : (c.space s).core = c.who.core := by
  unfold Ctx.space
  split
  · rfl
  · unfold State.spaceOf
    split <;> rfl

/-- CWAIT reads the counter and finds it at its target. -/
theorem cwaitBody_reached {e : Ext} {c : Ctx} {s t : State} {l v : Nat}
    (hops : checkOps [sRun c e.a9.toNat, if 320 ≤ e.b9.toNat ∧ e.b9.toNat < 384 then sRun c e.b9.toNat
      else offOk c e.lit e.b9.toNat] = none)
    (hl : lowest (c.act true e.pg e.pn) = some l) (hreqs : s.reqsOf c = []) :
    let o : MemOp := ⟨.read, 8, e.m 0 2, e.m 2 3, e.m 0 2 == 1, none⟩
    let la : LaneAcc := ⟨l, (c.sVal e.a9.toNat).toNat, 0, 0⟩
    let u := s.orderAtomn c (e.m 0 2 == 1) [la] 8
    lanesOk s (c.space s).proc o [la] = none →
    access u (if o.sync then c.syncSpace u else c.space u) o [la] = (⟨[(l, v)], [], [], false, none⟩, t) →
    offVal c e.lit e.b9.toNat ≤ v →
    cwaitBody e c s = .next (if e.m 0 2 = 1 then (t.acquire c.who.core (e.m 2 3)).bumpSfr c else t) := by
  intro o la u hok hacc hv
  have hnegative : negative [] = none := rfl
  simp only [cwaitBody, withOps_ok hops, hl, hreqs, State.dropReqs_of_none hreqs, hnegative, List.findSome?_nil]
  dsimp only [o, la, u] at hok hacc
  simp only [hok, hacc]
  simp [valAt, hv]

/-- Where CWAIT's wait ends (R157). -/
theorem cwait_satisfied {s : State} {a : Who} {c : Ctx} {e : Ext} {n l : Nat} (h : Claims.WaitsIn s a c (.cwait e) n)
    (hops : checkOps [sRun c e.a9.toNat, if 320 ≤ e.b9.toNat ∧ e.b9.toNat < 384 then sRun c e.b9.toNat
      else offOk c e.lit e.b9.toNat] = none)
    (hl : lowest (c.act true e.pg e.pn) = some l) (hreqs : s.reqsOf c = []) :
    let u := Claims.looks s c
    let o : MemOp := ⟨.read, 8, e.m 0 2, e.m 2 3, e.m 0 2 == 1, none⟩
    let la : LaneAcc := ⟨l, (c.sVal e.a9.toNat).toNat, 0, 0⟩
    let u₁ := u.orderAtomn c (e.m 0 2 == 1) [la] 8
    let sp := if o.sync then c.syncSpace u₁ else c.space u₁
    lanesOk u (c.space u).proc o [la] = none →
    (∀ v t, access u₁ sp o [la] = (⟨[(l, v)], [], [], false, none⟩, t) → offVal c e.lit e.b9.toNat ≤ v →
      exec (.cwaitSatisfied a) s = .next (ended (.cwait e) (some e) c s
        (if e.m 0 2 = 1 then (t.acquire c.who.core (e.m 2 3)).bumpSfr c else t))) ∧
    (∀ leaf, e.m 0 2 = 0 → u₁.memOk → Claims.Reaches u₁ sp o leaf la → (leaf (la.va / 4096)).tier = 0 →
      (leaf (la.va / 4096)).nc = true → la.va % 8 = 0 → a.core ≠ mgmtCore →
      offVal c e.lit e.b9.toNat ≤ u₁.num ((leaf (la.va / 4096)).pa la.va) 8 →
      ∃ t, exec (.cwaitSatisfied a) s = .next (ended (.cwait e) (some e) c s t) ∧ ∀ x, t.byte x = u₁.byte x) := by
  intro u o la u₁ sp hok
  have hreached {v : Nat} {t : State} (hacc : access u₁ sp o [la] = (⟨[(l, v)], [], [], false, none⟩, t))
      (hv : offVal c e.lit e.b9.toNat ≤ v) : exec (.cwaitSatisfied a) s = .next (ended (.cwait e) (some e) c s
        (if e.m 0 2 = 1 then (t.acquire c.who.core (e.m 2 3)).bumpSfr c else t)) :=
    congrArg Host.Outcome.next (State.resume_next h rfl
      (cwaitBody_reached hops hl ((Claims.looks_reqsOf s c).trans hreqs) hok hacc hv))
  refine ⟨fun v t hacc hv => hreached hacc hv, fun leaf hord _ hreach htier hnc hva hcore hv => ?_⟩
  have hsp : sp.core ≠ mgmtCore := by
    have hsame : sp.core = c.who.core := by
      simp only [sp]
      split
      · exact c.space_core u₁
      · exact c.space_core u₁
    rwa [hsame, State.ctx?_who h.1]
  have ho : o = ⟨.read, 8, 0, e.m 2 3, false, none⟩ := by simp only [o, hord]; rfl
  rw [ho] at hreach
  obtain ⟨t, hacc, hhbm⟩ := access_uncached_read hreach htier hnc hva hsp
  rw [← ho] at hacc
  have hexec := hreached hacc hv
  rw [if_neg (by omega)] at hexec
  exact ⟨t, hexec, fun x => by rw [State.byte, hhbm, State.byte]⟩

/-! ### Full-empty bits (R185) -/

/-- Every access aligned and within the allocation, there is nothing to refuse (R379). -/
theorem spadCheck_of_within {s : State} {c : Ctx} {n : Nat} {ls : List LaneAcc}
    (h : ∀ x ∈ ls, x.va % n = 0 ∧ (s.spadOf c).1 ≤ x.va ∧ x.va + n ≤ (s.spadOf c).1 + (s.spadOf c).2) : spadCheck s c n ls = none := by
  have hnone : ls.filterMap (fun a => if a.va % n ≠ 0 then some (1, Exc.misalignedAccess, a.va)
      else if a.va < (s.spadOf c).1 ∨ (s.spadOf c).1 + (s.spadOf c).2 < a.va + n then some (2, Exc.permission, a.va)
      else none) = [] := by
    refine List.filterMap_eq_nil_iff.mpr fun x hx => ?_
    obtain ⟨halign, hlo, hhi⟩ := h x hx
    rw [if_neg (by omega), if_neg (by omega)]
  simp only [spadCheck, hnone]
  rfl

/-- A maximum over a list is below a bound that all of it and its start are below. -/
theorem foldl_max_lt {α : Type} {f : α → Nat} {ls : List α} {n k : Nat} (hn : n < k) (h : ∀ a ∈ ls, f a < k) :
    ls.foldl (fun m a => max m (f a)) n < k :=
  List.foldlRecOn (motive := fun m => m < k) _ _ hn fun _ hm a ha => max_lt hm (h a ha)

/-- A split that has waited may perform once a named bit has been set so since, and none later quietly. -/
theorem State.feReady_of_woken {s : State} {c : Ctx} {i : Instr} {n : Nat} {full : Bool} {ls : List LaneAcc}
    (hwait : c.path.wait = .on i n) (hall : s.feAll c.who.core full ls = true)
    (hwoken : ∃ x ∈ ls, n < Sparse.get 0 (s.core c.who.core).feWoke (x.va / 16) ∧
      ∀ y ∈ ls, Sparse.get 0 (s.core c.who.core).feQuiet (y.va / 16) < Sparse.get 0 (s.core c.who.core).feWoke (x.va / 16)) :
    s.feReady c full ls = true := by
  obtain ⟨x, hx, hn, hquiet⟩ := hwoken
  simp only [State.feReady, hall, hwait, Bool.true_and, List.any_eq_true, decide_eq_true_eq]
  exact ⟨x, hx, foldl_max_lt hn hquiet⟩

/-- An LDL whose granules are as it waits for takes the scratchpad's numbers. -/
theorem ldlBody_ready {i : Instr} {m : MemArgs} {c : Ctx} {s : State}
    (hops : checkOps [spadAddrOk c m.a, offOk c m.lit m.off, dataOk c true m.u m.sz m.d] = none)
    (hcheck : spadCheck s c (szBytes m.sz) (spadLanes c m fun _ => 0) = none) (hfe : m.fe ≠ 0)
    (hls : spadLanes c m (fun _ => 0) ≠ []) (hready : s.feReady c true (spadLanes c m fun _ => 0) = true)
    (hsound : s.spadError c.who.core (szBytes m.sz) (spadLanes c m fun _ => 0) = none) :
    ldlBody i m c s = .next (
      let ls := spadLanes c m fun _ => 0
      let v := if m.fe = 2 then s.feSet c.who.core false ls else s
      let v := ((v.orderAtomn c true [] 0).acquire c.who.core 1).bumpSfr c
      v.put c (loadInto c m.sz m.d (c.memLanes m)
        (ls.map fun x => (x.l, leNat (s.spad c.who.core x.va (szBytes m.sz)))) (v.mine c))) := by
  simp only [ldlBody, withOps_ok hops, hcheck, hready, hsound]
  simp [hfe, hls]

/-- An STL whose granules are as it waits for, with no request of its wave open. -/
theorem stlBody_ready {i : Instr} {m : MemArgs} {c : Ctx} {s : State}
    (hops : checkOps [spadAddrOk c m.a, offOk c m.lit m.off, dataOk c false m.u m.sz m.d] = none)
    (hcheck : spadCheck s c (szBytes m.sz) (spadLanes c m (dataVal c m.sz m.d)) = none) (hfe : m.fe ≠ 0)
    (hls : spadLanes c m (dataVal c m.sz m.d) ≠ []) (hready : s.feReady c false (spadLanes c m (dataVal c m.sz m.d)) = true)
    (hreqs : s.hasReqs c.w.id.handle = false) :
    stlBody i m c s = .nextR (
      let ls := spadLanes c m (dataVal c m.sz m.d)
      let v := (s.orderAtomn c true [] 0).releaseBy (c.space s) 1
      let v := ls.foldl (fun v x => v.setSpad c.who.core x.va (leBytes (szBytes m.sz) x.x)) v
      (v.feSet c.who.core true ls).bumpSfr c) := by
  simp only [stlBody, withOps_ok hops, hcheck, hready]
  simp [hfe, hls, quietly, hreqs]

/-! ### FENCER (R211): what performs at the cut leaves the League's requests -/

theorem State.MemOnly.league {s t : State} (h : s.MemOnly t) : t.league = s.league := by obtain ⟨m, n, rfl⟩ := h; rfl

@[simp] theorem State.drainAtomn_league (s : State) (core slot : Nat) : (s.drainAtomn core slot).league = s.league := by
  unfold State.drainAtomn
  split
  · rfl
  · refine List.foldlRecOn (motive := fun y : State × Wave => y.1.league = s.league) _ _ rfl fun y hy x _ => ?_
    exact (State.performAtomn_memOnly _ _ _).league.trans hy

@[simp] theorem State.updBlock_league (s : State) (b : Nat) (f : Block → Block) : (s.updBlock b f).league = s.league := rfl
@[simp] theorem State.unqueue_league (s : State) (x : BitVec 32 ⊕ Nat) : (s.unqueue x).league = s.league := rfl

@[simp] theorem State.vacate_league (s : State) (c k : Nat) : (s.vacate c k).league = s.league := by
  unfold State.vacate
  split <;> rfl

@[simp] theorem State.updWaveObj_league (s : State) (h : BitVec 32)
    (f : BitVec 64 → Nat → Option (Nat × Nat) → Option Wave → Option WaveId → Option Nat → Option TrapRec → Body)
    (st : Option (BitVec 8)) : (s.updWaveObj h f st).league = s.league := rfl

@[simp] theorem State.tryEndBlock_league (s : State) (b : Nat) : (s.tryEndBlock b).league = s.league := by
  unfold State.tryEndBlock
  split
  · rfl
  · dsimp only
    split <;> rfl

@[simp] theorem State.endWave_league (s : State) (c k : Nat) : (s.endWave c k).league = s.league := by
  unfold State.endWave
  split
  · rfl
  · dsimp only
    split
    · simp
    · split <;> simp

@[simp] theorem State.endSaved_league (s : State) (h : BitVec 32) : (s.endSaved h).league = s.league := by
  unfold State.endSaved
  dsimp only
  split
  · split
    · simp
    · split <;> simp
  · rfl

@[simp] theorem State.endHandle_league (s : State) (h : BitVec 32) : (s.endHandle h).league = s.league := by
  unfold State.endHandle
  split <;> simp

@[simp] theorem State.killBlock_league (s : State) (b : Nat) : (s.killBlock b).league = s.league := by
  unfold State.killBlock
  split
  · rfl
  · rw [State.tryEndBlock_league]
    exact List.foldlRecOn (motive := fun t : State => t.league = s.league) _ _ rfl fun t ht h _ => by simpa using ht

@[simp] theorem State.orphanError_league (s : State) (o : Orphan) : (s.orphanError o).league = s.league := by
  unfold State.orphanError
  dsimp only
  split
  · split <;> simp
  · simp

@[simp] theorem State.drainOrphans_league (s : State) (on : Nat → Bool) : (s.drainOrphans on).league = s.league := by
  unfold State.drainOrphans
  refine List.foldlRecOn (motive := fun t : State => t.league = s.league) _ _ rfl fun t ht o _ => ?_
  have hperformed := (State.performAtomn_memOnly t ⟨o.core, 0, 0, 0, 0xFF, 0, o.party, o.sfr, false, o.blk⟩ o.op).league.trans ht
  dsimp only
  split
  · exact hperformed
  · rw [State.orphanError_league]
    exact hperformed

/-- The cut: the pending atomics of its waves and of ended waves perform, and its cores' copies are pushed and dropped (R211). -/
def State.cutAt (s : State) (cut : List (Nat × Nat × Wave)) (cores : List Nat) (scope : Nat) : State :=
  let v := (cut.foldl (fun s x => s.drainAtomn x.1 x.2.1) s).drainOrphans cores.contains
  let v := cores.foldl (fun s k => s.release k scope) v
  cores.foldl (fun s k => s.acquire k scope) v

theorem State.cutAt_league (s : State) (cut : List (Nat × Nat × Wave)) (cores : List Nat) (scope : Nat) :
    (s.cutAt cut cores scope).league = s.league := by
  unfold State.cutAt
  dsimp only
  rw [(State.MemOnly.foldl (fun s k => s.acquire_memOnly k scope) cores _).league,
    (State.MemOnly.foldl (fun s k => s.release_memOnly k scope) cores _).league, State.drainOrphans_league]
  exact List.foldlRecOn (motive := fun t : State => t.league = s.league) _ _ rfl fun t ht x _ => by simpa using ht

/-- A FENCER completes once no request sent before its cut is open. -/
theorem fencerBody_cut {e : Ext} {c : Ctx} {s : State} (hact : c.act e.u e.pg e.pn ≠ 0)
    (hreqs : c.progress.k ≠ 0 ∨ s.hasReqs c.w.id.handle = false) :
    let scope := e.m 2 3
    let cores := if s.savedWave c.w.id.proc then s.cores.map (·.1) else s.unitCores scope c.who.core
    let cut := s.cutWaves c.w.id.proc (s.unitCores scope c.who.core)
    s.openReqs cut (if c.progress.k = 0 then s.now else c.progress.k - 1) = false →
    fencerBody e c s = .next (((s.cutAt cut cores scope).widenRecords (c.space (s.cutAt cut cores scope)) scope).bumpSfr c) := by
  intro scope cores cut hopen
  have hcut : (s.cutAt cut cores scope).openReqs cut (if c.progress.k = 0 then s.now else c.progress.k - 1) = false := by
    rwa [State.openReqs, State.cutAt_league, ← State.openReqs]
  have hquiet (r : Res) : (if c.progress.k = 0 then quietly c s else id) r = r := by
    split
    · next hk => rw [quietly, hreqs.resolve_left (by simpa using hk)]; rfl
    · rfl
  simp only [fencerBody, if_neg hact, hquiet]
  exact if_neg (by rw [Bool.not_eq_true]; exact hcut)

end Sys2Proof.Machine

end

-- ==== Kernel objects, tokens and IDLE; O56 ====
section
/-!
Where the waits at kernel objects, for tokens and in IDLE end.
-/

namespace Sys2Proof.Machine

/-! ### Requests that stand apart from those given up -/

/-- Every request left when some are given up is one of before, with its names, and no less an orphan. -/
theorem State.giveUp_reqs {s : State} {p : Req → Bool} {q : Req} (hq : q ∈ (s.giveUp p).league.reqs) :
    ∃ r ∈ s.league.reqs, q.handle = r.handle ∧ q.half = r.half ∧ q.lane = r.lane ∧ (r.orphan = true → q.orphan = true) := by
  have hsend (t : State) (x : Packet) : (t.trySend x).league.reqs = t.league.reqs := by
    unfold State.trySend State.send
    cases t.planeFor (Packet.want x) <;> rfl
  have hwithdraw {r : Req} (hr : r ∈ (s.withdraw p).league.reqs) :
      ∃ r' ∈ s.league.reqs, r.handle = r'.handle ∧ r.half = r'.half ∧ r.lane = r'.lane ∧ r.orphan = r'.orphan := by
    unfold State.withdraw at hr
    dsimp only at hr
    rw [List.foldlRecOn (motive := fun t : State => t.league.reqs = _) _ _ rfl fun t ht x _ => (hsend t _).trans ht] at hr
    obtain ⟨r', hr', rfl⟩ := List.mem_map.mp hr
    refine ⟨r', hr', ?_⟩
    split <;> exact ⟨rfl, rfl, rfl, rfl⟩
  unfold State.giveUp at hq
  obtain ⟨r, hr, hleft⟩ := List.mem_filterMap.mp hq
  obtain ⟨r', hr', hhandle, hhalf, hlane, horphan⟩ := hwithdraw hr
  refine ⟨r', hr', ?_⟩
  split_ifs at hleft
  · cases hleft
    exact ⟨hhandle, hhalf, hlane, fun h => by rwa [horphan]⟩
  · cases hleft
    exact ⟨hhandle, hhalf, hlane, fun _ => rfl⟩

/-- A split without requests still has none once others are given up. -/
theorem State.of_giveUp_false {s : State} {p : Req → Bool} {h : BitVec 32} {half : Nat} {m : Mask}
    (hnone : ∀ r ∈ s.league.reqs, r.of h half m = false) : ∀ q ∈ (s.giveUp p).league.reqs, q.of h half m = false := by
  intro q hq
  obtain ⟨r, hr, hhandle, hhalf, hlane, horphan⟩ := State.giveUp_reqs hq
  have hr' := hnone r hr
  unfold Req.of at hr' ⊢
  rw [hhandle, hhalf, hlane]
  cases hro : r.orphan with
  | true => simp [horphan hro]
  | false => cases hqo : q.orphan <;> simp_all

/-! ### Reads and writes of an instruction's own -/

/-- What an instruction reads at its posting has been read. -/
theorem postRead_of_posted {i : Instr} {scope : Nat} {need : List (Nat × Nat)} {c : Ctx} {s v : State} {vals : List (Nat × Nat)}
    (h : Claims.posted c scope need s = (.ok vals, v)) (k : List (Nat × Nat) → State → Res) :
    postRead i scope need c s k = k vals v := by
  unfold Claims.posted at h
  simp only [postRead, h]

/-- An instruction that needs nothing reads nothing. -/
theorem Claims.posted_nil (c : Ctx) (scope : Nat) (s : State) : Claims.posted c scope [] s = (.ok [], s) := by
  simp [Claims.posted, State.fetchNeed, chunksOf, worst, translateLanes, State.openRecords, State.peerVals, performAll]

/-- An instruction without requests of its own writes its bytes. -/
theorem storeAt_of_stored {i : Instr} {c : Ctx} {s v : State} {a : Nat} {bs : List Byte} {r : List (Nat × Nat)}
    (hnone : ∀ q ∈ s.league.reqs, q.of c.w.id.handle (c.who.half + 4) c.path.mask = false)
    (h : s.storePieces (c.space s) c.w.id.handle (c.who.half + 4) ((lowest c.path.mask).getD 0) 0 (piecesOf a bs) = (.ok r, v))
    (back : State → State) (k : State → Res) : storeAt i c s a bs back k = k v := by
  have hmine : s.league.reqs.filter (fun q => q.of c.w.id.handle (c.who.half + 4) c.path.mask) = [] :=
    List.filter_eq_nil_iff.mpr fun q hq => by simp [hnone q hq]
  simp only [storeAt, hmine, State.giveUp_of_none hnone, h]
  rfl

/-! ### WSWAIT, PRECV and PSEND (R229, R234, R235, R239) -/

/-- The end of a kernel-object instruction is its answer and its region's. -/
theorem kernDone_eq (e : Ext) (c : Ctx) (s : State) (r : BitVec 64) : kernDone e c s r = .nextR (Claims.answer e c s r) := rfl

section
variable {e : Ext} {c : Ctx} {s : State}

/-- A WSWAIT that is first in line takes the member that is ready. -/
theorem wswaitBody_ready {o : Obj} {at' : BitVec 64} {ms : List (BitVec 32)} {k t : Nat}
    (hops : checkOps [sDst c e.d9.toNat, sRun c e.a9.toNat] = none) (hact : c.act true e.pg e.pn ≠ 0)
    (hhandle : s.expireDue.handleFault c (c.handle e.a9.toNat) [4] 0 false = none)
    (hnamed : s.expireDue.named (c.handle e.a9.toNat) = some o) (hbody : o.body = .wset at' ms)
    (hready : s.expireDue.readyMember ms = some (k, t)) (hfirst : s.expireDue.firstInLine c .wset (c.handle e.a9.toNat) [] = true) :
    wswaitBody e c s = .nextR (Claims.answer e c (s.expireDue.consumeMember (c.handle e.a9.toNat) k ms)
      (kernResult 0 k (ms.getD k 0).toNat)) := by
  obtain ⟨gen, owner, st, tdi, body⟩ := o
  cases hbody
  simp only [wswaitBody, withOps_ok hops, if_neg hact, hhandle, hnamed, hready, hfirst, if_true, kernDone_eq]

/-- A PRECV that is first in line writes the oldest message, one without grants. -/
theorem precvBody_message {ops : List OpOk} {cap : Nat} {st : BitVec 64} {m : Msg} {rest : List Msg} {rs : List RemoteSender}
    {vals r : List (Nat × Nat)} {v₀ v : State}
    (hkern : Claims.kernOf e c (.precv e) = some ops) (hops : checkOps ops = none) (hact : c.act true e.pg e.pn ≠ 0)
    (halign : (c.sVal e.b9.toNat).toNat % 64 = 0) (hhandle : s.handleFault c (c.handle e.a9.toNat) [3, 7] 0 false = none)
    (hport : s.port? (c.handle e.a9.toNat) = some (cap, st, m :: rest, rs)) (hgrants : m.grants = [])
    (hfirst : s.firstInLine c .recv (c.handle e.a9.toNat) [] = true)
    (hreqs : ∀ q ∈ s.league.reqs, q.of c.w.id.handle (c.who.half + 4) c.path.mask = false)
    (hposted : Claims.posted c 0 [] s = (.ok vals, v₀)) :
    let v₀ := v₀.dropEngReqs c.w.id.handle (c.who.half + 2)
    v₀.storePieces (c.space v₀) c.w.id.handle (c.who.half + 4) ((lowest c.path.mask).getD 0) 0
      (piecesOf (c.sVal e.b9.toNat).toNat (m.bytes.take 64)) = (.ok r, v) →
    precvBody e c s = .nextR (Claims.answer e c
      (((v.setPort (c.handle e.a9.toNat) rest rs).serveRemote 64 (c.handle e.a9.toNat)).acquire c.who.core 4) (kernResult 0 0 0)) := by
  intro v₀ hstored
  obtain rfl : ops = _ := (Option.some.inj hkern).symm
  rw [Claims.posted_nil] at hposted
  obtain ⟨hvals, rfl⟩ := Prod.mk.inj hposted
  have hreqs' := State.of_giveUp_false (p := fun r => r.under c.w.id.handle (c.who.half + 2)) hreqs
  have hmoves (targets : List Nat) : v₀.allMoves m (v₀.rootAt (hIndex (c.process v₀))) targets = some [] := by
    simp [State.allMoves, hgrants]
  simp only [precvBody, withOps_ok hops, if_neg hact, hhandle, hport, halign, hfirst, hgrants, List.length_nil]
  simp only [ne_eq, not_true_eq_false, if_false, Bool.not_true, Bool.false_eq_true, decide_false, Bool.false_and, if_true]
  rw [postRead_of_posted (Claims.posted_nil c 0 s)]
  rw [hmoves]
  exact storeAt_of_stored hreqs' hstored _ _

/-- A PSEND that is first in line and has room puts the message it has read at the port's tail. -/
theorem psendBody_room {ops : List OpOk} {cap : Nat} {st : BitVec 64} {ms : List Msg} {rs : List RemoteSender} {vals : List (Nat × Nat)}
    {v : State} (hkern : Claims.kernOf e c (.psend e) = some ops) (hops : checkOps ops = none) (hact : c.act true e.pg e.pn ≠ 0)
    (hgrants : e.m 1 3 = 0) (halign : (c.sVal e.b9.toNat).toNat % 64 = 0)
    (hhandle : s.handleFault c (c.handle e.a9.toNat) [3, 7] 0 true = none) (hlocal : s.rport? (c.handle e.a9.toNat) = none)
    (hposted : Claims.posted c 0 [((c.sVal e.b9.toNat).toNat, 64)] s = (.ok vals, v)) :
    let h := c.handle e.a9.toNat
    let v := v.dropEngReqs c.w.id.handle (c.who.half + 2)
    v.rport? h = none → v.port? h = some (cap, st, ms, rs) → ms.length < cap → v.firstInLine c .send h rs = true →
    v.hasReqs c.w.id.handle = false →
    let t := (v.orderAtomn c true [] 0).releaseBy (c.space v) 4
    let t := t.takePages (v.rootAt (hIndex (c.process v)))
      (match t.process? (c.process v) with | some (x, _, _, _) => x | none => 0) []
    let t := t.setPort h (ms ++ [⟨t.now, slotBytes (granBytes vals (c.sVal e.b9.toNat).toNat 64) (hIndex (c.process v)) []⟩]) rs
    psendBody e c s = .nextR (Claims.answer e c (t.serveRemote 64 h) (kernResult 0 0 0)) := by
  intro h v' hrport hport hroom hfirst hreqs t₁ t₂ t₃
  obtain rfl : ops = _ := (Option.some.inj hkern).symm
  have hnone (bs : List Byte) : grantsOf bs 0 = some [] := by simp [grantsOf]
  have hok (root : Nat) : v'.grantsOk root [] = true := by simp [State.grantsOk]
  simp only [psendBody, if_neg hact, hhandle, hlocal, halign, hgrants]
  simp only [Option.isSome_none, Bool.false_and, Bool.false_eq_true, if_false, ne_eq, not_true_eq_false, decide_false, Bool.or_false,
    if_true]
  rw [if_pos hgrants] at hops
  rw [withOps_ok hops, postRead_of_posted hposted]
  have hlen : ¬cap ≤ ms.length := by omega
  simp only [h, v'] at hrport hport hfirst hreqs hok
  simp only [hrport, hport, hnone, hok, hlen, hfirst, hreqs, Bool.not_true, Bool.false_eq_true, if_false, decide_false, Bool.false_and,
    Bool.or_self]
  rfl

end

/-! ### PWRACQ and IDLE (R297, R374) -/

/-- The head waiter's tokens are free. -/
theorem pwracqBody_free {e : Ext} {c : Ctx} {s : State} {i : Instr} {n : Nat} {rest : List TokWaiter}
    (hops : checkOps [sDst c e.d9.toNat, uOpOk c e.lit e.a9.toNat] = none) (hwait : c.path.wait = .on i n)
    (htok : s.tokWait = .agent c.who.core :: rest) :
    let k := (c.uVal e.lit 8 e.a9.toNat).toNat
    k ≠ 0 → k ≤ poolSize s.board.watts → k ≤ s.poolFree →
    let v := State.addHeld { s with tokWait := rest, poolFree := s.poolFree - k } c.who.core k true
    pwracqBody e c s = .next (v.put c (writeS c (v.mine c) e.d9.toNat (BitVec.ofNat 64 ((s.poolFree - k) % 256)))) := by
  intro k hk hpool hfree v
  have hwaited : c.waited = some n := by simp [Ctx.waited, hwait]
  have hpool' : ¬k > poolSize s.board.watts := by omega
  simp only [k] at hk hpool' hfree
  simp only [pwracqBody, withOps_ok hops, if_neg hpool', if_neg hk, hwaited, htok]
  simp only [Option.isSome_some, if_true, List.head?_cons, List.tail_cons, hfree, decide_true, Bool.and_true]
  rfl

section
variable {e : Ext} {c : Ctx} {s : State}
  (hops : checkOps [OpOk.when (scalarOk c.w e.d9.toNat && scalarOk c.w (e.d9.toNat + 1) && e.d9.toNat % 2 == 0 && e.d9.toNat != 320),
    sRun c e.a9.toNat] = none)
  (hev : s.latchedAt c.who.core (c.sVal e.a9.toNat).toNat ≠ 0)
include hops hev

/-- An event is latched and no signal queued: IDLE clears what is latched and answers. -/
theorem idleWaitBody_event (hq : (s.core c.who.core).sigQ = []) :
    let v := s.updCore c.who.core fun k => { k with latched := 0 }
    idleWaitBody e c s = .next (v.put c (writeS c (v.mine c) e.d9.toNat
      (BitVec.ofNat 64 (s.latchedAt c.who.core (c.sVal e.a9.toNat).toNat)))) := by
  intro v
  have hsig : ((s.updCore c.who.core fun k => { k with latched := 0 }).core c.who.core).sigQ = [] := by
    rw [State.core_updCore]; exact hq
  simp only [idleWaitBody, withOps_ok hops, if_neg hev]
  rw [hsig]

/-- With a signal queued the oldest one is taken along. -/
theorem idleWaitBody_signal {payload : BitVec 64} {src : BitVec 8} {rest : List (BitVec 64 × BitVec 8)}
    (hq : (s.core c.who.core).sigQ = (payload, src) :: rest) :
    let v := s.updCore c.who.core fun k => { k with latched := 0 }
    let t := ((v.updCore c.who.core fun k => { k with sigQ := rest }).acquire c.who.core 4).bumpSfr c
    idleWaitBody e c s = .next (t.put c (writeS c (writeS c (t.mine c) e.d9.toNat
      (BitVec.ofNat 64 (s.latchedAt c.who.core (c.sVal e.a9.toNat).toNat + 256 * src.toNat))) (e.d9.toNat + 1) payload)) := by
  intro v t
  have hsig : ((s.updCore c.who.core fun k => { k with latched := 0 }).core c.who.core).sigQ = (payload, src) :: rest := by
    rw [State.core_updCore]; exact hq
  simp only [idleWaitBody, withOps_ok hops, if_neg hev]
  rw [hsig]

end

/-- The head waiter goes on where it waits in a PWRACQ (R408). -/
theorem State.grantTokens_of_agent {s : State} {core : Nat} {rest : List TokWaiter} {a : Who} (htok : s.tokWait = .agent core :: rest)
    (hagent : s.agentWait core (fun i => match i with | .pwracq _ => true | _ => false) = some a) :
    s.grantTokens = s.resume a fun i => match i with
      | .pwracq e => some (some e, pwracqBody e)
      | _ => none := by
  simp only [State.grantTokens, htok, State.grantAgent]
  split
  · next b hb =>
    obtain rfl : b = a := Option.some.inj (hb.symm.trans hagent)
    rfl
  · next hb => exact absurd (hb.symm.trans hagent) (by simp)

theorem State.wakeIdle_of_agent {s : State} {core : Nat} {a : Who}
    (hagent : s.agentWait core (fun i => match i with | .idle _ => true | _ => false) = some a) :
    s.wakeIdle core = s.resume a fun i => match i with
      | .idle e => some (some e, idleWaitBody e)
      | _ => none := by
  simp only [State.wakeIdle]
  split
  · next b hb =>
    obtain rfl : b = a := Option.some.inj (hb.symm.trans hagent)
    rfl
  · next hb => exact absurd (hb.symm.trans hagent) (by simp)

/-- What is latched at a core when a split of it looks again. -/
theorem Claims.looks_latchedAt (s : State) (c : Ctx) (core deadline : Nat) :
    (Claims.looks s c).latchedAt core deadline = s.latchedAt core deadline := by
  simp only [State.latchedAt, State.now, Claims.looks_latched, Claims.looks_sigQ, Claims.looks_dtime]
  rfl

/-! ### Where the waits end -/

section
variable {s : State} {a : Who} {c : Ctx} {e : Ext} {n : Nat}

/-- The ends of a full-empty LDL and STL (R185). -/
theorem fullEmpty_ends {i : Instr} {st : Bool} {m : MemArgs}
    (hform : (i = .ldlExt e ∧ st = false ∧ m = Ext.loadArgs e) ∨ (i = .stlExt e ∧ st = true ∧ m = Ext.storeArgs e))
    (h : Claims.WaitsIn s a c i n) (hops : checkOps [spadAddrOk c m.a, offOk c m.lit m.off, dataOk c (!st) m.u m.sz m.d] = none) :
    let u := Claims.looks s c
    let k := szBytes m.sz
    let ls := spadLanes c m fun l => if st then dataVal c m.sz m.d l else 0
    let core := c.who.core
    (∀ x ∈ ls, x.va % k = 0 ∧ (s.spadOf c).1 ≤ x.va ∧ x.va + k ≤ (s.spadOf c).1 + (s.spadOf c).2) →
    m.fe ≠ 0 → ls ≠ [] → s.feAll core (!st) ls = true →
    (∃ x ∈ ls, n < Sparse.get 0 (s.core core).feWoke (x.va / 16) ∧
      ∀ y ∈ ls, Sparse.get 0 (s.core core).feQuiet (y.va / 16) < Sparse.get 0 (s.core core).feWoke (x.va / 16)) →
    (st = false → s.spadError core k ls = none →
      let v := if m.fe = 2 then u.feSet core false ls else u
      let v := ((v.orderAtomn c true [] 0).acquire core 1).bumpSfr c
      exec (.fullEmptyWake a) s = .next (ended i (some e) c s (v.put c
        (loadInto c m.sz m.d (c.memLanes m) (ls.map fun x => (x.l, leNat (s.spad core x.va k))) (v.mine c))))) ∧
    (st = true → s.hasReqs c.w.id.handle = false →
      let v := (u.orderAtomn c true [] 0).releaseBy (c.space u) 1
      let v := ls.foldl (fun v x => v.setSpad core x.va (leBytes k x.x)) v
      exec (.fullEmptyWake a) s = .next (endedRegion i (some e) c s ((v.feSet core true ls).bumpSfr c))) := by
  intro u k ls core hwithin hfe hls hall hwoken
  have hcheck : spadCheck u c k ls = none := spadCheck_of_within (by simpa only [u, Claims.looks_spadOf] using hwithin)
  have hready : u.feReady c (!st) ls = true := State.feReady_of_woken h.2.1 (by rwa [Claims.looks_feAll])
    (by simpa only [u, Claims.looks_feWoke, Claims.looks_feQuiet] using hwoken)
  rcases hform with ⟨rfl, rfl, rfl⟩ | ⟨rfl, rfl, rfl⟩
  · refine ⟨fun _ hsound => ?_, fun hst => absurd hst (by simp)⟩
    have hbody := ldlBody_ready (i := .ldlExt e) (s := u) hops hcheck hfe hls hready (by rwa [Claims.looks_spadError])
    refine congrArg Host.Outcome.next ((State.resume_next h rfl hbody).trans ?_)
    simp only [u, Claims.looks_spad]
    rfl
  · refine ⟨fun hst => absurd hst (by simp), fun _ hreqs => ?_⟩
    have hbody := stlBody_ready (i := .stlExt e) (s := u) hops hcheck hfe hls hready (by rwa [Claims.looks_hasReqs])
    exact congrArg Host.Outcome.next (State.resume_nextR h rfl hbody)

end

/-- Where the waits of splits end. -/
theorem waitsEnd : Claims.WaitsEnd := by
  intro s a c e n u
  have hwho {i : Instr} (h : Claims.WaitsIn s a c i n) : a = c.who := (State.ctx?_who h.1).symm
  refine ⟨?cwait, ?fullEmpty, ?fencer, ?kernel, ?pwracq, ?idle⟩
  case cwait =>
    intro l h b hops hl hreqs o la u₁ sp hok
    exact cwait_satisfied h hops hl hreqs hok
  case fullEmpty =>
    intro i st m hform h hops
    exact fullEmpty_ends hform h hops
  case fencer =>
    intro h hact hreqs scope cores cut hopen v
    have hopen' : u.openReqs cut (if c.progress.k = 0 then u.now else c.progress.k - 1) = false := by
      rwa [State.openReqs, Claims.looks_league, ← State.openReqs, State.now, Claims.looks_dtime, ← State.now]
    have hbody := fencerBody_cut (e := e) (c := c) (s := u) hact (by rwa [Claims.looks_hasReqs]) hopen'
    have hsaved : u.savedWave c.w.id.proc = s.savedWave c.w.id.proc := by simp [u, State.savedWave]
    rw [hsaved] at hbody
    exact congrArg Host.Outcome.next (State.resume_next h rfl hbody)
  case kernel =>
    intro h' hact
    refine ⟨?wswait, ?precv, ?psend⟩
    case wswait =>
      intro o at' ms k t h hops v hhandle hnamed hbody hready hfirst
      exact congrArg Host.Outcome.next
        (State.resume_nextR h rfl (wswaitBody_ready hops hact hhandle hnamed hbody hready hfirst))
    case precv =>
      intro ops cap st m rest rs vals v₀ r v h hkern hops at' halign hhandle hport hgrants hfirst hreqs hposted v₁ hstored
      exact congrArg Host.Outcome.next (State.resume_nextR h rfl (precvBody_message hkern hops hact halign hhandle hport hgrants hfirst
        (by rwa [Claims.looks_league]) hposted hstored))
    case psend =>
      intro ops vals v cap st ms rs h hkern hops at' hgrants halign hhandle hlocal hposted v' hrport hport hroom hfirst hreqs t₁ t₂ t₃
      exact congrArg Host.Outcome.next (State.resume_nextR h rfl (psendBody_room hkern hops hact hgrants halign hhandle hlocal hposted
        hrport hport hroom hfirst hreqs))
  case pwracq =>
    intro rest h hslot htok hagent hops k hk hpool hfree v
    obtain rfl := hwho h
    have hbody := pwracqBody_free (s := u) hops h.2.1 (by rw [Claims.looks_tokWait, htok]) hk
      (by rwa [Claims.looks_board]) (by rwa [Claims.looks_poolFree])
    simp only [u, Claims.looks_poolFree] at hbody
    exact congrArg Host.Outcome.next ((State.grantTokens_of_agent htok hagent).trans (State.resume_next h rfl hbody))
  case idle =>
    intro h hslot hagent d hops ev hev v
    obtain rfl := hwho h
    have hev' : u.latchedAt c.who.core (c.sVal e.a9.toNat).toNat ≠ 0 := by rwa [Claims.looks_latchedAt]
    refine ⟨fun hq => ?_, fun payload src rest hq => ?_⟩
    · have hbody := idleWaitBody_event (s := u) hops hev' (by rwa [Claims.looks_sigQ])
      rw [Claims.looks_latchedAt] at hbody
      exact congrArg Host.Outcome.next ((State.wakeIdle_of_agent hagent).trans (State.resume_next h rfl hbody))
    · have hbody := idleWaitBody_signal (s := u) hops hev' (by rwa [Claims.looks_sigQ])
      rw [Claims.looks_latchedAt] at hbody
      exact congrArg Host.Outcome.next ((State.wakeIdle_of_agent hagent).trans (State.resume_next h rfl hbody))

end Sys2Proof.Machine

end

-- ==== Fills, pending atomics and fault records; O56 ====
section
/-!
The memory events of O56: fills, pending atomics, the fault buffers and their responses, and the congestion level.
-/

namespace Sys2Proof.Machine

/-! ### Waves that an event changes -/

theorem State.updWave_of_wave {s : State} {c k : Nat} {w : Wave} (hw : s.wave? c k = some w) (f : Wave → Wave) :
    s.updWave c k f = s.setWave c k (f w) := by
  simp only [State.updWave, hw]

/-- A fold none of whose steps changes its start. -/
theorem foldl_eq_of_forall {α β : Type} {f : β → α → β} {b : β} : ∀ {l : List α}, (∀ a ∈ l, f b a = b) → l.foldl f b = b
  | [], _ => rfl
  | a :: l, h => by rw [List.foldl_cons, h a (by simp), foldl_eq_of_forall fun x hx => h x (by simp [hx])]

/-- Fills, pending atomics and results of one wave (R95, R186, R321). -/
theorem Claims.waveMemoryEvents (s : State) (core slot : Nat) (w : Wave) (hw : s.wave? core slot = some w) :
    exec (.translationFill core slot false) s = .next (s.setWave core slot (w.mapPaths fun p =>
      if p.wait = .filling then { p with wait := .ready } else p)) ∧
    (let go (y : State × Wave) (x : AtomnOp) : State × Wave :=
      let w := if x.opens then { y.2 with sfr := y.2.sfr + 1 } else y.2
      let r := (y.1.setWave core slot w).performAtomn (y.1.waveSpace core slot w) x
      (r.2, if r.1 then w else { w with later := w.later ++ [w.errorRecord core slot x] })
     let r := w.atomn.foldl go (s, { w with atomn := [] })
     exec (.atomnPerform core slot) s = .next ((r.1.setWave core slot r.2).drainOrphans (· == core))) ∧
    (∀ x, (w.errorRecord core slot x).pc = x.pc ∧ (w.errorRecord core slot x).addr = BitVec.ofNat 64 x.va ∧
      (w.errorRecord core slot x).excCode = 0x23 ∧ (w.errorRecord core slot x).wave = w.id.handle) ∧
    ∀ n, exec (.registerResultsWritten core slot n) s = .next (s.setWave core slot { w with pend := w.pend.eraseIdx n }) := by
  refine ⟨congrArg Host.Outcome.next (State.updWave_of_wave hw _), ?_, fun x => ⟨rfl, rfl, ?_, rfl⟩,
    fun n => congrArg Host.Outcome.next (State.updWave_of_wave hw _)⟩
  · intro go r
    change Host.Outcome.next ((s.drainAtomn core slot).drainOrphans _) = _
    rw [State.drainAtomn, hw]
    rfl
  · rw [TrapRec.excCode, bits, Nat.pow_zero, Nat.div_one]
    exact mkCode_low ..

/-! ### Fault records -/

@[simp] theorem State.hostAnswered_cores (s : State) (die : Nat) (seq : BitVec 16) (raise : Bool) :
    (s.hostAnswered die seq raise).cores = s.cores := by
  unfold State.hostAnswered
  split <;> rfl

@[simp] theorem State.hostAnswered_mem (s : State) (die : Nat) (seq : BitVec 16) (raise : Bool) :
    (s.hostAnswered die seq raise).mem = s.mem := by
  unfold State.hostAnswered
  split <;> rfl

theorem State.unlessMin_of_min {s : State} (h : s.boot.min = true) (k : State → State) : s.unlessMin k = s := if_pos h

theorem State.unlessMin_of_notMin {s : State} (h : s.boot.min = false) (k : State → State) : s.unlessMin k = k s := by
  simp [State.unlessMin, h]

/-- The oldest record of a fault buffer not popped is popped, and goes where it is answered too (R188). -/
theorem Claims.popsOldestRecord (s : State) (die n : Nat) (b : FaultBuf) (hmin : s.boot.min = false)
    (hb : s.mem.fbuf[die]? = some b) (hn : (b.recs.findIdx? fun r => !r.popped) = some n) :
    ∃ t b', exec (.fbpop die) s = .next t ∧ t.mem.fbuf[die]? = some b' ∧ b'.seq = b.seq ∧
      b'.recs = (updAt (fun r => { r with popped := true }) n b.recs).filter (fun r => !(r.popped && r.answered)) ∧
      t.cores = s.cores ∧ t.mem.hbm = s.mem.hbm := by
  refine ⟨s.fbpop die,
    { b with recs := (updAt (fun r => { r with popped := true }) n b.recs).filter fun r => !(r.popped && r.answered) },
    congrArg Host.Outcome.next (State.unlessMin_of_notMin hmin _), ?_, rfl, rfl, rfl, rfl⟩
  rw [State.fbpop, updAt_getElem?_self, hb, Option.map_some, hn]
  rfl

theorem Sparse.get?_map {α : Type} {f : Nat × α → Nat × α} (hf : ∀ x, (f x).1 = x.1) (k : Nat) : ∀ m : List (Nat × α),
    Sparse.get? k (m.map f) = (Sparse.get? k m).map fun a => (f (k, a)).2
  | [] => rfl
  | (j, a) :: m => by
    rw [List.map_cons, Sparse.get?, Sparse.get?, hf, Sparse.get?_map hf k m]
    split
    · next h => rw [← h]; rfl
    · rfl

/-- A core whose place lists waves is listed. -/
theorem State.core_of_wave {s : State} {k j : Nat} {w : Wave} (hw : s.wave? k j = some w) :
    Sparse.get? k s.cores = some (s.core k) := by
  rw [State.wave?, State.core, Sparse.get] at hw
  rw [State.core, Sparse.get]
  cases h : Sparse.get? k s.cores with
  | none => simp [h, Core.reset, Sparse.get?] at hw
  | some c => rfl

theorem State.rereads_congr {s t : State} (h : t.cores = s.cores) (die : Nat) (seq : BitVec 16) :
    t.rereads die seq = s.rereads die seq := by
  rw [State.rereads, h, ← State.rereads]

/-- A state with a record of a fault buffer answered. -/
def State.answerRec (s : State) (die : Nat) (seq : BitVec 16) : State :=
  { s with mem := { s.mem with fbuf := updAt (fun b => b.answer seq) die s.mem.fbuf } }

/-- A re-read that no record holds alone leaves the answer to a record an update of the paths alone (R76, R188). -/
theorem State.walkAgain_frame {s : State} {die : Nat} {seq : BitVec 16} {r : FaultRec} (hr : s.faultRec? die seq = some r)
    (hq : s.rereads die seq = []) : (s.walkAgain die seq).mem.hbm = s.mem.hbm ∧ ∀ k j w, unitDie k = die → s.wave? k j = some w →
      ∃ w', (s.walkAgain die seq).wave? k j = some w' ∧ w'.regs = w.regs ∧ w'.traps = w.traps ∧
        w'.halves.map (·.base.wait) = w.halves.map fun h => (Path.answered seq (r.kind == 3) h.base).wait := by
  have hq' : ((s.answerRec die seq).hostAnswered die seq false).rereads die seq = [] :=
    (State.rereads_congr (State.hostAnswered_cores ..) die seq).trans hq
  unfold State.walkAgain
  rw [hr]
  unfold State.answerRec at hq'
  simp only [hq', List.foldl_nil]
  refine ⟨congrArg (·.hbm) (State.hostAnswered_mem ..), fun k j w hk hw => ?_⟩
  have hcore := State.core_of_wave hw
  rw [State.wave?] at hw
  unfold State.wave? State.core
  simp only [State.hostAnswered_cores]
  rw [Sparse.get, Sparse.get?_map, hcore, Option.map_some, Option.getD_some, if_pos hk]
  · dsimp only
    rw [Sparse.get?_map, hw]
    · exact ⟨_, rfl, rfl, rfl, by simp [Wave.mapPaths]⟩
    · exact fun _ => rfl
  · intro x
    split <;> rfl

theorem Claims.walksAgain (s : State) (die : Nat) (seq : BitVec 16) (r : FaultRec) (k j : Nat) (hmin : s.boot.min = false)
    (hr : s.faultRec? die seq = some r) (hq : s.rereads die seq = []) (hk : unitDie k = die) :
    ∃ t, exec (.fbrespWalkAgain die seq) s = .next t ∧ t.mem.hbm = s.mem.hbm ∧
      (∀ w, s.wave? k j = some w → ∃ w', t.wave? k j = some w' ∧ w'.regs = w.regs ∧ w'.traps = w.traps ∧
        w'.halves.map (·.base.wait) = w.halves.map fun h => (Path.answered seq (r.kind == 3) h.base).wait) := by
  obtain ⟨hm, hw⟩ := State.walkAgain_frame hr hq
  exact ⟨_, congrArg Host.Outcome.next (State.unlessMin_of_notMin hmin _), hm, fun w => hw k j w hk⟩

/-- Where no trap return is pending no agent raises (R80, R188). -/
theorem State.raiseDue_of_noDue {s : State} (hd : ∀ x ∈ s.cores, ∀ y ∈ x.2.waves, y.2.due = []) (die : Nat) (seq : BitVec 16) :
    s.raiseDue die seq = s := by
  refine foldl_eq_of_forall fun x hx => foldl_eq_of_forall fun y hy => ?_
  rw [hd x (List.mem_of_mem_filter hx) y hy]
  rfl

/-- A record that is answered is no longer one to answer (R188). -/
theorem State.faultRec?_answerRec (s : State) (die : Nat) (seq : BitVec 16) : (s.answerRec die seq).faultRec? die seq = none := by
  rw [State.faultRec?, State.answerRec, updAt_getElem?_self, Option.bind_map, Option.bind_eq_none_iff]
  intro b _
  rw [Function.comp_apply, List.find?_eq_none]
  intro r hr
  obtain ⟨r₀, -, rfl⟩ := List.mem_map.1 (List.mem_of_mem_filter hr)
  split <;> simp_all

/-- A response with ACT = 1 to a record that holds one split alone (R188). -/
theorem State.raiseRecord_of_parked {s : State} {die : Nat} {seq : BitVec 16} {r : FaultRec} {c : Ctx} {addr : Nat}
    (hr : s.faultRec? die seq = some r) (hcmd : s.cmdsOn die seq = []) (hp : s.parkedOn die seq = [(c.who, false, addr)])
    (hd : ∀ x ∈ s.cores, ∀ y ∈ x.2.waves, y.2.due = []) (hc : s.ctx? c.who = some c) :
    s.raiseRecord die seq = (((s.hostAnswered die seq true).answerRec die seq).updPath c fun p =>
      { p with wait := .ready }).takeException c false 0x20 c.path.pc addr := by
  have hdue : (s.hostAnswered die seq true).raiseDue die seq = s.hostAnswered die seq true :=
    State.raiseDue_of_noDue (by simpa using hd) die seq
  have hu : ((s.hostAnswered die seq true).answerRec die seq).ctx? c.who = some c := by
    rw [← hc, State.ctx?, State.ctx?, State.wave?, State.wave?, State.core, State.core, State.answerRec, State.hostAnswered_cores]
  rw [State.raiseRecord, hcmd, List.foldl_nil, State.raiseParked, hr]
  simp only [hdue, hp]
  rw [List.foldl_cons, List.foldl_nil]
  change (match ((s.hostAnswered die seq true).answerRec die seq).ctx? c.who with | none => _ | some c' => _) = _
  rw [hu]
  rfl

theorem Claims.raisesRecord (s : State) (die : Nat) (seq : BitVec 16) (hmin : s.boot.min = false) :
    exec (.fbrespRaise die seq) s = .next (s.raiseRecord die seq) ∧
    ∀ r c addr, s.faultRec? die seq = some r → s.cmdsOn die seq = [] → s.parkedOn die seq = [(c.who, false, addr)] →
      (∀ x ∈ s.cores, ∀ y ∈ x.2.waves, y.2.due = []) →
      s.ctx? c.who = some c → ∃ u : State, u.cores = s.cores ∧ u.mem.hbm = s.mem.hbm ∧ u.faultRec? die seq = none ∧
        s.raiseRecord die seq = (u.updPath c fun p => { p with wait := .ready }).takeException c false 0x20 c.path.pc addr :=
  ⟨congrArg Host.Outcome.next (State.unlessMin_of_notMin hmin _), fun _ _ _ hr hcmd hp hd hc =>
    ⟨(s.hostAnswered die seq true).answerRec die seq, State.hostAnswered_cores ..,
      congrArg (·.hbm) (State.hostAnswered_mem ..), State.faultRec?_answerRec ..,
      State.raiseRecord_of_parked hr hcmd hp hd hc⟩⟩

theorem Claims.memoryEvents : Claims.MemoryEvents := by
  refine ⟨Claims.waveMemoryEvents, fun s core slot => ⟨_, rfl, ?_, ?_, rfl⟩, fun s die seq hmin => ?_,
    fun s die n b hmin hb _ hn => Claims.popsOldestRecord s die n b hmin hb hn, Claims.walksAgain, Claims.raisesRecord,
    fun _ _ _ => rfl, fun s ctl level hctl => ⟨_, rfl, ?_, fun j hj => ?_, rfl⟩⟩
  · rw [if_pos rfl, State.core_updCore]
  · rw [if_pos rfl, State.core_updCore]
  · have hs (k : State → State) : Host.Outcome.next (s.unlessMin k) = (.next s : Host.Outcome State Fault Refusal) :=
      congrArg Host.Outcome.next (State.unlessMin_of_min hmin k)
    exact ⟨hs _, hs _, hs _⟩
  · rw [updAt_getElem?_self, List.getElem?_eq_getElem hctl]
    rfl
  · rw [updAt_getElem?, if_neg hj]

end Sys2Proof.Machine

end

-- ==== Register blocks and barriers; O56 ====
section
/-!
The events of the register block pool and of barriers of O56: an answer to the only split of a wave that waits completes its VGROW.
-/

namespace Sys2Proof.Machine

/-! ### Splits that wait for a block -/

/-- The half and the path that a split's place names. -/
theorem State.ctx?_place {s : State} {a : Who} {c : Ctx} (h : s.ctx? a = some c) :
    c.w.halves[a.half]? = some c.half ∧ c.half.paths[a.path]? = some c.path := by
  unfold State.ctx? at h
  repeat' split at h
  all_goals simp_all
  subst h
  simp_all

theorem Half.eq_base_of_mem_paths {h : Half} (hs : h.stack = []) {p : Path} (hp : p ∈ h.paths) : p = h.base := by
  rw [Half.paths, hs] at hp
  dsimp only at hp
  split at hp
  · exact absurd hp (by simp)
  · exact List.mem_singleton.1 hp

/-- Nobody on the top of a stack of the wave waits in a VGROW that f admits. -/
def Wave.noGrower (f : Instr → Bool) (w : Wave) : Prop := ∀ h ∈ w.halves, ∀ p ∈ h.paths, p.growing f = none

/-- Nobody below the top of a stack of the wave waits in a VGROW that f admits. -/
def Wave.noGrowerBelow (f : Instr → Bool) (w : Wave) : Prop :=
  ∀ h ∈ w.halves, ∀ e es, h.stack = e :: es → ∀ p ∈ h.base :: es.flatMap (·.paths), p.growing f = none

/-- Where no split of a wave waits for an answer none goes on. -/
theorem State.passGrows_of_noGrower {s : State} {core slot : Nat} {f : Instr → Bool}
    (hn : ∀ w, s.wave? core slot = some w → w.noGrower f) (ok : Bool) (fuel : Nat) : s.passGrows core slot f ok fuel = s := by
  cases fuel with
  | zero => rfl
  | succ fuel =>
    have hnone : ((s.wave? core slot).bind fun w => w.halves.zipIdx.findSome? fun h => h.1.paths.zipIdx.findSome? fun p =>
        (p.1.growing f).map fun e => ((⟨core, slot, h.2, p.2⟩ : Who), e)) = none := by
      rw [Option.bind_eq_none_iff]
      intro w hw
      rw [List.findSome?_eq_none_iff]
      intro h hh
      rw [List.findSome?_eq_none_iff]
      intro p hp
      rw [hn w hw h.1 (List.fst_mem_of_mem_zipIdx hh) p.1 (List.fst_mem_of_mem_zipIdx hp), Option.map_none]
    rw [State.passGrows]
    simp only [hnone, Option.bind_none]

/-- Where nobody below the top of a stack waits for an answer, it goes to the tops alone. -/
theorem State.endGrows_of_noneBelow {s : State} {core slot : Nat} {w : Wave} {f : Instr → Bool}
    (hw : s.wave? core slot = some w) (hn : w.noGrowerBelow f) (ok : Bool) :
    s.endGrows core slot f ok = (s.setWave core slot w).passGrows core slot f ok 64 := by
  have hunder : (w.halves.flatMap fun h => if h.stack.isEmpty then [] else h.base :: h.stack.tail.flatMap (·.paths)).filterMap
      (Path.growing f) = [] := by
    rw [List.filterMap_eq_nil_iff]
    intro p hp
    obtain ⟨h, hh, hp⟩ := List.mem_flatMap.1 hp
    cases hs : h.stack with
    | nil => simp [hs] at hp
    | cons e es => exact hn h hh e es hs p (by simpa [hs] using hp)
  simp only [State.endGrows, State.updWave_of_wave hw, hunder, List.foldl_nil]
  refine congrArg (fun v => (s.setWave core slot v).passGrows core slot f ok 64) ?_
  refine (congrArg (fun hs => { w with halves := hs }) ?_ : _ = { w with halves := w.halves })
  refine (List.map_congr_left fun h hh => ?_).trans (List.map_id _)
  split
  · rfl
  · next e es hs =>
    have hbelow (p : Path) (hp : p ∈ h.base :: es.flatMap (·.paths)) :
        (if (p.growing f).isSome then { p with wait := .ready, prog := some ⟨p.pc, 0, 1, []⟩ } else p) = p := by
      rw [hn h hh e es hs p hp]
      rfl
    have hpaths : (es.map fun x => { x with paths := x.paths.map fun p =>
        if (p.growing f).isSome then { p with wait := .ready, prog := some ⟨p.pc, 0, 1, []⟩ } else p }) = es := by
      refine (List.map_congr_left fun x hx => ?_).trans (List.map_id _)
      refine (congrArg (fun ps => { x with paths := ps }) ?_ : _ = { x with paths := x.paths })
      refine (List.map_congr_left fun p hp => ?_).trans (List.map_id _)
      exact hbelow p (List.mem_cons_of_mem _ (List.mem_flatMap.2 ⟨x, hx, hp⟩))
    rw [hpaths, hbelow h.base List.mem_cons_self, ← hs]
    rfl

/-- A grant or a refusal that nobody waits for changes the wave's holding alone (R57). -/
theorem State.endGrows_of_noGrower {s : State} {core slot : Nat} {w : Wave} {f : Instr → Bool}
    (hw : s.wave? core slot = some w) (hn : ∀ h ∈ w.halves, ∀ p ∈ h.base :: h.stack.flatMap (·.paths), p.growing f = none) (ok : Bool) :
    s.endGrows core slot f ok = s.setWave core slot w := by
  have hbelow : w.noGrowerBelow f := by
    intro h hh e es hs p hp
    refine hn h hh p ?_
    rw [hs, List.flatMap_cons]
    simp only [List.mem_cons, List.mem_append] at hp ⊢
    tauto
  rw [State.endGrows_of_noneBelow hw hbelow]
  refine State.passGrows_of_noGrower (fun v hv h hh p hp => ?_) ok 64
  obtain rfl : w = v := Option.some.inj ((State.wave?_setWave ..).symm.trans hv)
  refine hn h hh p ?_
  cases hs : h.stack with
  | nil => exact List.mem_cons.2 (.inl (Half.eq_base_of_mem_paths hs hp))
  | cons e es =>
    rw [Half.paths, hs] at hp
    exact List.mem_cons_of_mem _ (List.mem_append_left _ hp)

/-! ### The only split that waits -/

/-- An instruction that falls through at depth 0, where no loop ends, moves its split alone among the wave's (R27, R81). -/
theorem ended_halves {i : Instr} {e : Option Ext} {c : Ctx} {s u : State} {w : Wave} {h : Half}
    (hw : u.wave? c.who.core c.who.slot = some w) (hh : w.halves[c.who.half]? = some h) (hs : h.stack = [])
    (hi : h.innermost = none) :
    ∃ w', (ended i e c s u).wave? c.who.core c.who.slot = some w' ∧
      w'.halves = updAt (Half.updPath · c.who.path fun p => { p with pc := nextPc c i, wait := .ready, prog := none })
        c.who.half w.halves := by
  have htracked : ∃ w', (if s.scheduled c then u.track c i e c.w.regs else u).wave? c.who.core c.who.slot = some w' ∧
      w'.halves = w.halves := by
    split
    · obtain ⟨w', hw', hhalves, -⟩ := State.track_frame hw i e c.w.regs
      exact ⟨w', hw', hhalves⟩
    · exact ⟨w, hw, rfl⟩
  obtain ⟨v, hv, hhalves⟩ := htracked
  rw [← hhalves] at hh ⊢
  obtain ⟨t, ht⟩ := finish_of_backEdge (i := i) (e := e) hv (Wave.backEdge_of_noLevel (by exact hh) hi _ _ _ _)
  have hnew (x : Wave) (hx : x.halves = v.halves) (f : Path → Path) :
      (x.updPath c.who.half c.who.path f).halves[c.who.half]? = some (h.updPath c.who.path f) := by
    rw [Wave.updPath, Wave.updHalf, updAt_getElem?_self, hx, hh, Option.map_some]
  rw [ended, ht, State.merge_of_noStack (State.wave?_setWave _ _ _ _) (hnew _ (by rfl) _)]
  · exact ⟨_, State.wave?_setWave _ _ _ _, rfl⟩
  · simp only [Half.updPath, hs]
    split
    · rfl
    · exact hs

theorem State.ctx?_congr {s t : State} {a : Who} (h : t.wave? a.core a.slot = s.wave? a.core a.slot) : t.ctx? a = s.ctx? a := by
  rw [State.ctx?, State.ctx?, h]

/-- The split that a search for a waiting one finds, where there is one only. -/
theorem Claims.found_of_onlyGrower {u : State} {core slot : Nat} {w : Wave} {c : Ctx} {f : Instr → Bool} {e : Ext}
    (h : Claims.OnlyGrower u core slot w c f e) (hw : u.wave? core slot = some w) :
    (w.halves.zipIdx.findSome? fun h => h.1.paths.zipIdx.findSome? fun p =>
      (p.1.growing f).map fun e => ((⟨core, slot, h.2, p.2⟩ : Who), e)) = some (c.who, e) := by
  obtain ⟨rfl, rfl, hpath, hc, hgrow, hhalves, hothers⟩ := h
  obtain rfl : c.w = w := Option.some.inj ((State.ctx?_wave hc).symm.trans hw)
  obtain ⟨hhalf, hplace⟩ := State.ctx?_place hc
  have hown : (c.half.paths.zipIdx.findSome? fun p =>
      (p.1.growing f).map fun e => ((⟨c.who.core, c.who.slot, c.who.half, p.2⟩ : Who), e)) = some (c.who, e) := by
    rw [hpath, Half.paths, (hhalves _ (List.mem_of_getElem? hhalf)).1] at hplace
    rw [Half.paths, (hhalves _ (List.mem_of_getElem? hhalf)).1]
    dsimp only at hplace ⊢
    split at hplace
    · exact absurd hplace (by simp)
    · next hended =>
      rw [if_neg hended]
      have hbase : c.half.base = c.path := Option.some.inj hplace
      simp [hbase, hgrow, ← hpath]
  cases hr : (c.w.halves.zipIdx.findSome? fun h => h.1.paths.zipIdx.findSome? fun p =>
      (p.1.growing f).map fun e => ((⟨c.who.core, c.who.slot, h.2, p.2⟩ : Who), e)) with
  | none =>
    have hnone := List.findSome?_eq_none_iff.1 hr (c.half, c.who.half) (List.mem_zipIdx_iff_getElem?.2 hhalf)
    exact absurd (hown.symm.trans hnone) (by simp)
  | some y =>
    obtain ⟨⟨h, k⟩, hmem, hy⟩ := List.exists_of_findSome?_eq_some hr
    have hk : c.w.halves[k]? = some h := List.mem_zipIdx_iff_getElem?.1 hmem
    by_cases hkh : k = c.who.half
    · subst hkh
      obtain rfl : c.half = h := Option.some.inj (hhalf.symm.trans hk)
      exact hy.symm.trans hown
    · obtain ⟨p, hp, hpy⟩ := List.exists_of_findSome?_eq_some hy
      rw [Half.eq_base_of_mem_paths (hhalves h (List.mem_of_getElem? hk)).1 (List.fst_mem_of_mem_zipIdx hp), hothers k h hk hkh] at hpy
      exact absurd hpy (by simp)

theorem Wave.halves_setP (w : Wave) (n : Nat) (m k : Mask) : (w.setP n m k).halves = w.halves := by
  unfold Wave.setP
  split <;> rfl

/-- The answer to the request of the only split that waits completes its VGROW (R57). -/
theorem Claims.endGrows_of_onlyGrower {u : State} {core slot : Nat} {w : Wave} {c : Ctx} {f : Instr → Bool} {e : Ext}
    (h : Claims.OnlyGrower u core slot w c f e) (hw : u.wave? core slot = some w) (ok : Bool) :
    u.endGrows core slot f ok = ended (.vgrow e) (some e) c u (u.put c (w.grown ok e)) := by
  have hfound := Claims.found_of_onlyGrower h hw
  obtain ⟨rfl, rfl, hpath, hc, hgrow, hhalves, hothers⟩ := h
  obtain rfl : c.w = w := Option.some.inj ((State.ctx?_wave hc).symm.trans hw)
  obtain ⟨hhalf, -⟩ := State.ctx?_place hc
  obtain ⟨hhalf', hnolevel⟩ := hhalves _ (List.mem_of_getElem? hhalf)
  have hbelow : c.w.noGrowerBelow f := by
    intro h hh x xs hx
    rw [(hhalves h hh).1] at hx
    exact absurd hx (by simp)
  have hctx : (u.put c c.w).ctx? c.who = some c :=
    (State.ctx?_congr ((State.wave?_setWave ..).trans hw.symm)).trans hc
  have hgo : (u.put c c.w).passGrows c.who.core c.who.slot f ok 64 =
      (ended (.vgrow e) (some e) c u (u.put c (c.w.grown ok e))).passGrows c.who.core c.who.slot f ok 63 := by
    rw [State.passGrows, State.put, State.wave?_setWave, ← State.put]
    simp only [Option.bind_some, hfound, hctx, Option.map_some, conclude]
    rw [State.scheduled_put _ _ _ _ rfl, State.put_put, ← ended]
  rw [State.endGrows_of_noneBelow hw hbelow, ← State.put, hgo]
  refine State.passGrows_of_noGrower (fun v hv => ?_) ok 63
  obtain ⟨v', hv', hnew⟩ := ended_halves (i := .vgrow e) (e := some e) (s := u) (u := u.put c (c.w.grown ok e))
    (State.wave?_setWave ..) ((congrArg (·[c.who.half]?) (Wave.halves_setP ..)).trans hhalf) hhalf' hnolevel
  obtain rfl : v' = v := Option.some.inj (hv'.symm.trans hv)
  intro h hh p hp
  rw [hnew, Wave.grown, Wave.halves_setP] at hh
  obtain ⟨k, hk⟩ := List.mem_iff_getElem?.1 hh
  rw [updAt_getElem?] at hk
  split at hk
  · next hkh =>
    rw [hkh] at hk
    obtain rfl := Option.some.inj ((congrArg (Option.map _) hhalf).symm.trans hk)
    simp only [Half.updPath, hhalf', hpath, if_true] at hp
    rw [Half.eq_base_of_mem_paths rfl hp]
    rfl
  · next hkh =>
    rw [Half.eq_base_of_mem_paths (hhalves h (List.mem_of_getElem? hk)).1 hp]
    exact hothers k h hk hkh

/-! ### The pool's events -/

/-- What a wave is once a block has been granted to it (R55, R58). -/
def Wave.granted (w : Wave) (k : Nat) : Wave :=
  { w with
    hold := w.hold ||| BitVec.ofNat 4 (2 ^ (k - 1))
    regs := { w.regs with v := w.regs.v.filter fun x => x.1 / 64 ≠ k }
    badRegs := w.badRegs.filter fun n => n / 64 ≠ k }

/-- The pool's head request is answered, but where a block of its name still drains (R58). -/
theorem State.grantBlock_eq {s : State} {core n : Nat} {q : PoolReq} {qs : List PoolReq} {w : Wave}
    (hq : (s.core core).poolQ = q :: qs) (hp : (s.core core).pool = n + 1) (hw : s.wave? core q.slot = some w) :
    s.grantBlock core = if (s.core core).draining.contains ⟨q.slot, q.blk⟩ then s
      else ((s.updCore core fun r => { r with poolQ := qs, pool := n }).setWave core q.slot (w.granted q.blk)).endGrows core q.slot
        (waitsBlk q.blk) true := by
  have hw' : (s.updCore core fun r => { r with poolQ := qs, pool := n }).wave? core q.slot = some w :=
    (s.wave?_updCore _ (by intro; rfl) _ _).trans hw
  rw [State.grantBlock, hq, hp]
  dsimp only
  rw [State.updWave_of_wave hw']
  rfl

/-- VGROW_GRANT (R55, R57, R58). -/
theorem Claims.grantsBlock (s : State) (core n : Nat) (q : PoolReq) (qs : List PoolReq) (w : Wave)
    (hq : (s.core core).poolQ = q :: qs) (hp : (s.core core).pool = n + 1) (hw : s.wave? core q.slot = some w) :
    let u := (s.updCore core fun r => { r with poolQ := qs, pool := n }).setWave core q.slot (w.granted q.blk)
    (⟨q.slot, q.blk⟩ ∈ (s.core core).draining → exec (.vgrowGrant core) s = .next s) ∧
    (⟨q.slot, q.blk⟩ ∉ (s.core core).draining →
      ((∀ h ∈ w.halves, ∀ p ∈ h.base :: h.stack.flatMap (·.paths), p.growing (waitsBlk q.blk) = none) →
        exec (.vgrowGrant core) s = .next u) ∧
      ∀ e c, Claims.OnlyGrower u core q.slot w c (waitsBlk q.blk) e →
        exec (.vgrowGrant core) s = .next (ended (.vgrow e) (some e) c u
          (u.put c ((w.granted q.blk).setP (e.d9.toNat - 416) allLanes allLanes)))) := by
  intro u
  have hu : u.wave? core q.slot = some (w.granted q.blk) := State.wave?_setWave ..
  have hgrant : exec (.vgrowGrant core) s = .next (s.grantBlock core) := rfl
  rw [hgrant, State.grantBlock_eq hq hp hw]
  refine ⟨fun hd => ?_, fun hd => ?_⟩
  · rw [if_pos (List.contains_iff_mem.2 hd)]
  · rw [if_neg fun hc => hd (List.contains_iff_mem.1 hc)]
    refine ⟨fun hn => ?_, fun e c h => ?_⟩
    · rw [State.endGrows_of_noGrower hu hn]
      exact congrArg Host.Outcome.next (State.setWave_setWave ..)
    · exact congrArg Host.Outcome.next (Claims.endGrows_of_onlyGrower (w := w.granted q.blk) h hu true)

theorem Sparse.mem_of_get? {α : Type} {k : Nat} {a : α} : ∀ {m : List (Nat × α)}, Sparse.get? k m = some a → (k, a) ∈ m
  | [], h => by simp [Sparse.get?] at h
  | (j, b) :: m, h => by
    rw [Sparse.get?] at h
    split at h
    · next hj => rw [hj, Option.some.inj h]; exact List.mem_cons_self
    · exact List.mem_cons_of_mem _ (Sparse.mem_of_get? h)

theorem le_foldl_max {α : Type} {f : α → Nat} {a : α} : ∀ {ls : List α} {n : Nat}, a ∈ ls → f a ≤ ls.foldl (fun m x => max m (f x)) n
  | x :: xs, n, h => by
    have hstart (m : Nat) : m ≤ xs.foldl (fun m x => max m (f x)) m :=
      List.foldlRecOn (motive := fun k => m ≤ k) _ _ le_rfl fun _ hk _ _ => le_max_of_le_left hk
    rw [List.foldl_cons]
    rcases List.mem_cons.1 h with rfl | h
    · exact (le_max_right _ _).trans (hstart _)
    · exact le_foldl_max h

/-- The youngest of a core's user waves, the one whose requests fail (R59). -/
theorem State.vgrowBreak_of_youngest {s : State} {core slot : Nat} {w : Wave} (hd : (s.core core).draining = [])
    (hb : ∀ x ∈ (s.core core).waves, x.1 ≠ 0 → x.2.stopping = false ∧ s.vgrowBlocked core x.1 x.2 = true)
    (hw : s.wave? core slot = some w) (hslot : slot ≠ 0)
    (hyoung : ∀ x ∈ (s.core core).waves, x.1 ≠ 0 → x.1 ≠ slot → x.2.id.made < w.id.made)
    (hkeys : ((s.core core).waves.map (·.1)).Nodup) :
    s.vgrowBreak core = (s.updCore core fun r => { r with poolQ := r.poolQ.filter fun q => q.slot ≠ slot }).endGrows core slot
      (fun _ => true) false := by
  have hmine : (slot, w) ∈ (s.core core).waves := Sparse.mem_of_get? hw
  have hmem : (slot, w) ∈ (s.core core).waves.filter fun x => x.1 ≠ 0 := List.mem_filter.2 ⟨hmine, by simpa using hslot⟩
  have hmade (x : Nat × Wave) (hx : x ∈ (s.core core).waves.filter fun x => x.1 ≠ 0) : x.2.id.made < w.id.made + 1 := by
    obtain ⟨hx, hx0⟩ := List.mem_filter.1 hx
    by_cases hxs : x.1 = slot
    · rw [List.inj_on_of_nodup_map hkeys hx hmine hxs]
      exact Nat.lt_succ_self _
    · exact Nat.lt_succ_of_lt (hyoung x hx (by simpa using hx0) hxs)
  have htop : ((s.core core).waves.filter fun x => x.1 ≠ 0).foldl (fun m x => max m x.2.id.made) 0 = w.id.made :=
    Nat.le_antisymm (Nat.le_of_lt_succ (foldl_max_lt (Nat.succ_pos _) hmade)) (le_foldl_max (f := fun x => x.2.id.made) hmem)
  have hany : (((s.core core).waves.filter fun x => x.1 ≠ 0).any fun x => x.2.stopping || !s.vgrowBlocked core x.1 x.2) = false := by
    rw [List.any_eq_false]
    intro x hx
    obtain ⟨hx, hx0⟩ := List.mem_filter.1 hx
    obtain ⟨hstop, hblocked⟩ := hb x hx (by simpa using hx0)
    simp [hstop, hblocked]
  have hempty : ((s.core core).waves.filter fun x => x.1 ≠ 0).isEmpty = false := by
    rw [List.isEmpty_eq_false_iff]
    exact List.ne_nil_of_mem hmem
  unfold State.vgrowBreak
  simp only [hempty, hd, hany, htop, List.isEmpty_nil, Bool.not_true, Bool.or_self, Bool.false_eq_true, if_false]
  split
  · next hnone => exact absurd (List.find?_eq_none.1 hnone _ hmem) (by simp)
  · next k x hfind =>
    have hx := List.mem_of_find?_eq_some hfind
    obtain ⟨hx, hx0⟩ := List.mem_filter.1 hx
    have hsame : x.id.made = w.id.made := by simpa using List.find?_some hfind
    by_cases hk : k = slot
    · rw [hk]
    · exact absurd hsame (hyoung (k, x) hx (by simpa using hx0) hk).ne

/-- BARRIER_PHASE_COMPLETE at a level of one device (R324). -/
theorem State.phaseComplete_of_local {s : State} {blk level : Nat} {b : Block} {l : Launch} (hb : s.block? blk = some b)
    (hl : s.launch? b.launch = some l) (hlevel : level < l.nlvl) (hbar : Level.bar (l.level level) = true)
    (hdom : Level.domain (l.level level) ≠ 5) :
    s.phaseComplete blk level = if s.barDone b.launch level (l.barKey level b.ticket) then s.nextPhase b.launch (l.barKey level b.ticket)
      else s := by
  simp only [State.phaseComplete, hb, hl, Option.bind_some, Option.map_some, hlevel, hbar, decide_true, Bool.true_and, hdom, if_false]

theorem Claims.blockPoolEvents : Claims.BlockPoolEvents := by
  refine ⟨Claims.grantsBlock, fun s core d hd => ?_, fun s core slot w hd hb hw hslot hyoung hkeys => ?_,
    fun s blk level b l hb hl => ?_⟩
  · refine ⟨_, (congrArg Host.Outcome.next (by rw [hd]) : exec (.blockDrainDone core) s = _), ?_⟩
    rw [State.core_updCore]
    exact ⟨rfl, rfl, rfl⟩
  · intro u e c h
    have hu : u.wave? core slot = some w := (s.wave?_updCore _ (by intro; rfl) _ _).trans hw
    refine congrArg Host.Outcome.next ?_
    rw [State.vgrowBreak_of_youngest hd hb hw hslot hyoung hkeys]
    exact Claims.endGrows_of_onlyGrower h hu false
  · intro key hlevel hbar hdom
    exact congrArg Host.Outcome.next (State.phaseComplete_of_local hb hl hlevel hbar hdom)

end Sys2Proof.Machine

end

-- ==== Firmware agents; O56 ====
section
/-!
The trap events of O56: the restart of an agent and the delivery of a record; with them O56 itself.
-/

namespace Sys2Proof.Machine

/-! ### Firmware agents -/

/-- AGENT_RESTART (R254). -/
theorem Claims.restartsAgent (s : State) (core : Nat) (w : Wave) (hh : (s.core core).agentHalted = true)
    (hw : s.wave? core 0 = some w) :
    let tv : Dword := (0 : BitVec 12) ++ (s.core core).ctl.ktvec ++ (0 : BitVec 6)
    ∃ t w', exec (.agentRestart core) s = .next t ∧ (t.core core).agentHalted = false ∧
      (t.core core).trapQ = (s.core core).trapQ ∧ t.wave? core 0 = some w' ∧ w'.traps = 0 ∧
      w'.halves = [Half.fresh tv (slotZeroLanes core) false] ∧ w'.regs = w.regs ∧ ∀ j, j ≠ 0 → t.wave? core j = s.wave? core j := by
  intro tv
  let u : State := { s with tokWait := s.tokWait.filter (· ≠ TokWaiter.agent core) }
  have hkept (j : Nat) : (u.updCore core fun k => { k with agentHalted := false }).wave? core j = s.wave? core j :=
    u.wave?_updCore core (by intro; rfl) core j
  have hcore {β : Type} (g : Core → β) (hg : ∀ k ws, g { k with waves := ws } = g k) :
      g ((s.restartAgent core).core core) = g { s.core core with agentHalted := false } := by
    rw [State.restartAgent, if_pos hh]
    dsimp only
    rw [State.core_updWave g hg, State.core_updCore]
    rfl
  have hwave : (s.restartAgent core).wave? core 0 = some { w with
      traps := 0, chain := none, exited := ~~~slotZeroLanes core, removed := [0, 0, 0, 0]
      halves := [Half.fresh tv (slotZeroLanes core) false] } := by
    rw [State.restartAgent, if_pos hh]
    dsimp only
    rw [State.wave?_updWave, hkept, hw]
    rfl
  refine ⟨s.restartAgent core, _, rfl, hcore (·.agentHalted) fun _ _ => rfl, hcore (·.trapQ) fun _ _ => rfl, hwave, rfl, rfl, rfl,
    fun j hj => ?_⟩
  rw [State.restartAgent, if_pos hh]
  exact (State.wave?_updWave_ne _ (.inr hj) _).trans (hkept j)

/-- The entry of a process's trap handlers, 0 where it has none (R256). -/
def State.handlerEntry (s : State) (proc : BitVec 32) : Dword :=
  match s.process? proc with
  | some (_, _, t, _) => t
  | none => 0

/-- The wave that handles a record (R256). -/
def TrapRec.handler (r : TrapRec) (entry : Dword) : NewWave :=
  ⟨r.proc, r.sc, entry, [r.wave.setWidth 64, r.code, r.pc, r.addr, r.region, 0, 0], 0, 1, clusterOf r.core, r.core, .handler, some r⟩

/-- A record of a user wave that can be saved goes to a handler wave, or to the verdict of none (R256). -/
theorem State.deliver_of_deliverable {s : State} {core : Nat} {r : TrapRec} {rs : List TrapRec} (hq : (s.core core).trapQ = r :: rs)
    (hp : r.privileged = false) (hm : core ≠ mgmtCore) (hd : s.deliverable r = true) (hof : r.ofW = none) :
    s.deliver core =
      let v := (s.updCore core fun k => { k with trapQ := rs }).keepImage r.wave
      (if v.handlerEntry r.proc = 0 then none else v.makeWave (r.handler (v.handlerEntry r.proc))).elim (v.handlerDone r 0) (·.2) := by
  rw [State.deliver, hq]
  simp only [hp, hd, hof, Bool.false_or, decide_eq_true_eq, hm, if_false, Bool.not_true, Bool.false_eq_true]
  generalize (s.updCore core fun k => { k with trapQ := rs }).keepImage r.wave = v
  change (match (if v.handlerEntry r.proc = 0 then none else v.makeWave (r.handler (v.handlerEntry r.proc))) with
    | some (_, s) => s
    | none => _) = _
  cases (if v.handlerEntry r.proc = 0 then none else v.makeWave (r.handler (v.handlerEntry r.proc))) <;> rfl

/-- TRAP_RECORD_DELIVERY of a user wave's record (R256, R258). -/
theorem Claims.deliversRecord (s : State) (core : Nat) (r : TrapRec) (rs : List TrapRec) (hq : (s.core core).trapQ = r :: rs)
    (hp : r.privileged = false) (hm : core ≠ mgmtCore) :
    (s.deliverable r = false → exec (.trapRecordDelivery core) s = .next (s.askBack r.wave)) ∧
    (s.deliverable r = true →
    let u := s.updCore core fun k => { k with trapQ := rs }
    let v := u.keepImage r.wave
    (r.ofW = none →
      let trap := match v.process? r.proc with | some (_, _, t, _) => t | none => 0
      (trap = 0 → exec (.trapRecordDelivery core) s = .next (v.handlerDone r 0)) ∧
      (trap ≠ 0 →
        let made := v.makeWave ⟨r.proc, r.sc, trap, [r.wave.setWidth 64, r.code, r.pc, r.addr, r.region, 0, 0], 0, 1,
          clusterOf r.core, r.core, .handler, some r⟩
        (made = none → exec (.trapRecordDelivery core) s = .next (v.handlerDone r 0)) ∧
        ∀ h x, made = some (h, x) → exec (.trapRecordDelivery core) s = .next x)) ∧
    (∀ h blk, r.ofW = some (h, blk) → exec (.trapRecordDelivery core) s = .next
      ((if (u.waveOf r.wave).isSome then u.endHandle r.wave else u).terminateW h blk))) := by
  refine ⟨fun hd => ?_, fun hd => ?_⟩
  · refine congrArg Host.Outcome.next ?_
    rw [State.deliver, hq]
    simp only [hp, hd, Bool.false_or, decide_eq_true_eq, hm, if_false, Bool.not_false, if_true]
  · intro u v
    refine ⟨fun hof => ?_, fun h blk hof => congrArg Host.Outcome.next ?_⟩
    · have hexec : exec (.trapRecordDelivery core) s =
          .next ((if v.handlerEntry r.proc = 0 then none else v.makeWave (r.handler (v.handlerEntry r.proc))).elim
            (v.handlerDone r 0) (·.2)) :=
        congrArg Host.Outcome.next (State.deliver_of_deliverable hq hp hm hd hof)
      rw [hexec]
      intro trap
      change (v.handlerEntry r.proc = 0 → _) ∧ (v.handlerEntry r.proc ≠ 0 →
        (v.makeWave (r.handler (v.handlerEntry r.proc)) = none → _) ∧
          ∀ h x, v.makeWave (r.handler (v.handlerEntry r.proc)) = some (h, x) → _)
      refine ⟨fun hnone => ?_, fun hsome => ⟨fun hmade => ?_, fun h x hmade => ?_⟩⟩
      · rw [if_pos hnone, Option.elim_none]
      · rw [if_neg hsome, hmade, Option.elim_none]
      · rw [if_neg hsome, hmade, Option.elim_some]
    · rw [State.deliver, hq]
      simp only [hp, hd, hof, Bool.false_or, decide_eq_true_eq, hm, if_false, Bool.not_true, Bool.false_eq_true]
      rfl

theorem Claims.agentEvents : Claims.AgentEvents := ⟨Claims.restartsAgent, Claims.deliversRecord⟩

/-- Settles O56: each event's function on the state that the statement describes. -/
theorem memoryWaitAndTrapEvents : Obligations.MemoryWaitAndTrapEvents :=
  ⟨Claims.memoryEvents, ⟨fun a e => wakes a e, waitsEnd⟩, Claims.blockPoolEvents, Claims.agentEvents⟩

end Sys2Proof.Machine

end

-- ==== Fields of instruction words; O51 ====
section
/-!
Every encoding form writes its fields where the decoder reads them, and a word is what its fields write (R7, R78, R85 to R89).
-/

namespace Sys2Proof

/-! ### Words and bytes (R7) -/

theorem wordOf_bytesOfWord (w : Word) :
    wordOf (w.extractLsb' 0 8) (w.extractLsb' 8 8) (w.extractLsb' 16 8) (w.extractLsb' 24 8) = w := by
  simp only [wordOf, BitVec.extractLsb'_append_extractLsb'_eq_extractLsb']
  exact BitVec.extractLsb'_eq_self

theorem bytesOfWord_wordOf (a b c d : Byte) : bytesOfWord (wordOf a b c d) = [a, b, c, d] := by
  simp [bytesOfWord, wordOf, BitVec.extractLsb'_append_eq_ite, -Nat.reduceAdd]

theorem wordsOfBytes_append (bs : List Byte) : ∀ ws : List Word,
    wordsOfBytes (ws.flatMap bytesOfWord ++ bs) = ws ++ wordsOfBytes bs
  | [] => rfl
  | w :: ws => by simp [bytesOfWord, wordsOfBytes, wordOf_bytesOfWord, wordsOfBytes_append bs ws]

/-- Bytes begin with those of the whole words read from them. -/
theorem eq_append_of_wordsOfBytes : ∀ (bs : List Byte) {ws tl : List Word}, wordsOfBytes bs = ws ++ tl →
    bs = ws.flatMap bytesOfWord ++ bs.drop (4 * ws.length)
  | bs, [], _, _ => rfl
  | a :: b :: c :: d :: bs, w :: ws, tl, h => by
    obtain ⟨rfl, ht⟩ := List.cons.inj h
    rw [List.flatMap_cons, bytesOfWord_wordOf, List.length_cons, Nat.mul_succ]
    simpa using eq_append_of_wordsOfBytes bs ht
  | [], _ :: _, _, h | [_], _ :: _, _, h | [_, _], _ :: _, _, h | [_, _, _], _ :: _, _, h => by simp [wordsOfBytes] at h

theorem length_flatMap_bytesOfWord (ws : List Word) : (ws.flatMap bytesOfWord).length = 4 * ws.length := by
  simp [List.length_flatMap, bytesOfWord, Nat.mul_comm]

/-! ### Word 0 (R78) -/

/-- A word 0: bits 31:10, MAJ, U and LEN (R78). -/
def headWord (x : BitVec 22) (maj : BitVec 7) (u : Bool) (len : BitVec 2) : Word := x ++ maj ++ BitVec.ofBool u ++ len

section
variable (x : BitVec 22) (maj : BitVec 7) (u : Bool) (len : BitVec 2)

@[simp] theorem headWord_len : (headWord x maj u len).extractLsb' 0 2 = len := by
  simp [headWord, BitVec.extractLsb'_append_eq_ite, -Nat.reduceAdd]

@[simp] theorem headWord_maj : (headWord x maj u len).extractLsb' 3 7 = maj := by
  simp [headWord, BitVec.extractLsb'_append_eq_ite, -Nat.reduceAdd]

@[simp] theorem headWord_u : (headWord x maj u len).getLsbD 2 = u := by
  simp [headWord, BitVec.getLsbD_append, -Nat.reduceAdd,
    -BitVec.getLsbD_eq_getElem]

theorem headWord_getLsbD {k : Nat} (hk : 10 ≤ k) : (headWord x maj u len).getLsbD k = x.getLsbD (k - 10) := by
  have h : ∀ n ≤ 9, ¬ k ≤ n := fun n hn hkn => by omega
  simp [headWord, BitVec.getLsbD_append, -Nat.reduceAdd, show ¬ k < 2 by omega, show ¬ k - 2 < 1 by omega,
    show ¬ k - 2 - 1 < 7 by omega, show k - 2 - 1 - 7 = k - 10 by omega]

theorem headWord_payload {k n : Nat} (hk : 10 ≤ k) : (headWord x maj u len).extractLsb' k n = x.extractLsb' (k - 10) n := by
  ext j hj
  rw [BitVec.getElem_extractLsb', BitVec.getElem_extractLsb', headWord_getLsbD _ _ _ _ (by omega)]
  congr 1
  omega

end

theorem ofBool_getLsbD {n : Nat} (w : BitVec n) (k : Nat) : BitVec.ofBool (w.getLsbD k) = w.extractLsb' k 1 := by
  ext j hj
  obtain rfl : j = 0 := by omega
  simp

/-- A word is its own fields. -/
theorem headWord_of_fields (w : Word) :
    headWord (w.extractLsb' 10 22) (w.extractLsb' 3 7) (w.getLsbD 2) (w.extractLsb' 0 2) = w := by
  simp only [headWord, ofBool_getLsbD, BitVec.extractLsb'_append_extractLsb'_eq_extractLsb']
  exact BitVec.extractLsb'_eq_self

/-! ### The forms (R85 to R89) -/

theorem B3.word_eq (f : B3) (maj : BitVec 7) :
    f.word maj = headWord (BitVec.ofBool false ++ f.ty3 ++ f.b ++ f.a ++ f.d) maj f.u 0 := rfl
theorem B3I.word_eq (f : B3I) (maj : BitVec 7) :
    f.word maj = headWord (BitVec.ofBool true ++ f.imm ++ f.a ++ f.d) maj f.u 0 := rfl
theorem BM.word_eq (f : BM) (maj : BitVec 7) :
    f.word maj = headWord (BitVec.ofBool false ++ f.sz ++ f.off ++ f.a ++ f.d) maj f.u 0 := rfl
theorem B3L.words_eq (f : B3L) (maj : BitVec 7) : f.words maj =
    [headWord (BitVec.ofBool f.i ++ f.f ++ f.a ++ f.d) maj f.u 2, f.lit.extractLsb' 0 32,
      f.lit.extractLsb' 32 32] := rfl
theorem BML.words_eq (f : BML) (maj : BitVec 7) : f.words maj =
    [headWord (BitVec.ofBool false ++ f.sz ++ f.off ++ f.a ++ f.d) maj f.u 2, f.lit.extractLsb' 0 32,
      f.lit.extractLsb' 32 32] := rfl

theorem Ext.word0_eq (e : Ext) (maj : BitVec 7) :
    e.word0 maj = headWord (e.pg ++ e.a9 ++ e.d9) maj e.u (if e.lit.isSome then 3 else 1) := by
  have hl : (if e.lit.isSome then 3 else 1 : BitVec 2) = BitVec.ofBool e.lit.isSome ++ (1 : BitVec 1) := by
    cases e.lit.isSome <;> rfl
  rw [hl]
  exact BitVec.append_assoc ..

/-- A BJ or B0 word: bits 31:10 beside the MAJ (R87, R88). -/
theorem b0_word_eq (x : BitVec 22) (maj : BitVec 7) : x ++ maj ++ (0 : BitVec 3) = headWord x maj false 0 := by
  rw [show (0 : BitVec 3) = BitVec.ofBool false ++ (0 : BitVec 2) from rfl, headWord]
  exact (BitVec.append_assoc (x₁ := x ++ maj) (x₂ := BitVec.ofBool false) (x₃ := (0 : BitVec 2))).symm

theorem B3.ofWord_word (f : B3) (maj : BitVec 7) : B3.ofWord (f.word maj) = f := by
  simp [B3.ofWord, B3.word, BitVec.extractLsb'_append_eq_ite, BitVec.getLsbD_append, -Nat.reduceAdd,
    -BitVec.getLsbD_eq_getElem]
theorem B3I.ofWord_word (f : B3I) (maj : BitVec 7) : B3I.ofWord (f.word maj) = f := by
  simp [B3I.ofWord, B3I.word, BitVec.extractLsb'_append_eq_ite, BitVec.getLsbD_append, -Nat.reduceAdd,
    -BitVec.getLsbD_eq_getElem]
theorem BM.ofWord_word (f : BM) (maj : BitVec 7) : BM.ofWord (f.word maj) = f := by
  simp [BM.ofWord, BM.word, BitVec.extractLsb'_append_eq_ite, BitVec.getLsbD_append, -Nat.reduceAdd,
    -BitVec.getLsbD_eq_getElem]
theorem B3L.ofWords_words (f : B3L) (maj : BitVec 7) :
    B3L.ofWords (headWord (BitVec.ofBool f.i ++ f.f ++ f.a ++ f.d) maj f.u 2) (f.lit.extractLsb' 0 32)
      (f.lit.extractLsb' 32 32) = f := by
  simp [B3L.ofWords, headWord, BitVec.extractLsb'_append_eq_ite, BitVec.getLsbD_append, -Nat.reduceAdd,
    -BitVec.getLsbD_eq_getElem]
theorem BML.ofWords_words (f : BML) (maj : BitVec 7) :
    BML.ofWords (headWord (BitVec.ofBool false ++ f.sz ++ f.off ++ f.a ++ f.d) maj f.u 2) (f.lit.extractLsb' 0 32)
      (f.lit.extractLsb' 32 32) = f := by
  simp [BML.ofWords, headWord, BitVec.extractLsb'_append_eq_ite, BitVec.getLsbD_append, -Nat.reduceAdd,
    -BitVec.getLsbD_eq_getElem]
theorem Ext.ofWords_words (e : Ext) (maj : BitVec 7) : Ext.ofWords (e.word0 maj) e.word1 e.word2 e.lit = e := by
  simp [Ext.ofWords, Ext.word0, Ext.word1, Ext.word2, BitVec.extractLsb'_append_eq_ite, BitVec.getLsbD_append, -Nat.reduceAdd,
    -BitVec.getLsbD_eq_getElem]

section
variable {w lo hi : Word}

theorem B3.word_ofWord (hlen : w.extractLsb' 0 2 = 0) (h31 : w.getLsbD 31 = false) :
    (B3.ofWord w).word (w.extractLsb' 3 7) = w := by
  simp only [B3.ofWord, B3.word, ← h31, ← hlen, ofBool_getLsbD, BitVec.extractLsb'_append_extractLsb'_eq_extractLsb']
  exact BitVec.extractLsb'_eq_self
theorem B3I.word_ofWord (hlen : w.extractLsb' 0 2 = 0) (h31 : w.getLsbD 31 = true) :
    (B3I.ofWord w).word (w.extractLsb' 3 7) = w := by
  simp only [B3I.ofWord, B3I.word, ← h31, ← hlen, ofBool_getLsbD, BitVec.extractLsb'_append_extractLsb'_eq_extractLsb']
  exact BitVec.extractLsb'_eq_self
theorem BM.word_ofWord (hlen : w.extractLsb' 0 2 = 0) (h31 : w.getLsbD 31 = false) :
    (BM.ofWord w).word (w.extractLsb' 3 7) = w := B3.word_ofWord hlen h31
theorem B3L.words_ofWords (hlen : w.extractLsb' 0 2 = 2) :
    (B3L.ofWords w lo hi).words (w.extractLsb' 3 7) = [w, lo, hi] := by
  simp only [B3L.ofWords, B3L.words, ← hlen, ofBool_getLsbD, BitVec.extractLsb'_append_extractLsb'_eq_extractLsb']
  rw [BitVec.extractLsb'_append_eq_right, BitVec.extractLsb'_append_eq_left, BitVec.extractLsb'_eq_self]
theorem BML.words_ofWords (hlen : w.extractLsb' 0 2 = 2) (h31 : w.getLsbD 31 = false) :
    (BML.ofWords w lo hi).words (w.extractLsb' 3 7) = [w, lo, hi] := by
  simp only [BML.ofWords, BML.words, ← h31, ← hlen, ofBool_getLsbD, BitVec.extractLsb'_append_extractLsb'_eq_extractLsb']
  rw [BitVec.extractLsb'_append_eq_right, BitVec.extractLsb'_append_eq_left, BitVec.extractLsb'_eq_self]
theorem Ext.words_ofWords {w0 w1 w2 : Word} {lit : Option (BitVec 64)} (hlen : w0.extractLsb' 0 2 = if lit.isSome then 3 else 1) :
    (Ext.ofWords w0 w1 w2 lit).word0 (w0.extractLsb' 3 7) = w0 ∧ (Ext.ofWords w0 w1 w2 lit).word1 = w1 ∧
      (Ext.ofWords w0 w1 w2 lit).word2 = w2 := by
  refine ⟨?_, ?_, ?_⟩
  · rw [Ext.word0_eq]
    change headWord _ _ _ (if lit.isSome then 3 else 1) = w0
    rw [← hlen]
    simp only [Ext.ofWords, headWord, ofBool_getLsbD, BitVec.extractLsb'_append_extractLsb'_eq_extractLsb']
    exact BitVec.extractLsb'_eq_self
  · simp only [Ext.ofWords, Ext.word1, ofBool_getLsbD, BitVec.extractLsb'_append_extractLsb'_eq_extractLsb']
    exact BitVec.extractLsb'_eq_self
  · simp only [Ext.ofWords, Ext.word2, BitVec.extractLsb'_append_extractLsb'_eq_extractLsb']
    exact BitVec.extractLsb'_eq_self
end

end Sys2Proof

end

-- ==== Rows of the opcode table, encoded and decoded; O51 ====
section
/-!
Each instruction with an encoding has one form, its words are that form's, and the decoder reads the instruction back; what
decodes has a form (R78, R85 to R89, R98, R99).
-/

namespace Sys2Proof

/-! ### Rows of the opcode table (R98, R99) -/

/-- The form that an instruction has, and its words: the tables give it for its MAJ and fields (R85 to R89, R98, R99). -/
inductive HasForm (i : Instr) : List Word → Prop
  | b3Reg (maj : BitVec 7) (f : B3) (h : b3Reg maj.toNat f = some i) : HasForm i [f.word maj]
  | b3Unary (maj : BitVec 7) (f : B3) (h : b3Unary maj.toNat f = some i) (hb : f.b = 0) : HasForm i [f.word maj]
  | b3Imm (maj : BitVec 7) (f : B3I) (h : b3Imm maj.toNat f = some i) (ha : maj = 0x18 → f.a = 0) : HasForm i [f.word maj]
  | b3Lit (maj : BitVec 7) (f : B3L) (h : b3Lit maj.toNat f = some i) : HasForm i (f.words maj)
  | bmReg (maj : BitVec 7) (f : BM) (h : bmReg maj.toNat f = some i) : HasForm i [f.word maj]
  | bmLit (maj : BitVec 7) (f : BML) (h : bmLit maj.toNat f = some i) : HasForm i (f.words maj)
  | ext (maj : BitVec 7) (e : Ext) (h : extRow maj.toNat e = some i) : HasForm i (e.words maj)
  | b0 (maj : BitVec 7) (x : BitVec 22) (h : b0Row maj.toNat (headWord x maj false 0) = .ok i) :
      HasForm i [headWord x maj false 0]

theorem b3Reg_rows {n : Nat} {f : B3} {i : Instr} (h : b3Reg n f = some i) :
    i.encodable = true ∧ encode i = [f.word (BitVec.ofNat 7 n)] := by
  unfold b3Reg at h
  split at h <;> cases h <;> exact ⟨rfl, rfl⟩

theorem b3Unary_rows {n : Nat} {f : B3} {i : Instr} (hb : f.b = 0) (h : b3Unary n f = some i) :
    i.encodable = true ∧ encode i = [f.word (BitVec.ofNat 7 n)] := by
  unfold b3Unary at h
  split at h <;> cases h <;> exact ⟨beq_iff_eq.2 hb, rfl⟩

theorem b3Imm_rows {n : Nat} {f : B3I} {i : Instr} (ha : n = 0x18 → f.a = 0) (h : b3Imm n f = some i) :
    i.encodable = true ∧ encode i = [f.word (BitVec.ofNat 7 n)] := by
  unfold b3Imm at h
  split at h <;> cases h
  case h_20 => exact ⟨beq_iff_eq.2 (ha rfl), rfl⟩
  all_goals exact ⟨rfl, rfl⟩

theorem b3Lit_rows {n : Nat} {f : B3L} {i : Instr} (h : b3Lit n f = some i) :
    i.encodable = true ∧ encode i = f.words (BitVec.ofNat 7 n) := by
  unfold b3Lit at h
  split at h <;> cases h <;> exact ⟨rfl, rfl⟩

theorem bmReg_rows {n : Nat} {f : BM} {i : Instr} (h : bmReg n f = some i) :
    i.encodable = true ∧ encode i = [f.word (BitVec.ofNat 7 n)] := by
  unfold bmReg at h
  split at h <;> cases h <;> exact ⟨rfl, rfl⟩

theorem bmLit_rows {n : Nat} {f : BML} {i : Instr} (h : bmLit n f = some i) :
    i.encodable = true ∧ encode i = f.words (BitVec.ofNat 7 n) := by
  unfold bmLit at h
  split at h <;> cases h <;> exact ⟨rfl, rfl⟩

/-- The rows of MAJ 0x7D are told apart by SUB, and CWR's by the control register (R94, R254). -/
theorem sysRow_rows {e : Ext} {i : Instr} (h : sysRow e = some i) : i.encodable = true ∧ encode i = e.words 0x7D := by
  unfold sysRow at h
  repeat' split at h
  all_goals cases h
  all_goals exact ⟨by simp_all [Instr.encodable, ← BitVec.toNat_inj], rfl⟩

theorem extRow_rows {n : Nat} {e : Ext} {i : Instr} (h : extRow n e = some i) :
    i.encodable = true ∧ encode i = e.words (BitVec.ofNat 7 n) := by
  unfold extRow at h
  split at h
  case h_103 => exact sysRow_rows h
  all_goals repeat' split at h
  all_goals cases h
  all_goals exact ⟨by simp_all [Instr.encodable, ← BitVec.toNat_inj], rfl⟩

/-- Bits 31:10 of a B0 word that has a field of up to 8 bits (R88). -/
def b0Bits (imm : BitVec 8) : BitVec 22 := (0 : BitVec 14) ++ imm

theorem b0Word_eq (maj : BitVec 7) (imm : BitVec 8) : b0Word maj imm = headWord (b0Bits imm) maj false 0 := b0_word_eq _ _

theorem getLsbD_b0Bits (imm : BitVec 8) (j : Nat) : (b0Bits imm).getLsbD j = imm.getLsbD j := by
  simp only [b0Bits, BitVec.getLsbD_append, BitVec.ofNat_eq_ofNat, BitVec.getLsbD_zero, ite_eq_left_iff]
  exact fun hj => (BitVec.getLsbD_of_ge imm j (Nat.not_lt.1 hj)).symm

section
variable {n : Nat}

/-- A field of n bits above which bits 31:10 are 0. -/
theorem b0Bits_of_high (hn : n ≤ 8) {x : BitVec 22} (h : x.extractLsb' n (22 - n) = 0) :
    b0Bits ((x.extractLsb' 0 n).setWidth 8) = x := by
  refine BitVec.eq_of_getLsbD_eq fun j hj => ?_
  rw [getLsbD_b0Bits]
  by_cases hjn : j < n
  · simp [hjn, show j < 8 by omega]
  · have hx := congrArg (·.getLsbD (j - n)) h
    simp only [BitVec.getLsbD_extractLsb', show n + (j - n) = j by omega, show j - n < 22 - n by omega, decide_true,
      Bool.true_and, BitVec.ofNat_eq_ofNat, BitVec.getLsbD_zero] at hx
    simp [hjn, hx]

theorem b0Bits_high (p : BitVec n) : (b0Bits (p.setWidth 8)).extractLsb' n (22 - n) = 0 := by
  refine BitVec.eq_of_getLsbD_eq fun j hj => ?_
  simp [-BitVec.getLsbD_eq_getElem, getLsbD_b0Bits]

theorem b0Bits_low (hn : n ≤ 8) (p : BitVec n) : (b0Bits (p.setWidth 8)).extractLsb' 0 n = p := by
  refine BitVec.eq_of_getLsbD_eq fun j hj => ?_
  simp [-BitVec.getLsbD_eq_getElem, getLsbD_b0Bits, show j < 8 by omega, hj]

end

theorem ok_of_ite {p : Prop} [Decidable p] {i j : Instr} {r : Reject}
    (h : (if p then Except.ok i else Except.error r) = Except.ok j) : p ∧ i = j := by
  split at h <;> simp_all

/-- The BJ and B0 rows (R87, R88). -/
theorem b0Row_rows {maj : BitVec 7} {x : BitVec 22} {i : Instr} (h : b0Row maj.toNat (headWord x maj false 0) = .ok i) :
    i.encodable = true ∧ encode i = [headWord x maj false 0] := by
  have field {k n : Nat} (hm : maj.toNat = k) (hn : n ≤ 8) (h0 : x.extractLsb' n (22 - n) = 0) :
      [b0Word (BitVec.ofNat 7 k) ((x.extractLsb' 0 n).setWidth 8)] = [headWord x maj false 0] := by
    rw [b0Word_eq, b0Bits_of_high hn h0, ← hm, BitVec.ofNat_toNat, BitVec.setWidth_eq]
  have bare {k : Nat} (hm : maj.toNat = k) (h0 : x = 0) : [b0Word (BitVec.ofNat 7 k) 0] = [headWord x maj false 0] := by
    rw [b0Word_eq, h0, ← hm, BitVec.ofNat_toNat, BitVec.setWidth_eq]
    rfl
  have whole {k : Nat} (hm : maj.toNat = k) : [x ++ BitVec.ofNat 7 k ++ (0 : BitVec 3)] = [headWord x maj false 0] := by
    rw [b0_word_eq, ← hm, BitVec.ofNat_toNat, BitVec.setWidth_eq]
  unfold b0Row at h
  simp only [headWord_u, Bool.false_eq_true, if_false, headWord_payload, headWord_getLsbD, Nat.reduceLeDiff, Nat.reduceSub,
    BitVec.extractLsb'_eq_self] at h
  split at h
  case h_2 hm | h_12 hm =>
    obtain ⟨h0, rfl⟩ := ok_of_ite h
    exact ⟨rfl, field hm (by decide) h0⟩
  case h_10 hm =>
    obtain ⟨h0, rfl⟩ := ok_of_ite h
    exact ⟨rfl, BitVec.setWidth_eq (x.extractLsb' 0 8) ▸ field hm le_rfl h0⟩
  case h_3 hm | h_5 hm =>
    cases h
    exact ⟨rfl, whole hm⟩
  case h_4 hm =>
    cases h
    refine ⟨rfl, ?_⟩
    simp only [encode, ofBool_getLsbD, BitVec.extractLsb'_append_extractLsb'_eq_extractLsb']
    rw [show x.extractLsb' 0 (17 + 1 + 4) = x from BitVec.extractLsb'_eq_self]
    exact whole hm
  case h_13 => cases h
  case h_1 hm =>
    obtain ⟨h0, rfl⟩ := ok_of_ite h
    exact ⟨rfl, bare (k := 0) hm h0⟩
  all_goals
    obtain ⟨h0, rfl⟩ := ok_of_ite h
    exact ⟨rfl, bare ‹_› h0⟩

theorem hasForm_bj {i : Instr} {maj : BitVec 7} (x : BitVec 22) (h : b0Row maj.toNat (headWord x maj false 0) = .ok i) :
    HasForm i [x ++ maj ++ (0 : BitVec 3)] :=
  b0_word_eq .. ▸ .b0 _ _ h

theorem hasForm_b0Word {i : Instr} {maj : BitVec 7} {n : Nat} (p : BitVec n)
    (h : b0Row maj.toNat (headWord (b0Bits (p.setWidth 8)) maj false 0) = .ok i) : HasForm i [b0Word maj (p.setWidth 8)] :=
  b0Word_eq .. ▸ .b0 _ _ h

/-- The words of an instruction have its form. -/
theorem hasForm_encode {i : Instr} (h : i.encodable = true) : HasForm i (encode i) := by
  cases i
  case addReg f | subReg f | mulReg f | mulhReg f | divReg f | minReg f | maxReg f | andReg f | orReg f | xorReg f |
      andnReg f | shlReg f | shrReg f | sarReg f | faddReg f | fsubReg f | fmulReg f | fminReg f | fmaxReg f =>
    exact .b3Reg _ f rfl
  case popcReg f | clzReg f | ctzReg f | movReg f | frcpReg f | frsqReg f | fsqrtReg f | fex2Reg f | flg2Reg f =>
    exact .b3Unary _ f rfl (beq_iff_eq.1 h)
  case addImm f | subImm f | mulImm f | mulhImm f | divImm f | minImm f | maxImm f | andImm f | orImm f | xorImm f |
      andnImm f | shlImm f | shrImm f | sarImm f | faddImm f | fsubImm f | fmulImm f | fminImm f | fmaxImm f =>
    exact .b3Imm _ f rfl nofun
  case moviImm f => exact .b3Imm _ f rfl fun _ => beq_iff_eq.1 h
  case addLit f | subLit f | mulLit f | mulhLit f | divLit f | minLit f | maxLit f | andLit f | orLit f | xorLit f |
      andnLit f | shlLit f | shrLit f | sarLit f | faddLit f | fsubLit f | fmulLit f | fminLit f | fmaxLit f | moviLit f =>
    exact .b3Lit _ f rfl
  case ldReg f | stReg f | ldlReg f | stlReg f => exact .bmReg _ f rfl
  case ldLit f | stLit f | ldlLit f | stlLit f => exact .bmLit _ f rfl
  case addExt e | subExt e | mulExt e | mulhExt e | divExt e | minExt e | maxExt e | andExt e | orExt e | xorExt e |
      andnExt e | shlExt e | shrExt e | sarExt e | popcExt e | clzExt e | ctzExt e | movExt e | moviExt e | faddExt e |
      fsubExt e | fmulExt e | fminExt e | fmaxExt e | frcpExt e | frsqExt e | fsqrtExt e | fex2Ext e | flg2Ext e | ffma e |
      mad e | bfx e | bfi e | cmp e | sel e | lea e | plog e | pmov e | ballot e | vote e | mprefix e | cvt e | bqnt e |
      vdot e | shfl e | lscan e | lred e | loopx e | brkl e | ldExt e | stExt e | ldlExt e | stlExt e | cmpst e | expld e |
      atom e | atomn e | fence e | fencer e | pref e | cflush e | cinv e | rld e | rst e | ratom e | rmcst e | cpy e |
      mma e | accrd e | accwr e | accz e | chinit e | cwait e | coll e | gthr e | bar e | bara e | barw e | vgrow e |
      vshrink e | wcreate e | psend e | precv e | objnew e | objdel e | wsadd e | wswait e | tarm e | tcancel e |
      nslookup e | srd e =>
    exact .ext _ e rfl
  case brc e | jmpi e | loop e | braDisp e | bruDisp e | callDisp e | tilemvSt e => exact .ext _ e (if_pos h)
  case electExt e | braAbs e | bruAbs e | callAbs e =>
    exact .ext _ e (if_neg (Option.not_isSome_iff_eq_none.2 (Option.isNone_iff_eq_none.1 h)))
  case tilemvLd e =>
    exact .ext _ e (if_neg (by simpa [Instr.encodable] using h))
  case chputRes e | chputDone e | chgetWait e | chgetDone e | regroupKey e | regroupHome e =>
    obtain ⟨⟩ := e
    cases beq_iff_eq.1 h
    exact .ext _ _ rfl
  case crd e | rft e | ctxsv e | ctxld e | tlbinv e | idle e | objrd e | objwr e | pwracq e | pwrrel e | mgsig e =>
    obtain ⟨⟩ := e
    cases beq_iff_eq.1 h
    exact .ext _ _ rfl
  case cwr e | ktcodePop e | kmodeIntlkWrite e =>
    exact .ext _ e (show sysRow e = _ by simp_all [Instr.encodable, sysRow])
  case ret | region | exit | yield | brk => exact hasForm_b0Word (0 : BitVec 0) (by decide)
  case nop => exact hasForm_b0Word (maj := 0) (0 : BitVec 0) (by decide)
  case bra d | call d => exact hasForm_bj d (by simp [b0Row, -BitVec.getLsbD_eq_getElem, headWord_payload])
  case bru d neg p =>
    refine hasForm_bj (d ++ BitVec.ofBool neg ++ p) ?_
    simp [b0Row, headWord_payload, headWord_getLsbD, BitVec.extractLsb'_append_eq_ite, BitVec.getLsbD_append, -Nat.reduceAdd,
      -BitVec.getLsbD_eq_getElem]
  case elect p =>
    exact hasForm_b0Word p (by
      simp [b0Row, -BitVec.getLsbD_eq_getElem, headWord_payload, b0Bits_high p, b0Bits_low (show 4 ≤ 8 by decide) p])
  case trap n =>
    refine BitVec.setWidth_eq n ▸ hasForm_b0Word n ?_
    rw [BitVec.setWidth_eq]
    have hi := b0Bits_high n
    have lo := b0Bits_low le_rfl n
    rw [BitVec.setWidth_eq] at hi lo
    simp [b0Row, -BitVec.getLsbD_eq_getElem, headWord_payload, hi, lo]
  case fenceo p =>
    exact hasForm_b0Word p (by
      simp [b0Row, -BitVec.getLsbD_eq_getElem, headWord_payload, b0Bits_high p, b0Bits_low (show 3 ≤ 8 by decide) p])
  all_goals cases h

theorem encode_of_hasForm {i : Instr} {ws : List Word} (h : HasForm i ws) : i.encodable = true ∧ encode i = ws := by
  have row {maj : BitVec 7} {α : Type} {f : BitVec 7 → α} {p : Prop} {x : α}
      (h : p ∧ x = f (BitVec.ofNat 7 maj.toNat)) : p ∧ x = f maj := by
    rwa [BitVec.ofNat_toNat, BitVec.setWidth_eq] at h
  cases h with
  | b3Reg maj f h => exact row (f := fun m => [f.word m]) (b3Reg_rows h)
  | b3Unary maj f h hb => exact row (f := fun m => [f.word m]) (b3Unary_rows hb h)
  | b3Imm maj f h ha => exact row (f := fun m => [f.word m]) (b3Imm_rows (fun hm => ha (BitVec.eq_of_toNat_eq hm)) h)
  | b3Lit maj f h => exact row (f := f.words) (b3Lit_rows h)
  | bmReg maj f h => exact row (f := fun m => [f.word m]) (bmReg_rows h)
  | bmLit maj f h => exact row (f := f.words) (bmLit_rows h)
  | ext maj e h => exact row (f := e.words) (extRow_rows h)
  | b0 maj x h => exact b0Row_rows h

/-! ### Decoding -/

theorem b3Reg_of_b3Unary {n : Nat} {f g : B3} {i : Instr} (h : b3Unary n f = some i) : b3Reg n g = none := by
  unfold b3Unary at h
  split at h <;> cases h <;> rfl

theorem b3Imm_none {n : Nat} {f : B3I} {i : Instr} (h : b3Imm n f = some i) (g : B3) :
    (∃ j, b3Reg n g = some j) ∨ n = 0x18 ∧ b3Reg n g = none ∧ b3Unary n g = none := by
  unfold b3Imm at h
  split at h
  case h_20 => exact .inr ⟨rfl, rfl, rfl⟩
  case h_21 => cases h
  all_goals exact .inl ⟨_, rfl⟩

theorem b3_none_of_bmReg {n : Nat} {f : BM} {i : Instr} (h : bmReg n f = some i) (g : B3) (k : B3I) :
    b3Reg n g = none ∧ b3Unary n g = none ∧ b3Imm n k = none := by
  unfold bmReg at h
  split at h <;> cases h <;> exact ⟨rfl, rfl, rfl⟩

theorem b3_none_of_bmLit {n : Nat} {f : BML} {i : Instr} (h : bmLit n f = some i) :
    (∀ g, b3Lit n g = none) ∧ ∀ g, b3Unary n g = none := by
  unfold bmLit at h
  split at h <;> cases h <;> exact ⟨fun _ => rfl, fun _ => rfl⟩

theorem bases_none_of_b0Row {n : Nat} {x : BitVec 22} {maj : BitVec 7} {i : Instr} (h : b0Row n (headWord x maj false 0) = .ok i)
    (f : B3) (g : B3I) (k : BM) : b3Reg n f = none ∧ b3Unary n f = none ∧ b3Imm n g = none ∧ bmReg n k = none := by
  unfold b0Row at h
  rw [headWord_u, if_neg Bool.false_ne_true] at h
  split at h
  case h_13 => cases h
  all_goals exact ⟨rfl, rfl, rfl, rfl⟩

theorem B3.bit31_word (f : B3) (maj : BitVec 7) : (f.word maj).getLsbD 31 = false := by
  simp [B3.word, BitVec.getLsbD_append, -Nat.reduceAdd,
    -BitVec.getLsbD_eq_getElem]
theorem B3I.bit31_word (f : B3I) (maj : BitVec 7) : (f.word maj).getLsbD 31 = true := by
  simp [B3I.word, BitVec.getLsbD_append, -Nat.reduceAdd,
    -BitVec.getLsbD_eq_getElem]
theorem BML.bit31_word (f : BML) (maj : BitVec 7) :
    (headWord (BitVec.ofBool false ++ f.sz ++ f.off ++ f.a ++ f.d) maj f.u 2).getLsbD 31 = false := by
  simp [headWord, BitVec.getLsbD_append, -Nat.reduceAdd,
    -BitVec.getLsbD_eq_getElem]

theorem B3.decodeOne_word {f : B3} {maj : BitVec 7} {i : Instr} (h : b3Reg maj.toNat f = some i) :
    decodeOne maj.toNat (f.word maj) = .ok i := by
  simp only [decodeOne, f.ofWord_word, h, f.bit31_word, Bool.false_eq_true, if_false]

theorem B3.decodeOne_unary {f : B3} {maj : BitVec 7} {i : Instr} (h : b3Unary maj.toNat f = some i) (hb : f.b = 0) :
    decodeOne maj.toNat (f.word maj) = .ok i := by
  have hfield : (f.word maj).extractLsb' 22 6 = 0 := hb ▸ congrArg B3.b (f.ofWord_word maj)
  simp only [decodeOne, f.ofWord_word, h, b3Reg_of_b3Unary h, f.bit31_word, hfield, bne_self_eq_false, Bool.or_self,
    Bool.false_eq_true, if_false]

theorem B3I.decodeOne_word {f : B3I} {maj : BitVec 7} {i : Instr} (h : b3Imm maj.toNat f = some i) (ha : maj = 0x18 → f.a = 0) :
    decodeOne maj.toNat (f.word maj) = .ok i := by
  obtain ⟨j, hj⟩ | ⟨hm, hreg, hunary⟩ := b3Imm_none h (B3.ofWord (f.word maj))
  · simp only [decodeOne, f.ofWord_word, h, hj, f.bit31_word, if_true, Option.elim_some]
  · have hfield : (f.word maj).extractLsb' 16 6 = 0 :=
      ha (BitVec.eq_of_toNat_eq hm) ▸ congrArg B3I.a (f.ofWord_word maj)
    simp only [decodeOne, f.ofWord_word, h, hreg, hunary, f.bit31_word, hfield, beq_self_eq_true, Bool.and_self, if_true]

theorem BM.decodeOne_word {f : BM} {maj : BitVec 7} {i : Instr} (h : bmReg maj.toNat f = some i) :
    decodeOne maj.toNat (f.word maj) = .ok i := by
  obtain ⟨hreg, hunary, himm⟩ := b3_none_of_bmReg h (B3.ofWord (f.word maj)) (B3I.ofWord (f.word maj))
  have h31 : (f.word maj).getLsbD 31 = false := B3.bit31_word ⟨f.u, f.sz, f.off, f.a, f.d⟩ maj
  simp only [decodeOne, f.ofWord_word, h, hreg, hunary, himm, h31, Bool.false_eq_true, if_false]

theorem decodeOne_b0 {x : BitVec 22} {maj : BitVec 7} {i : Instr} (h : b0Row maj.toNat (headWord x maj false 0) = .ok i) :
    decodeOne maj.toNat (headWord x maj false 0) = .ok i := by
  obtain ⟨hreg, hunary, himm, hbm⟩ :=
    bases_none_of_b0Row h (.ofWord (headWord x maj false 0)) (.ofWord (headWord x maj false 0)) (.ofWord (headWord x maj false 0))
  simp only [decodeOne, hreg, hunary, himm, hbm, h]

section
variable {w w1 w2 lo hi : Word} {ws : List Word}

theorem wordsOf_len0 (h : w.extractLsb' 0 2 = 0) : wordsOf w = 1 := by unfold wordsOf; rw [h]; rfl
theorem wordsOf_len1 (h : w.extractLsb' 0 2 = 1) : wordsOf w = 3 := by unfold wordsOf; rw [h]; rfl
theorem wordsOf_len2 (h : w.extractLsb' 0 2 = 2) : wordsOf w = 3 := by unfold wordsOf; rw [h]; rfl
theorem wordsOf_len3 (h : w.extractLsb' 0 2 = 3) : wordsOf w = 5 := by unfold wordsOf; rw [h]; rfl

theorem decodeWords_len0 (h : w.extractLsb' 0 2 = 0) : decodeWords w ws = decodeOne (w.extractLsb' 3 7).toNat w := by
  unfold decodeWords; rw [h]; rfl
theorem decodeWords_len1 (h : w.extractLsb' 0 2 = 1) :
    decodeWords w (w1 :: w2 :: ws) = decodeExt (w.extractLsb' 3 7).toNat (.ofWords w w1 w2 none) := by
  unfold decodeWords; rw [h]; rfl
theorem decodeWords_len2 (h : w.extractLsb' 0 2 = 2) :
    decodeWords w (lo :: hi :: ws) = decodeLit (w.extractLsb' 3 7).toNat w lo hi := by
  unfold decodeWords; rw [h]; rfl
theorem decodeWords_len3 (h : w.extractLsb' 0 2 = 3) :
    decodeWords w (w1 :: w2 :: lo :: hi :: ws) = decodeExt (w.extractLsb' 3 7).toNat (.ofWords w w1 w2 (some (hi ++ lo))) := by
  unfold decodeWords; rw [h]; rfl

end

theorem decodeExt_eq_ok {maj : Nat} {e : Ext} {i : Instr} : decodeExt maj e = .ok i ↔ extRow maj e = some i := by
  unfold decodeExt
  split
  · simp_all
  · split
    · simp_all
    · split <;> simp_all

theorem append_halves (l : BitVec 64) : l.extractLsb' 32 32 ++ l.extractLsb' 0 32 = l :=
  BitVec.extractLsb'_append_extractLsb' (x := l) (w := 32) (len := 32)

/-- The words of a form, and whatever follows them, decode to its instruction. -/
theorem decodeWords_of_hasForm {i : Instr} {ws : List Word} (h : HasForm i ws) (rest : List Word) :
    ∃ w0 tl, ws = w0 :: tl ∧ ws.length = wordsOf w0 ∧ decodeWords w0 (tl ++ rest) = .ok i := by
  have one {x : BitVec 22} {maj : BitVec 7} {u : Bool} (h : decodeOne maj.toNat (headWord x maj u 0) = .ok i) :
      ∃ w0 tl, [headWord x maj u 0] = w0 :: tl ∧ [headWord x maj u 0].length = wordsOf w0 ∧
        decodeWords w0 (tl ++ rest) = .ok i :=
    ⟨_, [], rfl, (wordsOf_len0 (headWord_len ..)).symm, by rw [decodeWords_len0 (headWord_len ..), headWord_maj, h]⟩
  cases h with
  | b3Reg maj f h => exact one (B3.decodeOne_word h)
  | b3Unary maj f h hb => exact one (B3.decodeOne_unary h hb)
  | b3Imm maj f h ha => exact one (B3I.decodeOne_word h ha)
  | bmReg maj f h => exact one (BM.decodeOne_word h)
  | b0 maj x h => exact one (decodeOne_b0 h)
  | b3Lit maj f h =>
    rw [B3L.words_eq]
    refine ⟨_, _, rfl, (wordsOf_len2 (headWord_len ..)).symm, ?_⟩
    rw [List.cons_append, List.cons_append, decodeWords_len2 (headWord_len ..), headWord_maj, decodeLit, f.ofWords_words, h]
  | bmLit maj f h =>
    obtain ⟨hlit, hunary⟩ := b3_none_of_bmLit h
    rw [BML.words_eq]
    refine ⟨_, _, rfl, (wordsOf_len2 (headWord_len ..)).symm, ?_⟩
    rw [List.cons_append, List.cons_append, decodeWords_len2 (headWord_len ..), headWord_maj, decodeLit, f.ofWords_words, h,
      hlit, hunary]
    simp only [f.bit31_word, Bool.false_eq_true, if_false]
  | ext maj e h =>
    have he := e.ofWords_words maj
    rw [Ext.words]
    rcases hl : e.lit with _ | l
    · have h0 : e.word0 maj = headWord (e.pg ++ e.a9 ++ e.d9) maj e.u 1 := by rw [Ext.word0_eq, hl]; rfl
      rw [h0, hl] at he
      rw [h0]
      refine ⟨_, _, rfl, (wordsOf_len1 (headWord_len ..)).symm, ?_⟩
      exact (decodeWords_len1 (headWord_len ..)).trans (by rw [headWord_maj, he, decodeExt_eq_ok.2 h])
    · have h0 : e.word0 maj = headWord (e.pg ++ e.a9 ++ e.d9) maj e.u 3 := by rw [Ext.word0_eq, hl]; rfl
      rw [h0, hl] at he
      rw [h0]
      refine ⟨_, _, rfl, (wordsOf_len3 (headWord_len ..)).symm, ?_⟩
      exact (decodeWords_len3 (headWord_len ..)).trans (by rw [headWord_maj, append_halves, he, decodeExt_eq_ok.2 h])

theorem hasForm_of_decodeOne {w : Word} {i : Instr} (hlen : w.extractLsb' 0 2 = 0)
    (h : decodeOne (w.extractLsb' 3 7).toNat w = .ok i) : HasForm i [w] := by
  unfold decodeOne at h
  split at h
  · rename_i r hreg
    split at h
    · rename_i h31
      cases himm : b3Imm (w.extractLsb' 3 7).toNat (.ofWord w) with
      | none => rw [himm] at h; cases h
      | some k =>
        rw [himm] at h
        cases h
        refine B3I.word_ofWord hlen h31 ▸ .b3Imm _ _ himm fun hm => ?_
        rw [hm] at hreg
        cases hreg
    · rename_i h31
      cases h
      exact B3.word_ofWord hlen (Bool.not_eq_true _ ▸ h31) ▸ .b3Reg _ _ hreg
  · rename_i r _ hunary
    obtain ⟨hcond, rfl⟩ : ¬ _ ∧ r = i := by
      split at h
      · cases h
      · exact ⟨‹_›, Except.ok.inj h⟩
    simp only [Bool.or_eq_true, bne_iff_ne, ne_eq, not_or, Bool.not_eq_true, Decidable.not_not] at hcond
    obtain ⟨h31, hb⟩ := hcond
    exact B3.word_ofWord hlen h31 ▸ .b3Unary _ _ hunary hb
  · rename_i k _ _ himm
    obtain ⟨hcond, rfl⟩ := ok_of_ite h
    simp only [Bool.and_eq_true, beq_iff_eq] at hcond
    obtain ⟨h31, ha⟩ := hcond
    exact B3I.word_ofWord hlen h31 ▸ .b3Imm _ _ himm fun _ => ha
  · rename_i m _ _ _ hbm
    split at h
    · cases h
    · rename_i h31
      cases h
      exact BM.word_ofWord hlen (Bool.not_eq_true _ ▸ h31) ▸ .bmReg _ _ hbm
  · have hu : w.getLsbD 2 = false := by
      by_contra hu
      unfold b0Row at h
      rw [if_pos (by simpa using hu)] at h
      split at h <;> cases h
    have hw := headWord_of_fields w
    rw [hu, hlen] at hw
    rw [← hw]
    exact .b0 _ _ (by rwa [hw])

theorem hasForm_of_decodeLit {w lo hi : Word} {i : Instr} (hlen : w.extractLsb' 0 2 = 2)
    (h : decodeLit (w.extractLsb' 3 7).toNat w lo hi = .ok i) : HasForm i [w, lo, hi] := by
  unfold decodeLit at h
  split at h
  · rename_i r hlit
    cases h
    exact B3L.words_ofWords hlen ▸ .b3Lit _ _ hlit
  · cases h
  · rename_i m _ _ hbm
    split at h
    · cases h
    · rename_i h31
      cases h
      exact BML.words_ofWords hlen (Bool.not_eq_true _ ▸ h31) ▸ .bmLit _ _ hbm
  · cases h

theorem hasForm_of_extRow {w w1 w2 : Word} {lit : Option (BitVec 64)} {i : Instr}
    (hlen : w.extractLsb' 0 2 = if lit.isSome then 3 else 1)
    (h : extRow (w.extractLsb' 3 7).toNat (.ofWords w w1 w2 lit) = some i) :
    HasForm i ([w, w1, w2] ++ lit.elim [] fun l => [l.extractLsb' 0 32, l.extractLsb' 32 32]) := by
  obtain ⟨h0, h1, h2⟩ := Ext.words_ofWords (w1 := w1) (w2 := w2) hlen
  have hform := HasForm.ext _ _ h
  rw [Ext.words, h0, h1, h2] at hform
  cases lit <;> exact hform

/-- Words that decode begin with the form of the instruction. -/
theorem hasForm_of_decodeWords {w0 : Word} {rest : List Word} {i : Instr} (h : decodeWords w0 rest = .ok i) :
    ∃ ws tl, w0 :: rest = ws ++ tl ∧ ws.length = wordsOf w0 ∧ HasForm i ws := by
  have len {k : Nat} (hk : (w0.extractLsb' 0 2).toNat = k) : w0.extractLsb' 0 2 = BitVec.ofNat 2 k := by
    rw [← hk, BitVec.ofNat_toNat, BitVec.setWidth_eq]
  unfold decodeWords at h
  split at h
  · rename_i hk
    exact ⟨[w0], _, rfl, (wordsOf_len0 (len hk)).symm, hasForm_of_decodeOne (len hk) h⟩
  · rename_i w1 w2 tl hk
    exact ⟨[w0, w1, w2], tl, rfl, (wordsOf_len1 (len hk)).symm,
      hasForm_of_extRow (lit := none) (len hk) (decodeExt_eq_ok.1 h)⟩
  · rename_i lo hi tl hk
    exact ⟨[w0, lo, hi], tl, rfl, (wordsOf_len2 (len hk)).symm, hasForm_of_decodeLit (len hk) h⟩
  · rename_i w1 w2 lo hi tl hk
    have hform := hasForm_of_extRow (lit := some (hi ++ lo)) (len hk) (decodeExt_eq_ok.1 h)
    rw [Option.elim_some, BitVec.extractLsb'_append_eq_right, BitVec.extractLsb'_append_eq_left] at hform
    exact ⟨[w0, w1, w2, lo, hi], tl, rfl, (wordsOf_len3 (len hk)).symm, hform⟩
  · cases h

/-- Settles O51: the encoder and the decoder both go through the form of the instruction. -/
theorem encodeDecodeRoundTrip : Obligations.EncodeDecodeRoundTrip := by
  refine ⟨fun i bs hi => ?_, fun bs rest i h => ?_⟩
  · obtain ⟨w0, tl, henc, hlen, hdec⟩ := decodeWords_of_hasForm (hasForm_encode hi) (wordsOfBytes bs)
    have hbytes : (encodeBytes i).length = 4 * wordsOf w0 := by rw [encodeBytes, length_flatMap_bytesOfWord, hlen]
    rw [decode, encodeBytes, wordsOfBytes_append, henc, List.cons_append]
    simp only [hdec]
    rw [← henc, ← encodeBytes, ← hbytes, List.drop_left]
  · unfold decode at h
    split at h
    · cases h
    · rename_i w0 ws hws
      split at h
      · rename_i j hdec
        obtain ⟨rfl, rfl⟩ := Prod.mk.inj (Except.ok.inj h)
        obtain ⟨vs, tl, hsplit, hlen, hform⟩ := hasForm_of_decodeWords hdec
        obtain ⟨henc, rfl⟩ := encode_of_hasForm hform
        exact ⟨henc, hlen ▸ eq_append_of_wordsOfBytes bs (hws.trans hsplit)⟩
      · cases h

end Sys2Proof

end

-- ==== What a fetch leaves alone; O52, O53 ====
section
/-!
A fetch changes only what its core holds of translations and of lines (R81, R191, R192): every split it does not stop stays as
ready as it was.
-/

namespace Sys2Proof.Machine

variable {s t u : State}

/-- What a fetch may change: a free choice, and what the cores hold of translations and lines (R191, R192). -/
structure State.Fetches (s t : State) : Prop where
  rest : ∃ cs n, t = { s with cores := cs, free := n }
  core : ∀ d, t.core d = { s.core d with tlb := (t.core d).tlb, icache := (t.core d).icache }

theorem State.Fetches.refl (s : State) : s.Fetches s := ⟨⟨_, _, rfl⟩, fun _ => rfl⟩

theorem State.Fetches.trans (h : s.Fetches t) (h' : t.Fetches u) : s.Fetches u := by
  obtain ⟨⟨cs, n, rfl⟩, hc⟩ := h
  obtain ⟨⟨cs', n', rfl⟩, hc'⟩ := h'
  exact ⟨⟨_, _, rfl⟩, fun d => by rw [hc' d, hc d]⟩

theorem State.Fetches.free (h : s.Fetches t) (n : Nat) : s.Fetches { t with free := n } :=
  h.trans ⟨⟨_, _, rfl⟩, fun _ => rfl⟩

theorem State.Fetches.ite {p : Prop} [Decidable p] (h : s.Fetches t) (h' : s.Fetches u) : s.Fetches (if p then t else u) := by
  split
  · exact h
  · exact h'

theorem State.Fetches.updCore (h : s.Fetches t) (d : Nat) {f : Core → Core}
    (hf : ∀ k, f k = { k with tlb := (f k).tlb, icache := (f k).icache }) : s.Fetches (t.updCore d f) := by
  refine h.trans ⟨⟨_, _, rfl⟩, fun c => ?_⟩
  by_cases hc : c = d
  · rw [hc, State.core_updCore]
    exact hf _
  · rw [State.core_updCore_ne t hc]

section
variable (h : s.Fetches t)
include h

theorem State.Fetches.mem : t.mem = s.mem := by obtain ⟨⟨cs, n, rfl⟩, _⟩ := h; rfl
theorem State.Fetches.kern : t.kern = s.kern := by obtain ⟨⟨cs, n, rfl⟩, _⟩ := h; rfl
theorem State.Fetches.host : t.host = s.host := by obtain ⟨⟨cs, n, rfl⟩, _⟩ := h; rfl
theorem State.Fetches.league : t.league = s.league := by obtain ⟨⟨cs, n, rfl⟩, _⟩ := h; rfl
theorem State.Fetches.agenda : t.agenda = s.agenda := by obtain ⟨⟨cs, n, rfl⟩, _⟩ := h; rfl

theorem State.Fetches.wave? (d k : Nat) : t.wave? d k = s.wave? d k := by rw [State.wave?, State.wave?, h.core d]

theorem State.Fetches.ctx? (a : Who) : t.ctx? a = s.ctx? a := State.ctx?_congr (h.wave? a.core a.slot)

theorem State.Fetches.ready (c : Ctx) : c.ready t = c.ready s := by
  unfold Ctx.ready State.hasReqs Ctx.midway
  rw [h.league, h.core c.who.core]

end

theorem State.fetches_pick {α : Type} [DecidableEq α] (s : State) (a b : α) : s.Fetches (s.pick a b).2 := by
  unfold State.pick
  split
  · exact .refl s
  · exact .free (.refl s) _

theorem State.Fetches.keepTlb (h : s.Fetches t) (d k : Nat) (x : Nat × BitVec 64) :
    s.Fetches (t.updCore d fun c => { c with tlb := Sparse.put k x c.tlb }) :=
  h.updCore d fun _ => rfl

theorem State.Fetches.keepLine (h : s.Fetches t) (d k : Nat) (x : BitVec 512) :
    s.Fetches (t.updCore d fun c => { c with icache := Sparse.put k x c.icache }) :=
  h.updCore d fun _ => rfl

theorem State.fetches_translate (s : State) (sp : Space) (va : Nat) : s.Fetches (s.translate sp va).2 := by
  unfold State.translate
  dsimp only
  cases Sparse.get? (tlbKey sp.pasid va) (s.core sp.core).tlb with
  | none =>
    dsimp only
    split
    · split
      · exact .refl s
      · exact (State.Fetches.refl s).keepTlb ..
    · exact .refl s
  | some x =>
    have hpick := s.fetches_pick (.ok ⟨x.2, x.1⟩) (walkFrom s va 3 sp.root)
    dsimp only
    split
    · split
      · exact hpick
      · exact hpick.keepTlb ..
    · exact hpick

/-- The state after a fetch that has met a line. -/
theorem State.fetches_line {sp : Space} {pc : Nat} {bs : List Byte} {bad : List Nat} {pa : Nat}
    (h : s.fetch sp pc = (.line bs bad pa, t)) : s.Fetches t := by
  unfold State.fetch at h
  have htr := s.fetches_translate sp (pc / 64 * 64)
  dsimp only at h
  split at h
  · cases h
  · generalize s.translate sp (pc / 64 * 64) = r at h htr
    obtain ⟨tr, u⟩ := r
    dsimp only at h htr
    split at h
    · cases h
    · cases h
    · cases h
    · rename_i l
      split at h
      · cases h
      · cases hheld : Sparse.get? (sp.pasid.toNat * 2 ^ 46 + pc / 64 * 64 / 64) (u.core sp.core).icache with
        | none =>
          rw [hheld] at h
          dsimp only at h
          obtain ⟨-, rfl⟩ := Prod.mk.inj h
          have hfree := htr.free (if l.tier = 1 then u.free + 1 else u.free)
          exact hfree.ite (hfree.keepLine ..)
        | some old =>
          rw [hheld] at h
          dsimp only at h
          obtain ⟨-, rfl⟩ := Prod.mk.inj h
          have hpick := htr.trans (u.fetches_pick old (u.codeLine l (pc / 64 * 64)))
          exact hpick.ite (hpick.keepLine ..)

theorem State.fetches_ins {c : Ctx} {i : Instr} (h : s.fetchIns c = .ins i t) : s.Fetches t := by
  unfold State.fetchIns at h
  dsimp only at h
  split at h
  · cases h
  · split at h
    · cases h
    · cases h
    · rename_i bs bad pa u hline
      split at h
      · cases h
      · cases h
        exact State.fetches_line hline
      · cases h
      · cases h

/-! ### The issuing split -/

theorem State.wave?_issuing (s : State) (a : Who) :
    (s.issuing a).wave? a.core a.slot = (s.wave? a.core a.slot).map fun w => { w with turn := placeOf a } := by
  have hseen : (s.updCore a.core fun k => { k with
      waves := k.waves.map fun (x : Nat × Wave) => if x.1 = a.slot then x else (x.1, x.2.seen a.slot) }).wave? a.core a.slot =
      s.wave? a.core a.slot := by
    rw [State.wave?, State.core_updCore]
    dsimp only
    rw [Sparse.get?_map (by intro x; split <;> rfl)]
    simp [State.wave?]
  refine (State.wave?_updWave ..).trans ?_
  rw [hseen]

theorem State.ctx?_issuing {a : Who} {c : Ctx} (h : s.ctx? a = some c) :
    (s.issuing a).ctx? a = some { c with w := { c.w with turn := placeOf a } } := by
  unfold State.ctx? at h ⊢
  rw [State.wave?_issuing]
  cases hw : s.wave? a.core a.slot with
  | none => rw [hw] at h; cases h
  | some w =>
    rw [hw] at h
    dsimp only [Option.map_some] at h ⊢
    repeat' split at h
    all_goals cases h
    simp [*]

theorem Ctx.ready_issuing (c : Ctx) (s : State) (a : Who) :
    ({ c with w := { c.w with turn := placeOf a } } : Ctx).ready (s.issuing a) = c.ready s := by
  have hleague : (s.issuing a).league = s.league := State.updWave_league ..
  have hcore (d : Nat) : ((s.issuing a).core d).agentHalted = (s.core d).agentHalted := by
    refine (State.core_updWave (·.agentHalted) (fun _ _ => rfl) ..).trans ?_
    by_cases hd : d = a.core
    · rw [hd, State.core_updCore]
    · rw [State.core_updCore_ne s hd]
  unfold Ctx.ready State.hasReqs Ctx.midway
  rw [hleague, hcore]
  rfl

end Sys2Proof.Machine

end

-- ==== Every step answers a next state; O53 ====
section
/-!
No state stops the machine (R98, R247): a ready split's instruction is executed by the split, an event answers whatever the state,
and the device's own events are all of that kind.
-/

namespace Sys2Proof.Machine

/-! ### Every meaning answers -/

/-- A meaning that answers a next state in every state. -/
def Act.Answers (f : Act) : Prop := ∀ s, ∃ t, f s = .next t

/-- A wave's instruction is executed by its split; every event answers (R98, R247). -/
theorem exec_meaning (i : Instr) : (encode i ≠ [] ∧ ∃ e body, exec i = runWave i e body) ∨ Act.Answers (exec i) := by
  cases i with
  | agentRestart _ | trapRecordDelivery _ | translationFill _ _ _ | atomnPerform _ _ | fbpop _ | fbrespWalkAgain _ _
  | fbrespRaise _ _ | vgrowGrant _ | vgrowDeadlockBreak _ | blockDrainDone _ | barrierPhaseComplete _ _ | cwaitSatisfied _
  | fullEmptyWake _ | fencerComplete _ | kernelObjectWake _ | tokenGrant | idleWake _ | channelReservationGrant _ _
  | mmaExecute _ | mmaComplete _ | acczExecute _ | accwrExecute _ | tilemvLdExecute _ | tilemvStExecute _ | copyFire _
  | copyComplete _ _ | followOnMmaEntry _ | gatherFire _ | gatherComplete _ _ | collComplete _ _ | timerExpiry _
  | scPeriodRelease _ | scBudgetExhausted _ | kernelDispatch _ | waveRefill _ _ | progressWindowSwap _ | preemptDrain _
  | drainLimitExpiry _ | preemptSave _ | preemptFlushRestart _ | blockRestore _ _ | blockPlacement _ _
  | congestionLevelChange _ _ | qbaseWrite _ _ _ | qsizeWrite _ _ _ | queueEnable _ _ | qtailWrite _ _ _ | qstatClear _ _ _
  | registerWrite _ _ _ | noopPacket _ _ | launchPacket _ _ | waitPacket _ _ | waitPacketFinish _ _ | reservedPacket _ _
  | launchCompletionRecord _ | launchArrivalReceipt _ | launchReleaseReceipt _ | launchRefusalReceipt _
  | launchArrivalTimeout _ | launchAnswerTimeout _ | mailboxVersion | qdestroy | qdestroyAnswer | pasiddown | pasiddownAnswer
  | regbind | preempt | bootclr | windowEntryWrite _ _ _ | windowEntryReadback _ _ | lockInterface _
  | getDeviceInterfaceReport _ | startInterface _ | stopInterface _ | tdiConfigChange _ | ideIntegrityFailure _
  | getMeasurements | powerOnReset | tempHigh _ | tempCoolTick _ | remoteReadRequest _ | remoteWriteRequest _
  | remoteAtomicRequest _ | remoteResponseReceipt _ | requestTimeout _ | multicastWrite _ | multicastCopyReceipt _
  | multicastMemberTimeout _ _ _ | aggregatedAckReceipt _ | groupTableWrite _ | invalidateReceipt _ | invalidateAckReceipt _
  | importerCloseTimeout _ _ | portMessageReceipt _ | nameLookupReceipt _ | nameReplyReceipt _ | shuffleSegmentSwitch _
  | shufflePairTimeout _ _ | uncodedSegmentReceipt _ | codedSegmentReceipt _ | segmentNegativeReceipt _ | shuffleDoneReceipt _
  | peerBarrierArrival _ | peerBarrierRelease _ | linkVersionMismatch _ | flitRetransmit _ | reservedPacketDrop _
  | registerResultsWritten _ _ _ | cacheLineWriteBack _ _ | portDown _ | linkRetrained _ _ _ | portMessageAnswerReceipt _
  | mailboxUnknownCommand =>
    exact .inr fun _ => ⟨_, rfl⟩
  | _ => exact .inl ⟨List.cons_ne_nil _ _, _, _, rfl⟩

/-- An instruction of a ready split answers. -/
theorem exec_of_ready (i : Instr) {s : State} {c : Ctx} (hs : s.ctx? s.cur = some c) (hr : c.ready s = true) :
    ∃ t, exec i s = .next t := by
  obtain ⟨-, e, body, hexec⟩ | h := exec_meaning i
  · rw [hexec, runWave, hs]
    exact ⟨_, if_pos hr⟩
  · exact h s

/-! ### The device's own events -/

/-- Some meanings that all answer. -/
def AllAnswer (fs : List Act) : Prop := ∀ f ∈ fs, Act.Answers f

section
variable {fs gs : List Act}

theorem AllAnswer.nil : AllAnswer [] := nofun

theorem AllAnswer.cons {f : Act} (hf : Act.Answers f) (h : AllAnswer fs) : AllAnswer (f :: fs) := List.forall_mem_cons.2 ⟨hf, h⟩

theorem AllAnswer.append (h : AllAnswer fs) (h' : AllAnswer gs) : AllAnswer (fs ++ gs) := List.forall_mem_append.2 ⟨h, h'⟩

theorem AllAnswer.ite {p : Prop} [Decidable p] (h : AllAnswer fs) (h' : AllAnswer gs) : AllAnswer (if p then fs else gs) := by
  split
  · exact h
  · exact h'

theorem AllAnswer.map {α : Type} {f : α → Act} (h : ∀ a, Act.Answers (f a)) (as : List α) : AllAnswer (as.map f) :=
  List.forall_mem_map.2 fun a _ => h a

theorem AllAnswer.flatMap {α : Type} {f : α → List Act} (h : ∀ a, AllAnswer (f a)) (as : List α) : AllAnswer (as.flatMap f) :=
  fun g hg => by
    obtain ⟨a, -, ha⟩ := List.mem_flatMap.1 hg
    exact h a g ha

theorem AllAnswer.filterMap {α : Type} {f : α → Option Act} (h : ∀ a g, f a = some g → Act.Answers g) (as : List α) :
    AllAnswer (as.filterMap f) := fun g hg => by
  obtain ⟨a, -, ha⟩ := List.mem_filterMap.1 hg
  exact h a g ha

end

theorem AllAnswer.one {f : Act} (h : Act.Answers f) : AllAnswer [f] := .cons h .nil

theorem wakeOf_answers (a : Who) (pc : Dword) (w : Wait) : AllAnswer (wakeOf a pc w) := by
  unfold wakeOf
  split
  case h_9 => exact .ite .nil (.one fun _ => ⟨_, rfl⟩)
  case h_10 => exact .nil
  all_goals exact .one fun _ => ⟨_, rfl⟩

theorem Wave.events_answer (w : Wave) (core slot : Nat) : AllAnswer (w.events core slot) :=
  ((AllAnswer.map (fun _ _ => ⟨_, rfl⟩) _).append (.ite .nil (.one fun _ => ⟨_, rfl⟩))).append
    (.flatMap (fun _ => .flatMap (fun _ => wakeOf_answers _ _ _) _) _)

theorem Core.engineEvents_answer (k : Core) (core : Nat) : AllAnswer (k.engineEvents core) :=
  (((AllAnswer.ite .nil (.cons (fun _ => ⟨_, rfl⟩) <| .cons (fun _ => ⟨_, rfl⟩) <| .cons (fun _ => ⟨_, rfl⟩) <|
        .cons (fun _ => ⟨_, rfl⟩) <| .cons (fun _ => ⟨_, rfl⟩) <| .one fun _ => ⟨_, rfl⟩)).append
      (.ite .nil (.cons (fun _ => ⟨_, rfl⟩) <| .cons (fun _ => ⟨_, rfl⟩) <| .cons (fun _ => ⟨_, rfl⟩) <|
        .one fun _ => ⟨_, rfl⟩))).append
    (.flatMap (fun _ => .cons (fun _ => ⟨_, rfl⟩) <| .cons (fun _ => ⟨_, rfl⟩) <| .one fun _ => ⟨_, rfl⟩) _)).append
    (.map (fun _ _ => ⟨_, rfl⟩) _)

theorem Core.events_answer (k : Core) (core : Nat) : AllAnswer (k.events core) :=
  ((((((k.engineEvents_answer core).append (.ite .nil (.one fun _ => ⟨_, rfl⟩))).append
    (.ite (.one fun _ => ⟨_, rfl⟩) .nil)).append (.ite .nil (.cons (fun _ => ⟨_, rfl⟩) <| .one fun _ => ⟨_, rfl⟩))).append
    (.ite .nil (.one fun _ => ⟨_, rfl⟩))).append (.ite (.one fun _ => ⟨_, rfl⟩) .nil)).append
    (.flatMap (fun x => x.2.events_answer core x.1) _)

theorem Obj.events_answer (o : Obj) (i : Nat) : AllAnswer (o.events i) := by
  unfold Obj.events
  split
  · exact .one fun _ => ⟨_, rfl⟩
  · exact .cons (fun _ => ⟨_, rfl⟩) (.one fun _ => ⟨_, rfl⟩)
  · exact .one fun _ => ⟨_, rfl⟩
  · exact .nil

theorem Block.events_answer (b : Block) (i : Nat) : AllAnswer (b.events i) := by
  unfold Block.events
  split
  · exact ((AllAnswer.map (fun _ _ => ⟨_, rfl⟩) _).append (.ite (.cons (fun _ => ⟨_, rfl⟩) <| .cons (fun _ => ⟨_, rfl⟩) <|
      .one fun _ => ⟨_, rfl⟩) .nil)).append (.ite (.one fun _ => ⟨_, rfl⟩) .nil)
  · exact .nil

theorem Launch.events_answer (l : Launch) (i : Nat) : AllAnswer (l.events i) := by
  unfold Launch.events
  split
  case h_3 => exact (AllAnswer.map (fun _ _ => ⟨_, rfl⟩) _).append (.one fun _ => ⟨_, rfl⟩)
  case h_5 => exact .nil
  all_goals exact .one fun _ => ⟨_, rfl⟩

theorem Queue.events_answer (k : Queue) (fn q : Nat) : AllAnswer (k.events fn q) := by
  refine .append ?_ (.ite (.one fun _ => ⟨_, rfl⟩) .nil)
  cases k.startable with
  | none => exact .nil
  | some p =>
    exact .ite (.one fun _ => ⟨_, rfl⟩) (.ite (.one fun _ => ⟨_, rfl⟩) (.ite (.cons (fun _ => ⟨_, rfl⟩) <|
      .one fun _ => ⟨_, rfl⟩) (.one fun _ => ⟨_, rfl⟩)))

theorem State.peerBarEvents_answer (s : State) : AllAnswer s.peerBarEvents := by
  refine .filterMap (fun x g hg => ?_) _
  dsimp only at hg
  split at hg
  · obtain ⟨b, -, rfl⟩ := Option.map_eq_some_iff.1 hg
    exact fun _ => ⟨_, rfl⟩
  · cases hg

theorem State.mailEvents_answer (s : State) : AllAnswer s.mailEvents :=
  ((AllAnswer.ite (.cons (fun _ => ⟨_, rfl⟩) <| .cons (fun _ => ⟨_, rfl⟩) <| .cons (fun _ => ⟨_, rfl⟩) <|
      .cons (fun _ => ⟨_, rfl⟩) <| .cons (fun _ => ⟨_, rfl⟩) <| .cons (fun _ => ⟨_, rfl⟩) <| .one fun _ => ⟨_, rfl⟩) .nil).append
    (.ite .nil (.one fun _ => ⟨_, rfl⟩))).append (.ite (.one fun _ => ⟨_, rfl⟩) .nil)

theorem State.leagueEvents_answer (s : State) : AllAnswer s.leagueEvents := by
  refine .append (.append (.filterMap (fun r g hg => ?_) _) (.flatMap (fun _ => .map (fun _ _ => ⟨_, rfl⟩) _) _))
    (.map (fun _ _ => ⟨_, rfl⟩) _)
  split at hg <;> cases hg
  exact fun _ => ⟨_, rfl⟩

theorem State.candidates_answer (s : State) : AllAnswer s.candidates := by
  refine .ite (.one fun _ => ⟨_, rfl⟩) ?_
  refine .append (.append (.append (.append (.append (.append (.append (.append (.append (.append ?cores ?objs) ?runq) ?blocks) ?launches)
    ?queues) ?orphans) ?tokens) s.peerBarEvents_answer) s.mailEvents_answer) s.leagueEvents_answer
  case cores => exact .flatMap (fun x => x.2.events_answer x.1) _
  case objs => exact .flatMap (fun x => x.2.events_answer x.1) _
  case runq =>
    refine .filterMap (fun x g hg => ?_) _
    split at hg <;> cases hg
    exact fun _ => ⟨_, rfl⟩
  case blocks => exact .flatMap (fun x => x.2.events_answer x.1) _
  case launches => exact .flatMap (fun x => x.2.events_answer x.1) _
  case queues => exact .flatMap (fun x => x.2.events_answer _ _) _
  case orphans => exact .map (fun _ _ => ⟨_, rfl⟩) _
  case tokens => exact .ite .nil (.one fun _ => ⟨_, rfl⟩)

/-! ### The step -/

theorem State.nextTurn_act {s t : State} {f : Act} (h : s.nextTurn = (some (.act f), t)) : Act.Answers f := by
  unfold State.nextTurn at h
  split at h
  · cases h
  · obtain ⟨hnext, -⟩ := Prod.mk.inj h
    have hevent : s.candidates[s.free / 2 % s.candidates.length]? = some f := by
      split at hnext <;> simp [Option.or_eq_some_iff] at hnext
      · exact hnext
      · exact hnext.2
    exact s.candidates_answer f (List.mem_of_getElem? hevent)

theorem issueTurn_answers (s : State) (a : Who) : ∃ t, issueTurn s a = .next t := by
  unfold issueTurn
  dsimp only
  split
  · exact ⟨_, rfl⟩
  · rename_i c hc
    split
    · rename_i hr
      split
      · exact ⟨_, rfl⟩
      · rename_i i u hins
        have hfetch := State.fetches_ins hins
        have hu : u.ctx? (s.issuer a) = some c := (hfetch.ctx? _).trans hc
        exact exec_of_ready i (State.ctx?_issuing hu) ((c.ready_issuing u _).trans ((hfetch.ready c).trans hr))
    · exact ⟨_, rfl⟩

theorem turn_answers (s : State) (t : Turn) : ∃ u, turn s t = .next u := by
  cases t with
  | issue a => exact issueTurn_answers s a
  | event i =>
    show ∃ u, (if encode i = [] then exec i s else .next s) = .next u
    split
    · rename_i henc
      obtain ⟨hne, -⟩ | h := exec_meaning i
      · exact absurd henc hne
      · exact h s
    · exact ⟨_, rfl⟩

/-- Settles O53: a turn answers, for the split that issues is ready, and so does every event of the device. -/
theorem stepNeverStops : Obligations.StepNeverStops := by
  intro s
  unfold step
  split
  · exact ⟨_, rfl⟩
  · rename_i n u hnext
    cases n with
    | turn r =>
      obtain ⟨t, ht⟩ := turn_answers u r
      dsimp only
      rw [ht]
      exact ⟨_, rfl⟩
    | act f =>
      obtain ⟨t, ht⟩ := State.nextTurn_act hnext u
      dsimp only
      rw [ht]
      exact ⟨_, rfl⟩

end Sys2Proof.Machine

end

-- ==== Words of the spec; O50 ====
section
/-!
The decoder run on the words that the spec writes out.
-/

namespace Sys2Proof

/-- Settles O50: each word is decoded as it stands. -/
theorem Claims.decodeWords : Obligations.DecodeWords := by
  unfold Obligations.DecodeWords
  decide

end Sys2Proof

end

-- ==== Transfers of control; O15 ====
section
/-!
A transfer whose targets pass their checks goes on in the state after them (R80): the link and the new PC follow.
-/

namespace Sys2Proof.Machine

/-- The targets passed, a transfer goes on. -/
theorem transferIn_ok {sp : Space} {base : Dword} {c : Ctx} {s u : State} {ts : List Nat} (k : State → Res)
    (h : s.checkTargets sp base ts = (.ok, u)) : transferIn sp base c s ts k = k u := by
  unfold transferIn
  rw [h]

/-- A target refused, the instruction raises its exception. -/
theorem transferIn_fault {sp : Space} {base : Dword} {c : Ctx} {s u : State} {ts : List Nat} {code a : Nat} (k : State → Res)
    (h : s.checkTargets sp base ts = (.fault code a, u)) : transferIn sp base c s ts k = .raise u code a := by
  unfold transferIn
  rw [h]

/-- The state in which CALL has left its return address (R160, R412). -/
def State.linked (u : State) (c : Ctx) (i : Instr) : State :=
  u.put c ((u.mine c).setS c.who.half (if c.w.id.gang then 31 else 63) (c.path.pc + BitVec.ofNat 64 (4 * (encode i).length)))

section
variable {i : Instr} {c : Ctx} {s u : State}

theorem gotoBody_ok {link : Bool} {t : Ctx → Nat} (h : s.checkTargets (c.space s) c.w.id.codeBase [t c] = (.ok, u)) :
    gotoBody i link t c s = .jump ((if link then u.linked c i else u).setPc c (t c)) :=
  transferIn_ok _ h

theorem gotoAbsBody_ok {link : Bool} {e : Ext} (hops : checkOps [sRun c e.a9.toNat] = none)
    (h : s.checkTargets (c.space s) c.w.id.codeBase [(c.sVal e.a9.toNat).toNat] = (.ok, u)) :
    gotoAbsBody i link e c s = .jump ((if link then u.linked c i else u).setPc c (c.sVal e.a9.toNat).toNat) :=
  (withOps_ok hops).trans (gotoBody_ok (t := fun c => (c.sVal e.a9.toNat).toNat) h)

/-- The Active lanes whose condition holds. -/
def Ctx.willing (c : Ctx) (p : Nat) (neg : Bool) : Mask :=
  c.active 0 false &&& (if neg then ~~~(c.w.p c.who.half p) else c.w.p c.who.half p)

theorem willing_eq (c : Ctx) (p : Nat) (neg : Bool) : c.willing p neg = c.active 0 false &&& c.pred (416 + p) neg := by
  simp [Ctx.willing, Ctx.pred]

theorem bruExtBody_ok {e : Ext} {abs : Bool}
    (hops : checkOps [predOk e.a9.toNat, if abs then sRun c e.b9.toNat else OpOk.yes] = none) :
    bruExtBody e abs c s =
      bruBody (e.a9.toNat - 416) (e.m 0 1 == 1) (if abs then (c.sVal e.b9.toNat).toNat else litDisp e c) c s :=
  withOps_ok hops

theorem bruBody_none {p : Nat} {neg : Bool} (t : Nat) (h : c.willing p neg = 0) : bruBody p neg t c s = .next s :=
  if_pos (willing_eq c p neg ▸ h)

theorem bruBody_some {p t : Nat} {neg : Bool} (h : c.willing p neg ≠ 0)
    (hu : s.checkTargets (c.space s) c.w.id.codeBase [t] = (.ok, u)) : bruBody p neg t c s = .jump (u.setPc c t) :=
  (if_neg (willing_eq c p neg ▸ h)).trans (transferIn_ok _ hu)

end

/-- What BRU executes, in each of its forms. -/
theorem exec_bruForm {i : Instr} {e : Option Ext} {ops : Ctx → List OpOk} {p : Nat} {neg : Bool} {t : Ctx → Nat}
    (h : Claims.bruForm i = some (e, ops, p, neg, t)) :
    ∃ body, exec i = runWave i e body ∧ ∀ c s, checkOps (ops c) = none → body c s = bruBody p neg (t c) c s := by
  cases i
  case bru =>
    obtain ⟨rfl, rfl, rfl, rfl, rfl⟩ := by simpa only [Claims.bruForm, Option.some.injEq, Prod.mk.injEq] using h
    exact ⟨_, rfl, fun _ _ _ => rfl⟩
  case bruAbs e =>
    obtain ⟨rfl, rfl, rfl, rfl, rfl⟩ := by simpa only [Claims.bruForm, Option.some.injEq, Prod.mk.injEq] using h
    exact ⟨_, rfl, fun c s hops => bruExtBody_ok (abs := true) hops⟩
  case bruDisp e =>
    obtain ⟨rfl, rfl, rfl, rfl, rfl⟩ := by simpa only [Claims.bruForm, Option.some.injEq, Prod.mk.injEq] using h
    exact ⟨_, rfl, fun c s hops => bruExtBody_ok (abs := false) hops⟩
  all_goals cases h

/-- What BRA, CALL and RET execute, in each of their forms. -/
theorem exec_gotoForm {i : Instr} {e : Option Ext} {link : Bool} {ops : Ctx → List OpOk} {t : Ctx → Nat}
    (h : Claims.gotoForm i = some (e, link, ops, t)) :
    ∃ body, exec i = runWave i e body ∧ ∀ c s, checkOps (ops c) = none → body c s = gotoBody i link t c s := by
  cases i
  case bra => cases h; exact ⟨_, rfl, fun _ _ _ => rfl⟩
  case call => cases h; exact ⟨_, rfl, fun _ _ _ => rfl⟩
  case braAbs => cases h; exact ⟨_, rfl, fun _ _ hops => withOps_ok hops⟩
  case callAbs => cases h; exact ⟨_, rfl, fun _ _ hops => withOps_ok hops⟩
  case braDisp => cases h; exact ⟨_, rfl, fun _ _ _ => rfl⟩
  case callDisp => cases h; exact ⟨_, rfl, fun _ _ _ => rfl⟩
  case ret => cases h; exact ⟨_, rfl, fun _ _ _ => rfl⟩
  all_goals cases h

/-- Settles O15: every form is one jump or one branch on a condition. -/
theorem transfersOfControl : Obligations.TransfersOfControl := by
  refine ⟨fun i e link ops t hform s u c hi hops hu => ?_, fun i e ops p neg t hform s c hi hops => ?_⟩
  · obtain ⟨body, hexec, hbody⟩ := exec_gotoForm hform
    rw [hexec]
    exact runWave_jump hi ((hbody c _ hops).trans (gotoBody_ok hu))
  · obtain ⟨body, hexec, hbody⟩ := exec_bruForm hform
    rw [hexec]
    exact ⟨fun hm => runWave_next hi ((hbody c _ hops).trans (bruBody_none _ hm)),
      fun hm u hu => runWave_jump hi ((hbody c _ hops).trans (bruBody_some hm hu))⟩

end Sys2Proof.Machine

end

-- ==== Control registers; O41 ====
section
/-!
CRD and CWR as the register file of a core answers and takes them (R249, R254, R350).
-/

namespace Sys2Proof.Machine

variable {e : Ext} {c : Ctx} {s : State}

theorem crdBody_ok {w : Wave} (h : checkOps [sDst c e.d9.toNat] = none) : crdBody e c (s.put c w) =
    .next (s.put c (writeS c w e.d9.toNat ((s.put c w).ctlReg c.who.core (e.m 0 12)))) := by
  rw [crdBody, withOps_ok h, sysDone, State.mine_put, State.put_put, BitVec.ofNat_toNat, BitVec.setWidth_eq]

theorem cwrBody_ok (h : checkOps [uOpOk c e.lit e.a9.toNat] = none) :
    cwrBody e c s = .next (s.writeCtl c.who.core (e.m 0 12) (c.uVal e.lit 8 e.a9.toNat)) :=
  withOps_ok h

/-- CWR and its two named forms execute one meaning (R94, R254, R350). -/
theorem exec_cwrForm {i : Instr} (h : i = .cwr e ∨ i = .ktcodePop e ∨ i = .kmodeIntlkWrite e) :
    exec i = runWave i (some e) (cwrBody e) := by
  obtain rfl | rfl | rfl := h
  · rfl
  · rfl
  · rfl

/-! ### What a register holds -/

theorem State.ctlReg_ktcode (s : State) (core : Nat) :
    s.ctlReg core 4 = match (s.core core).trapQ with | r :: _ => r.code | [] => 0 := by
  change ((s.core core).trapQ.head?.map _).getD 0 = _
  cases (s.core core).trapQ with
  | nil => rfl
  | cons r rs => rfl

theorem State.ctlReg_ktaddr (s : State) (core : Nat) :
    s.ctlReg core 6 = match (s.core core).trapQ with | r :: _ => r.addr | [] => 0 := by
  change ((s.core core).trapQ.head?.map _).getD 0 = _
  cases (s.core core).trapQ with
  | nil => rfl
  | cons r rs => rfl

theorem State.core_pop (s : State) (core : Nat) (v : BitVec 64) :
    (s.writeCtl core 4 v).core core = { s.core core with trapQ := (s.core core).trapQ.tail } := by
  rw [State.writeCtl, if_pos rfl, State.core_updCore]

/-- The management core's other registers read zero (R249). -/
theorem State.ctlReg_mgmt_ktvec (s : State) : s.ctlReg mgmtCore 3 = 0 := rfl

section
variable {core : Nat} (hcore : core ≠ mgmtCore) (s : State) (v : BitVec 64)
include hcore

theorem State.ctl_kmode : ((s.writeCtl core 0 v).core core).ctl = { (s.core core).ctl with intlk := v.getLsbD 0 } := by
  rw [State.writeCtl, if_neg (by decide), if_neg hcore, State.core_updCore]
  rfl

theorem State.ctlReg_kpasid : (s.writeCtl core 2 v).ctlReg core 2 = (v.extractLsb' 0 20).setWidth 64 := by
  rw [State.writeCtl, if_neg (by decide), if_neg hcore]
  simp only [State.ctlReg, if_neg hcore, State.core_updCore]
  rw [BitVec.setWidth_eq_extractLsb' (by decide : 20 ≤ 64)]

theorem State.ctlReg_ktvec : (s.writeCtl core 3 v).ctlReg core 3 = (v.extractLsb' 6 46).setWidth 64 <<< 6 := by
  rw [State.writeCtl, if_neg (by decide), if_neg hcore]
  simp only [State.ctlReg, if_neg hcore, State.core_updCore]
  ext i hi
  simp
  grind

end

/-- Settles O41: CRD reads the register, CWR writes it, and the registers are those of R249 to R254. -/
theorem controlRegisters : Obligations.ControlRegisters := by
  intro e s c
  refine ⟨fun hi hops => runWave_next hi (crdBody_ok hops), fun i hform hi hops => ?_, s.ctlReg_ktcode _, s.ctlReg_ktaddr _,
    s.core_pop _ _, fun hcore => ?_, s.ctlReg_mgmt_ktvec⟩
  · rw [exec_cwrForm hform]
    exact runWave_next hi (cwrBody_ok hops)
  · have hne : c.who.core ≠ mgmtCore := by
      unfold mgmtCore
      omega
    exact ⟨s.ctl_kmode hne _, s.ctlReg_ktvec hne _, s.ctlReg_kpasid hne _⟩

end Sys2Proof.Machine

end

-- ==== Verdicts; O42 ====
section
/-!
RFT in its four outcomes: a verdict or PC it does not take, a wave not trapped here, and a trapped wave with the checks of the
address that the verdict sends it to (R80, R413, R414).
-/

namespace Sys2Proof.Machine

/-- The operand checks of RFT (R413). -/
def rftOps (e : Ext) (c : Ctx) : List OpOk := [sDst c e.d9.toNat, sRun c e.a9.toNat, uOpOk c e.lit e.b9.toNat, sRun c e.c9.toNat]

/-- RFT's verdict, and the PC it gives with it. -/
def rftVerdict (e : Ext) (c : Ctx) : Nat := (c.uVal e.lit 8 e.b9.toNat).toNat

/-- A CONTINUE of RFT that lets the waves go on that a command's record has trapped (R268, R414). -/
abbrev rftAsync (e : Ext) (w : Wave) (d : Due) : Prop :=
  e.m 1 1 = 1 ∧ d.v = 3 ∧ (w.id.blk ≠ none ∨ w.trap.filter (·.posting) = none)

theorem rftAsync_bool (e : Ext) (w : Wave) (d : Due) :
    (e.m 1 1 = 1 && d.v = 3 && (w.id.blk.isSome || (w.trap.filter fun r => r.posting).isNone)) = decide (rftAsync e w d) := by
  simp only [rftAsync, Bool.decide_and, Bool.decide_or, Bool.and_assoc]
  cases w.id.blk <;> cases w.trap.filter (·.posting) <;> simp

/-- What RFT leaves once its target has passed. -/
def State.rftGiven (e : Ext) (w : Wave) (h : BitVec 32) (core slot : Nat) (d : Due) (u : State) : State :=
  if rftAsync e w d then u.engineGo h w.id.blk (w.trap.filter (·.posting)) else u.giveVerdict core slot d

theorem bits_high_eq_zero_iff (pc : Dword) : bits pc.toNat 63 52 = 0 ↔ pc.toNat < 2 ^ 52 := by
  unfold bits
  have := pc.isLt
  omega

/-- Without the engine bit RFT gives the verdict and the PC of its operands. -/
theorem rftDue_precise {e : Ext} (w : Wave) (v : Nat) (pc : Dword) (h : e.m 1 1 = 0) : rftDue e w v pc =
    { v := if e.m 0 1 = 1 ∧ 2 ≤ v then 1 else v, half := if w.id.gang then e.m 2 1 else 0
      path := (w.trap.map (·.path)).getD 0, pc := pc, reread := e.m 3 1 == 1, parked := [] } := by
  simp [rftDue, h, beq_eq_decide]

/-- The verdict and the PC are such as RFT takes. -/
theorem rft_guard {e : Ext} {c : Ctx} (hv : rftVerdict e c ≤ 3) (hpc : (c.sVal e.c9.toNat).toNat < 2 ^ 52) :
    ¬ ((decide ((c.uVal e.lit 8 e.b9.toNat).toNat > 3) || decide (bits (c.sVal e.c9.toNat).toNat 63 52 ≠ 0)) = true) := by
  simpa [rftVerdict, bits_high_eq_zero_iff] using ⟨hv, hpc⟩

section
variable {e : Ext} {c : Ctx} {s : State} (hops : checkOps (rftOps e c) = none)
include hops

theorem rftBody_invalid (h : 3 < rftVerdict e c ∨ 2 ^ 52 ≤ (c.sVal e.c9.toNat).toNat) :
    rftBody e c s = .raise s Exc.invalidOperand 0 := by
  refine (withOps_ok hops).trans (if_pos ?_)
  simpa [rftVerdict, bits_high_eq_zero_iff] using h

variable (hv : rftVerdict e c ≤ 3) (hpc : (c.sVal e.c9.toNat).toNat < 2 ^ 52)
  (hnamed : s.waveFault (c.handle e.a9.toNat) = none)
include hv hpc hnamed

/-- A wave that is not trapped on this core. -/
theorem rftBody_elsewhere (h : s.resident (c.handle e.a9.toNat) = none ∨ ∃ core k w,
    s.resident (c.handle e.a9.toNat) = some (core, k) ∧ s.waveOf (c.handle e.a9.toNat) = some w ∧
      (core ≠ c.who.core ∨ w.traps = 0)) : rftBody e c s = sysDone e c s 1 := by
  refine (withOps_ok hops).trans ((if_neg (rft_guard hv hpc)).trans ?_)
  dsimp only
  rw [hnamed]
  dsimp only
  obtain hnone | ⟨core, k, w, hres, hw, helse⟩ := h
  · rw [hnone]
  · rw [hres, hw]
    exact if_pos (by simpa using helse)

/-- A wave that is trapped on this core. -/
theorem rftBody_here {k : Nat} {w : Wave} (hres : s.resident (c.handle e.a9.toNat) = some (c.who.core, k))
    (hw : s.waveOf (c.handle e.a9.toNat) = some w) (htraps : w.traps ≠ 0) {d : Due}
    (hd : rftDue e w (rftVerdict e c) (c.sVal e.c9.toNat) = d) : rftBody e c s =
    transferIn (s.waveSpace c.who.core k w) w.id.codeBase c s
      (w.returnsTo (s.afterPc (s.waveSpace c.who.core k w)) d.v d.half d.pc (d.reread = true ∨ rftAsync e w d))
      fun s => sysDone e c (s.rftGiven e w (c.handle e.a9.toNat) c.who.core k d) 0 := by
  refine (withOps_ok hops).trans ((if_neg (rft_guard hv hpc)).trans ?_)
  dsimp only
  rw [hnamed, hres, hw]
  dsimp only
  rw [if_neg (by simpa using htraps), ← rftVerdict, hd]
  rw [rftAsync_bool]
  simp only [State.rftGiven, decide_eq_true_eq, Bool.decide_or, Bool.decide_eq_true]
end

/-- Settles O42: RFT answers for the wave it names, the verdict applied in the state after the checks of its target. -/
theorem verdictsApplied : Obligations.VerdictsApplied := by
  intro e s c hi s₀ v pc h hops done
  refine ⟨fun hv hpc hnamed => ⟨?_, ?_⟩, ?_⟩
  · intro core k w hres hw hcore htraps
    subst hcore
    have hbody := rftBody_here hops hv hpc hnamed hres hw htraps rfl
    refine ⟨rftDue_precise w v pc, fun u hu => ?_, fun code a u hu => ?_⟩
    · exact runWave_next hi (hbody.trans (transferIn_ok _ hu))
    · exact runWave_raise hi (hbody.trans (transferIn_fault _ hu))
  · intro helse
    refine runWave_next hi ((rftBody_elsewhere hops hv hpc hnamed helse).trans ?_)
    rfl
  · exact fun h => runWave_raise hi (rftBody_invalid hops h)

end Sys2Proof.Machine

end

-- ==== A step of the split whose turn it is; O52 ====
section
/-!
A fetch whose page and line are good gives the line's bytes as memory holds them (R81, R183, R191); the step is then what these
bytes decode to (R79, R98, R100).
-/

namespace Sys2Proof

/-- The low bytes of a number read from bytes are these bytes. -/
theorem leBytes_leNat (bs : List Byte) : leBytes bs.length (leNat bs) = bs := by
  induction bs with
  | nil => rfl
  | cons b bs ih =>
    have hb : b.toNat < 256 := b.isLt
    have hlow : BitVec.ofNat 8 (b.toNat + 256 * leNat bs) = b := BitVec.eq_of_toNat_eq (by rw [BitVec.toNat_ofNat]; omega)
    have hhigh : (b.toNat + 256 * leNat bs) / 256 = leNat bs := by omega
    rw [List.length_cons, leBytes, leNat, hlow, hhigh, ih]

namespace Machine

theorem State.num_lt (s : State) (a n : Nat) : s.num a n < 2 ^ (8 * n) := by
  have h := leNat_lt (s.bytes a n)
  rwa [State.bytes, Sparse.length_range] at h

theorem State.leBytes_num (s : State) (a n : Nat) : leBytes n (s.num a n) = s.bytes a n := by
  have h := leBytes_leNat (s.bytes a n)
  rwa [State.bytes, Sparse.length_range] at h

/-! ### The line that a fetch meets -/

/-- A line lies within its page. -/
theorem Leaf.pa_line (l : Leaf) (pc : Nat) : l.pa (pc / 64 * 64) % 64 = 0 := by
  have hsize : 64 ∣ 2 ^ l.size := by
    unfold Leaf.size
    split_ifs
    · exact ⟨2 ^ 24, by norm_num⟩
    · exact ⟨2 ^ 15, by norm_num⟩
    · exact ⟨2 ^ 10, by norm_num⟩
    · exact ⟨2 ^ 6, by norm_num⟩
  refine Nat.mod_eq_zero_of_dvd ((hsize.mul_left _).add ?_)
  exact (Nat.dvd_mod_iff hsize).2 (Nat.dvd_mul_left 64 _)

/-- Neither half of a good line holds an error. -/
theorem State.badData_half {s : State} {line h : Nat} (hline : line % 64 = 0) (hgood : s.badData line 64 = false) (hh : h < 2) :
    s.badData (line + 32 * h) 32 = false := by
  have hpage : (line + 32 * h) / 4096 = line / 4096 := by omega
  unfold State.badData State.eccAt at hgood ⊢
  rw [hpage]
  rw [Bool.or_eq_false_iff] at hgood ⊢
  refine ⟨hgood.1, ?_⟩
  rw [List.any_eq_false] at hgood ⊢
  intro x hx hmeets
  refine hgood.2 x hx ?_
  simp only [Bool.and_eq_true, decide_eq_true_eq] at hmeets ⊢
  omega

theorem State.badData_of_mem {s t : State} (h : t.mem = s.mem) (pa n : Nat) : t.badData pa n = s.badData pa n := by
  unfold State.badData State.eccAt
  rw [h]

theorem State.pick_self {α : Type} [DecidableEq α] (s : State) (a : α) : s.pick a a = (a, s) := if_pos rfl

theorem State.core_pick {α : Type} [DecidableEq α] (s : State) (a b : α) (d : Nat) : (s.pick a b).2.core d = s.core d := by
  unfold State.pick
  split
  · rfl
  · rfl

theorem State.icache_keepTlb (s : State) (d k : Nat) (x : Nat × BitVec 64) (e : Nat) :
    ((s.updCore d fun c => { c with tlb := Sparse.put k x c.tlb }).core e).icache = (s.core e).icache := by
  by_cases he : e = d
  · rw [he, State.core_updCore]
  · rw [State.core_updCore_ne s he]

/-- A translation changes no line that the core holds. -/
theorem State.icache_translate (s : State) (sp : Space) (va d : Nat) :
    ((s.translate sp va).2.core d).icache = (s.core d).icache := by
  unfold State.translate
  dsimp only
  cases Sparse.get? (tlbKey sp.pasid va) (s.core sp.core).tlb with
  | none =>
    dsimp only
    split
    · split
      · rfl
      · exact State.icache_keepTlb ..
    · rfl
  | some x =>
    have hpick := congrArg Core.icache (s.core_pick (.ok ⟨x.2, x.1⟩) (walkFrom s va 3 sp.root) d)
    dsimp only
    split
    · split
      · exact hpick
      · exact (State.icache_keepTlb ..).trans hpick
    · exact hpick

variable {s : State} {sp : Space} {pc : Nat} {l : Leaf}

/-- What a fetch from a good page of local memory needs (R81, R183, R191, R195): the PC is no window address, its page may be
fetched, its line is good, and the core holds nothing older of either. -/
structure Fetchable (s : State) (sp : Space) (pc : Nat) (l : Leaf) : Prop where
  window : isWindow (pc / 64 * 64) = false
  walk : walkFrom s (pc / 64 * 64) 3 sp.root = .ok l
  permit : permit s sp.tdi .fetch l (pc / 64 * 64) = none
  tier : l.tier = 0
  good : s.badData (l.pa (pc / 64 * 64)) 64 = false
  tlb : ∀ x, Sparse.get? (tlbKey sp.pasid (pc / 64 * 64)) (s.core sp.core).tlb = some x → x = (l.lvl, l.pte)
  icache : ∀ x, Sparse.get? (sp.pasid.toNat * 2 ^ 46 + pc / 64) (s.core sp.core).icache = some x →
    x.toNat = s.num (l.pa (pc / 64 * 64)) 64

theorem Fetchable.translate (h : Fetchable s sp pc l) : ∃ t, s.translate sp (pc / 64 * 64) = (.ok l, t) ∧ t.mem = s.mem ∧
    (t.core sp.core).icache = (s.core sp.core).icache := by
  have hheld : (Sparse.get? (tlbKey sp.pasid (pc / 64 * 64)) (s.core sp.core).tlb).getD (l.lvl, l.pte) = (l.lvl, l.pte) := by
    cases hx : Sparse.get? (tlbKey sp.pasid (pc / 64 * 64)) (s.core sp.core).tlb with
    | none => rfl
    | some x => exact h.tlb x hx
  obtain ⟨t, ht, hmem⟩ := State.translate_of_walk h.walk hheld
  refine ⟨t, ht, hmem, ?_⟩
  have hic := s.icache_translate sp (pc / 64 * 64) sp.core
  rwa [ht] at hic

/-- The line as the fetch reads it. -/
theorem Fetchable.codeLine (h : Fetchable s sp pc l) {t : State} (hmem : t.mem = s.mem) :
    (t.codeLine l (pc / 64 * 64)).toNat = s.num (l.pa (pc / 64 * 64)) 64 := by
  have hnum : t.num (l.pa (pc / 64 * 64)) 64 = s.num (l.pa (pc / 64 * 64)) 64 := by
    unfold State.num State.bytes
    rw [hmem]
  have hlt := s.num_lt (l.pa (pc / 64 * 64)) 64
  rw [State.codeLine, if_pos h.tier, BitVec.toNat_ofNat, hnum]
  exact Nat.mod_eq_of_lt hlt

theorem Fetchable.noBad (h : Fetchable s sp pc l) {t : State} (hmem : t.mem = s.mem) :
    [0, 1].filter (fun h => t.badData (l.pa (pc / 64 * 64) + 32 * h) 32) = [] := by
  have hhalf (k : Nat) (hk : k < 2) : t.badData (l.pa (pc / 64 * 64) + 32 * k) 32 = false :=
    (State.badData_of_mem hmem _ _).trans (State.badData_half (l.pa_line pc) h.good hk)
  simp [hhalf 1, show t.badData (l.pa (pc / 64 * 64)) 32 = false from hhalf 0 (by decide)]

theorem exists_line {bs bs' : List Byte} {bad : List Nat} {pa : Nat} {t : State} (hbs : bs = bs') (hbad : bad = []) :
    ∃ u, (Fetch.line bs bad pa, t) = (.line bs' [] pa, u) :=
  ⟨t, by rw [hbs, hbad]⟩

/-- The fetch gives the line's bytes, none of them in error. -/
theorem Fetchable.fetch (h : Fetchable s sp pc l) :
    ∃ u, s.fetch sp pc = (.line (s.bytes (l.pa (pc / 64 * 64)) 64) [] (l.pa (pc / 64 * 64)), u) := by
  obtain ⟨t, ht, hmem, hic⟩ := h.translate
  have hbytes := s.leBytes_num (l.pa (pc / 64 * 64)) 64
  have hline := h.codeLine hmem
  unfold State.fetch
  rw [if_neg (by rw [h.window]; decide)]
  dsimp only
  rw [ht]
  dsimp only
  rw [permit_of_mem hmem, h.permit, Nat.mul_div_cancel _ (by decide), hic]
  dsimp only
  cases hheld : Sparse.get? (sp.pasid.toNat * 2 ^ 46 + pc / 64) (s.core sp.core).icache with
  | none =>
    exact exists_line (hline ▸ hbytes) ((if_neg (by simp [h.tier])).trans (h.noBad hmem))
  | some x =>
    have hx : x = t.codeLine l (pc / 64 * 64) := BitVec.eq_of_toNat_eq ((h.icache x hheld).trans hline.symm)
    simp only [← hx, State.pick_self]
    exact exists_line (h.icache x hheld ▸ hbytes) (if_pos (by simp))

/-! ### What the split's turn comes to -/

section
variable {u : State} {c : Ctx} {bs : List Byte} {pa : Nat} (hrange : pcInRange c.w.id.codeBase c.path.pc.toNat = true)
  (hfetch : s.fetch (c.space s) c.path.pc.toNat = (.line bs [] pa, u))
include hrange hfetch

theorem State.fetchIns_ok {i : Instr} {rest : List Byte} (hdec : decode (bs.drop (c.path.pc.toNat % 64)) = .ok (i, rest)) :
    s.fetchIns c = .ins i u := by
  unfold State.fetchIns
  simp [hrange, hfetch, State.consume, decodeIn, hdec]

theorem State.fetchIns_sysSub (hdec : decode (bs.drop (c.path.pc.toNat % 64)) = .error .sysSub) :
    s.fetchIns c = .stop (u.takeException c false (if c.w.priv then 0x01 else 0x02) c.path.pc 0) := by
  unfold State.fetchIns
  simp only [hrange, hfetch, State.consume, decodeIn, hdec]
  cases c.w.priv with
  | false => exact congrArg FetchedIns.stop (u.raise_of_plain c false _ 0 (by decide) (by decide) (by decide))
  | true => exact congrArg FetchedIns.stop (u.raise_of_plain c false _ 0 (by decide) (by decide) (by decide))

theorem State.fetchIns_illegal {r : Reject} (hr : r ≠ .sysSub) (hdec : decode (bs.drop (c.path.pc.toNat % 64)) = .error r) :
    s.fetchIns c = .stop (u.takeException c false 0x01 c.path.pc 0) := by
  have hraise := congrArg FetchedIns.stop
    (u.raise_of_plain c false (code := Exc.illegal) c.path.pc 0 (by decide) (by decide) (by decide))
  unfold State.fetchIns
  simp only [hrange, hfetch, State.consume, decodeIn, hdec]
  cases r with
  | sysSub => exact absurd rfl hr
  | truncated => exact hraise
  | major => exact hraise
  | form => exact hraise

end

/-- What a turn answers, and the time it has taken. -/
def elapsed : Host.Outcome State Fault Refusal → Host.Outcome State Fault Refusal
  | .next t => .next t.elapse
  | .fault f => .fault f
  | .refused r => .refused r

/-- A turn of the agenda is taken as it stands. -/
theorem step_of_agenda {t : Turn} {ts : List Turn} (h : s.agenda = t :: ts) :
    step s = elapsed (turn { s with agenda := ts } t) := by
  unfold step State.nextTurn
  rw [h]
  dsimp only
  cases turn { s with agenda := ts } t <;> rfl

section
variable {u : State} {a : Who} {c : Ctx} (hissuer : s.issuer a = a) (hctx : s.ctx? a = some c) (hready : c.ready s = true)
include hissuer hctx hready

theorem turn_ins {i : Instr} (hins : s.fetchIns c = .ins i u) : turn s (.issue a) = exec i (u.issuing a) := by
  simp only [turn, issueTurn, hissuer, hctx, hready, hins, if_true]

theorem turn_stop (hstop : s.fetchIns c = .stop u) : turn s (.issue a) = .next (u.issuing a) := by
  simp only [turn, issueTurn, hissuer, hctx, hready, hstop, if_true]

end

/-- Settles O52: the turn of the agenda's split is its fetch and what the fetched bytes decode to. -/
theorem stepRunsDecoded : Obligations.StepRunsDecoded := by
  intro s a ts c l hagenda hissuer hctx hready hrange hwindow sp pc line hwalk hpermit htier hgood htlb hicache
  have hline : Fetchable { s with agenda := ts } sp pc l := ⟨hwindow, hwalk, hpermit, htier, hgood, htlb, hicache⟩
  obtain ⟨u, hfetch⟩ := hline.fetch
  have hu := State.fetches_line hfetch
  have hins {i : Instr} := turn_ins (s := { s with agenda := ts }) (u := u) (i := i) hissuer hctx hready
  have hstop {v : State} := turn_stop (s := { s with agenda := ts }) (u := v) hissuer hctx hready
  have hctx' : u.ctx? a = some c := (hu.ctx? a).trans hctx
  refine ⟨u, hctx', (hu.ready c).trans hready, hu.agenda, hu.mem, hu.kern, hu.host, hu.wave?, rfl, State.ctx?_issuing hctx', ?_⟩
  rw [step_of_agenda hagenda]
  cases hdec : decode ((s.bytes line 64).drop (pc % 64)) with
  | ok x =>
    obtain ⟨i, rest⟩ := x
    dsimp only
    rw [hins (State.fetchIns_ok hrange hfetch hdec)]
    cases exec i (u.issuing a) <;> rfl
  | error r =>
    cases r with
    | sysSub =>
      rw [hstop (State.fetchIns_sysSub hrange hfetch hdec)]
      rfl
    | truncated | major | form =>
      rw [hstop (State.fetchIns_illegal hrange hfetch (by nofun) hdec)]
      rfl

end Machine

end Sys2Proof

end

-- ==== The matrix FIFO; O57 ====
section
/-!
The events of the matrix engine of O57: what stands at the head of the FIFO executes, completes and leaves it (R142 to R146); and
the integer product of two tiles, summed block by block, as one sum (R131).
-/

namespace Sys2Proof

/-! ### Sums modulo 2^w -/

theorem ofInt_cast {w n : Nat} (h : n < 2 ^ w) : ofInt w n = n := by
  rw [ofInt, ← Int.natCast_mod, Int.toNat_natCast, Nat.mod_eq_of_lt h]

theorem cast_ofInt (w : Nat) (i : Int) : (ofInt w i : Int) = i % (2 ^ w : Nat) := by
  have hpos : ((2 ^ w : Nat) : Int) ≠ 0 := by positivity
  exact Int.toNat_of_nonneg (Int.emod_nonneg i hpos)

theorem ofInt_ofInt_add (w : Nat) (i j : Int) : ofInt w ((ofInt w i : Int) + j) = ofInt w (i + j) := by
  rw [cast_ofInt, ofInt, Int.emod_add_emod, ← ofInt]

/-- Terms added one by one, each sum taken modulo 2^w, give the whole sum modulo 2^w. -/
theorem foldl_ofInt {w acc : Nat} (h : acc < 2 ^ w) (f : Nat → Int) (n : Nat) :
    (List.range n).foldl (fun t k => ofInt w ((t : Int) + f k)) acc = ofInt w ((acc : Int) + ((List.range n).map f).sum) := by
  induction n with
  | zero => simp [ofInt_cast h]
  | succ n ih => simp [List.range_succ, ih, ofInt_ofInt_add, add_assoc]

/-- A sum by blocks of b terms. -/
theorem sum_blocks (f : Nat → Int) (b n : Nat) :
    ((List.range n).map fun t => ((List.range b).map fun k => f (b * t + k)).sum).sum = ((List.range (b * n)).map f).sum := by
  induction n with
  | zero => simp
  | succ n ih =>
    rw [List.range_succ, List.map_append, List.sum_append, ih, Nat.mul_succ, List.range_add, List.map_append, List.sum_append]
    simp [Function.comp_def]

namespace Machine

theorem dotInt_eq_sum (xs : List (Nat × Nat)) : dotInt xs = (xs.map fun x => asInt 8 x.1 * asInt 8 x.2).sum := by
  rw [dotInt, List.sum_eq_foldl, List.foldl_map]

/-- An element of a product of signed 8-bit tiles (R131). -/
theorem mmaElem_int8 (zs : Bool) (sa sb : List VReg) (a b i j : Nat) {acc : Nat} (h : acc < 2 ^ 32) :
    mmaElem 11 11 zs sa sb a b i j acc =
      ofInt 32 ((acc : Int) + ((List.range 128).map fun k => asInt 8 (elem 8 k a) * asInt 8 (elem 8 k b)).sum) := by
  rw [← sum_blocks (fun k => asInt 8 (elem 8 k a) * asInt 8 (elem 8 k b)) 32 4, ← foldl_ofInt h]
  simp only [mmaElem, if_true, dotInt_eq_sum, List.map_map]
  rfl

variable {s t : State} {core k : Nat} {x : Cmd}

/-! ### The head of the FIFO -/

/-- What may start at the head of the FIFO is queued there (R142). -/
theorem State.queued_of_fifoHead (h : s.fifoHead core = some x) : (∃ xs, (s.core core).fifo = x :: xs) ∧ x.st = .queued := by
  unfold State.fifoHead at h
  split at h
  · next y ys hfifo =>
    obtain ⟨hmay, hyx⟩ := Option.ite_none_right_eq_some.1 h
    obtain rfl := Option.some.inj hyx
    simp only [Bool.and_eq_true, decide_eq_true_eq] at hmay
    exact ⟨⟨ys, hfifo⟩, hmay.1.1⟩
  · exact absurd h (by simp)

theorem State.head?_of_fifoHead (h : s.fifoHead core = some x) : (s.core core).fifo.head? = some x := by
  obtain ⟨⟨xs, hfifo⟩, -⟩ := State.queued_of_fifoHead h
  rw [hfifo, List.head?_cons]

/-- An entry that runs in one event ends with it (R146). -/
theorem State.entryRun_ok {f : Instr → Option (Nat → State → Except Nat State)} {g : Nat → State → Except Nat State}
    (hx : s.fifoHead core = some x) (hk : s.msetOf core x.poster.blk = some k) (hf : f x.ins = some g) (hg : g k s = .ok t) :
    s.entryRun core f = t.endEntry core x := by
  obtain ⟨⟨xs, hfifo⟩, hst⟩ := State.queued_of_fifoHead hx
  have hnot : ¬ x.st = .counting := by rw [hst]; decide
  simp only [State.entryRun, hfifo, hf, hnot, hx, hk, hg, if_false]

/-! ### The end of an entry -/

/-- Channel dones change channels alone (R148). -/
theorem State.dones_frame (s : State) (core : Nat) (x : Cmd) : (s.dones core x).mem = s.mem ∧ (s.dones core x).host = s.host :=
  List.foldlRecOn (motive := fun t : State => t.mem = s.mem ∧ t.host = s.host) _ _ ⟨rfl, rfl⟩ fun _ ht _ _ => ht

/-- The state without the barrier credits of a command (R145). -/
def State.dropCredits (s : State) (id : Nat) : State :=
  { s with host := { s.host with launches := s.host.launches.map fun l =>
    (l.1, { l.2 with bars := l.2.bars.map fun b => (b.1, { b.2 with credits := b.2.credits.filter fun c => c.2.1 ≠ id }) }) } }

theorem State.credits_dropCredits (s : State) (id : Nat) :
    ∀ l ∈ (s.dropCredits id).host.launches, ∀ b ∈ l.2.bars, ∀ c ∈ b.2.credits, c.2.1 ≠ id := by
  intro l hl b hb c hc
  obtain ⟨l', -, rfl⟩ := List.mem_map.1 hl
  obtain ⟨b', -, rfl⟩ := List.mem_map.1 hb
  exact of_decide_eq_true (List.mem_filter.1 hc).2

/-- An entry without a counter makes its dones, gives up its credits and leaves (R145). -/
theorem State.endEntry_of_noCounter (s : State) (core : Nat) {x : Cmd} {e : Ext}
    (hi : x.ins = .mma e ∨ x.ins = .accz e ∨ x.ins = .accwr e ∨ x.ins = .tilemvLd e ∨ x.ins = .tilemvSt e) (hc : Ext.cmpl e ≠ 2) :
    s.endEntry core x = ((s.dones core x).dropCredits x.id).dropCmd core x.id x.poster.blk := by
  have hcounter : x.counter = (none, 1) := by rcases hi with hi | hi | hi | hi | hi <;> simp [Cmd.counter, hi, hc]
  unfold State.endEntry
  rw [hcounter]
  rcases hi with hi | hi | hi | hi | hi <;> rw [hi] <;> rfl

/-! ### The events -/

theorem Claims.matrixEvents : Claims.MatrixEvents := by
  refine ⟨fun s core x m ty hx hm => ⟨fun hok => ?_, fun a herr => ?_⟩, fun s core x xs m ty k hfifo hm hst hk => ?_,
    fun s core x k e hx hk => ⟨fun hi => ?_, fun hi => ?_, fun d r hd hi hgood => ?_, fun d hd hi hgood => ?_⟩,
    fun s core x e hi hc => ?_, fun zs sa sb a b i j acc h => mmaElem_int8 zs sa sb a b i j h⟩
  · refine congrArg Host.Outcome.next ?_
    simp only [State.mmaExecute, hx, hm, hok]
  · refine congrArg Host.Outcome.next ?_
    simp only [State.mmaExecute, hx, hm, herr]
  · refine congrArg Host.Outcome.next ?_
    simp only [State.mmaComplete, hfifo, hm, hst, hk, reduceCtorEq, if_false, ne_eq, not_true_eq_false]
  · exact congrArg Host.Outcome.next (State.entryRun_ok hx hk (by rw [hi]) rfl)
  · refine congrArg Host.Outcome.next ?_
    rw [State.accwrExecute, State.head?_of_fifoHead hx]
    exact State.entryRun_ok hx hk (by rw [hi]) rfl
  · refine congrArg Host.Outcome.next ?_
    rw [State.tilemvLdExecute, State.head?_of_fifoHead hx]
    refine State.entryRun_ok hx hk (by rw [hi]) ?_
    simp only [hd, Option.getD_some, hgood]
  · refine congrArg Host.Outcome.next ?_
    rw [State.tilemvStExecute, State.head?_of_fifoHead hx]
    refine State.entryRun_ok hx hk (by rw [hi]) ?_
    simp only [List.contains_iff_mem, hgood, if_false, hd]
  · obtain ⟨hmem, hhost⟩ := s.dones_frame core x
    exact ⟨(s.dones core x).dropCredits x.id, rfl, hmem, congrArg (·.blocks) hhost, State.credits_dropCredits _ _,
      s.endEntry_of_noCounter core hi hc⟩

end Machine
end Sys2Proof
end

-- ==== The copy queue and channels; O57 ====
section
/-!
The events of the copy engine and the channels of O57: copies and gathers fire, land and end, a follow-on MMA enters the FIFO,
collectives are written or refused, and a reservation is granted (R148, R152 to R156, R346, R347, R372).
-/

namespace Sys2Proof.Machine

variable {s u v : State} {core n : Nat} {x : Cmd} {e : Ext} {vals : List (Nat × Nat)}

/-! ### Copies and gathers -/

/-- Reads that are all there go on with their data (R152). -/
theorem State.engRead_ok {need : List (Nat × Nat)} {k : List (Nat × Nat) → State → State}
    (h : s.fetchNeed (s.engSpace core x) (engHandle core) (x.id + 2) x.order.2 need = (.ok vals, v)) :
    s.engRead core x need k = k vals v := by
  rw [State.engRead, h]

/-- COPY_FIRE of a copy (R152). -/
theorem exec_copyFire_cpy (hx : s.copyHead core = some x) (hi : x.ins = .cpy e) :
    exec (.copyFire core) s = .next ((if x.order.1 % 2 = 1 then s.acquire core x.order.2 else s).copyRead core x) := by
  refine congrArg Host.Outcome.next ?_
  simp only [hx, hi, State.fire]

/-- GATHER_FIRE (R372). -/
theorem exec_gatherFire (hx : s.copyHead core = some x) (hi : x.ins = .gthr e) :
    exec (.gatherFire core) s = .next ((if x.order.1 % 2 = 1 then s.acquire core x.order.2 else s).gatherRead core x) := by
  refine congrArg Host.Outcome.next ?_
  simp only [hx, hi, State.fire]

/-- The data of a landed command is written, and it goes on to its release (R152, R372). -/
theorem State.completeCopy_of_landed (hst : x.st = .landed) (hland : s.landData core x = .ok u) :
    s.completeCopy core x = u.releaseCmd core x := by
  simp only [State.completeCopy, hst, hland]

/-- FOLLOW_ON_MMA_ENTRY of an MMA that reads tiles alone: no channel is reserved for it (R153). -/
theorem State.followOn_of_written (hroom : (s.core core).fifo.length < 64)
    (hfind : (s.core core).copyq.find? (fun x => x.st == .written && (match x.ins with | .cpy _ => true | _ => false)) = some x)
    (ha : bits (x.scal.getD 1 0).toNat 2 2 = 0) (hb : bits (x.scal.getD 1 0).toNat 6 6 = 0) :
    s.followOn core = ((s.tick.2.updCore core fun k =>
      { k with
        copyq := k.copyq.filter fun z => z.id ≠ x.id
        fifo := k.fifo ++ [{ x with n := s.next, follow := true, st := .queued, resv := [], buf := [] }] }).wakePosts core) := by
  unfold State.followOn
  rw [if_neg (Nat.not_le.2 hroom)]
  split
  · next hnone => exact absurd (hfind.symm.trans hnone) (by simp)
  · next y hy =>
    obtain rfl : x = y := Option.some.inj (hfind.symm.trans hy)
    simp only [ha, hb, Nat.zero_ne_one, or_self, if_false, State.reserveAll, State.tick]

/-! ### Collectives -/

/-- COLL_COMPLETE of a reduction or gather whose results are there writes them (R346). -/
theorem exec_collComplete_written (hx : s.copyCmd core n = some x) (hi : x.ins = .coll e) (hst : x.st = .written)
    (hop : x.collOp ≤ 2) :
    exec (.collComplete core n) s = .next (s.collWrite core x (piecesOf (collOf x.record).dst x.buf)) := by
  refine congrArg Host.Outcome.next ?_
  simp only [hx, hi, State.collComplete, hst, hop, if_true]

/-- A block whose collective has written its result is not idempotent any more. -/
def State.dropIdem (s : State) : Option Nat → State
  | some b => s.updBlock b fun k => { k with idem := false }
  | none => s

/-- The result is written at once where no request is open and no piece needs an answer (R346). -/
theorem State.collWrite_ok {ps : List (Nat × Nat × Nat)}
    (hreqs : ∀ r ∈ s.league.reqs, r.under (engHandle core) (x.id + 2) = false)
    (hstore : s.storePieces (s.engSpace core x) (engHandle core) (x.id + 2) 0 x.order.2 ps = (.ok vals, v)) :
    s.collWrite core x ps = ((v.dropEngReqs (engHandle core) (x.id + 2)).dropIdem x.poster.blk).releaseCmd core x := by
  have hnone : (s.league.reqs.any fun r => r.under (engHandle core) (x.id + 2)) = false := by simpa using hreqs
  cases hb : x.poster.blk <;>
    simp only [State.collWrite, hnone, hstore, hb, State.dropIdem, Bool.false_eq_true, if_false]

/-! ### Waves that wait for a channel -/

/-- The converse of Ctx.waiting_of_waitsIn: a split that could go on with what it waits in waits in it (R248). -/
theorem Ctx.waitsIn_of_waiting {a : Who} {c : Ctx} {i : Instr} (hc : s.ctx? a = some c) (hon : c.path.wait = .on i n)
    (hw : c.waiting = some i) : Claims.WaitsIn s a c i n := by
  have hgo : (c.path.running && !c.path.arrived && c.w.traps == 0 && c.w.halves.all (·.reread.isEmpty)) = true := by
    by_contra hno
    simp [Ctx.waiting, hon, hno] at hw
  simp only [Bool.and_eq_true, Bool.not_eq_true', beq_iff_eq, List.all_eq_true, List.isEmpty_iff] at hgo
  obtain ⟨⟨⟨hrun, harr⟩, htraps⟩, hreread⟩ := hgo
  exact ⟨hc, hon, hrun, harr, htraps, hreread⟩

section
variable {ch : Nat} {k : Chan} {r : Resv} (hk : s.chan? core ch = some k) (hr : k.resv = [r])
include hk hr

/-- A reservation whose room or data is not there waits on (R148). -/
theorem State.grantNext_of_notGrantable (hno : k.grantable r = false) : s.grantNext core ch = s := by
  simp [State.grantNext, hk, hr, hno]

/-- An engine's reservation is marked as granted (R148, R149). -/
theorem State.grantNext_of_engine (hng : r.granted = false) (hw : r.wave = none) (hg : k.grantable r = true) :
    s.grantNext core ch = s.updChan core ch fun k => k.grant r.put r.num := by
  simp [State.grantNext, hk, hr, hng, hw, hg]

/-- A wave's reservation lets the split that waits for it go on with its reserve (R148). -/
theorem State.grantNext_of_waiter {a : Who} (hng : r.granted = false) (hw : r.wave ≠ none) (hg : k.grantable r = true)
    (ha : s.reserveWaiter core k.holder ch r = some a) :
    ∃ f, s.grantNext core ch = s.resume a f ∧ ∀ e, f (.chputRes e) = some (some e, reserveBody (.chputRes e) true e) ∧
      f (.chgetWait e) = some (some e, reserveBody (.chgetWait e) false e) := by
  obtain ⟨l, hl⟩ := Option.ne_none_iff_exists'.1 hw
  simp only [State.grantNext, hk, hr, List.find?_cons, hng, hg, ha, hl, Option.isSome_some, Bool.not_false, Bool.and_self,
    Bool.or_true]
  exact ⟨_, rfl, fun e => ⟨rfl, rfl⟩⟩

end

/-! ### The events -/

theorem Claims.copyEvents : Claims.CopyEvents := by
  refine ⟨fun s v core x e vals hx => ⟨fun hi => ?_, fun hi => ?_⟩, fun s u core n x e hx hst hland => ⟨fun hi => ?_, fun hi => ?_⟩,
    fun s core x hroom hfind ha hb => ?_, fun s v core n x e vals hx hi hst hop hreqs hstore => ?_,
    fun s core n x hx hi hst hop hlanded hdiff => ?_, fun s core ch k r hk hr hng => ⟨fun hno => ?_, fun hw hg => ?_,
      fun a c e n hw hg ha hc => ⟨fun _ hon hwait v hbody => ?_, fun _ hon hwait v hbody => ?_⟩⟩, fun k r hr => ?_⟩
  · intro sh els hgood hfetch
    rw [exec_copyFire_cpy hx hi]
    refine congrArg Host.Outcome.next ?_
    generalize (if x.order.1 % 2 = 1 then s.acquire core x.order.2 else s) = u at hfetch ⊢
    unfold State.copyRead
    dsimp only
    split
    · next a hbad =>
      obtain ⟨el, hel, hsome⟩ := List.exists_of_findSome?_eq_some hbad
      cases el with
      | bad b => exact absurd rfl (hgood _ hel b)
      | at' | zero => exact absurd hsome (by simp)
    · exact State.engRead_ok hfetch
  · intro g idx at' hidx rows vals' v' hrows
    rw [exec_gatherFire hx hi]
    exact congrArg Host.Outcome.next ((State.engRead_ok hidx).trans (State.engRead_ok hrows))
  · refine congrArg Host.Outcome.next ?_
    simp only [hx, hi, State.completeCopy_of_landed hst hland]
  · refine congrArg Host.Outcome.next ?_
    simp only [hx, hi, State.completeCopy_of_landed hst hland]
  · refine ⟨_, congrArg Host.Outcome.next (State.followOn_of_written hroom hfind ha hb), ?_⟩
    rw [State.wakePosts, State.core_updCore, State.core_updCore]
    exact ⟨rfl, rfl⟩
  · rw [exec_collComplete_written hx hi hst hop]
    exact congrArg Host.Outcome.next (State.collWrite_ok hreqs hstore)
  · obtain ⟨e, hi⟩ := hi
    refine congrArg Host.Outcome.next ?_
    simp only [hx, hi, State.collComplete, hst, Nat.not_le.2 hop, hlanded, hdiff, if_false, Bool.and_self, if_true]
    rfl
  · exact congrArg Host.Outcome.next (State.grantNext_of_notGrantable hk hr hno)
  · exact congrArg Host.Outcome.next (State.grantNext_of_engine hk hr hng hw hg)
  · obtain ⟨f, hgrant, hf⟩ := State.grantNext_of_waiter hk hr hng hw hg ha
    exact congrArg Host.Outcome.next
      (hgrant.trans (State.resume_nextR (Ctx.waitsIn_of_waiting hc hon hwait) (hf e).1 hbody))
  · obtain ⟨f, hgrant, hf⟩ := State.grantNext_of_waiter hk hr hng hw hg ha
    exact congrArg Host.Outcome.next
      (hgrant.trans (State.resume_nextR (Ctx.waitsIn_of_waiting hc hon hwait) (hf e).2 hbody))
  · refine ⟨?_, ?_⟩
    · simp [Chan.grant, hr]
    · unfold Chan.grantable Chan.slotOf Chan.per
      cases r.put <;> rfl

/-- Settles O57: each event's function on the command or the reservation that the statement describes. -/
theorem engineEvents : Obligations.EngineEvents := ⟨Claims.matrixEvents, Claims.copyEvents⟩

end Sys2Proof.Machine
end

-- ==== What a posting leaves of its core; O27, O28 ====
section
/-!
What the operations of a posting leave of the core it stands at (R142, R143, R152): a field that none of them writes stays, and
the command enters its queue at the tail.
-/

namespace Sys2Proof.Machine

variable {s t : State}

theorem State.MemOnly.core (h : s.MemOnly t) (d : Nat) : t.core d = s.core d := by obtain ⟨m, n, rfl⟩ := h; rfl

theorem State.releaseBy_memOnly (s : State) (sp : Space) (scope : Nat) : s.MemOnly (s.releaseBy sp scope) :=
  (s.release_memOnly _ _).trans ⟨_, _, rfl⟩

section
variable {β : Type} (g : Core → β)

/-- What an update of a core leaves of it, it leaves of every core. -/
theorem State.core_updCore_of {f : Core → Core} (hf : ∀ k, g (f k) = g k) (s : State) (c d : Nat) :
    g ((s.updCore c f).core d) = g (s.core d) := by
  by_cases hd : d = c
  · rw [hd, State.core_updCore, hf]
  · rw [State.core_updCore_ne s hd]

section
variable (hg : ∀ k ws, g { k with waves := ws } = g k)
include hg

theorem State.core_put (s : State) (c : Ctx) (w : Wave) (d : Nat) : g ((s.put c w).core d) = g (s.core d) :=
  s.core_updCore_of g (fun k => hg k _) _ d

theorem State.core_drainAtomn (s : State) (core slot d : Nat) : g ((s.drainAtomn core slot).core d) = g (s.core d) := by
  have hset (v : State) (w : Wave) : g ((v.setWave core slot w).core d) = g (v.core d) := v.core_updCore_of g (fun k => hg k _) core d
  unfold State.drainAtomn
  split
  · rfl
  · refine (hset _ _).trans (List.foldlRecOn (motive := fun y : State × Wave => g (y.1.core d) = g (s.core d)) _ _ rfl fun y hy x _ => ?_)
    exact (congrArg g ((State.performAtomn_memOnly _ _ x).core d)).trans ((hset _ _).trans hy)

theorem State.core_orderAtomn (s : State) (c : Ctx) (sync : Bool) (ls : List LaneAcc) (n d : Nat) :
    g ((s.orderAtomn c sync ls n).core d) = g (s.core d) := by
  unfold State.orderAtomn
  dsimp only
  split
  · rfl
  · split
    · exact s.core_drainAtomn g hg _ _ d
    · rfl

end

theorem State.core_reserveAll (hg : ∀ k cs, g { k with chans := cs } = g k) (core : Nat) (l : List (Nat × Bool)) (s : State) (d : Nat) :
    g ((s.reserveAll core l).2.core d) = g (s.core d) := by
  induction l generalizing s with
  | nil => rfl
  | cons x l ih =>
    unfold State.reserveAll
    split
    · exact (ih _).trans (s.core_updCore_of g (fun k => hg k _) core d)
    · exact ih s

theorem State.core_setPosted (hg : ∀ k ms, g { k with msets := ms } = g k) (s : State) (core : Nat) (blk : Option Nat) (i : Nat)
    (t : BitVec 4) (d : Nat) : g ((s.setPosted core blk i t).core d) = g (s.core d) := by
  unfold State.setPosted
  split
  · exact s.core_updCore_of g (fun k => hg k _) core d
  · rfl

end

/-! ### Reservations, credits, and the state beside the cores -/

theorem State.mem_reserveAll (core : Nat) (l : List (Nat × Bool)) (s : State) : (s.reserveAll core l).2.mem = s.mem := by
  induction l generalizing s with
  | nil => rfl
  | cons x l ih =>
    unfold State.reserveAll
    split <;> exact ih _

@[simp] theorem State.core_credit (s : State) (c : Ctx) (id n d : Nat) : (s.credit c id n).core d = s.core d := by
  unfold State.credit State.updBar State.updLaunch
  split <;> rfl

@[simp] theorem State.mem_credit (s : State) (c : Ctx) (id n : Nat) : (s.credit c id n).mem = s.mem := by
  unfold State.credit State.updBar State.updLaunch
  split <;> rfl

@[simp] theorem State.mem_setPosted (s : State) (core : Nat) (blk : Option Nat) (i : Nat) (t : BitVec 4) :
    (s.setPosted core blk i t).mem = s.mem := by
  unfold State.setPosted
  split <;> rfl

/-! ### The command -/

/-- The command that an instruction of a split posts. -/
def Ctx.command (c : Ctx) (s : State) (i : Instr) (scal : List (BitVec 64)) (regs : List VReg) (act : Mask) (record : List Byte)
    (resv : List (Nat × Resv)) : Cmd :=
  ⟨s.next, s.next, i, c.path.pc, c.poster s, act, scal, regs, record, resv, .queued, [], false, s.next⟩

section
variable (s : State) (c : Ctx) (i : Instr) (scal : List (BitVec 64)) (regs : List VReg) (act : Mask) (record : List Byte)
  (resv : List (Nat × Resv))

theorem State.fifo_post : ((s.post c true i scal regs act record resv).2.core c.who.core).fifo =
    (s.core c.who.core).fifo ++ [c.command s i scal regs act record resv] :=
  congrArg (·.fifo) (State.core_updCore ..)

theorem State.copyq_post : ((s.post c false i scal regs act record resv).2.core c.who.core).copyq =
    (s.core c.who.core).copyq ++ [c.command s i scal regs act record resv] :=
  congrArg (·.copyq) (State.core_updCore ..)

theorem State.msets_post (fifo : Bool) : ((s.post c fifo i scal regs act record resv).2.core c.who.core).msets =
    (s.core c.who.core).msets := by
  refine (State.core_updCore_of (·.msets) (fun k => ?_) s.tick.2 _ _).trans rfl
  cases fifo <;> rfl

end

/-- The poster of a command rests on the split and on what the core's control registers hold (R249, R460). -/
theorem Ctx.poster_congr (c : Ctx) (h : (t.core c.who.core).ctl = (s.core c.who.core).ctl) : c.poster t = c.poster s := by
  unfold Ctx.poster Ctx.process
  rw [h]

/-! ### Posted tags (R143) -/

theorem findIdx?_updAt {α : Type} {p : α → Bool} {f : α → α} (hp : ∀ a, p (f a) = p a) (n : Nat) (l : List α) :
    (updAt f n l).findIdx? p = l.findIdx? p := by
  induction l generalizing n with
  | nil => cases n <;> rfl
  | cons a l ih => cases n <;> simp [updAt, List.findIdx?_cons, hp, ih]

theorem getD_updAt_self {α : Type} (f : α → α) {n : Nat} {l : List α} (h : n < l.length) (d : α) :
    (updAt f n l).getD n d = f (l.getD n d) := by
  simp [List.getD_eq_getElem?_getD, h]

section
variable {core : Nat} (h : (t.core core).msets = (s.core core).msets)
include h

theorem State.msetOf_congr (blk : Option Nat) : t.msetOf core blk = s.msetOf core blk := by unfold State.msetOf; rw [h]

theorem State.mset_congr (m : Nat) : t.mset core m = s.mset core m := by unfold State.mset; rw [h]

theorem State.postedTag_congr (blk : Option Nat) (k : Nat) : t.postedTag core blk k = s.postedTag core blk k := by
  unfold State.postedTag
  simp only [State.msetOf_congr h, State.mset_congr h]

end

/-- A block's set stands in its core's list. -/
theorem State.lt_of_msetOf {core m : Nat} {blk : Option Nat} (h : s.msetOf core blk = some m) : m < (s.core core).msets.length := by
  unfold State.msetOf at h
  split at h
  · cases h
  · exact (List.findIdx?_eq_some_iff_getElem.mp h).1

theorem State.msets_setPosted {core m : Nat} {blk : Option Nat} (hm : s.msetOf core blk = some m) (k : Nat) (t : BitVec 4) :
    ((s.setPosted core blk k t).core core).msets =
      updAt (fun x => { x with posted := updAt (fun _ => t) k x.posted }) m (s.core core).msets := by
  unfold State.setPosted
  rw [hm]
  exact congrArg (·.msets) (State.core_updCore ..)

/-- A register of a block's set reads the tag posted for it. -/
theorem State.postedTag_setPosted {core m k : Nat} {blk : Option Nat} (hm : s.msetOf core blk = some m)
    (hk : k < (s.mset core m).posted.length) (t : BitVec 4) : (s.setPosted core blk k t).postedTag core blk k = t := by
  have hset : (s.setPosted core blk k t).msetOf core blk = some m := by
    rw [← hm, State.msetOf, State.msets_setPosted hm, findIdx?_updAt (by intro _; rfl)]
    rfl
  have hmset : (s.setPosted core blk k t).mset core m =
      { s.mset core m with posted := updAt (fun _ => t) k (s.mset core m).posted } := by
    rw [State.mset, State.msets_setPosted hm, getD_updAt_self _ (State.lt_of_msetOf hm)]
    rfl
  simp only [State.postedTag, hset, hmset]
  exact getD_updAt_self _ hk _

end Sys2Proof.Machine
end

-- ==== Postings to the matrix FIFO, ACCRD; O27 ====
section
/-!
The matrix instructions complete as their entries enter the FIFO of their core, and ACCRD as it reads its accumulator (R142,
R143, R146, R311).
-/

namespace Sys2Proof.Machine

/-! ### The last steps of a posting -/

/-- The barrier credit of an entry whose completion is a barrier's (R145). -/
def State.credited (s : State) (c : Ctx) (e : Ext) (n : Nat) : State :=
  if Ext.cmpl e = 1 then s.credit c (Ext.barId e) n else s

/-- The tag posted for the register an entry writes (R143). -/
def State.tagPosted (s : State) (c : Ctx) : Option (Nat × BitVec 4) → State
  | some (k, t) => s.setPosted c.who.core c.w.id.blk k t
  | none => s

/-- The descriptors advanced where the instruction asks for it (R141). -/
def State.advanced (s : State) (c : Ctx) (e : Ext) (descs : List Nat) : State :=
  if e.m 13 1 = 1 then s.put c (advance c (s.mine c) descs) else s

section
variable (s : State) (c : Ctx) (e : Ext)

@[simp] theorem State.core_credited (n d : Nat) : (s.credited c e n).core d = s.core d := by unfold credited; split <;> simp
@[simp] theorem State.mem_credited (n : Nat) : (s.credited c e n).mem = s.mem := by unfold credited; split <;> simp

@[simp] theorem State.fifo_tagPosted (tag : Option (Nat × BitVec 4)) (d : Nat) :
    ((s.tagPosted c tag).core d).fifo = (s.core d).fifo := by
  cases tag with
  | none => rfl
  | some x => exact s.core_setPosted (·.fifo) (fun _ _ => rfl) ..
@[simp] theorem State.mem_tagPosted (tag : Option (Nat × BitVec 4)) : (s.tagPosted c tag).mem = s.mem := by
  cases tag with
  | none => rfl
  | some x => exact s.mem_setPosted ..

theorem State.core_advanced {β : Type} (g : Core → β) (hg : ∀ k ws, g { k with waves := ws } = g k) (descs : List Nat) (d : Nat) :
    g ((s.advanced c e descs).core d) = g (s.core d) := by
  unfold State.advanced
  split
  · exact s.core_put g hg ..
  · rfl
@[simp] theorem State.mem_advanced (descs : List Nat) : (s.advanced c e descs).mem = s.mem := by unfold advanced; split <;> rfl

end

/-! ### Entries -/

/-- The reservations that an entry makes for its channel operands (R149). -/
def State.reserved (s : State) (c : Ctx) (descs : List Nat) (put : Bool) : List (Nat × Resv) × State :=
  s.reserveAll c.who.core (descs.filterMap fun d =>
    ((descOf (c.sVal d).toNat (c.sVal (d + 1)).toNat).bind (·.chan)).map fun ch => (ch, put))

section
variable {i : Instr} {e : Ext} {descs : List Nat} {put : Bool} {scal : List (BitVec 64)} {regs : List VReg} {act : Mask}
  {tag : Option (Nat × BitVec 4)} {c : Ctx} {s : State} (hdescs : ∀ d ∈ descs, s.descFault c d = none)
  (hcmpl : s.cmplFault c e = none)
include hdescs hcmpl

theorem postFault_none : ((descs.findSome? (s.descFault c)).orElse fun _ => s.cmplFault c e) = none := by
  rw [List.findSome?_eq_none_iff.mpr hdescs, hcmpl]
  rfl

/-- A posting waits while the FIFO holds 64 entries (R142). -/
theorem postFifo_full (hfull : 64 ≤ (s.core c.who.core).fifo.length) :
    postFifo i e descs put scal regs act tag c s = .wait (s.waitOn c i) := by
  simp only [postFifo, postFault_none hdescs hcmpl, if_pos hfull]

/-- A posting reserves its channels, enters the FIFO, and takes its last steps (R142, R143). -/
theorem postFifo_room (hroom : (s.core c.who.core).fifo.length < 64) :
    postFifo i e descs put scal regs act tag c s = .nextR (
      let r := s.reserved c descs put
      let p := r.2.post c true i scal regs act [] r.1
      ((p.2.credited c e p.1).tagPosted c tag).advanced c e descs) := by
  simp only [postFifo, postFault_none hdescs hcmpl, if_neg (Nat.not_le.2 hroom)]
  rfl

/-- The entry stands at the FIFO's tail, and the register it will write has its tag posted (R142, R143). -/
theorem postFifo_enters (hroom : (s.core c.who.core).fifo.length < 64) :
    ∃ u y, postFifo i e descs put scal regs act tag c s = .nextR u ∧
      (u.core c.who.core).fifo = (s.core c.who.core).fifo ++ [y] ∧ y.ins = i ∧ y.pc = c.path.pc ∧ y.poster = c.poster s ∧
      y.act = act ∧ y.st = .queued ∧ u.mem = s.mem ∧
      ∀ k t m, tag = some (k, t) → s.msetOf c.who.core c.w.id.blk = some m → k < (s.mset c.who.core m).posted.length →
        u.postedTag c.who.core c.w.id.blk k = t := by
  have hreserved {β : Type} (g : Core → β) (hg : ∀ k cs, g { k with chans := cs } = g k) :
      g ((s.reserved c descs put).2.core c.who.core) = g (s.core c.who.core) := State.core_reserveAll g hg ..
  refine ⟨_, c.command (s.reserved c descs put).2 i scal regs act [] (s.reserved c descs put).1,
    postFifo_room hdescs hcmpl hroom, ?_, rfl, rfl, c.poster_congr (hreserved (·.ctl) fun _ _ => rfl), rfl, rfl, ?_, ?_⟩
  · dsimp only
    rw [State.core_advanced (g := (·.fifo)) (hg := fun _ _ => rfl), State.fifo_tagPosted, State.core_credited, State.fifo_post,
      hreserved (·.fifo) fun _ _ => rfl]
  · dsimp only
    rw [State.mem_advanced, State.mem_tagPosted, State.mem_credited]
    exact State.mem_reserveAll ..
  · rintro k t m rfl hm hk
    set r := s.reserved c descs put
    set p := r.2.post c true i scal regs act [] r.1
    have hmsets : ((p.2.credited c e p.1).core c.who.core).msets = (s.core c.who.core).msets := by
      rw [State.core_credited, State.msets_post, hreserved (·.msets) fun _ _ => rfl]
    dsimp only
    rw [State.postedTag_congr (State.core_advanced _ c e (·.msets) (fun _ _ => rfl) descs _)]
    refine State.postedTag_setPosted ((State.msetOf_congr hmsets _).trans hm) ?_ t
    rwa [State.mset_congr hmsets]

end

/-! ### The instructions -/

/-- A posting to the FIFO checks its operands, and with a lane it posts its entry (R138, R142). -/
theorem exec_postOf {i : Instr} {x : Claims.Post} (h : Claims.postOf i = some x) :
    ∃ (put : Bool) (scal : Ctx → List (BitVec 64)) (regs : Ctx → List VReg),
      exec i = runWave i (some x.ext) fun c s => withOps s (x.ops s c) <|
      if c.active x.ext.pg x.ext.pn = 0 then .next s
      else postFifo i x.ext x.descs put (scal c) (regs c) (c.active x.ext.pg x.ext.pn) (x.tag c) c s := by
  unfold Claims.postOf at h
  split at h <;> cases h
  all_goals exact ⟨_, _, _, rfl⟩

/-- A posting without a lane only advances; one with a lane waits at a full FIFO, and enters one with room (R142). -/
theorem exec_posting {i : Instr} {x : Claims.Post} {s : State} {c : Ctx} (h : Claims.postOf i = some x)
    (hi : Issues i (some x.ext) s c) :
    let s₀ := s.put c c.w
    let core := c.who.core
    checkOps (x.ops s₀ c) = none →
    (c.active x.ext.pg x.ext.pn = 0 → exec i s = .next (ended i (some x.ext) c s s₀)) ∧
    (c.active x.ext.pg x.ext.pn ≠ 0 → (∀ d ∈ x.descs, s₀.descFault c d = none) → s₀.cmplFault c x.ext = none →
      (64 ≤ (s₀.core core).fifo.length → exec i s = .next (s₀.waitOn c i)) ∧
      ((s₀.core core).fifo.length < 64 → ∃ u y, exec i s = .next (endedRegion i (some x.ext) c s u) ∧
        (u.core core).fifo = (s₀.core core).fifo ++ [y] ∧ y.ins = i ∧ y.pc = c.path.pc ∧ y.poster = c.poster s₀ ∧
        y.act = c.active x.ext.pg x.ext.pn ∧ y.st = .queued ∧ u.mem = s.mem ∧
        ∀ k t m, x.tag c = some (k, t) → s₀.msetOf core c.w.id.blk = some m → k < (s₀.mset core m).posted.length →
          u.postedTag core c.w.id.blk k = t)) := by
  intro s₀ core hops
  obtain ⟨put, scal, regs, hexec⟩ := exec_postOf h
  rw [hexec]
  refine ⟨fun hact => runWave_next hi ?_, fun hact hdescs hcmpl => ⟨fun hfull => runWave_wait hi ?_, fun hroom => ?_⟩⟩
  · rw [withOps_ok hops, if_pos hact]
  · rw [withOps_ok hops, if_neg hact]
    exact postFifo_full hdescs hcmpl hfull
  · obtain ⟨u, y, hbody, hentry⟩ := postFifo_enters (i := i) (put := put) (scal := scal c) (regs := regs c)
      (act := c.active x.ext.pg x.ext.pn) (tag := x.tag c) hdescs hcmpl hroom
    exact ⟨u, y, runWave_nextR hi (by rw [withOps_ok hops, if_neg hact]; exact hbody), hentry⟩

/-- ACCRD reads the row of an accumulator that no entry of its block still names (R146, R311). -/
theorem accrdBody_read {e : Ext} {c : Ctx} {s : State}
    (hops : checkOps [(vRun c.w e.d9.toNat 2 2 fun _ => true).dst, rowOk c e.lit e.a9.toNat, msetOk s c true] = none)
    (hact : c.active e.pg e.pn ≠ 0)
    (hfree : ∀ x ∈ (s.core c.who.core).fifo, x.poster.blk = c.w.id.blk → x.namesAcc (e.m 0 2) = false) :
    let m := s.mset c.who.core ((s.msetOf c.who.core c.w.id.blk).getD 0)
    8 + e.m 0 2 ∉ m.bad →
    let row := (c.uVal e.lit 8 e.a9.toNat).toNat
    let col (j : Nat) : Nat := (Sparse.get 0 m.accs (16384 * e.m 0 2 + 128 * row + j)).toNat
    let t := m.tags.getD (8 + e.m 0 2) 0
    let w := (s.mine c).setV e.d9.toNat ⟨blend (c.active e.pg e.pn) ((s.mine c).v e.d9.toNat).data fun l => col l, t⟩
    accrdBody e c s = .next (s.put c
      (w.setV (e.d9.toNat + 1) ⟨blend (c.active e.pg e.pn) (w.v (e.d9.toNat + 1)).data fun l => col (64 + l), t⟩)) := by
  intro m hgood row col t w
  have hnone (upto : Nat) : ((s.core c.who.core).fifo.any fun x =>
      x.poster.blk == c.w.id.blk && x.namesAcc (e.m 0 2) && decide (x.n < upto)) = false := by
    refine List.any_eq_false.mpr fun x hx => ?_
    by_cases hblk : x.poster.blk = c.w.id.blk
    · simp [hfree x hx hblk]
    · simp [hblk]
  have hbad : m.bad.contains (8 + e.m 0 2) = false := by simpa using hgood
  simp only [accrdBody, withOps_ok hops, if_neg hact, hnone, Bool.false_eq_true, if_false]
  rw [if_neg (by rw [hbad]; exact Bool.false_ne_true)]

/-- Settles O27: the posting of each matrix instruction, and the body of ACCRD. -/
theorem matrixInstructionsComplete : Obligations.MatrixInstructionsComplete := by
  refine ⟨fun i x s c hx hi => exec_posting hx hi, fun e s c hi hops => ⟨fun hact => ?_, fun hact hfree hgood => ?_⟩⟩
  · refine runWave_next hi ?_
    unfold accrdBody
    rw [withOps_ok hops, if_pos hact]
  · have hfifo : ((s.put c c.w).core c.who.core).fifo = (s.core c.who.core).fifo := s.core_put (·.fifo) (fun _ _ => rfl) ..
    have hbody := accrdBody_read hops hact (by rwa [hfifo]) hgood
    dsimp only at hbody ⊢
    rw [State.mine_put, State.put_put] at hbody
    exact runWave_next hi hbody

end Sys2Proof.Machine
end

-- ==== What the reads and the release of a posting leave; O28 ====
section
/-!
The records read at a posting, its release and the requests it gives up leave the copy queue, and no request of its wave is
opened where they are all there (R152, R155, R156, R212, R278).
-/

namespace Sys2Proof.Machine

variable {s t : State}

/-! ### Requests -/

theorem State.hasReqs_congr (h : t.league = s.league) (handle : BitVec 32) : t.hasReqs handle = s.hasReqs handle := by
  unfold State.hasReqs
  rw [h]

theorem State.trySend_reqs (s : State) (p : Packet) : (s.trySend p).league.reqs = s.league.reqs := by
  unfold State.trySend State.send
  cases s.planeFor (Packet.want p) <;> rfl

theorem State.trySend_core (s : State) (p : Packet) (d : Nat) : (s.trySend p).core d = s.core d := by
  unfold State.trySend State.send
  cases s.planeFor (Packet.want p) <;> rfl

/-- A request left when some are given up is one of before, as open as it was. -/
theorem State.giveUp_open {p : Req → Bool} {q : Req} (hq : q ∈ (s.giveUp p).league.reqs) :
    ∃ r ∈ s.league.reqs, q.handle = r.handle ∧ q.answer = r.answer ∧ q.suspended = r.suspended := by
  have hwithdraw {r : Req} (hr : r ∈ (s.withdraw p).league.reqs) :
      ∃ r' ∈ s.league.reqs, r.handle = r'.handle ∧ r.answer = r'.answer ∧ r.suspended = r'.suspended := by
    unfold State.withdraw at hr
    dsimp only at hr
    rw [List.foldlRecOn (motive := fun t : State => t.league.reqs = _) _ _ rfl fun t ht x _ => (t.trySend_reqs _).trans ht] at hr
    obtain ⟨r', hr', rfl⟩ := List.mem_map.mp hr
    refine ⟨r', hr', ?_⟩
    split <;> exact ⟨rfl, rfl, rfl⟩
  unfold State.giveUp at hq
  obtain ⟨r, hr, hleft⟩ := List.mem_filterMap.mp hq
  obtain ⟨r', hr', hnames⟩ := hwithdraw hr
  refine ⟨r', hr', ?_⟩
  split_ifs at hleft
  · cases hleft; exact hnames
  · cases hleft; exact hnames

/-- A wave whose requests are all answered has none open once some are given up. -/
theorem State.hasReqs_giveUp {handle : BitVec 32} (h : s.hasReqs handle = false) (p : Req → Bool) :
    (s.giveUp p).hasReqs handle = false := by
  refine List.any_eq_false.mpr fun q hq => ?_
  obtain ⟨r, hr, hhandle, hanswer, hsuspended⟩ := State.giveUp_open hq
  rw [hhandle, hanswer, hsuspended]
  exact List.any_eq_false.mp h r hr

@[simp] theorem State.core_giveUp (s : State) (p : Req → Bool) (d : Nat) : (s.giveUp p).core d = s.core d := by
  have hwithdraw : (s.withdraw p).core d = s.core d :=
    List.foldlRecOn (motive := fun t : State => t.core d = s.core d) _ _ rfl fun t ht x _ => (t.trySend_core _ d).trans ht
  exact hwithdraw

theorem State.hasReqs_dropEngReqs {handle : BitVec 32} (h : s.hasReqs handle = false) (from' : BitVec 32) (half : Nat) :
    (s.dropEngReqs from' half).hasReqs handle = false := State.hasReqs_giveUp h _

@[simp] theorem State.core_dropEngReqs (s : State) (h : BitVec 32) (half d : Nat) : (s.dropEngReqs h half).core d = s.core d :=
  s.core_giveUp _ d

/-! ### Reads -/

@[simp] theorem State.orderAtomn_league (s : State) (c : Ctx) (sync : Bool) (ls : List LaneAcc) (n : Nat) :
    (s.orderAtomn c sync ls n).league = s.league := by
  unfold State.orderAtomn
  dsimp only
  split
  · rfl
  · split
    · exact s.drainAtomn_league _ _
    · rfl

@[simp] theorem translateLanes_league (s : State) (sp : Space) (o : MemOp) (ls : List LaneAcc) :
    (translateLanes s sp o ls).2.league = s.league := by
  induction ls generalizing s with
  | nil => rfl
  | cons a ls ih =>
    have hnext := (ih (s.translate sp a.va).2).trans (s.fetches_translate sp a.va).league
    unfold translateLanes
    generalize s.translate sp a.va = x at hnext ⊢
    obtain ⟨r, u⟩ := x
    dsimp only at hnext ⊢
    split
    · exact hnext
    · exact hnext
    · exact hnext
    · split <;> exact hnext

@[simp] theorem State.openRecord_league (s : State) (sp : Space) (a : Acc) (va lvl : Nat) :
    (s.openRecord sp a va lvl).2.league = s.league := by
  unfold State.openRecord
  dsimp only
  split
  · rfl
  · split
    · rfl
    · split <;> rfl

@[simp] theorem State.openRecords_league (s : State) (sp : Space) (a : Acc) (ms : List (Nat × Nat)) :
    (s.openRecords sp a ms).2.2.league = s.league := by
  induction ms generalizing s with
  | nil => rfl
  | cons m ms ih =>
    have hnext := (ih (s.openRecord sp a m.1 m.2).2).trans (s.openRecord_league sp a m.1 m.2)
    unfold State.openRecords
    dsimp only
    split <;> exact hnext

theorem performAll_memOnly (s : State) (sp : Space) (o : MemOp) (ts : List LaneTr) : s.MemOnly (performAll s sp o ts).2 := by
  induction ts generalizing s with
  | nil => exact .refl s
  | cons t ts ih => exact (performLane_memOnly s sp o t).trans (ih _)

/-- Values of peers that are all there were asked for before. -/
theorem State.peerVals_ok {h : BitVec 32} {half : Nat} {inst : LaneTr → Option Nat} {o : MemOp} {ts : List LaneTr}
    {vs : List (Nat × Nat)} (hok : s.peerVals h half inst o ts = (.ok vs, t)) : t = s := by
  induction ts generalizing vs t with
  | nil => exact (Prod.mk.inj hok).2.symm
  | cons x ts ih =>
    unfold State.peerVals at hok
    dsimp only at hok
    split at hok
    · exact absurd (Prod.mk.inj hok).1 (by simp)
    · generalize hrest : s.peerVals h half inst o ts = y at hok
      obtain ⟨f, u⟩ := y
      dsimp only at hok
      split at hok
      · cases hok
      · cases hok
      · split at hok
        · cases hok
        · split at hok
          · exact (Prod.mk.inj hok).2.symm.trans (ih hrest)
          · next hno => exact absurd (Prod.mk.inj hok).1 (hno vs)

/-- A read at a posting that finds all its data asks the League for nothing. -/
theorem State.fetchNeed_ok_league {sp : Space} {h : BitVec 32} {half scope : Nat} {need vals : List (Nat × Nat)}
    (hok : s.fetchNeed sp h half scope need = (.ok vals, t)) : t.league = s.league := by
  unfold State.fetchNeed at hok
  dsimp only at hok
  split at hok
  · cases hok
  · split at hok
    · cases hok
    · split at hok
      · cases hok
      · split at hok
        · next vs u hpeers =>
          obtain rfl := State.peerVals_ok hpeers
          rw [← (Prod.mk.inj hok).2, (performAll_memOnly _ _ _ _).league, State.openRecords_league, translateLanes_league]
        · cases hok
        · next hno _ => exact absurd hok (hno vals t)

theorem Claims.posted_ok_league {c : Ctx} {scope : Nat} {need vals : List (Nat × Nat)}
    (hok : Claims.posted c scope need s = (.ok vals, t)) : t.league = s.league := by
  refine (State.fetchNeed_ok_league hok).trans ?_
  exact List.foldlRecOn (motive := fun u : State => u.league = s.league) _ _ rfl fun u hu x _ =>
    (u.orderAtomn_league ..).trans hu

/-- A wave without open requests still has none once its posting has read what it needs. -/
theorem Claims.posted_quiet {c : Ctx} {scope : Nat} {need vals : List (Nat × Nat)} {handle : BitVec 32} {p : Prop}
    (hok : Claims.posted c scope need s = (.ok vals, t)) (h : p → s.hasReqs handle = false) : p → t.hasReqs handle = false :=
  fun hp => (State.hasReqs_congr (Claims.posted_ok_league hok) handle).trans (h hp)

end Sys2Proof.Machine
end

-- ==== Postings to the copy queue; O28 ====
section
/-!
CPY, GTHR and COLL complete as their commands enter the copy queue of their core (R152, R155, R156, R212, R285).
-/

namespace Sys2Proof.Machine

variable {e : Ext} {i : Instr} {c : Ctx} {s t u v : State} {queue : List Cmd}

/-! ### The release and the entry -/

/-- A posting's release where its ORD asks for one (R206, R212). -/
def State.postReleased (s : State) (c : Ctx) (e : Ext) : State :=
  if e.m 0 2 % 2 = 1 then ((s.orderAtomn c true [] 0).releaseBy (c.space s) (e.m 2 3)).bumpSfr c else s

@[simp] theorem State.copyq_postReleased (s : State) (c : Ctx) (e : Ext) (d : Nat) :
    ((s.postReleased c e).core d).copyq = (s.core d).copyq := by
  unfold State.postReleased
  split
  · refine (State.core_updWave (·.copyq) (fun _ _ => rfl) ..).trans ?_
    rw [(State.releaseBy_memOnly _ _ _).core]
    exact s.core_orderAtomn (·.copyq) (fun _ _ => rfl) ..
  · rfl

/-- A command's reservation of the channel it writes to is made behind its release (R149). -/
theorem State.copyq_released_reserveAll (s : State) (c : Ctx) (e : Ext) (l : List (Nat × Bool)) :
    (((s.postReleased c e).reserveAll c.who.core l).2.core c.who.core).copyq = (s.core c.who.core).copyq := by
  rw [State.core_reserveAll (·.copyq) (fun _ _ => rfl), State.copyq_postReleased]

/-- The credit and the posted tag of a follow-on MMA are no command (R153). -/
theorem State.copyq_follow (s : State) (c : Ctx) (p q : Prop) [Decidable p] [Decidable q] (id n : Nat) (blk : Option Nat) (k : Nat)
    (t : BitVec 4) (core : Nat) :
    ((if p then (if q then s.credit c id n else s).setPosted core blk k t else if q then s.credit c id n else s).core core).copyq =
      (s.core core).copyq := by
  have hcredit : (if q then s.credit c id n else s).core core = s.core core := by
    split
    · exact s.core_credit ..
    · rfl
  split
  · rw [State.core_setPosted (·.copyq) (fun _ _ => rfl), hcredit]
  · rw [hcredit]

/-- A release whose wave has no request open does not wait (R206, R212). -/
theorem quietly_ok {p : Prop} [Decidable p] (h : p → s.hasReqs c.w.id.handle = false) (r : Res) :
    (if p then quietly c s else id) r = r := by
  split
  · next hp => rw [quietly, h hp]; rfl
  · rfl

/-- A body that completes, closes its region, and has put the instruction's command at the tail of the copy queue. -/
def Res.Enters (c : Ctx) (i : Instr) (queue : List Cmd) (r : Res) : Prop :=
  ∃ u y, r = .nextR u ∧ (u.core c.who.core).copyq = queue ++ [y] ∧ y.ins = i ∧ y.pc = c.path.pc ∧ y.st = .queued

/-- What is posted to a queue and is left in it has entered it. -/
theorem Res.Enters.of_post (hv : (v.core c.who.core).copyq = queue) {scal : List (BitVec 64)} {regs : List VReg} {act : Mask}
    {record : List Byte} {resv : List (Nat × Resv)}
    (hu : (u.core c.who.core).copyq = ((v.post c false i scal regs act record resv).2.core c.who.core).copyq) :
    Res.Enters c i queue (.nextR u) :=
  ⟨u, _, rfl, by rw [hu, State.copyq_post, hv], rfl, rfl, rfl⟩

/-- An instruction whose body enters its command completes. -/
theorem Res.Enters.exec {body : Ctx → State → Res} (h : Res.Enters c i queue (body c (s.put c c.w))) (hi : Issues i (some e) s c) :
    ∃ u y, runWave i (some e) body s = .next (endedRegion i (some e) c s u) ∧ (u.core c.who.core).copyq = queue ++ [y] ∧
      y.ins = i ∧ y.pc = c.path.pc ∧ y.st = .queued := by
  obtain ⟨u, y, hbody, hentry⟩ := h
  exact ⟨u, y, runWave_nextR hi hbody, hentry⟩

/-! ### GTHR -/

theorem gthrBody_enters
    (hops : checkOps [descOk c e.d9.toNat, sRun c e.a9.toNat, sRun c e.b9.toNat, sRun c e.c9.toNat] = none)
    (hact : c.act true e.pg e.pn ≠ 0) (hroom : (s.core c.who.core).copyq.length < 32)
    (hquiet : e.m 0 2 % 2 = 1 → s.hasReqs c.w.id.handle = false) :
    let dst := (c.sVal e.d9.toNat).toNat
    let (n, r, stride) := gthrShape (c.sVal e.c9.toNat).toNat
    (c.sVal e.b9.toNat).toNat % 4 = 0 → (c.sVal (e.d9.toNat + 1)).toNat % 8 = 0 → 1 ≤ n → n ≤ 2048 → 16 ≤ r → r ≤ 4096 →
    stride % 16 = 0 → destFault s c (e.m 7 2) (e.m 9 4) dst (n * r) = none →
    (e.m 7 2 = 3 → bits dst 51 44 = 0xFF ∧ dst < 2 ^ 52 ∧ ∀ k, k < n * r → (s.window c.w.id.proc (dst + k)).isSome = true) →
    Res.Enters c (.gthr e) (s.core c.who.core).copyq (gthrBody e c s) := by
  intro dst
  generalize hshape : gthrShape (c.sVal e.c9.toNat).toNat = shape
  obtain ⟨n, r, stride⟩ := shape
  intro hlist hcnt hn hn' hr hr' hstride hdest hwindow
  have hkind : ¬ (decide (e.m 7 2 = 3) && decide (bits dst 51 44 ≠ 0xFF)) = true := by
    simp only [Bool.and_eq_true, decide_eq_true_eq, not_and, not_not]
    exact fun hk => (hwindow hk).1
  have hgeometry : ¬ (n < 1 ∨ 2048 < n ∨ r < 16 ∨ 4096 < r ∨ stride % 16 ≠ 0) := by omega
  have hplace : ¬ (decide (e.m 7 2 = 3) && (decide (dst ≥ 2 ^ 52) ||
      (List.range (n * r)).any fun k => (s.window c.w.id.proc (dst + k)).isNone)) = true := by
    simp only [Bool.and_eq_true, Bool.or_eq_true, decide_eq_true_eq, List.any_eq_true, List.mem_range, Option.isNone_iff_eq_none,
      not_and, not_or, not_exists]
    intro hk
    obtain ⟨-, hlt, hall⟩ := hwindow hk
    exact ⟨Nat.not_le.2 hlt, fun k hk hnone => by simpa [hnone] using hall k hk⟩
  unfold gthrBody
  dsimp only
  rw [withOps_ok hops, if_neg hact, if_neg (Nat.not_le.2 hroom), hshape]
  dsimp only
  rw [if_neg hkind, if_neg (not_not.2 hlist), if_neg (not_not.2 hcnt), if_neg hgeometry, hdest]
  dsimp only
  rw [if_neg hplace, quietly_ok hquiet]
  exact .of_post (s.copyq_released_reserveAll c e _) rfl

/-! ### CPY -/

theorem cpyBody_enters {vals : List (Nat × Nat)} (hquiet : e.m 0 2 % 2 = 1 → s.hasReqs c.w.id.handle = false)
    (hops : checkOps [if e.m 13 1 = 1 then descOk c e.d9.toNat else sRun c e.d9.toNat, sRun c e.a9.toNat,
      destOk c (e.m 7 2) e.b9.toNat, sRun c e.c9.toNat, sRun c (e.c9.toNat + 1), sRun c (e.c9.toNat + 2),
      if e.m 7 2 = 2 then msetOk s c true else OpOk.yes] = none)
    (hact : c.act true e.pg e.pn ≠ 0) (hroom : (s.core c.who.core).copyq.length < 32) :
    let rec' := (c.sVal e.a9.toNat).toNat
    let desc := (c.sVal (e.d9.toNat + 1)).toNat
    rec' % 64 = 0 → (c.sVal e.d9.toNat).toNat % 8 = 0 →
    Claims.posted c (e.m 2 3) [(rec', 64)] s = (.ok vals, v) →
    let v := v.dropEngReqs c.w.id.handle (c.who.half + 2)
    let r := granBytes vals rec' 64
    let h := shapeOf r
    shapeOk r = true → bits (c.sVal (e.c9.toNat + 2)).toNat 63 32 = 0 →
    (e.m 7 2 = 2 → h.bytes = 16384 ∧ h.row = 128 ∧ h.swz = 0) →
    destFault v c (e.m 7 2) (e.m 9 4) (c.sOr e.b9.toNat).toNat h.bytes = none →
    (e.m 13 1 = 1 → followOk (e.m 7 2) desc = true ∧ (bits desc 15 14 = 1 → (v.barRef c (bits desc 36 29)).isSome = true) ∧
      (bits desc 2 2 = 1 ∨ bits desc 6 6 = 1 → ∃ k, v.heldChan c (e.m 9 4) = some k ∧ 16384 ≤ k.size) ∧
      checkOps (followOps v c desc) = none) →
    (v.core c.who.core).copyq = queue → Res.Enters c (.cpy e) queue (cpyBody e c s) := by
  intro rec' desc halign hcnt hposted v r h hshape hcoord htile hdest hfollow hqueue
  have hrecord : ¬ (!shapeOk r || decide (bits (c.sVal (e.c9.toNat + 2)).toNat 63 32 ≠ 0) ||
      e.m 7 2 == 2 && !(h.bytes == 16384 && h.row == 128 && h.swz == 0)) = true := by
    simpa [hshape, hcoord, and_assoc] using htile
  have hlayout : ¬ (e.m 13 1 == 1 && !followOk (e.m 7 2) desc) = true := by
    simpa using fun hfol => (hfollow hfol).1
  have hfollowOps : checkOps (if (e.m 13 1 == 1) = true then followOps v c desc else []) = none := by
    split
    · next hfol => exact (hfollow (beq_iff_eq.1 hfol)).2.2.2
    · rfl
  have hslot : ¬ (e.m 13 1 == 1 && (bits desc 2 2 == 1 || bits desc 6 6 == 1) &&
      decide (((v.heldChan c (e.m 9 4)).map (·.size)).getD 0 < 16384)) = true := by
    simp only [Bool.and_eq_true, Bool.or_eq_true, beq_iff_eq, decide_eq_true_eq, not_and, and_imp, Nat.not_lt]
    intro hfol hchan
    obtain ⟨k, hheld, hsize⟩ := (hfollow hfol).2.2.1 hchan
    simpa [hheld] using hsize
  have hbar : ¬ (e.m 13 1 == 1 && bits desc 15 14 == 1 && (v.barRef c (bits desc 36 29)).isNone) = true := by
    simp only [Bool.and_eq_true, beq_iff_eq, not_and, and_imp, Bool.not_eq_true, Option.isNone_eq_false_iff]
    exact fun hfol hcmpl => (hfollow hfol).2.1 hcmpl
  have hquiet' : e.m 0 2 % 2 = 1 → v.hasReqs c.w.id.handle = false := fun hord =>
    State.hasReqs_dropEngReqs (Claims.posted_quiet hposted hquiet hord) _ _
  unfold cpyBody
  dsimp only
  simp only [← beq_iff_eq (a := e.m 13 1)] at hops
  rw [withOps_ok hops, if_neg hact, if_neg (Nat.not_le.2 hroom), if_neg (not_not.2 halign), if_neg (not_not.2 hcnt),
    postRead_of_posted hposted]
  rw [if_neg hrecord, hdest]
  dsimp only
  rw [if_neg hlayout, withOps_ok hfollowOps, if_neg hslot, if_neg hbar, quietly_ok hquiet']
  exact .of_post ((v.copyq_released_reserveAll c e _).trans hqueue) (State.copyq_follow ..)

/-! ### COLL -/

/-- The side cache with other entries. -/
def State.withSide (s : State) (side : List Side) : State := { s with league := { s.league with side := side } }

theorem State.core_withSide (s : State) (side : List Side) (d : Nat) : (s.withSide side).core d = s.core d := rfl

/-- A collective that has passed its checks enters the queue, and the side cache takes its entries (R285). -/
def collEnter (e : Ext) (c : Ctx) (ident : Nat) (record : List Byte) (side : List Side) (s : State) : Res :=
  let s := s.dropEngReqs c.w.id.handle (c.who.half + 2)
  (if e.m 0 2 % 2 = 1 then quietly c s else id) <|
  let p := (s.postReleased c e).post c false (.coll e)
    [c.sVal e.d9.toNat, 0, c.sVal e.a9.toNat, 0, 0, 0, 0, 0, 0] [] allLanes record []
  let new := side.map fun x => { x with ord := p.1 }
  let kept := evictSide ident (c.process p.2) (p.2.league.side.length + new.length - 8192) p.2.league.side
  .nextR (p.2.withSide ((kept ++ new).take 8192))

theorem collEnter_enters (hquiet : e.m 0 2 % 2 = 1 → s.hasReqs c.w.id.handle = false)
    (hqueue : (s.core c.who.core).copyq = queue) (ident : Nat) (record : List Byte) (side : List Side) :
    Res.Enters c (.coll e) queue (collEnter e c ident record side s) := by
  unfold collEnter
  dsimp only
  rw [quietly_ok fun hord => State.hasReqs_dropEngReqs (hquiet hord) _ _]
  refine .of_post ?_ (congrArg (·.copyq) (State.core_withSide ..))
  rw [State.copyq_postReleased, State.core_dropEngReqs, hqueue]

/-- COLL at posting: a reduction or a gather enters with its descriptor, a shuffle once its send list has been read, a coded one
once its pairing table and its side list have (R156, R285, R347). -/
theorem collBody_enters {vals : List (Nat × Nat)} (hquiet : e.m 0 2 % 2 = 1 → s.hasReqs c.w.id.handle = false)
    (hops : let nlvl := (((c.w.id.blk.bind s.block?).bind fun b => s.launch? b.launch).map Launch.nlvl).getD 0
      checkOps [sRun c e.d9.toNat, sRun c e.a9.toNat, OpOk.when (e.m 5 3 < nlvl)] = none)
    (hact : c.act true e.pg e.pn ≠ 0) (hqueue : (s.core c.who.core).copyq = queue) (hroom : queue.length < 32) :
    let at' := (c.sVal e.a9.toNat).toNat
    at' % 64 = 0 → Claims.posted c (e.m 2 3) [(at', 64)] s = (.ok vals, v) →
    (v.core c.who.core).copyq = queue →
    let r := granBytes vals at' 64
    let q := collOf r
    q.tag = 1 ∨ q.tag = 2 ∨ q.tag = 4 → (e.sub.toNat ≤ 1 → q.red ≤ 2) → field r 28 4 = 0 → field r 48 16 = 0 →
    (∀ x ∈ queue, x.poster.blk = c.w.id.blk → 64 ≤ x.record.length → (∃ e', x.ins = .coll e') →
      (collOf x.record).ident ≠ q.ident) →
    (e.sub.toNat ≤ 2 → Res.Enters c (.coll e) queue (collBody e c s)) ∧
    (∀ vals v', 2 < e.sub.toNat →
      Claims.posted c (e.m 2 3) [(q.src, 32 * q.count)] v = (.ok vals, v') →
      (v'.core c.who.core).copyq = queue →
      (∀ k, k < q.count → sendOk (granBytes vals q.src (32 * q.count)) (32 * k) = true) →
      (e.sub.toNat = 3 → Res.Enters c (.coll e) queue (collBody e c s)) ∧
      (∀ vals v'', 3 < e.sub.toNat →
        Claims.posted c (e.m 2 3) [(q.pairs, 8), (q.side, 32)] v' = (.ok vals, v'') →
        (v''.core c.who.core).copyq = queue →
        let np := field (granBytes vals q.pairs 8) 0 2
        let hd := granBytes vals q.side 32
        let ns := field hd 0 2
        np ≤ 8192 → ns ≤ 8192 → field hd 2 6 = 0 → field hd 20 12 = 0 →
        ∀ vals v₃, Claims.posted c (e.m 2 3) [(q.pairs + 8, 8 * np), (q.side + 32, 16 * ns)] v'' = (.ok vals, v₃) →
          (v₃.core c.who.core).copyq = queue →
          (∀ k, k < np → bits (field (granBytes vals (q.pairs + 8) (8 * np)) (8 * k) 8) 63 52 = 0 ∧
            1 ≤ bits (field (granBytes vals (q.pairs + 8) (8 * np)) (8 * k) 8) 51 32) →
          (∀ k, k < ns → field (granBytes vals (q.side + 32) (16 * ns)) (16 * k + 6) 2 = 0) →
            Res.Enters c (.coll e) queue (collBody e c s))) := by
  dsimp only
  intro halign hposted hqueue₁ htag hred hzero hzero' hfresh
  have hquiet₁ := Claims.posted_quiet hposted hquiet
  have hroom' : ¬ 32 ≤ (s.core c.who.core).copyq.length := by rw [hqueue]; exact Nat.not_le.2 hroom
  unfold collBody
  dsimp only
  rw [withOps_ok hops, if_neg hact, if_neg hroom', if_neg (not_not.2 halign), postRead_of_posted hposted, if_neg]
  case hnc =>
    -- the descriptor is in its ranges, and the block has no collective of its identifier in the queue (R347)
    simp only [Bool.or_eq_true, not_or]
    refine ⟨⟨⟨⟨?_, ?_⟩, ?_⟩, ?_⟩, ?_⟩
    · simpa [← or_iff_not_imp_left] using htag
    · simpa using hred
    · simpa using hzero
    · simpa using hzero'
    · simp only [hqueue₁, List.any_eq_true, Bool.and_eq_true, beq_iff_eq, decide_eq_true_eq, not_exists, not_and]
      intro x hx hblk hmatch
      split at hmatch
      · next e' hins => exact hfresh x hx hblk.1 hblk.2 ⟨e', hins⟩ (beq_iff_eq.1 hmatch)
      · cases hmatch
  refine ⟨fun hop => ?_, fun vals₂ v₂ hop hposted₂ hqueue₂ hsends => ?_⟩
  · rw [if_pos hop]
    exact collEnter_enters hquiet₁ hqueue₁ _ _ _
  have hquiet₂ := Claims.posted_quiet hposted₂ hquiet₁
  rw [if_neg (by omega), postRead_of_posted hposted₂, if_neg]
  case hnc => simpa using hsends
  refine ⟨fun hop₃ => ?_, fun vals₃ v₃ hop₃ hposted₃ hqueue₃ => ?_⟩
  · rw [if_pos hop₃]
    exact collEnter_enters hquiet₂ hqueue₂ _ _ _
  intro hnp hns hhead hhead' vals₄ v₄ hposted₄ hqueue₄ hpairs hsides
  have hquiet₃ := Claims.posted_quiet hposted₃ hquiet₂
  rw [if_neg (by omega), postRead_of_posted hposted₃, if_neg]
  case hnc => simp [hnp, hns, hhead, hhead']
  rw [postRead_of_posted hposted₄, if_neg]
  case hnc =>
    rw [Bool.or_eq_true, not_or]
    exact ⟨by simpa [Nat.one_le_iff_ne_zero] using hpairs, by simpa using hsides⟩
  exact collEnter_enters (Claims.posted_quiet hposted₄ hquiet₃) hqueue₄ _ _ _

/-! ### The instructions -/

/-- A posting to the copy queue without a lane only advances, and one that finds 32 commands waits (R152). -/
theorem exec_copyPosting {body : Ctx → State → Res} {ops : List OpOk} {k : Res} (hexec : exec i = runWave i (some e) body)
    (hbody : body c (s.put c c.w) = withOps (s.put c c.w) ops (if c.act true e.pg e.pn = 0 then .next (s.put c c.w)
      else if 32 ≤ ((s.put c c.w).core c.who.core).copyq.length then .wait ((s.put c c.w).waitOn c i) else k))
    (hi : Issues i (some e) s c) (hops : checkOps ops = none) :
    (c.act true e.pg e.pn = 0 → exec i s = .next (ended i (some e) c s (s.put c c.w))) ∧
      (c.act true e.pg e.pn ≠ 0 → 32 ≤ ((s.put c c.w).core c.who.core).copyq.length →
        exec i s = .next ((s.put c c.w).waitOn c i)) := by
  rw [withOps_ok hops] at hbody
  rw [hexec]
  exact ⟨fun hact => runWave_next hi (by rw [hbody, if_pos hact]),
    fun hact hfull => runWave_wait hi (by rw [hbody, if_neg hact, if_pos hfull])⟩

/-- Settles O28: each body waits at a full queue, and enters its command once its checks pass and its records are read. -/
theorem copyQueuePostingsComplete : Obligations.CopyQueuePostingsComplete := by
  intro e s c s₀ core queue quiet entered cpyOps gthrOps nlvl collOps
  refine ⟨fun i ops hform hi hops => ?_, ?_, ?_, ?_⟩
  · obtain ⟨rfl, rfl⟩ | ⟨rfl, rfl⟩ | ⟨rfl, rfl⟩ := hform
    · simp only [cpyOps, ← beq_iff_eq (a := e.m 13 1)] at hops
      exact exec_copyPosting rfl rfl hi hops
    · exact exec_copyPosting rfl rfl hi hops
    · exact exec_copyPosting rfl rfl hi hops
  · intro vals v hi hquiet hops hact hroom rec' desc halign hcnt hposted v' r h hshape hcoord htile hdest hfollow hqueue
    exact (cpyBody_enters (s := s₀) hquiet hops hact hroom halign hcnt hposted hshape hcoord htile hdest hfollow hqueue).exec hi
  · intro hi hquiet hops hact hroom dst
    have hbody := gthrBody_enters hops hact hroom hquiet
    dsimp only at hbody
    generalize gthrShape (c.sVal e.c9.toNat).toNat = shape at hbody ⊢
    exact fun hlist hcnt hn hn' hr hr' hstride hdest hwindow =>
      (hbody hlist hcnt hn hn' hr hr' hstride hdest hwindow).exec hi
  · intro vals v hi hquiet hops hact hroom at' halign hposted hqueue r q htag hred hzero hzero' hfresh
    obtain ⟨hplain, hshuffle⟩ :=
      collBody_enters (s := s₀) hquiet hops hact rfl hroom halign hposted hqueue htag hred hzero hzero' hfresh
    refine ⟨fun hop => (hplain hop).exec hi, fun vals₂ v₂ hop hposted₂ hqueue₂ hsends => ?_⟩
    obtain ⟨huncoded, hcoded⟩ := hshuffle vals₂ v₂ hop hposted₂ hqueue₂ hsends
    refine ⟨fun hop₃ => (huncoded hop₃).exec hi, fun vals₃ v₃ hop₃ hposted₃ hqueue₃ => ?_⟩
    intro np hd ns hnp hns hhead hhead' vals₄ v₄ hposted₄ hqueue₄ hpairs hsides
    exact (hcoded vals₃ v₃ hop₃ hposted₃ hqueue₃ hnp hns hhead hhead' vals₄ v₄ hposted₄ hqueue₄ hpairs hsides).exec hi

end Sys2Proof.Machine
end

-- ==== Channels and counter waits; O29 ====
section
/-!
CHINIT, the reserves and dones of CHPUT and CHGET, and CWAIT complete with their channel or counter (R147, R148, R157, R355).
-/

namespace Sys2Proof.Machine

variable {e : Ext} {i : Instr} {put : Bool} {c : Ctx} {s t : State} {k : Chan}

/-- An instruction of a channel without a lane only advances. -/
theorem exec_channel_noLane {body : Ctx → State → Res} {ops : List OpOk} {r : Res} (hexec : exec i = runWave i (some e) body)
    (hbody : body c (s.put c c.w) = withOps (s.put c c.w) ops (if c.act true e.pg e.pn = 0 then .next (s.put c c.w) else r))
    (hi : Issues i (some e) s c) (hact : c.act true e.pg e.pn = 0) (hops : checkOps ops = none) :
    exec i s = .next (ended i (some e) c s (s.put c c.w)) := by
  rw [hexec]
  exact runWave_next hi (by rw [hbody, withOps_ok hops, if_pos hact])

/-! ### CHINIT -/

section
variable (hops : checkOps [sRun c e.a9.toNat, sRun c e.b9.toNat, sRun c e.c9.toNat] = none) (hact : c.act true e.pg e.pn ≠ 0)
include hops hact

/-- A wave of no block holds no channel (R147). -/
theorem chinitBody_noBlock (hblk : c.w.id.blk = none) : chinitBody e c s = .raise s Exc.channel 0 := by
  unfold chinitBody
  dsimp only
  rw [withOps_ok hops, if_neg hact]
  simp only [hblk]

/-- A channel that is free, or its block's own without a reservation, is bound to the block with its counters at 0 (R147). -/
theorem chinitBody_binds {b : Nat} (hblk : c.w.id.blk = some b) :
    let base := (c.sVal e.a9.toNat).toNat % 2 ^ 24
    let size := (c.sVal e.b9.toNat).toNat % 2 ^ 24
    let x := (c.sVal e.c9.toNat).toNat
    let n := x % 256
    let p := x / 256 % 256
    let k := x / 2 ^ 16 % 256
    base % 16 = 0 → size % 16 = 0 → 16 ≤ size → size ≤ 0x300000 → 1 ≤ n → n ≤ 64 → 1 ≤ p → 1 ≤ k → x < 2 ^ 24 →
    base + n * size ≤ 0x300000 →
    (∀ q, s.chan? c.who.core (Ext.chan e) = some q → q.holder = b ∧ q.resv = [] ∧
      ∀ y ∈ (s.core c.who.core).fifo ++ (s.core c.who.core).copyq, y.poster.blk = c.w.id.blk → ∀ z ∈ y.resv, z.1 ≠ Ext.chan e) →
    chinitBody e c s = .next (s.updCore c.who.core fun q =>
      { q with chans := Sparse.put (Ext.chan e) ⟨b, base, size, n, p, k, 0, 0, List.replicate n ⟨0, 0, 0, 0⟩, []⟩ q.chans }) := by
  intro base size x n p k hbase hsize hlo hhi hn hn' hp hk hx hfits hfree
  have hbase' : bits (c.sVal e.a9.toNat).toNat 23 0 = base := by simp [bits, base]
  have hsize' : bits (c.sVal e.b9.toNat).toNat 23 0 = size := by simp [bits, size]
  have hslots : bits (c.sVal e.c9.toNat).toNat 7 0 = n := by simp [bits, n, x]
  have hputs : bits (c.sVal e.c9.toNat).toNat 15 8 = p := rfl
  have hgets : bits (c.sVal e.c9.toNat).toNat 23 16 = k := rfl
  have hrest : bits (c.sVal e.c9.toNat).toNat 63 24 = 0 := by rw [bits, Nat.div_eq_of_lt hx, Nat.zero_mod]
  unfold chinitBody
  dsimp only
  rw [withOps_ok hops, if_neg hact]
  simp only [hblk, hbase', hsize', hslots, hputs, hgets, hrest]
  rw [if_neg]
  -- the values are in their ranges, and the channel is free or the block's own without a reservation (R147)
  rw [Bool.or_eq_true, not_or]
  refine ⟨by simp [hbase, hsize, hlo, hhi, hn, hn', hp, hk, hfits, spadSize], ?_⟩
  rw [Bool.not_eq_true', Bool.not_eq_false]
  cases hq : s.chan? c.who.core (Ext.chan e) with
  | none => rfl
  | some q =>
    obtain ⟨hholder, hresv, hbound⟩ := hfree q hq
    have hunbound : (((s.core c.who.core).fifo ++ (s.core c.who.core).copyq).any fun x =>
        x.poster.blk == some b && x.resv.any fun q => q.1 == Ext.chan e) = false := by
      refine List.any_eq_false.mpr fun y hy => ?_
      simp only [Bool.and_eq_true, beq_iff_eq, List.any_eq_true, not_and, not_exists]
      exact fun hown z hz => hbound y hy (hown.trans hblk.symm) z hz
    simp only [hholder, hresv, hunbound, beq_self_eq_true, List.isEmpty_nil, Bool.not_false, Bool.and_self]

end

/-! ### Reserves and dones -/

section
variable (hops : checkOps [sDst c e.d9.toNat] = none) (hact : c.act true e.pg e.pn ≠ 0)
  (hk : s.heldChan c (Ext.chan e) = some k) (hnew : waitingResv c k put = 0)
include hops hact hk hnew

/-- A reserve that is granted at once performs its acquire and answers its slot's offset (R148, R340). -/
theorem reserveBody_granted :
    let x := k.reserve put (some (c.w.id.lvls.getD 1 0))
    let u := (((s.updChan c.who.core (Ext.chan e) fun _ => x.2.grant put x.1.num).orderAtomn c true [] 0).acquire c.who.core 1).bumpSfr c
    x.1.granted = true → reserveBody i put e c s =
      .nextR (u.put c (writeS c (u.mine c) e.d9.toNat (BitVec.ofNat 64 (x.2.base + x.2.slotOf x.1 * x.2.size)))) := by
  intro x u hgranted
  unfold reserveBody
  dsimp only
  rw [withOps_ok hops, if_neg hact, hk]
  dsimp only
  rw [hnew, if_pos rfl]
  dsimp only
  rw [if_pos hgranted, if_pos hgranted]
  rfl

/-- A reserve that is not granted waits with its number (R148). -/
theorem reserveBody_waits :
    let x := k.reserve put (some (c.w.id.lvls.getD 1 0))
    x.1.granted = false → reserveBody i put e c s =
      .wait (((s.updChan c.who.core (Ext.chan e) fun _ => x.2).setProg c 0 (x.1.num + 1)).waitOn c i) := by
  intro x hwaits
  have hno : ¬ x.1.granted = true := by simp [hwaits]
  unfold reserveBody
  dsimp only
  rw [withOps_ok hops, if_neg hact, hk]
  dsimp only
  rw [hnew, if_pos rfl]
  dsimp only
  rw [if_neg hno, if_neg hno]

end

/-- A done takes the reservation of the slot that its offset starts (R148, R340). -/
theorem doneBody_done {r : Resv} (hops : checkOps [sRun c e.a9.toNat] = none) (hact : c.act true e.pg e.pn ≠ 0)
    (hk : s.heldChan c (Ext.chan e) = some k) (hquiet : s.hasReqs c.w.id.handle = false) :
    let off := (c.sVal e.a9.toNat).toNat
    k.base ≤ off → (off - k.base) % k.size = 0 → (off - k.base) / k.size < k.n →
    k.undone put ((off - k.base) / k.size) (some (c.w.id.lvls.getD 1 0)) = some r →
    doneBody put e c s = .nextR ((((s.orderAtomn c true [] 0).releaseBy (c.space s) 1).updChan c.who.core (Ext.chan e)
      fun k => k.done r).bumpSfr c) := by
  intro off hbase hstart hslot hr
  have hstarts : (decide (k.base ≤ off) && (off - k.base) % k.size == 0 && decide ((off - k.base) / k.size < k.n)) = true := by
    simp [hbase, hstart, hslot]
  unfold doneBody
  dsimp only
  rw [withOps_ok hops, if_neg hact, hk]
  dsimp only
  rw [if_pos hstarts, hr]
  dsimp only
  rw [quietly, hquiet]
  rfl

/-! ### CWAIT -/

/-- CWAIT reads the counter below its target, and waits (R157, R355). -/
theorem cwaitBody_below {l v : Nat}
    (hops : checkOps [sRun c e.a9.toNat, if 320 ≤ e.b9.toNat ∧ e.b9.toNat < 384 then sRun c e.b9.toNat
      else offOk c e.lit e.b9.toNat] = none)
    (hl : lowest (c.act true e.pg e.pn) = some l) (hreqs : s.reqsOf c = []) :
    let o : MemOp := ⟨.read, 8, e.m 0 2, e.m 2 3, e.m 0 2 == 1, none⟩
    let la : LaneAcc := ⟨l, (c.sVal e.a9.toNat).toNat, 0, 0⟩
    let u := s.orderAtomn c (e.m 0 2 == 1) [la] 8
    lanesOk s (c.space s).proc o [la] = none →
    access u (if o.sync then c.syncSpace u else c.space u) o [la] = (⟨[(l, v)], [], [], false, none⟩, t) →
    v < offVal c e.lit e.b9.toNat → cwaitBody e c s = .wait (t.waitOn c (.cwait e)) := by
  intro o la u hok hacc hv
  have hnegative : negative [] = none := rfl
  simp only [cwaitBody, withOps_ok hops, hl, hreqs, State.dropReqs_of_none hreqs, hnegative, List.findSome?_nil]
  dsimp only [o, la, u] at hok hacc
  simp only [hok, hacc]
  simp [valAt, Nat.not_le.2 hv]

/-! ### The instructions -/

/-- Settles O29: each body's answer on the channel or the counter that the statement describes. -/
theorem channelsAndCounterWaits : Obligations.ChannelsAndCounterWaits := by
  refine ⟨fun e s c => ⟨fun i hmem hi hact hops => ?_, fun b hi hact hblk hops => ?_, fun hi hact hblk hops => ?_,
    fun i put k hform hi hact hops hk hnew => ?_, fun i put k r hform hi hact hops hk => ?_⟩,
    fun e s c hi hops => ⟨fun hact => ?_, fun l v u hl hreqs => ?_⟩⟩
  · simp only [List.mem_cons, List.not_mem_nil, or_false] at hmem
    obtain rfl | rfl | rfl | rfl | rfl := hmem
    all_goals exact exec_channel_noLane rfl rfl hi hact hops
  · intro base size x n p k hbase hsize hlo hhi hn hn' hp hk hx hfits hfree
    exact runWave_next hi (chinitBody_binds hops hact hblk hbase hsize hlo hhi hn hn' hp hk hx hfits hfree)
  · exact runWave_raise hi (chinitBody_noBlock hops hact hblk)
  · have hexec : exec i = runWave i (some e) (reserveBody i put e) := by
      obtain ⟨rfl, rfl⟩ | ⟨rfl, rfl⟩ := hform <;> rfl
    rw [hexec]
    exact ⟨fun hgranted => runWave_nextR hi (reserveBody_granted hops hact hk hnew hgranted),
      fun hwaits => runWave_wait hi (reserveBody_waits hops hact hk hnew hwaits)⟩
  · have hexec : exec i = runWave i (some e) (doneBody put e) := by
      obtain ⟨rfl, rfl⟩ | ⟨rfl, rfl⟩ := hform <;> rfl
    intro off hbase hstart hslot hr hquiet
    rw [hexec]
    exact runWave_nextR hi (doneBody_done hops hact hk hquiet hbase hstart hslot hr)
  · refine runWave_next hi ?_
    simp only [cwaitBody, withOps_ok hops, lowest_eq_none_iff.2 hact]
  · intro a s₁ hok hacc
    exact ⟨fun hv => runWave_next hi (cwaitBody_reached hops hl hreqs hok hacc hv),
      fun hv => runWave_wait hi (cwaitBody_below hops hl hreqs hok hacc hv)⟩

end Sys2Proof.Machine
end

-- ==== Loops; O18 ====
section
/-!
LOOP, LOOPX and BRKL behind their checks: the level that LOOP claims, the levels that LOOPX ends and the lanes that BRKL removes
(R164, R166, R168, R169).
-/

namespace Sys2Proof.Machine

variable {e : Ext} {s u : State} {c : Ctx}

/-! ### LOOP -/

/-- The trip count T of a LOOP by the form of its operand: a scalar, an inline constant or the literal's high word (R164). -/
def loopCount (e : Ext) (c : Ctx) : Nat :=
  if e.a9.toNat = 511 then (e.lit.getD 0).toNat / 2 ^ 32
  else if e.a9.toNat < 384 then (c.sVal e.a9.toNat).toNat else e.a9.toNat - 388

/-- The address of the last instruction of a LOOP's body (R164). -/
def loopStop (e : Ext) (c : Ctx) : Nat := c.disp (asInt 32 ((e.lit.getD 0).toNat % 2 ^ 32))

/-- The level record of a LOOP at its claim (R164). -/
def loopLevel (e : Ext) (c : Ctx) (after : Dword) : Level :=
  ⟨nextPc c (.loop e), BitVec.ofNat 64 (loopStop e c), after, loopCount e c + (e.m 0 3 + 1) - 1, 0, e.m 0 3 + 1, e.m 3 1 == 1⟩

/-- The wave with level n claimed by a split of it (R164). -/
def Wave.claimLevel (w : Wave) (e : Ext) (a : Who) (n : Nat) (l : Level) : Wave :=
  { w with rrb := if e.m 4 1 = 1 then 0 else w.rrb }.updHalf a.half fun h =>
    ({ h.hold a.path n with levels := updAt (fun _ => some l) n h.levels }).updPath a.path fun p =>
      { p with iters := updAt (fun _ => some 0) n p.iters }

/-- What the operands of a LOOP must meet to pass its checks: forward displacement, the rotation's block, and a trip count of 32
bits in one of its three forms (R164). -/
structure LoopOperands (e : Ext) (c : Ctx) : Prop where
  forward : 0 < asInt 32 ((e.lit.getD 0).toNat % 2 ^ 32)
  rotates : (e.m 3 1 == 1) = true → c.w.id.gang = false ∧ c.w.heldBlk 4 = true
  source : (e.a9.toNat < 384 ∧ checkOps [sRun c e.a9.toNat] = none) ∨ (388 ≤ e.a9.toNat ∧ e.a9.toNat ≤ 404) ∨ e.a9.toNat = 511
  fits : loopCount e c ≤ 2 ^ 32 - (e.m 0 3 + 1)
  word : loopCount e c < 2 ^ 32

/-- A count given in the form that the operand code names is the count (R164). -/
theorem loopCount_eq {t : Nat} (h : (e.a9.toNat < 384 ∧ checkOps [sRun c e.a9.toNat] = none ∧ t = (c.sVal e.a9.toNat).toNat) ∨
    (388 ≤ e.a9.toNat ∧ e.a9.toNat ≤ 404 ∧ t = e.a9.toNat - 388) ∨ (e.a9.toNat = 511 ∧ t = (e.lit.getD 0).toNat / 2 ^ 32)) :
    t = loopCount e c ∧
      ((e.a9.toNat < 384 ∧ checkOps [sRun c e.a9.toNat] = none) ∨ (388 ≤ e.a9.toNat ∧ e.a9.toNat ≤ 404) ∨ e.a9.toNat = 511) := by
  unfold loopCount
  obtain ⟨hscalar, hops, ht⟩ | ⟨hlo, hhi, ht⟩ | ⟨hlit, ht⟩ := h
  · have hlit : e.a9.toNat ≠ 511 := by omega
    exact ⟨by rw [if_neg hlit, if_pos hscalar, ht], .inl ⟨hscalar, hops⟩⟩
  · have hlit : e.a9.toNat ≠ 511 := by omega
    have hscalar : ¬ e.a9.toNat < 384 := by omega
    exact ⟨by rw [if_neg hlit, if_neg hscalar, ht], .inr (.inl ⟨hlo, hhi⟩)⟩
  · exact ⟨by rw [if_pos hlit, ht], .inr (.inr hlit)⟩

/-- The operands of an instruction pass where each of them passes every check (R100). -/
theorem checkOps_eq_none_iff {ops : List OpOk} :
    checkOps ops = none ↔ ∀ o ∈ ops, o.valid = true ∧ o.held = true ∧ o.tagged = true ∧ o.sound = true := by
  unfold checkOps
  constructor
  · intro h
    split_ifs at h
    simp_all
  · intro h
    have hvalid : ops.all (·.valid) = true := List.all_eq_true.mpr fun o ho => (h o ho).1
    have hheld : ops.all (·.held) = true := List.all_eq_true.mpr fun o ho => (h o ho).2.1
    have htagged : ops.all (·.tagged) = true := List.all_eq_true.mpr fun o ho => (h o ho).2.2.1
    have hsound : ops.all (·.sound) = true := List.all_eq_true.mpr fun o ho => (h o ho).2.2.2
    simp [hvalid, hheld, htagged, hsound]

/-- The operand of a LOOP names a count of 32 bits (R164). -/
def loopSourceOk (e : Ext) (c : Ctx) : Bool :=
  if e.a9.toNat < 384 then (sRun c e.a9.toNat).valid && (c.sVal e.a9.toNat).toNat < 2 ^ 32
  else (388 ≤ e.a9.toNat && e.a9.toNat ≤ 404) || e.a9.toNat == 511

theorem LoopOperands.source_ok (h : LoopOperands e c) :
    loopSourceOk e c = true ∧ (decide (384 ≤ e.a9.toNat) || (sRun c e.a9.toNat).sound) = true := by
  unfold loopSourceOk
  obtain ⟨hscalar, hops⟩ | ⟨hlo, hhi⟩ | hlit := h.source
  · obtain ⟨hvalid, -, -, hsound⟩ := checkOps_eq_none_iff.mp hops _ List.mem_cons_self
    have hword := h.word
    have hlit : e.a9.toNat ≠ 511 := by omega
    rw [loopCount, if_neg hlit, if_pos hscalar] at hword
    rw [if_pos hscalar, hvalid, hsound, decide_eq_true hword]
    simp
  · have hscalar : ¬ e.a9.toNat < 384 := by omega
    simp [if_neg hscalar, hlo, hhi, not_lt.mp hscalar]
  · simp [hlit]

/-- The operands of a LOOP pass its checks (R164). -/
theorem LoopOperands.pass (h : LoopOperands e c) :
    checkOps [OpOk.when (loopSourceOk e c && decide (0 < asInt 32 ((e.lit.getD 0).toNat % 2 ^ 32)) && !(e.m 3 1 == 1 && c.w.id.gang)),
      ⟨true, !(e.m 3 1 == 1) || c.w.heldBlk 4, true, 384 ≤ e.a9.toNat || (sRun c e.a9.toNat).sound⟩] = none := by
  have hrot : (e.m 3 1 == 1 && c.w.id.gang) = false ∧ (!(e.m 3 1 == 1) || c.w.heldBlk 4) = true := by
    cases hm : e.m 3 1 == 1 with
    | false => simp
    | true => simp [h.rotates hm]
  simp only [checkOps, List.all_cons, List.all_nil, OpOk.when, h.source_ok, hrot, decide_eq_true h.forward]
  rfl

/-- A loop whose last instruction stands at `stop` would reach past the end of the innermost level that its LOOP stands in (R164). -/
def Half.overruns (h : Half) (pc : Dword) (stop : Nat) : Bool :=
  match h.innermost with
  | some (_, l) => decide (l.start ≤ pc) && decide (pc ≤ l.stop) && decide (l.stop.toNat < stop)
  | none => false

theorem Half.overruns_eq_false {h : Half} {pc : Dword} {stop : Nat}
    (hi : ∀ m l, h.innermost = some (m, l) → ¬(l.start ≤ pc ∧ pc ≤ l.stop ∧ l.stop.toNat < stop)) : h.overruns pc stop = false := by
  unfold Half.overruns
  split
  · next m l hl => simpa [and_assoc] using hi m l hl
  · rfl

/-- LOOP behind its checks: a count of 0 goes past the body's end, and any other claims the lowest free level (R164). -/
theorem loopBody_of_ok {n : Nat} (h : LoopOperands e c)
    (hok : s.checkTargets (c.space s) c.w.id.codeBase [loopStop e c] = (.ok, u))
    (hroom : c.half.levels.countP (·.isSome) < c.maxLevels) (hfree : c.half.levels.findIdx? (·.isNone) = some n)
    (hrot : (e.m 3 1 == 1) = true → c.half.rotating = none) (hinner : c.half.overruns c.path.pc (loopStop e c) = false) :
    loopBody e c s =
      let after := u.afterPc (c.space u) (BitVec.ofNat 64 (loopStop e c))
      if loopCount e c = 0 then .jump (u.setPc c after.toNat)
      else .next (u.updWave c.who.core c.who.slot fun w => w.claimLevel e c.who n (loopLevel e c after)) := by
  have hfull : (decide (c.half.levels.countP (·.isSome) ≥ c.maxLevels) || (e.m 3 1 == 1 && c.half.rotating.isSome) ||
      c.half.overruns c.path.pc (loopStop e c)) = false := by
    rw [hinner, decide_eq_false (Nat.not_le.mpr hroom)]
    cases hm : e.m 3 1 == 1 with
    | false => rfl
    | true => rw [hrot hm]; rfl
  refine (withOps_ok h.pass).trans ?_
  change (if loopCount e c > _ then _ else transfer c s [loopStop e c] _) = _
  rw [if_neg (Nat.not_lt.mpr h.fits), transfer_of_ok _ hok]
  change (if (decide (c.half.levels.countP (·.isSome) ≥ c.maxLevels) || (e.m 3 1 == 1 && c.half.rotating.isSome) ||
      c.half.overruns c.path.pc (loopStop e c)) = true then _ else _) = _
  rw [hfull, hfree]
  rfl

/-! ### LOOPX and BRKL -/

/-- LOOPX of an active level that holds no other lanes ends the levels from it up, innermost first (R168). -/
theorem loopxBody_of_ok {l : Level} (hl : c.half.levels.getD (e.m 0 2) none = some l)
    (hothers : c.half.othersRun c.who.path = false) (hstranded : stranded l c.who.path c.half.stack = false) :
    loopxBody e c (s.put c c.w) =
      let levels := ((List.range 4).filter fun k => e.m 0 2 ≤ k && (c.half.levels.getD k none).isSome).reverse
      .jump ((s.put c (levels.foldl (fun w k => w.endLevel c.who.half c.who.path k) c.w)).setPc c l.after.toNat) := by
  simp only [loopxBody, hl, hothers, hstranded, Bool.or_false, Bool.false_eq_true, if_false, State.updWave_put]

/-- BRKL in a level takes the lanes whose condition holds out of every path (R169). -/
theorem brklBody_of_ok {n : Nat} {l : Level} (hops : checkOps [predOk e.a9.toNat] = none) (hi : c.half.innermost = some (n, l)) :
    brklBody e c (s.put c c.w) =
      let m := c.active 0 false &&& c.pred e.a9.toNat (e.m 0 1 == 1)
      let w := Wave.updHalf { c.w with removed := updAt (fun x => x ||| m) n c.w.removed } c.who.half fun h => h.without m
      if m = 0 then .next (s.put c c.w)
      else if c.path.mask &&& ~~~m ≠ 0 then .next (s.put c w)
      else .jump (s.put c (w.emptied 4 c.who.half c.who.path)) := by
  simp only [brklBody, withOps_ok hops, hi, State.updWave_put]

/-- Settles O18: each body behind its checks. -/
theorem loopsComplete : Obligations.LoopsComplete := by
  refine ⟨?loop, ?loopx, ?brkl⟩
  case loop =>
    intro e s u c t n lit disp a rot stages en hi hforward hrotates hsource hfits hword hok hroom hfree hrot hinner after
    obtain ⟨rfl, hform⟩ := loopCount_eq hsource
    have hbody := loopBody_of_ok ⟨hforward, hrotates, hform, hfits, hword⟩ hok hroom hfree hrot (Half.overruns_eq_false hinner)
    dsimp only at hbody
    refine ⟨fun ht => ?none, fun ht => ?claims⟩
    case none => exact runWave_jump hi (hbody.trans (if_pos ht))
    case claims => exact runWave_next hi (hbody.trans (if_neg ht))
  case loopx =>
    intro e s c l hi hl hothers hstranded levels
    refine runWave_jump hi ((loopxBody_of_ok hl hothers hstranded).trans ?_)
    simp only [levels, Bool.decide_and, Bool.decide_eq_true]
  case brkl =>
    intro e s c n l hi hops hn m w
    have hbody := brklBody_of_ok (s := s) hops hn
    dsimp only at hbody
    refine ⟨fun hm => ?none, fun hm hrest => ?some, fun hm hrest => ?all⟩
    case none => exact runWave_next hi (hbody.trans (if_pos hm))
    case some => exact runWave_next hi (hbody.trans ((if_neg hm).trans (if_pos hrest)))
    case all => exact runWave_jump hi (hbody.trans ((if_neg hm).trans (if_neg (not_not.mpr hrest))))

end Sys2Proof.Machine
end

-- ==== Placement by key; O32 ====
section
/-!
The key form of REGROUP gives each thread a lane of its own: it takes only lanes that are still vacant, and while a thread is left
some lane of the block is vacant (R175).
-/

namespace Sys2Proof.Machine

variable {n : Nat} {ts : List Thread} {pl : Placed}

/-- A placement puts each of the threads, and no other, in a lane of its own of n waves (R175). -/
structure Places (n : Nat) (ts : List Thread) (pl : Placed) : Prop where
  perm : (pl.map (·.2)).Perm ts
  apart : (pl.map (·.1)).Nodup
  within : ∀ x ∈ pl, x.1.1 < n ∧ x.1.2 < 64

theorem Places.nil : Places n [] [] := ⟨.refl _, List.nodup_nil, by simp⟩

theorem Places.of_perm {us : List Thread} (h : Places n ts pl) (hp : ts.Perm us) : Places n us pl :=
  ⟨h.perm.trans hp, h.apart, h.within⟩

theorem Places.length_eq (h : Places n ts pl) : pl.length = ts.length := by
  simpa using h.perm.length_eq

/-- A thread put in a lane that has none. -/
theorem Places.cons {q : Nat × Nat} (h : Places n ts pl) (hq : q ∉ pl.map (·.1)) (hw : q.1 < n) (hl : q.2 < 64) (x : Thread) :
    Places n (x :: ts) ((q, x) :: pl) :=
  ⟨h.perm.cons x, List.nodup_cons.mpr ⟨hq, h.apart⟩, List.forall_mem_cons.mpr ⟨⟨hw, hl⟩, h.within⟩⟩

/-! ### Vacant lanes -/

/-- A lane is vacant where no thread has been put. -/
theorem vacant_iff {w l : Nat} : vacant pl w l = true ↔ (w, l) ∉ pl.map (·.1) := by
  simp only [vacant, Bool.not_eq_true', List.any_eq_false, beq_iff_eq, List.mem_map, not_exists, not_and]

/-- While fewer threads are placed than the waves have lanes, the first vacant lane is one of them and has no thread. -/
theorem firstVacant_of_room (hroom : pl.length < 64 * n) :
    firstVacant pl n ∉ pl.map (·.1) ∧ (firstVacant pl n).1 < n ∧ (firstVacant pl n).2 < 64 := by
  have hlanes : ((List.range n).flatMap fun w => (List.range 64).map fun l => (w, l)) = List.range n ×ˢ List.range 64 := rfl
  unfold firstVacant
  rw [hlanes]
  cases hfind : (List.range n ×ˢ List.range 64).find? fun x => vacant pl x.1 x.2 with
  | some q =>
    obtain ⟨hw, hl⟩ := List.mem_product.mp (List.mem_of_find?_eq_some hfind)
    exact ⟨vacant_iff.mp (List.find?_some (p := fun x : Nat × Nat => vacant pl x.1 x.2) hfind), List.mem_range.mp hw, List.mem_range.mp hl⟩
  | none =>
    have hfull : List.range n ×ˢ List.range 64 ⊆ pl.map (·.1) := fun q hq => by
      simpa [vacant_iff] using List.find?_eq_none.mp hfind q hq
    have hle := ((List.nodup_range.product List.nodup_range).subperm hfull).length_le
    rw [List.length_product, List.length_range, List.length_range, List.length_map] at hle
    omega

/-! ### Threads of one key -/

/-- The threads of one key are placed beside those that have been: each where the next lane is vacant, and otherwise in the first
vacant one (R175). -/
theorem placeKey_places {xs : List Thread} {w : Nat} (h : Places n ts pl) (hw : w < n) (hroom : xs.length + ts.length ≤ 64 * n)
    (pos : Nat) : Places n (xs ++ ts) (placeKey n xs pl w pos).1 ∧ (placeKey n xs pl w pos).2.1 = w := by
  induction xs generalizing ts pl pos with
  | nil => exact ⟨h, rfl⟩
  | cons x xs ih =>
    rw [List.length_cons] at hroom
    have hnext (q : Nat × Nat) (hq : q ∉ pl.map (·.1)) (hqw : q.1 < n) (hql : q.2 < 64) (pos : Nat) :
        Places n (x :: xs ++ ts) (placeKey n xs ((q, x) :: pl) w pos).1 ∧
          (placeKey n xs ((q, x) :: pl) w pos).2.1 = w := by
      obtain ⟨hplaces, hwave⟩ := ih (h.cons hq hqw hql x) (by simp; omega) pos
      exact ⟨hplaces.of_perm List.perm_middle, hwave⟩
    rw [placeKey]
    split
    · next hvacant =>
      obtain ⟨hpos, hvacant⟩ := Bool.and_eq_true_iff.mp hvacant
      exact hnext (w, pos) (vacant_iff.mp hvacant) hw (of_decide_eq_true hpos) _
    · obtain ⟨hnew, hfw, hfl⟩ := firstVacant_of_room (pl := pl) (n := n) (by rw [h.length_eq]; omega)
      exact hnext _ hnew hfw hfl _

/-- The threads of some keys, key by key. -/
def ofKeys (ts : List Thread) (ks : List Nat) : List Thread := ks.flatMap fun k => ts.filter fun x => x.key = k

/-- Distinct keys part the threads that have one of them. -/
theorem ofKeys_perm {ks : List Nat} (hks : ks.Nodup) : (ofKeys ts ks).Perm (ts.filter fun x => x.key ∈ ks) := by
  induction ks with
  | nil => simp [ofKeys]
  | cons k ks ih =>
    obtain ⟨hk, hks⟩ := List.nodup_cons.mp hks
    have hsplit := List.filter_append_perm (fun x : Thread => decide (x.key = k)) (ts.filter fun x => x.key ∈ k :: ks)
    refine .trans ?_ hsplit
    rw [List.filter_filter, List.filter_filter]
    refine ((ih hks).append_left _).trans (.of_eq ?_)
    congr 1 <;> refine List.filter_congr fun x _ => ?_
    · simpa using fun hx : x.key = k => .inl hx
    · by_cases hx : x.key = k <;> simp [hx, hk]

/-- One key's turn in the key form: its threads begin a wave where one is left, and otherwise go on behind those of the last key. -/
def placeNext (n : Nat) (ts : List Thread) (a : Placed × Nat × Nat) (k : Nat) : Placed × Nat × Nat :=
  let xs := ts.filter fun x => x.key = k
  if xs.isEmpty then a
  else
    let (w, pos) := if a.2.2 > 0 ∧ a.2.1 < n - 1 then (a.2.1 + 1, 0) else (a.2.1, a.2.2)
    placeKey n xs a.1 w pos

/-- The key form takes the keys in turn (R175). -/
theorem placeKeys_eq (n : Nat) (ts : List Thread) : placeKeys n ts = ((List.range 16).foldl (placeNext n ts) ([], 0, 0)).1 := rfl

theorem placeNext_places {us : List Thread} {a : Placed × Nat × Nat} {k : Nat} (h : Places n us a.1) (hw : a.2.1 < n)
    (hroom : (ts.filter fun x => x.key = k).length + us.length ≤ 64 * n) :
    Places n ((ts.filter fun x => x.key = k) ++ us) (placeNext n ts a k).1 ∧ (placeNext n ts a k).2.1 < n := by
  unfold placeNext
  dsimp only
  split
  · next hnone => exact ⟨by rw [List.isEmpty_iff.mp hnone]; exact h, hw⟩
  · split
    · next hnext =>
      obtain ⟨hplaces, hwave⟩ := placeKey_places (w := a.2.1 + 1) h (by omega) hroom 0
      exact ⟨hplaces, hwave.trans_lt (by omega)⟩
    · obtain ⟨hplaces, hwave⟩ := placeKey_places h hw hroom a.2.2
      exact ⟨hplaces, hwave.trans_lt hw⟩

theorem foldl_placeNext_places {us : List Thread} {ks : List Nat} {a : Placed × Nat × Nat} (h : Places n us a.1) (hw : a.2.1 < n)
    (hroom : (ofKeys ts ks).length + us.length ≤ 64 * n) : Places n (ofKeys ts ks ++ us) (ks.foldl (placeNext n ts) a).1 := by
  induction ks generalizing us a with
  | nil => exact h
  | cons k ks ih =>
    have hkeys : ofKeys ts (k :: ks) = (ts.filter fun x => x.key = k) ++ ofKeys ts ks := rfl
    rw [hkeys, List.length_append] at hroom
    obtain ⟨hplaces, hwave⟩ := placeNext_places (ts := ts) (k := k) h hw (by omega)
    refine (ih hplaces hwave (by rw [List.length_append]; omega)).of_perm ?_
    rw [hkeys, List.append_assoc]
    exact List.perm_append_comm_assoc _ _ _

/-- Settles O32: the keys below 16 part the threads, and each key's threads take vacant lanes. -/
theorem regroupKeepsThreads : Obligations.RegroupKeepsThreads := by
  intro n ts hn hroom hkeys
  have hall : (ofKeys ts (List.range 16)).Perm ts := by
    refine (ofKeys_perm List.nodup_range).trans (.of_eq (List.filter_eq_self.mpr fun x hx => ?_))
    simpa using hkeys x hx
  have hplaces : Places n (ofKeys ts (List.range 16) ++ []) (placeKeys n ts) :=
    foldl_placeNext_places .nil hn (by simpa [hall.length_eq] using hroom)
  rw [List.append_nil] at hplaces
  obtain ⟨hperm, hapart, hwithin⟩ := hplaces.of_perm hall
  exact ⟨hperm, hapart, hwithin⟩

end Sys2Proof.Machine
end

-- ==== Waves whose threads stay; for O31 ====
section
/-!
What an instruction that ends leaves of the lanes, thread tags and exceptions of the waves, where the issuing wave has no
divergence stack and no loop level (R27, R97, R165, R170, R321).
-/

namespace Sys2Proof.Machine

/-! ### Waves -/

/-- A half at depth 0 outside every loop (R27, R164). -/
def Half.Flat (h : Half) : Prop := h.stack = [] ∧ ∀ l ∈ h.levels, l = none

/-- A wave at depth 0 outside every loop (R27, R164). -/
def Wave.Flat (w : Wave) : Prop := ∀ h ∈ w.halves, h.Flat

/-- v holds the threads of w, in the same lanes and with no further exception, and stands flat where w does. -/
structure Wave.SameThreads (w v : Wave) : Prop where
  exited : v.exited = w.exited
  removed : v.removed = w.removed
  tids : v.tids = w.tids
  traps : v.traps = w.traps
  flat : w.Flat → v.Flat

/-- A wave changed but for its splits, lanes, tags and exceptions holds its threads. -/
theorem Wave.SameThreads.of_eq {w v : Wave} (hexited : v.exited = w.exited := by rfl) (hremoved : v.removed = w.removed := by rfl)
    (htids : v.tids = w.tids := by rfl) (htraps : v.traps = w.traps := by rfl) (hhalves : v.halves = w.halves := by rfl) :
    w.SameThreads v :=
  ⟨hexited, hremoved, htids, htraps, fun hw h hh => hw h (hhalves ▸ hh)⟩

theorem Wave.SameThreads.refl (w : Wave) : w.SameThreads w := .of_eq

theorem Wave.SameThreads.trans {u v w : Wave} (h : u.SameThreads v) (h' : v.SameThreads w) : u.SameThreads w :=
  ⟨h'.exited.trans h.exited, h'.removed.trans h.removed, h'.tids.trans h.tids, h'.traps.trans h.traps, h'.flat ∘ h.flat⟩

theorem Wave.sameThreads_updHalf (w : Wave) (n : Nat) {f : Half → Half} (hf : ∀ h : Half, h.Flat → (f h).Flat) :
    w.SameThreads (w.updHalf n f) :=
  ⟨rfl, rfl, rfl, rfl, fun hw => forall_mem_updAt hw hf⟩

/-- A path changed leaves a flat half flat. -/
theorem Half.Flat.updPath {h : Half} (hf : h.Flat) (k : Nat) (f : Path → Path) : (h.updPath k f).Flat := by
  obtain ⟨hs, hl⟩ := hf
  refine ⟨?_, by rwa [Half.updPath_levels]⟩
  simp only [Half.updPath, hs]
  split
  · rfl
  · exact hs

theorem Wave.sameThreads_updPath (w : Wave) (half k : Nat) (f : Path → Path) : w.SameThreads (w.updPath half k f) :=
  w.sameThreads_updHalf half fun _ hf => hf.updPath k f

/-- A flat wave takes no back edge (R165). -/
theorem Wave.Flat.backEdge {w : Wave} (hw : w.Flat) (fuel half path : Nat) (pc nxt : Dword) :
    w.backEdge fuel half path pc nxt = some (w, nxt) := by
  cases hh : w.halves[half]? with
  | some h => exact Wave.backEdge_of_noLevel hh (Half.innermost_eq_none (hw h (List.mem_of_getElem? hh)).2) _ _ _ _
  | none => cases fuel <;> simp [Wave.backEdge, hh]

/-! ### States -/

/-- Every wave of s stands in t in the same slot with its threads. -/
def State.SameThreads (s t : State) : Prop :=
  ∀ d k w, s.wave? d k = some w → ∃ v, t.wave? d k = some v ∧ w.SameThreads v

namespace State.SameThreads

variable {s t u : State}

theorem refl (s : State) : s.SameThreads s := fun _ _ w hw => ⟨w, hw, .refl w⟩

theorem trans (h : s.SameThreads t) (h' : t.SameThreads u) : s.SameThreads u := fun d k w hw => by
  obtain ⟨v, hv, hwv⟩ := h d k w hw
  obtain ⟨x, hx, hvx⟩ := h' d k v hv
  exact ⟨x, hx, hwv.trans hvx⟩

theorem of_wave? (h : ∀ d k, t.wave? d k = s.wave? d k) : s.SameThreads t := fun d k w hw => ⟨w, (h d k).trans hw, .refl w⟩

theorem of_memOnly (h : s.MemOnly t) : s.SameThreads t :=
  of_wave? fun d k => congrArg (fun x : Core => Sparse.get? k x.waves) (h.core d)

/-- One wave replaced, the others those of before. -/
theorem setWave {c k : Nat} {w v : Wave} (hothers : ∀ d j, (d ≠ c ∨ j ≠ k) → t.wave? d j = s.wave? d j) (hw : s.wave? c k = some w)
    (h : w.SameThreads v) : s.SameThreads (t.setWave c k v) := fun d j x hx => by
  by_cases hplace : d = c ∧ j = k
  · obtain ⟨rfl, rfl⟩ := hplace
    obtain rfl : w = x := Option.some.inj (hw.symm.trans hx)
    exact ⟨v, State.wave?_setWave _ _ _ _, h⟩
  · have hne : d ≠ c ∨ j ≠ k := by tauto
    exact ⟨x, (State.wave?_setWave_ne _ hne v).trans ((hothers d j hne).trans hx), .refl x⟩

theorem updWave (h : s.SameThreads t) (c k : Nat) {f : Wave → Wave} (hf : ∀ w : Wave, w.SameThreads (f w)) :
    s.SameThreads (t.updWave c k f) := by
  unfold State.updWave
  split
  · next w hw => exact h.trans (setWave (fun _ _ _ => rfl) hw (hf w))
  · exact h

theorem updCore (h : s.SameThreads t) (c : Nat) {f : Core → Core} (hf : ∀ k, (f k).waves = k.waves := by intro k; rfl) :
    s.SameThreads (t.updCore c f) :=
  h.trans (of_wave? fun d k => t.wave?_updCore c hf d k)

/-- A block's flag cleared (R263). -/
theorem clearIdem (h : s.SameThreads t) (c : Ctx) : s.SameThreads (t.clearIdem c) := by
  unfold State.clearIdem
  split
  · exact h.trans (of_wave? fun _ _ => rfl)
  · exact h

/-- A region closed (R170). -/
theorem closeRegion (h : s.SameThreads t) (c : Ctx) (pc : Dword) : s.SameThreads (t.closeRegion c pc) := by
  refine h.updWave _ _ fun w => ?_
  have hcount : w.SameThreads { w with regcnt := w.regcnt + 1 } := .of_eq
  dsimp only
  split
  · split
    · exact Wave.SameThreads.trans (v := { w with regcnt := w.regcnt + 1, srrb := w.rrb }) .of_eq
        (Wave.sameThreads_updHalf _ _ fun h hf => hf)
    · exact hcount
  · exact hcount

end State.SameThreads

/-! ### Outstanding writes (R97) -/

theorem Wave.sameThreads_putBack (w : Wave) (r : OldReg) : w.SameThreads (w.putBack r) := by
  unfold Wave.putBack
  split <;> exact .of_eq

theorem sameThreads_overwrite (late : Bool) (n : Nat) (g : Regs) (w : Wave) (r : OldReg) (qs : List OldReg) :
    w.SameThreads (overwrite late n g w r qs).2.2 := by
  simp only [overwrite]
  split
  · split
    · exact w.sameThreads_putBack _
    · exact .refl w
  · exact .refl w

/-- A write over outstanding ones leaves the threads of its wave, and every wave of the state (R97). -/
theorem sameThreads_overtake (lat : Option Nat) (g : Regs) (r : OldReg) (ps : List Pend) (w : Wave) (s : State) :
    w.SameThreads (overtake lat g r ps w s).2.2.1 ∧ ∀ d k, (overtake lat g r ps w s).2.2.2.wave? d k = s.wave? d k := by
  induction ps generalizing w s with
  | nil => exact ⟨.refl w, fun _ _ => rfl⟩
  | cons p ps ih =>
    simp only [overtake]
    split
    · exact ih w s
    · obtain ⟨hw, hs⟩ := ih _ _
      refine ⟨(sameThreads_overwrite _ _ _ _ _ _).trans hw, fun d k => (hs d k).trans ?_⟩
      split
      · split <;> rfl
      · rfl

/-- The bookkeeping of outstanding writes leaves the threads (R97). -/
theorem State.sameThreads_track (s : State) (c : Ctx) (i : Instr) (e : Option Ext) (old : Regs) :
    s.SameThreads (s.track c i e old) := by
  unfold State.track
  split
  · exact .refl s
  · next w hw => exact .setWave (fun _ _ _ => rfl) hw .of_eq
  · next w e hw =>
    dsimp only
    generalize hx : List.foldl _ _ _ = x
    have hkept : (∀ d k, x.2.2.2.wave? d k = s.wave? d k) ∧ w.SameThreads x.2.2.1 := by
      rw [← hx]
      refine List.foldlRecOn (motive := fun x : List Pend × List OldReg × Wave × State =>
        (∀ d k, x.2.2.2.wave? d k = s.wave? d k) ∧ w.SameThreads x.2.2.1) _ _ ⟨fun _ _ => rfl, .refl w⟩
        fun x ⟨hwaves, hthreads⟩ r _ => ?_
      obtain ⟨hw, hover⟩ := sameThreads_overtake (latency i) w.regs r x.1 x.2.2.1 x.2.2.2
      exact ⟨fun d k => (hover d k).trans (hwaves d k), hthreads.trans hw⟩
    exact .setWave (fun d j _ => hkept.1 d j) hw (hkept.2.trans .of_eq)

/-! ### Pending atomics (R321) -/

/-- The pending atomics of a wave that perform leave its threads; an error that one meets is kept for later (R196). -/
theorem State.sameThreads_drainAtomn (s : State) (core slot : Nat) : s.SameThreads (s.drainAtomn core slot) := by
  unfold State.drainAtomn
  split
  · exact .refl s
  · next w hw =>
    dsimp only
    generalize hx : List.foldl _ _ _ = x
    have hkept : (∀ d j, (d ≠ core ∨ j ≠ slot) → x.1.wave? d j = s.wave? d j) ∧ w.SameThreads x.2 := by
      rw [← hx]
      refine List.foldlRecOn (motive := fun y : State × Wave =>
        (∀ d j, (d ≠ core ∨ j ≠ slot) → y.1.wave? d j = s.wave? d j) ∧ w.SameThreads y.2) _ _
        ⟨fun _ _ _ => rfl, .of_eq⟩ fun y ⟨hothers, hthreads⟩ a _ => ⟨fun d j hne => ?_, hthreads.trans ?_⟩
      · have hmem := State.performAtomn_memOnly (y.1.setWave core slot (y.2.opening a)) (y.1.waveSpace core slot (y.2.opening a)) a
        exact (congrArg (fun k : Core => Sparse.get? j k.waves) (hmem.core d)).trans
          ((y.1.wave?_setWave_ne hne _).trans (hothers d j hne))
      · have hopen : y.2.SameThreads (y.2.opening a) := by
          unfold Wave.opening
          split <;> exact .of_eq
        refine hopen.trans ?_
        dsimp only
        split
        · exact .refl _
        · exact .of_eq
    exact .setWave hkept.1 hw hkept.2

theorem State.sameThreads_orderAtomn (s : State) (c : Ctx) (sync : Bool) (ls : List LaneAcc) (n : Nat) :
    s.SameThreads (s.orderAtomn c sync ls n) := by
  unfold State.orderAtomn
  dsimp only
  split
  · exact .refl s
  · split
    · exact s.sameThreads_drainAtomn _ _
    · exact .refl s

/-! ### The end of an instruction -/

/-- A flat wave has nothing to merge (R28). -/
theorem State.merge_of_flat {s : State} {a : Who} {w : Wave} (hw : s.wave? a.core a.slot = some w) (hflat : w.Flat) (fuel : Nat) :
    s.merge fuel a = s := by
  cases hh : w.halves[a.half]? with
  | some h => exact State.merge_of_noStack hw hh (hflat h (List.mem_of_getElem? hh)).1 fuel
  | none => cases fuel <;> simp [State.merge, hw, Wave.settle, hh]

/-- The end of an instruction of a flat wave leaves the threads (R81). -/
theorem sameThreads_finish (i : Instr) (e : Option Ext) (c : Ctx) {s : State} {w : Wave} (hw : s.wave? c.who.core c.who.slot = some w)
    (hflat : w.Flat) (falls closes : Bool) : s.SameThreads (finish i e c s falls closes) := by
  have hmerge {t : State} (h : s.SameThreads t) : s.SameThreads (t.merge 70 c.who) := by
    obtain ⟨v, hv, hwv⟩ := h _ _ w hw
    rwa [State.merge_of_flat hv (hwv.flat hflat)]
  simp only [finish]
  generalize ht : (if closes && clearsIdem i then _ else _ : State) = t
  have hst : s.SameThreads t := by
    have hissued (n : Nat) : s.SameThreads ((s.updWave c.who.core c.who.slot fun w =>
        { w with chain := if (e.map (·.ch)).getD false then w.chain else none, lastIssue := s.now }).updCore c.who.core
          fun k => { k with lastIssue := n }) :=
      State.SameThreads.updCore (State.SameThreads.updWave (.refl s) _ _ fun w => .of_eq) _
    rw [← ht]
    split
    · exact State.SameThreads.clearIdem (hissued _) c
    · exact hissued _
  split
  · exact hmerge hst
  · split
    · exact hst
    · next v hv =>
      obtain ⟨v', hv', hwv⟩ := hst _ _ w hw
      obtain rfl : v' = v := Option.some.inj (hv'.symm.trans hv)
      rw [(hwv.flat hflat).backEdge]
      dsimp only
      have hmoved (f : Path → Path) : s.SameThreads (t.setWave c.who.core c.who.slot (v'.updPath c.who.half c.who.path f)) :=
        hst.trans (.setWave (fun _ _ _ => rfl) hv (v'.sameThreads_updPath _ _ f))
      refine hmerge ?_
      split
      · exact State.SameThreads.closeRegion (hmoved _) c _
      · exact hmoved _

end Sys2Proof.Machine
end

-- ==== REGROUP; O31 ====
section
/-!
REGROUP waits for the waves of its block, and the last arrival moves the threads and completes it in every wave (R173 to R175).
-/

namespace Sys2Proof

/-- A table with an entry put in it, by its parts before and behind the entry. -/
theorem Sparse.exists_put {α : Type} (k : Nat) (m : List (Nat × α)) :
    ∃ m₁ m₂, ∀ a, Sparse.put k a m = m₁ ++ (k, a) :: m₂ := by
  induction m with
  | nil => exact ⟨[], [], fun _ => rfl⟩
  | cons x m ih =>
    obtain ⟨j, b⟩ := x
    by_cases hlt : k < j
    · exact ⟨[], (j, b) :: m, fun a => by simp [Sparse.put, hlt]⟩
    · by_cases heq : k = j
      · exact ⟨[], m, fun a => by simp [Sparse.put, heq]⟩
      · obtain ⟨m₁, m₂, hput⟩ := ih
        exact ⟨(j, b) :: m₁, m₂, fun a => by simp [Sparse.put, hlt, heq, hput]⟩

end Sys2Proof

namespace Sys2Proof.Machine

/-! ### The threads that a wave receives -/

theorem getLsbD_maskOf (f : Nat → Bool) {l : Nat} (hl : l < 64) : (maskOf f).getLsbD l = f l := by
  have hbit : elem 1 l (pack 1 ((List.range 64).map fun l => b2n (f l))) = b2n (f l) := by
    rw [elem_pack]
    cases hf : f l <;> simp [hl, hf, b2n]
  rw [elem, Nat.one_mul, Nat.pow_one] at hbit
  rw [maskOf, BitVec.getLsbD_ofNat, decide_eq_true hl, Bool.true_and, Nat.testBit_eq_decide_div_mod_eq, hbit]
  cases f l <;> rfl

/-- The thread that a placement puts in a lane of a wave. -/
def threadAt (pl : Placed) (j l : Nat) : Option Thread := (pl.find? fun y => y.1 == (j, l)).map (·.2)

/-- The lanes of a wave that a placement fills. -/
def filled (pl : Placed) (j : Nat) : Mask := maskOf fun l => (threadAt pl j l).isSome

/-- A wave that holds the threads placed in it, in their lanes and with their tags, the other lanes dead and no exception
outstanding (R175). -/
structure Wave.Receives (pl : Placed) (j : Nat) (w : Wave) : Prop where
  traps : w.traps = 0
  exited : w.exited = ~~~filled pl j
  removed : w.removed = [0, 0, 0, 0]
  tids : ∀ l y, l < 64 → threadAt pl j l = some y → lane w.tids l = y.tid % 2 ^ 32

theorem Wave.Receives.of_sameThreads {pl : Placed} {j : Nat} {w v : Wave} (h : w.Receives pl j) (hv : w.SameThreads v) :
    v.Receives pl j :=
  ⟨hv.traps.trans h.traps, hv.exited.trans h.exited, hv.removed.trans h.removed, hv.tids ▸ h.tids⟩

/-- A wave with its lanes and tags replaced by those of the threads placed in it. -/
def Wave.withThreads (w : Wave) (pl : Placed) (j : Nat) : Wave :=
  { w with
    tids := blend (filled pl j) w.tids fun l => ((threadAt pl j l).map fun (t : Thread) => t.tid).getD 0
    exited := ~~~filled pl j
    removed := [0, 0, 0, 0] }

theorem Wave.Flat.withThreads {w : Wave} (h : w.Flat) (pl : Placed) (j : Nat) : (w.withThreads pl j).Flat := by
  unfold Wave.withThreads Wave.Flat
  exact h

theorem Wave.withThreads_receives {w : Wave} (ht : w.traps = 0) (pl : Placed) (j : Nat) : (w.withThreads pl j).Receives pl j := by
  unfold Wave.withThreads
  refine ⟨ht, rfl, rfl, fun l y hl hy => ?_⟩
  have hin : (filled pl j).getLsbD l = true := by rw [filled, getLsbD_maskOf _ hl, hy]; rfl
  rw [lane_blend _ _ _ hl, if_pos hin, hy, Option.map_some, Option.getD_some]

/-- The thread of a lane is the one found among those of its wave. -/
theorem find?_mine (pl : Placed) (j l : Nat) :
    ((pl.filter fun x => x.1.1 = j).find? fun x => x.1.2 = l).map (·.2) = threadAt pl j l := by
  rw [threadAt, List.find?_filter]
  congr 2
  funext x
  rw [Bool.eq_iff_iff]
  simp [Prod.ext_iff]

theorem Wave.sameThreads_setV (w : Wave) (n : Nat) (r : VReg) : w.SameThreads (w.setV n r) := .of_eq

theorem Wave.sameThreads_setS (w : Wave) (half n : Nat) (v : BitVec 64) : w.SameThreads (w.setS half n v) := by
  unfold Wave.setS
  split <;> exact .of_eq

/-- A wave with its carried registers holding, in the lanes filled, what their threads bring (R175). -/
def Wave.withCarried (w : Wave) (e : Ext) (pl : Placed) (j : Nat) : Wave :=
  (List.range (carried e).2).foldl (fun (w : Wave) k => w.setV ((carried e).1 + k) { w.v ((carried e).1 + k) with
    data := blend (filled pl j) (w.v ((carried e).1 + k)).data fun l =>
      ((threadAt pl j l).map fun (t : Thread) => t.regs.getD k 0).getD 0 }) w

theorem Wave.sameThreads_withCarried (w : Wave) (e : Ext) (pl : Placed) (j : Nat) : w.SameThreads (w.withCarried e pl j) :=
  List.foldlRecOn (motive := fun v : Wave => w.SameThreads v) _ _ (.refl w) fun v hv _ _ => hv.trans (v.sameThreads_setV _ _)

/-- What sD receives: the one key of a wave's threads, 0xFF where it receives none and 0xFE where their keys differ (R175). -/
def receivedKey (pl : Placed) (j : Nat) : Nat :=
  match ((pl.filter fun x => x.1.1 = j).map fun x => x.2.key).eraseDups with
  | [] => 0xFF
  | [k] => k
  | _ => 0xFE

/-- A participant after the move: the carried registers, the threads, sD with a key, and the split's lanes (R175). -/
theorem movedWave_eq (e : Ext) (key : Bool) (pl : Placed) (j : Nat) (w : Wave) : movedWave e key pl j w =
    Wave.updHalf (if key then ((w.withCarried e pl j).withThreads pl j).setS 0 (e.d9.toNat - 320) (BitVec.ofNat 64 (receivedKey pl j))
      else (w.withCarried e pl j).withThreads pl j) 0 fun h => { h with base := { h.base with mask := filled pl j } } := by
  unfold Wave.withThreads Wave.withCarried filled
  simp only [movedWave, find?_mine]
  rfl

theorem movedWave_sameThreads (e : Ext) (key : Bool) (pl : Placed) (j : Nat) (w : Wave) :
    ((w.withCarried e pl j).withThreads pl j).SameThreads (movedWave e key pl j w) := by
  rw [movedWave_eq]
  refine .trans ?_ (Wave.sameThreads_updHalf _ _ fun h ⟨hs, hl⟩ => ⟨hs, hl⟩)
  split
  · exact Wave.sameThreads_setS _ _ _ _
  · exact .refl _

/-- The move gives a participant its threads, and leaves it flat (R175). -/
theorem movedWave_receives {w : Wave} (ht : w.traps = 0) (hflat : w.Flat) (e : Ext) (key : Bool) (pl : Placed) (j : Nat) :
    (movedWave e key pl j w).Receives pl j ∧ (movedWave e key pl j w).Flat := by
  have hcarried := w.sameThreads_withCarried e pl j
  have hmoved := movedWave_sameThreads e key pl j w
  exact ⟨(Wave.withThreads_receives (hcarried.traps.trans ht) pl j).of_sameThreads hmoved,
    hmoved.flat ((hcarried.flat hflat).withThreads pl j)⟩

/-! ### Two instructions of one regroup -/

/-- The fields that R174 compares. -/
def SameRegroup (e y : Ext) : Prop := y.d9 = e.d9 ∧ y.a9 = e.a9 ∧ y.b9 = e.b9 ∧ y.mod = e.mod

theorem threads_congr {e y : Ext} (h : SameRegroup e y) (ps : List Part) : threads y ps = threads e ps := by
  obtain ⟨-, ha, hb, hm⟩ := h
  simp only [threads, carried, Ext.m, ha, hb, hm]

theorem regroupOk_congr {e y : Ext} (h : SameRegroup e y) (key : Bool) (ps : List Part) :
    regroupOk key y ps = regroupOk key e ps := by
  obtain ⟨hd, ha, hb, hm⟩ := h
  simp only [regroupOk, carried, Ext.m, hd, ha, hb, hm]

/-- What the checks of R174 say of a participant: it stands flat, and its instruction has the fields of the others. -/
theorem flat_of_regroupOk {key : Bool} {e : Ext} {ps : List Part} (hok : regroupOk key e ps = true) {p : Part} (hp : p ∈ ps) :
    p.w.Flat ∧ ∀ q j y, p.w.regrouping = some (q, j) → regroupOf j = some (key, y) → SameRegroup e y := by
  obtain ⟨hall, -⟩ := Bool.and_eq_true_iff.mp hok
  have hp := List.all_eq_true.mp hall p hp
  simp only [Bool.and_eq_true] at hp
  obtain ⟨⟨⟨⟨-, hhalves⟩, hform⟩, -⟩, -⟩ := hp
  constructor
  · intro h hh
    simpa [Half.Flat] using List.all_eq_true.mp hhalves h hh
  · intro q j y hq hj
    rw [hq] at hform
    simp only [hj, Bool.and_eq_true, beq_iff_eq] at hform
    obtain ⟨⟨⟨hd, ha⟩, hb⟩, hm⟩ := hform
    exact ⟨hd, ha, hb, hm⟩

/-! ### The move and the completion -/

/-- Waves in different slots, each changed in turn: each is changed once. -/
theorem wave?_foldl_updWave {α : Type} (place : α → Nat × Nat) (f : α → Wave → Wave) {xs : List α} (hn : (xs.map place).Nodup)
    {s : State} {a : α} (ha : a ∈ xs) {w : Wave} (hw : s.wave? (place a).1 (place a).2 = some w) :
    (xs.foldl (fun s x => s.updWave (place x).1 (place x).2 (f x)) s).wave? (place a).1 (place a).2 = some (f a w) := by
  have hrest {ys : List α} {p : Nat × Nat} (hp : p ∉ ys.map place) (u : State) :
      (ys.foldl (fun s x => s.updWave (place x).1 (place x).2 (f x)) u).wave? p.1 p.2 = u.wave? p.1 p.2 := by
    refine List.foldlRecOn (motive := fun v : State => v.wave? p.1 p.2 = u.wave? p.1 p.2) _ _ rfl fun v hv y hy => ?_
    have hne : p ≠ place y := fun h => hp (h ▸ List.mem_map_of_mem hy)
    exact (v.wave?_updWave_ne (not_and_or.mp (mt Prod.ext_iff.mpr hne)) _).trans hv
  induction xs generalizing s with
  | nil => simp at ha
  | cons x xs ih =>
    rw [List.map_cons, List.nodup_cons] at hn
    obtain ⟨hx, hn⟩ := hn
    rw [List.foldl_cons]
    obtain rfl | ha := List.mem_cons.mp ha
    · rw [hrest hx, State.wave?_updWave, hw, Option.map_some]
    · have hne : place a ≠ place x := fun h => hx (h ▸ List.mem_map_of_mem ha)
      exact ih hn ha ((s.wave?_updWave_ne (not_and_or.mp (mt Prod.ext_iff.mpr hne)) _).trans hw)

/-- A participant's REGROUP completes after the move (R175). -/
def State.concludeRegroup (s : State) (x : (Nat × Nat) × Instr × Part) : State :=
  match s.regroupCtx x.1.1 x.1.2, regroupOf x.2.1 with
  | some c, some (_, own) =>
    let u := ((s.orderAtomn c true [] 0).releaseBy (c.space s) 1).acquire c.who.core 1
    conclude x.2.1 (some own) c x.2.2.w.regs (u.scheduled c) (.nextR (u.bumpSfr c))
  | _, _ => s

/-- The split that waits in a REGROUP is one of the wave in its slot. -/
theorem State.regroupCtx_wave {s : State} {core slot : Nat} {c : Ctx} (h : s.regroupCtx core slot = some c) :
    c.who.core = core ∧ c.who.slot = slot ∧ s.wave? core slot = some c.w := by
  simp only [State.regroupCtx, Option.bind_eq_some_iff, Option.map_eq_some_iff] at h
  obtain ⟨w, hw, x, -, y, -, rfl⟩ := h
  exact ⟨rfl, rfl, hw⟩

/-- The completion of a flat wave's REGROUP leaves the threads of every wave. -/
theorem State.sameThreads_concludeRegroup {s : State} {x : (Nat × Nat) × Instr × Part}
    (hflat : ∀ w, s.wave? x.1.1 x.1.2 = some w → w.Flat) : s.SameThreads (s.concludeRegroup x) := by
  unfold State.concludeRegroup
  split
  · next c b own hc _ =>
    obtain ⟨hcore, hslot, hw⟩ := State.regroupCtx_wave hc
    rw [← hcore, ← hslot] at hw hflat
    dsimp only
    generalize hu : State.acquire _ _ _ = u
    have hacquired : s.SameThreads u := hu ▸ ((s.sameThreads_orderAtomn c true [] 0).trans
      (.of_memOnly (State.releaseBy_memOnly _ _ _))).trans (.of_memOnly (State.acquire_memOnly _ _ _))
    have hbumped : s.SameThreads (u.bumpSfr c) := hacquired.updWave _ _ fun w => .of_eq
    have htracked : s.SameThreads (if u.scheduled c then (u.bumpSfr c).track c x.2.1 (some own) x.2.2.w.regs else u.bumpSfr c) := by
      split
      · exact hbumped.trans (State.sameThreads_track _ _ _ _ _)
      · exact hbumped
    obtain ⟨v, hv, hwv⟩ := htracked _ _ _ hw
    exact htracked.trans (sameThreads_finish _ _ _ hv (hwv.flat (hflat _ hw)) true true)
  · exact .refl s

/-- The completions of flat waves leave the threads of every wave. -/
theorem State.sameThreads_foldl_concludeRegroup {s : State} {xs : List ((Nat × Nat) × Instr × Part)}
    (hflat : ∀ x ∈ xs, ∃ w, s.wave? x.1.1 x.1.2 = some w ∧ w.Flat) : s.SameThreads (xs.foldl State.concludeRegroup s) := by
  refine List.foldlRecOn (motive := fun t : State => s.SameThreads t) _ _ (.refl s) fun t ht x hx => ht.trans ?_
  refine State.sameThreads_concludeRegroup fun v hv => ?_
  obtain ⟨w, hw, hflat⟩ := hflat x hx
  obtain ⟨v', hv', hwv⟩ := ht _ _ _ hw
  exact Option.some.inj (hv'.symm.trans hv) ▸ hwv.flat hflat

/-! ### The last arrival -/

/-- A participant that has arrived, no exception outstanding: a split of it waits in this form (R173). -/
structure Part.Arrived (key : Bool) (p : Part) : Prop where
  traps : p.w.traps = 0
  waits : ∃ j y, p.w.regrouping = some (p.path, j) ∧ regroupOf j = some (key, y)

/-- The instruction that a participant waits in, with its place. -/
def arrivalOf (x : Nat × Part) : (Nat × Nat) × Instr × Part :=
  ((x.1, x.2.slot), ((x.2.w.regrouping).map (·.2)).getD .nop, x.2)

/-- Where the form places the threads of the participants (R175). -/
def placement (key : Bool) (e : Ext) (ps : List Part) : Placed :=
  if key then placeKeys ps.length (threads e ps) else placeHome ps (threads e ps)

section
variable {s : State} {n : Nat} {b : Block} {key : Bool} {e : Ext} {ps : List (Nat × Part)}

/-- While a wave of the block has not arrived, nothing moves (R173). -/
theorem State.tryRegroup_of_missing (hb : s.block? n = some b)
    (hmissing : ((s.blockWaves n).filter fun x => x.2.2.regrouping.isSome).length ≠ b.waves.length) : s.tryRegroup n = s := by
  have hcount : ((s.blockWaves n).filterMap fun x => (x.2.2.regrouping).map fun q =>
      ((x.1, x.2.1), q.2, (⟨x.2.1, x.2.2, q.1⟩ : Part))).length ≠ b.waves.length := by
    simpa only [List.length_filterMap_eq_countP, Option.isSome_map, List.countP_eq_length_filter] using hmissing
  unfold State.tryRegroup
  simp [hb, hcount]

/-- The waves of a block that have all arrived, as the participants. -/
theorem arrivals_eq (hws : s.blockWaves n = ps.map fun x => (x.1, x.2.slot, x.2.w)) (harr : ∀ x ∈ ps, x.2.Arrived key) :
    ((s.blockWaves n).filterMap fun x => (x.2.2.regrouping).map fun q => ((x.1, x.2.1), q.2, (⟨x.2.1, x.2.2, q.1⟩ : Part))) =
      ps.map arrivalOf := by
  rw [hws, List.filterMap_map]
  refine List.filterMap_eq_map_iff_forall_eq_some.mpr fun x hx => ?_
  obtain ⟨j, y, hj, -⟩ := (harr x hx).waits
  simp [arrivalOf, hj]

/-- The last arrival whose checks pass: the threads move, and each participant completes (R174, R175). -/
theorem State.tryRegroup_eq (hb : s.block? n = some b) (hall : b.waves.length = ps.length)
    (hws : s.blockWaves n = ps.map fun x => (x.1, x.2.slot, x.2.w)) (harr : ∀ x ∈ ps, x.2.Arrived key) (hne : ps ≠ [])
    (hok : regroupOk key e (ps.map (·.2)) = true) :
    ∃ y, s.tryRegroup n = (ps.map arrivalOf).foldl State.concludeRegroup (ps.zipIdx.foldl (fun s x =>
      s.updWave x.1.1 x.1.2.slot fun w => movedWave y key (placement key e (ps.map (·.2))) x.2 w) s) := by
  obtain ⟨p, ps', rfl⟩ := List.exists_cons_of_ne_nil hne
  obtain ⟨j, y, hj, hy⟩ := (harr p List.mem_cons_self).waits
  have hsame : SameRegroup e y := (flat_of_regroupOk hok (List.mem_cons_self)).2 _ _ _ hj hy
  have htraps : (s.blockWaves n).any (fun x => decide (x.2.2.traps ≠ 0)) = false := by
    rw [hws, List.any_map, List.any_eq_false]
    exact fun x hx => by simp [(harr x hx).traps]
  have hgo : (((p :: ps').map arrivalOf).isEmpty || decide (((p :: ps').map arrivalOf).length ≠
      (((s.block? n).map (·.waves)).getD []).length) || (s.blockWaves n).any fun x => decide (x.2.2.traps ≠ 0)) = false := by
    rw [htraps]
    simp [hb, hall]
  have hhead : (((p :: ps').map arrivalOf).head?.bind fun x => regroupOf x.2.1) = some (key, y) := by
    simp [arrivalOf, hj, hy]
  have hparts : ((p :: ps').map arrivalOf).map (fun x => x.2.2) = (p :: ps').map (·.2) := by
    rw [List.map_map]; rfl
  refine ⟨y, ?_⟩
  unfold State.tryRegroup
  dsimp only
  rw [arrivals_eq hws harr, if_neg (by rw [hgo]; simp), hhead, hparts]
  dsimp only
  rw [regroupOk_congr hsame, hok, threads_congr hsame, if_neg (by simp), List.zipIdx_map]
  exact congrArg (fun m => ((p :: ps').map arrivalOf).foldl State.concludeRegroup m) List.foldl_map

/-- The last arrival completes the REGROUP in every wave (R175). -/
theorem State.tryRegroup_receives (hb : s.block? n = some b) (hall : b.waves.length = ps.length)
    (hws : s.blockWaves n = ps.map fun x => (x.1, x.2.slot, x.2.w)) (hn : (ps.map fun x => (x.1, x.2.slot)).Nodup)
    (harr : ∀ x ∈ ps, x.2.Arrived key) (hwave : ∀ x ∈ ps, s.wave? x.1 x.2.slot = some x.2.w)
    (hok : regroupOk key e (ps.map (·.2)) = true) {k : Nat} {x : Nat × Part} (hx : ps[k]? = some x) :
    ∃ w, (s.tryRegroup n).wave? x.1 x.2.slot = some w ∧ w.Receives (placement key e (ps.map (·.2))) k := by
  have hmem : x ∈ ps := List.mem_of_getElem? hx
  obtain ⟨y, heq⟩ := State.tryRegroup_eq hb hall hws harr (List.ne_nil_of_mem hmem) hok
  rw [heq]
  generalize placement key e (ps.map (·.2)) = pl
  generalize hm : List.foldl _ s ps.zipIdx = m
  have hmoved {k : Nat} {x : Nat × Part} (hx : ps[k]? = some x) : ∃ w, m.wave? x.1 x.2.slot = some w ∧ w.Receives pl k ∧ w.Flat := by
    have hmem : x ∈ ps := List.mem_of_getElem? hx
    have hflat : x.2.w.Flat := (flat_of_regroupOk hok (List.mem_map_of_mem hmem)).1
    refine ⟨_, ?_, movedWave_receives (harr x hmem).traps hflat y key pl k⟩
    have hplaces : (ps.zipIdx.map fun z => (z.1.1, z.1.2.slot)).Nodup := by
      have hfst : ps.zipIdx.map (fun z => (z.1.1, z.1.2.slot)) = (ps.zipIdx.map Prod.fst).map fun x => (x.1, x.2.slot) := by
        rw [List.map_map]; rfl
      rwa [hfst, List.zipIdx_map_fst]
    rw [← hm]
    exact wave?_foldl_updWave (fun z : (Nat × Part) × Nat => (z.1.1, z.1.2.slot)) (fun z w => movedWave y key pl z.2 w) hplaces
      (List.mk_mem_zipIdx_iff_getElem?.mpr hx) (hwave x hmem)
  have hdone : m.SameThreads ((ps.map arrivalOf).foldl State.concludeRegroup m) := by
    refine State.sameThreads_foldl_concludeRegroup fun z hz => ?_
    obtain ⟨x, hmem, rfl⟩ := List.mem_map.mp hz
    obtain ⟨k, hk⟩ := List.mem_iff_getElem?.mp hmem
    obtain ⟨w, hw, -, hflat⟩ := hmoved hk
    exact ⟨w, hw, hflat⟩
  obtain ⟨w, hw, hreceives, -⟩ := hmoved hx
  obtain ⟨v, hv, hwv⟩ := hdone _ _ _ hw
  exact ⟨v, hv, hreceives.of_sameThreads hwv⟩

end

/-! ### The arrival -/

/-- Both forms of REGROUP run their body as a wave instruction. -/
theorem exec_regroup {i : Instr} {key : Bool} {e : Ext} (h : Claims.regroupForm i = some (key, e)) :
    exec i = runWave i (some e) (regroupBody i key e) ∧ regroupOf i = some (key, e) := by
  unfold Claims.regroupForm at h
  split at h
  · obtain ⟨rfl, rfl⟩ := Prod.mk.inj (Option.some.inj h)
    exact ⟨rfl, rfl⟩
  · obtain ⟨rfl, rfl⟩ := Prod.mk.inj (Option.some.inj h)
    exact ⟨rfl, rfl⟩
  · simp at h

section
variable {i : Instr} {key : Bool} {e : Ext} {s : State} {c : Ctx} {n : Nat}

/-- The operand checks of a REGROUP whose keys have the tags given (R172, R411). -/
abbrev regroupOps (key : Bool) (e : Ext) (c : Ctx) (tags : BitVec 4 → Bool) : List OpOk :=
  [if key then vRun c.w e.a9.toNat 1 1 tags else OpOk.yes, if key then sDst c e.d9.toNat else OpOk.when (e.d9 == 0),
    vRun c.w e.b9.toNat (e.m 0 5 + 1) 1 fun _ => true]

/-- The other waves of the block that have arrived wait in the same form of the same regroup (R173). -/
def SameRegroups (key : Bool) (e : Ext) (c : Ctx) (ws : List (Nat × Nat × Wave)) : Prop :=
  ∀ x ∈ ws, x.1 ≠ c.who.core ∨ x.2.1 ≠ c.who.slot → ∀ p j, x.2.2.regrouping = some (p, j) →
    ∃ y, regroupOf j = some (key, y) ∧ y.m 5 8 = e.m 5 8

/-- An arrival whose operands pass waits, and where it is the last one the threads move (R172, R173). -/
theorem regroupBody_waits (hgang : c.w.id.gang = false) (hops : checkOps (regroupOps key e c fun _ => true) = none)
    (hblk : c.w.id.blk = some n) (hreqs : s.hasReqs c.w.id.handle = false) (hsame : SameRegroups key e c (s.blockWaves n)) :
    regroupBody i key e c s = .wait ((s.waitOn c i).tryRegroup n) := by
  have hdiffers : (((s.blockWaves n).filter fun x => !(x.1 == c.who.core && x.2.1 == c.who.slot)).any fun x =>
      match x.2.2.regrouping with
      | some (_, j) => match regroupOf j with
        | some (k, y) => k != key || y.m 5 8 != e.m 5 8
        | none => false
      | none => false) = false := by
    rw [List.any_eq_false]
    intro x hx
    obtain ⟨hx, hother⟩ := List.mem_filter.mp hx
    cases hj : x.2.2.regrouping with
    | none => simp
    | some q =>
      obtain ⟨y, hy, hid⟩ := hsame x hx (by simpa [not_and_or] using hother) q.1 q.2 hj
      simp [hy, hid]
  unfold regroupBody
  simp only [hgang, Bool.false_eq_true, if_false]
  refine (withOps_ok hops).trans ?_
  rw [hblk]
  refine (if_neg (ne_true_of_eq_false hdiffers)).trans ?_
  rw [quietly, hreqs, if_neg Bool.false_ne_true]

/-- A REGROUP whose operands pass waits, and where its wave is the last to arrive the threads move (R173). -/
theorem exec_regroup_waits (hform : Claims.regroupForm i = some (key, e)) (hi : Issues i (some e) s c)
    (hreqs : s.hasReqs c.w.id.handle = false) (hgang : c.w.id.gang = false) (hblk : c.w.id.blk = some n)
    (hops : checkOps (regroupOps key e c fun _ => true) = none) (hsame : SameRegroups key e c ((s.put c c.w).blockWaves n)) :
    exec i s = .next (((s.put c c.w).waitOn c i).tryRegroup n) := by
  rw [(exec_regroup hform).1]
  exact runWave_wait hi (regroupBody_waits hgang hops hblk hreqs hsame)

/-- A path that waits in an instruction, by the number of its wait. -/
def Path.waitingIn (i : Instr) (m : Nat) (p : Path) : Path := { p with wait := .on i m }

/-- The wave of a split, which waits in an instruction. -/
def Ctx.waitingWave (c : Ctx) (i : Instr) (m : Nat) : Wave := c.w.updPath c.who.half c.who.path (Path.waitingIn i m)

/-- The state in which a split begins to wait. -/
theorem State.waitOn_put : (s.put c c.w).waitOn c i = State.put { s with next := s.next + 1 } c (c.waitingWave i s.next) :=
  State.updWave_put { s with next := s.next + 1 } c c.w _

/-! ### A block of one wave -/

/-- The waves of a block among those of a core given (R173). -/
def blockWavesIn (n core : Nat) (ws : List (Nat × Wave)) : List (Nat × Nat × Wave) :=
  (ws.filter fun y => y.2.id.blk == some n).map fun y => (core, y.1, y.2)

/-- The waves of a block where one of them is put in its slot: the others do not depend on it. -/
theorem State.exists_blockWaves_put (s : State) (c : Ctx) (n : Nat) :
    ∃ xs ys, ∀ w : Wave, w.id.blk = some n → (s.put c w).blockWaves n = xs ++ (c.who.core, c.who.slot, w) :: ys := by
  obtain ⟨cs, ds, hcores⟩ := Sparse.exists_put c.who.core s.cores
  obtain ⟨us, vs, hwaves⟩ := Sparse.exists_put c.who.slot (s.core c.who.core).waves
  refine ⟨(cs.flatMap fun x => blockWavesIn n x.1 x.2.waves) ++ blockWavesIn n c.who.core us,
    blockWavesIn n c.who.core vs ++ ds.flatMap fun x => blockWavesIn n x.1 x.2.waves, fun w hw => ?_⟩
  have hlist : (s.put c w).cores = cs ++ (c.who.core, { s.core c.who.core with waves := us ++ (c.who.slot, w) :: vs }) :: ds := by
    rw [← hwaves, ← hcores]
    rfl
  have hmine : blockWavesIn n c.who.core (us ++ (c.who.slot, w) :: vs) =
      blockWavesIn n c.who.core us ++ (c.who.core, c.who.slot, w) :: blockWavesIn n c.who.core vs := by
    simp [blockWavesIn, hw]
  change (s.put c w).cores.flatMap (fun x => blockWavesIn n x.1 x.2.waves) = _
  rw [hlist, List.flatMap_append, List.flatMap_cons, hmine]
  simp only [List.append_assoc, List.cons_append]

/-- The one wave of a block stays its one wave. -/
theorem State.blockWaves_put_alone {w : Wave} (hw : w.id.blk = some n) (hblk : c.w.id.blk = some n)
    (hws : (s.put c c.w).blockWaves n = [(c.who.core, c.who.slot, c.w)]) :
    (s.put c w).blockWaves n = [(c.who.core, c.who.slot, w)] := by
  obtain ⟨xs, ys, hput⟩ := s.exists_blockWaves_put c n
  rw [hput _ hblk, List.append_eq_singleton_iff] at hws
  rw [hput _ hw]
  simp_all

/-- The only split of a wave at depth 0, waiting in a REGROUP, is what its wave regroups in. -/
theorem regrouping_waitingWave (hctx : s.ctx? s.cur = some c) (hhalves : c.w.halves = [c.half]) (hstack : c.half.stack = [])
    (hended : c.half.ended = false) (hform : (regroupOf i).isSome = true) (m : Nat) :
    (c.waitingWave i m).regrouping = some (c.path.waitingIn i m, i) ∧
      (c.waitingWave i m).halves = [{ c.half with base := c.path.waitingIn i m }] := by
  have hwho := State.ctx?_who hctx
  obtain ⟨hhalf, hpath⟩ := State.ctx?_place hctx
  rw [← hwho, hhalves] at hhalf
  rw [← hwho, Half.paths, hstack] at hpath
  have hhalf0 : c.who.half = 0 := by
    by_contra hne
    rw [List.getElem?_eq_none (by simp; omega)] at hhalf
    simp at hhalf
  simp only [hended, Bool.false_eq_true, if_false] at hpath
  have hpath0 : c.who.path = 0 := by
    by_contra hne
    rw [List.getElem?_eq_none (by simp; omega)] at hpath
    simp at hpath
  rw [hpath0, List.getElem?_cons_zero, Option.some.injEq] at hpath
  have hv : (c.waitingWave i m).halves = [{ c.half with base := c.path.waitingIn i m }] := by
    rw [Ctx.waitingWave, Wave.updPath, Wave.updHalf_halves, hhalves, hhalf0, hpath0, ← hpath]
    simp [updAt, Half.updPath_of_noStack hstack]
  refine ⟨?_, hv⟩
  rw [Wave.regrouping, Wave.regroupAt, hv]
  simp [Half.paths, hstack, hended, Path.regrouping, Path.waitingIn, hform]

/-- The checks of R174 over a wave alone in its block, which its operands and its place have met already. -/
theorem regroupOk_alone {p : Part} (hblk : p.w.id.blk.isSome = true) (hflat : p.w.Flat) {q : Path}
    (hq : p.w.regrouping = some (q, i)) (hform : regroupOf i = some (key, e))
    (hops : checkOps (regroupOps key e { c with w := p.w } fun t => t == 0 || t == 1) = none) : regroupOk key e [p] = true := by
  have hpass := checkOps_eq_none_iff.mp hops
  have hhalves : (p.w.halves.all fun h => h.stack.isEmpty && h.levels.all (·.isNone)) = true := by
    simpa [Wave.Flat, Half.Flat] using hflat
  have htag : (!key || (p.w.v e.a9.toNat).tag == 0 || (p.w.v e.a9.toNat).tag == 1) = true := by
    cases key with
    | false => rfl
    | true =>
      have htagged := (hpass _ List.mem_cons_self).2.2.1
      simpa [vRun] using htagged
  have hheld : ((List.range (e.m 0 5 + 1)).all fun k => p.w.heldBlk ((e.b9.toNat + k) / 64)) = true :=
    (hpass (vRun p.w e.b9.toNat (e.m 0 5 + 1) 1 fun _ => true) (by simp)).2.1
  simp only [regroupOk, carried, List.all_cons, List.all_nil, hblk, hhalves, hq, hform, htag, hheld]
  simp

/-- Operands that pass with key tags 0 and 1 pass the arrival's checks, which leave the tags to R174. -/
theorem regroupOps_of_tags (hops : checkOps (regroupOps key e c fun t => t == 0 || t == 1) = none) :
    checkOps (regroupOps key e c fun _ => true) = none := by
  rw [checkOps_eq_none_iff] at hops ⊢
  simp only [regroupOps, List.forall_mem_cons] at hops ⊢
  refine ⟨?_, hops.2⟩
  cases key with
  | false => exact hops.1
  | true =>
    obtain ⟨⟨hvalid, hheld, -, hsound⟩, -⟩ := hops
    exact ⟨hvalid, hheld, by simp [vRun], hsound⟩

end

/-- A wave alone in its block arrives as the last one (R173, R175). -/
theorem exec_regroup_alone {i : Instr} {key : Bool} {e : Ext} {s : State} {c : Ctx} {n : Nat} {b : Block}
    (hform : Claims.regroupForm i = some (key, e)) (hi : Issues i (some e) s c) (htraps : c.w.traps = 0)
    (hreqs : s.hasReqs c.w.id.handle = false) (hgang : c.w.id.gang = false) (hblk : c.w.id.blk = some n) (hb : s.block? n = some b)
    (hone : b.waves.length = 1) (hws : (s.put c c.w).blockWaves n = [(c.who.core, c.who.slot, c.w)]) (hhalves : c.w.halves = [c.half])
    (hflat : c.half.Flat) (hended : c.half.ended = false)
    (hops : checkOps (regroupOps key e c fun t => t == 0 || t == 1) = none) :
    ∃ t w, exec i s = .next t ∧ t.wave? c.who.core c.who.slot = some w ∧
      w.Receives (placement key e [⟨c.who.slot, c.w, c.path⟩]) 0 := by
  have hsame : SameRegroups key e c ((s.put c c.w).blockWaves n) := fun x hx hother => by
    rw [hws, List.mem_singleton] at hx
    subst hx
    simp at hother
  obtain ⟨-, hof⟩ := exec_regroup hform
  obtain ⟨hwaits, hwaves⟩ := regrouping_waitingWave hi.split hhalves hflat.1 hended (by rw [hof]; rfl) s.next
  rw [exec_regroup_waits hform hi hreqs hgang hblk (regroupOps_of_tags hops) hsame, State.waitOn_put]
  have hblocks : (State.put { s with next := s.next + 1 } c (c.waitingWave i s.next)).blockWaves n =
      [(c.who.core, c.who.slot, c.waitingWave i s.next)] := State.blockWaves_put_alone (s := s) hblk hblk hws
  have hstands : (c.waitingWave i s.next).Flat := fun h hh => by
    rw [hwaves, List.mem_singleton] at hh
    exact hh ▸ hflat
  have hok : regroupOk key e [⟨c.who.slot, c.waitingWave i s.next, c.path.waitingIn i s.next⟩] = true :=
    regroupOk_alone (c := c) (by rw [Ctx.waitingWave]; exact hblk ▸ rfl) hstands hwaits hof hops
  obtain ⟨w, hw, hreceives⟩ := State.tryRegroup_receives (s := State.put { s with next := s.next + 1 } c (c.waitingWave i s.next))
    (ps := [(c.who.core, ⟨c.who.slot, c.waitingWave i s.next, c.path.waitingIn i s.next⟩)]) (k := 0) hb hone hblocks
    (by simp) (by simpa using ⟨htraps, i, e, hwaits, hof⟩) (by simp [State.put]) hok rfl
  exact ⟨_, w, rfl, hw, hreceives⟩

/-- Settles O31: an arrival waits, the last one of the block moves the threads, and a wave alone in its block is the last one. -/
theorem regroupCompletes : Obligations.RegroupCompletes := by
  refine ⟨?block, ?alone⟩
  case block =>
    intro i key e s c n b hform hi hreqs hgang hblk hb hops s₀ s₁ hsame
    have hb₁ : s₁.block? n = some b := (congrArg (State.block? · n) State.waitOn_put).trans hb
    have hexec : exec i s = .next (s₁.tryRegroup n) := exec_regroup_waits hform hi hreqs hgang hblk hops hsame
    rw [hexec]
    refine ⟨fun hmissing => ?waits, ?last⟩
    case waits => rw [State.tryRegroup_of_missing hb₁ hmissing]
    case last =>
      intro ps hws hnodup hall hps parts hok pl
      refine ⟨_, rfl, fun k x hx => ?_⟩
      obtain ⟨w, hw, hreceives⟩ := State.tryRegroup_receives hb₁ hall hws hnodup
        (fun x hx => let ⟨_, htraps, hwaits⟩ := hps x hx; ⟨htraps, hwaits⟩) (fun x hx => (hps x hx).1) hok hx
      exact ⟨w, hw, hreceives.traps, hreceives.exited, hreceives.removed, hreceives.tids⟩
  case alone =>
    intro i key e s c n b hform hi htraps hreqs hgang hblk hb hone hws hhalves hstack hended hlevels hops p pl at'
    obtain ⟨t, w, hexec, hw, hreceives⟩ :=
      exec_regroup_alone hform hi htraps hreqs hgang hblk hb hone hws hhalves ⟨hstack, hlevels⟩ hended hops
    exact ⟨t, w, hexec, hw, hreceives.traps, hreceives.exited, hreceives.removed, hreceives.tids⟩

end Sys2Proof.Machine
end

-- ==== The memories stay canonical: the state; O54 ====
section
/-!
The canonical form of HBM and host memory (`State.memOk`) is kept by whatever leaves both memories alone and by
`State.setBytes`; so it is kept by each operation of the model that is assembled from those. One lemma for each operation
`f`, `State.memOk.f`, in the order of the model; `Res.memOk.f` where `f` answers a result.
-/

namespace Sys2Proof.Machine

section
variable {s t : State}

theorem State.memOk.of_cells (hb : t.mem.hbm = s.mem.hbm) (hh : t.mem.host = s.mem.host) (h : s.memOk) : t.memOk := by
  unfold State.memOk
  rw [hb, hh]
  exact h

theorem State.memOk.of_mem (e : t.mem = s.mem) (h : s.memOk) : t.memOk :=
  .of_cells (congrArg _ e) (congrArg _ e) h

theorem State.memOk.ite {p : Prop} [Decidable p] (hs : s.memOk) (ht : t.memOk) : (if p then s else t).memOk := by
  split
  · exact hs
  · exact ht

theorem State.memOk.ite_snd {α : Type} {p : Prop} [Decidable p] {x y : α × State} (hx : x.2.memOk) (hy : y.2.memOk) :
    (if p then x else y).2.memOk := by
  split
  · exact hx
  · exact hy

theorem State.memOk.getD {o : Option State} (ho : ∀ t, o = some t → t.memOk) (h : s.memOk) : (o.getD s).memOk := by
  cases o with
  | none => exact h
  | some t => exact ho t rfl

theorem State.memOk.foldl {α : Type} {f : State → α → State} {as : List α} (h : s.memOk)
    (hf : ∀ t a, t.memOk → (f t a).memOk) : (as.foldl f s).memOk :=
  List.foldlRecOn (motive := State.memOk) as f h fun t ht a _ => hf t a ht

theorem State.memOk.of_snd {α : Type} {x : α × State} {a : α} (e : x = (a, t)) (h : x.2.memOk) : t.memOk := by
  rw [e] at h
  exact h

theorem State.memOk.of_snd_snd {α β : Type} {x : α × β × State} {a : α} {b : β} (e : x = (a, b, t)) (h : x.2.2.memOk) :
    t.memOk := by
  rw [e] at h
  exact h

end

/-- The state that an instruction's body leaves. -/
def Res.state : Res → State
  | .next s | .nextR s | .jump s | .wait s | .raise s _ _ => s

/-- An instruction's body leaves the memories in canonical form. -/
def Res.memOk (r : Res) : Prop := r.state.memOk

section
variable {s : State}

theorem Res.memOk.next (h : s.memOk) : (Res.next s).memOk := h
theorem Res.memOk.nextR (h : s.memOk) : (Res.nextR s).memOk := h
theorem Res.memOk.jump (h : s.memOk) : (Res.jump s).memOk := h
theorem Res.memOk.wait (h : s.memOk) : (Res.wait s).memOk := h
theorem Res.memOk.raise {code a : Nat} (h : s.memOk) : (Res.raise s code a).memOk := h

theorem Res.memOk.ite {p : Prop} [Decidable p] {r r' : Res} (h : r.memOk) (h' : r'.memOk) :
    (if p then r else r').memOk := by
  split
  · exact h
  · exact h'

end

/-! ### Cores, waves, objects and blocks -/

theorem State.memOk.setCore {s : State} {c : Nat} {k : Core} (h : s.memOk) : (s.setCore c k).memOk :=
  .of_mem rfl h

theorem State.memOk.updCore {s : State} {c : Nat} {f : Core → Core} (h : s.memOk) : (s.updCore c f).memOk :=
  .setCore h

theorem State.memOk.setWave {s : State} {c k : Nat} {w : Wave} (h : s.memOk) : (s.setWave c k w).memOk :=
  .updCore h

theorem State.memOk.updWave {s : State} {c k : Nat} {f : Wave → Wave} (h : s.memOk) : (s.updWave c k f).memOk := by
  unfold State.updWave
  split
  · exact .setWave h
  · exact h

theorem State.memOk.put {s : State} {c : Ctx} {w : Wave} (h : s.memOk) : (s.put c w).memOk :=
  .setWave h

theorem State.memOk.updPath {s : State} {c : Ctx} {f : Path → Path} (h : s.memOk) : (s.updPath c f).memOk :=
  .updWave h

theorem State.memOk.setSpad {s : State} {c a : Nat} {bs : List Byte} (h : s.memOk) : (s.setSpad c a bs).memOk :=
  .updCore h

theorem State.memOk.setFe {s : State} {c : Nat} {wake : Bool} {gs : List (Nat × Bool)} (h : s.memOk) :
    (s.setFe c wake gs).memOk :=
  .of_mem rfl h

theorem State.memOk.choose {s : State} (h : s.memOk) : s.choose.2.memOk :=
  .of_mem rfl h

theorem State.memOk.pick {α : Type} [DecidableEq α] {s : State} {a1 b : α} (h : s.memOk) : (s.pick a1 b).2.memOk :=
  .ite_snd h (.of_mem rfl h)

theorem State.memOk.tick {s : State} (h : s.memOk) : s.tick.2.memOk :=
  .of_mem rfl h

theorem State.memOk.setObj {s : State} {i : Nat} {o : Obj} (h : s.memOk) : (s.setObj i o).memOk :=
  .of_mem rfl h

theorem State.memOk.updObj {s : State} {i : Nat} {f : Obj → Obj} (h : s.memOk) : (s.updObj i f).memOk :=
  .of_mem rfl h

theorem State.memOk.freeObj {s : State} {i : Nat} (h : s.memOk) : (s.freeObj i).memOk :=
  .updObj h

theorem State.memOk.signal {s : State} {dst : Nat} {payload : BitVec 64} {src : Nat} (h : s.memOk) :
    (s.signal dst payload src).memOk :=
  .updCore h

theorem State.memOk.privTrap {s : State} {core slot half path : Nat} {r : TrapRec} (h : s.memOk) :
    (s.privTrap core slot half path r).memOk :=
  .ite (.signal (.updCore h)) (.updWave (.updCore h))

theorem State.memOk.takeException {s : State} {c : Ctx} {reread : Bool} {code : Nat} {pc : Dword} {addr : Nat}
    (h : s.memOk) : (s.takeException c reread code pc addr).memOk := by
  unfold State.takeException
  split
  · exact .privTrap h
  · exact .ite (.updWave h) (.updWave (.updCore h))

theorem State.memOk.updBlock {s : State} {b : Nat} {f : Block → Block} (h : s.memOk) : (s.updBlock b f).memOk :=
  .of_mem rfl h

theorem State.memOk.updLaunch {s : State} {l : Nat} {f : Launch → Launch} (h : s.memOk) : (s.updLaunch l f).memOk :=
  .of_mem rfl h

theorem State.memOk.vacate {s : State} {c k : Nat} (h : s.memOk) : (s.vacate c k).memOk := by
  unfold State.vacate
  split
  · exact h
  · exact .updCore (.of_cells rfl rfl h)

theorem State.memOk.updWaveObj {s : State} {hd : BitVec 32} {f st} (h : s.memOk) : (s.updWaveObj hd f st).memOk :=
  .updObj h

theorem State.memOk.tryEndBlock {s : State} {b : Nat} (h : s.memOk) : (s.tryEndBlock b).memOk := by
  unfold State.tryEndBlock
  split
  · exact h
  · exact .ite h (.of_mem rfl h)

theorem State.memOk.endWave {s : State} {c k : Nat} (h : s.memOk) : (s.endWave c k).memOk := by
  unfold State.endWave
  split
  · exact h
  · split
    · exact .tryEndBlock (.updBlock (.updWaveObj (.vacate h)))
    · exact .ite (.updWaveObj (.vacate h)) (.freeObj (.updWaveObj (.vacate h)))

theorem State.memOk.unqueue {s : State} {a : BitVec 32 ⊕ Nat} (h : s.memOk) : (s.unqueue a).memOk :=
  .of_mem rfl h

theorem State.memOk.endSaved {s : State} {h1 : BitVec 32} (h : s.memOk) : (s.endSaved h1).memOk := by
  unfold State.endSaved
  dsimp only
  split
  · split
    · exact .tryEndBlock (.updBlock (.updWaveObj (.unqueue h)))
    · exact .ite (.updWaveObj (.unqueue h)) (.freeObj (.updWaveObj (.unqueue h)))
  · exact .unqueue h

theorem State.memOk.endHandle {s : State} {h1 : BitVec 32} (h : s.memOk) : (s.endHandle h1).memOk := by
  unfold State.endHandle
  split
  · exact .endWave h
  · exact .endSaved h

theorem State.memOk.killBlock {s : State} {b : Nat} (h : s.memOk) : (s.killBlock b).memOk := by
  unfold State.killBlock
  split
  · exact h
  · exact .tryEndBlock (.foldl (.unqueue (.updCore (.updBlock h))) fun _ _ h => .endHandle h)

theorem State.memOk.trapBy {s : State} {r : TrapRec} {h1 : BitVec 32} (h : s.memOk) : (s.trapBy r h1).memOk := by
  unfold State.trapBy
  split
  · exact .updWave h
  · exact .updWaveObj h

theorem State.memOk.trapBlock {s : State} {b : Nat} {r : TrapRec} {but : Option (BitVec 32)} (h : s.memOk) :
    (s.trapBlock b r but).memOk :=
  .foldl (.updBlock h) fun _ _ h => .trapBy h

theorem State.memOk.sequel {s : State} {r : TrapRec} {slot : Nat} (h : s.memOk) : (s.sequel r slot).memOk := by
  unfold State.sequel
  split
  · dsimp only
    split
    · exact .killBlock h
    · exact .ite (.trapBlock h) h
  · exact .ite (.endWave h) h

theorem State.memOk.raise {s : State} {c : Ctx} {reread : Bool} {code : Nat} {pc : Dword} {addr : Nat} (h : s.memOk) :
    (s.raise c reread code pc addr).memOk :=
  .ite (.takeException h) (.sequel (.takeException h))

theorem State.memOk.raiseLater {s : State} {core slot : Nat} (h : s.memOk) : (s.raiseLater core slot).memOk := by
  unfold State.raiseLater
  split
  · exact h
  · split
    · exact h
    · split
      · exact h
      · exact .ite (.privTrap (.setWave h)) (.sequel (.setWave (.updCore h)))

/-! ### Translation, caches and accesses -/

theorem State.memOk.translate {s : State} {sp : Space} {va : Nat} (h : s.memOk) : (s.translate sp va).2.memOk := by
  unfold State.translate
  dsimp only
  split
  · refine .ite_snd ?_ (.updCore ?_)
    · split
      · exact .pick h
      · exact h
    · split
      · exact .pick h
      · exact h
  · split
    · exact .pick h
    · exact h

theorem State.memOk.setCopy {s : State} {u g : Nat} {c : Copy} (h : s.memOk) : (s.setCopy u g c).memOk :=
  .of_cells rfl rfl h

theorem State.memOk.dropCopy {s : State} {u g : Nat} (h : s.memOk) : (s.dropCopy u g).memOk :=
  .of_cells rfl rfl h

theorem State.memOk.readGran {s : State} {g : Nat} {us : List Nat} {skip : Nat} (h : s.memOk) :
    (s.readGran g us skip).2.memOk := by
  induction us generalizing skip with
  | nil => exact h
  | cons u us ih =>
    unfold State.readGran
    have hr := ih (skip := skip - 1)
    generalize s.readGran g us (skip - 1) = r at hr
    obtain ⟨v, t⟩ := r
    dsimp only
    split
    · exact .setCopy hr
    · exact .ite (.ite_snd hr (.ite_snd hr (.pick hr))) (.setCopy (.ite_snd hr (.ite_snd hr (.pick hr))))

theorem State.memOk.writeGran {s : State} {us : List Nat} {g : Nat} {m : BitVec 16} {d : BitVec 128} (h : s.memOk) :
    (s.writeGran us g m d).memOk := by
  cases us with
  | nil => exact State.memOk_setNum h _ _ _
  | cons u us =>
    unfold State.writeGran
    have hr := State.memOk.readGran h (g := g) (us := u :: us) (skip := 0)
    generalize s.readGran g (u :: us) 0 = r at hr
    dsimp only
    split
    · exact .setCopy h
    · exact .setCopy hr

theorem State.memOk.passGran {s : State} {us : List Nat} {g : Nat} {m : BitVec 16} {d : BitVec 128} (h : s.memOk) :
    (s.passGran us g m d).memOk := by
  unfold State.passGran
  refine .foldl h fun _ _ h => ?_
  split
  · exact .setCopy h
  · exact h

theorem State.memOk.pushCopy {s : State} {u : Nat} {mids below : List Nat} {g : Nat} (h : s.memOk) :
    (s.pushCopy u mids below g).memOk := by
  unfold State.pushCopy
  split
  · exact .ite h (.setCopy (.writeGran (.passGran h)))
  · exact h

theorem State.memOk.push {s : State} {us : List Nat} {n : Nat} (h : s.memOk) : (s.push us n).memOk := by
  induction us generalizing n with
  | nil => cases n <;> exact h
  | cons u us ih =>
    cases n with
    | zero => exact h
    | succ n => exact .foldl (ih) fun _ _ h => .pushCopy h

theorem State.memOk.discard {s : State} {us : List Nat} {n : Nat} (h : s.memOk) : (s.discard us n).memOk := by
  induction us generalizing n with
  | nil => cases n <;> exact h
  | cons u us ih =>
    cases n with
    | zero => exact h
    | succ n => exact .foldl ih fun _ _ h => .ite h (.ite (.dropCopy h) (.setCopy (.readGran h)))

theorem State.memOk.flushUnit {s : State} {core u : Nat} {on : Nat → Bool} (h : s.memOk) :
    (s.flushUnit core u on).memOk :=
  .foldl h fun _ _ h => .dropCopy (.pushCopy h)

theorem State.memOk.flushWaves {s : State} {core : Nat} {on : Nat → Bool} (h : s.memOk) : (s.flushWaves core on).memOk :=
  .foldl h fun _ _ h => .flushUnit h

theorem State.memOk.release {s : State} {core scope : Nat} (h : s.memOk) : (s.release core scope).memOk :=
  .push (.ite h (.flushWaves h))

theorem State.memOk.acquire {s : State} {core scope : Nat} (h : s.memOk) : (s.acquire core scope).memOk :=
  .discard h

theorem State.memOk.readVia {s : State} {us : List Nat} {skip pa n : Nat} (h : s.memOk) :
    (s.readVia us skip pa n).2.memOk :=
  .readGran h

theorem State.memOk.writeVia {s : State} {us : List Nat} {pa n v : Nat} (h : s.memOk) : (s.writeVia us pa n v).memOk :=
  .writeGran h

theorem State.memOk.pushGran {s : State} {g : Nat} {us : List Nat} {n : Nat} (h : s.memOk) : (s.pushGran g us n).memOk :=
    by
  induction us generalizing n with
  | nil => cases n <;> exact h
  | cons u us ih =>
    cases n with
    | zero => exact h
    | succ n => exact .dropCopy (.pushCopy ih)

theorem State.memOk.writeAt {s : State} {us : List Nat} {scope pa n v : Nat} (h : s.memOk) :
    (s.writeAt us scope pa n v).memOk :=
  .writeVia (.pushGran h)

theorem State.memOk.note {s : State} {sp : Space} {g scope : Nat} {wr sync : Bool} (h : s.memOk) :
    (s.note sp g scope wr sync).memOk :=
  .of_cells rfl rfl h

theorem State.memOk.widenRecords {s : State} {sp : Space} {scope : Nat} (h : s.memOk) : (s.widenRecords sp scope).memOk :=
  .of_cells rfl rfl h

theorem State.memOk.releaseBy {s : State} {sp : Space} {scope : Nat} (h : s.memOk) : (s.releaseBy sp scope).memOk :=
  .widenRecords (.release h)

theorem State.memOk.openRecord {s : State} {sp : Space} {a : Acc} {va lvl : Nat} (h : s.memOk) :
    (s.openRecord sp a va lvl).2.memOk := by
  unfold State.openRecord
  split
  · split
    · dsimp only
      split
      · exact h
      · split
        · exact h
        · exact .ite_snd h (.of_cells rfl rfl h)
    · dsimp only
      split
      · exact h
      · split
        · exact h
        · exact .ite_snd h (.of_cells rfl rfl h)
  · split
    · dsimp only
      split
      · exact h
      · split
        · exact h
        · exact .ite_snd h (.of_cells rfl rfl h)
    · dsimp only
      split
      · exact h
      · split
        · exact h
        · exact .ite_snd h (.of_cells rfl rfl h)

theorem State.memOk.openRecords {s : State} {sp : Space} {a : Acc} {ms : List (Nat × Nat)} (h : s.memOk) :
    (s.openRecords sp a ms).2.2.memOk := by
  induction ms generalizing s with
  | nil => exact h
  | cons m ms ih =>
    unfold State.openRecords
    dsimp only
    split
    · exact ih (.openRecord h)
    · exact ih (.openRecord h)

theorem State.memOk.updMSet {s : State} {c t : Nat} {f : MSet → MSet} (h : s.memOk) : (s.updMSet c t f).memOk :=
  .updCore h

theorem State.memOk.winWrite {s : State} {a : WinByte} {b : Byte} (h : s.memOk) : (s.winWrite a b).memOk := by
  unfold State.winWrite
  split
  · exact .setSpad h
  · exact .updWave h
  · exact .updMSet h
  · exact .updMSet h
  · exact .setFe h

theorem State.memOk.winSet {s : State} {proc : BitVec 32} {va n v : Nat} (h : s.memOk) : (s.winSet proc va n v).memOk :=
    by
  unfold State.winSet
  refine .foldl h fun _ _ h => ?_
  split
  · exact .winWrite h
  · exact h

theorem State.memOk.retire {s : State} {pa : Nat} (h : s.memOk) : (s.retire pa).memOk :=
  .ite h (.of_cells rfl rfl h)

theorem State.memOk.translateLanes {s : State} {sp : Space} {o : MemOp} {ls : List LaneAcc} (h : s.memOk) :
    (translateLanes s sp o ls).2.memOk := by
  induction ls generalizing s with
  | nil => exact h
  | cons a ls ih =>
    unfold Machine.translateLanes
    have hr := ih (.translate h (sp := sp) (va := a.va))
    dsimp only
    split
    · exact hr
    · exact hr
    · exact hr
    · split
      · exact hr
      · exact hr

theorem State.memOk.markG {s : State} {l : Leaf} {g : Nat} (h : s.memOk) : (s.markG l g).memOk :=
  .ite h (.of_cells rfl rfl h)

theorem State.memOk.joinCopy {s : State} {sp : Space} {g : Nat} (h : s.memOk) : (s.joinCopy sp g).memOk :=
  .ite h (.dropCopy (.pushCopy h))

theorem State.memOk.performAtom {s : State} {sp : Space} {o : MemOp} {t : LaneTr} {op ty : Nat} (h : s.memOk) :
    (performAtom s sp o t op ty).2.memOk :=
  .ite (.writeVia (.readGran (.pushGran (.ite h (.joinCopy h))))) (.readGran (.pushGran (.ite h (.joinCopy h))))

theorem State.memOk.performLane {s : State} {sp : Space} {o : MemOp} {t : LaneTr} (h : s.memOk) :
    (performLane s sp o t).2.memOk := by
  unfold Machine.performLane
  split
  · dsimp only
    split
    · exact State.memOk_setHost h _ _
    · exact .ite (State.memOk_setHost h _ _) h
    · exact h
  · dsimp only
    split
    · exact .ite (.writeAt (.joinCopy (.markG (.ite (.note h) h)))) (.writeVia (.joinCopy (.markG (.ite (.note h) h))))
    · exact .performAtom (.markG (.ite (.note h) h))
    · exact .readVia (.joinCopy (.markG (.ite (.note h) h)))

theorem State.memOk.performWin {s : State} {sp : Space} {o : MemOp} {a : LaneAcc} (h : s.memOk) :
    (performWin s sp o a).2.memOk := by
  unfold Machine.performWin
  split
  · exact .winSet h
  · exact .ite (.winSet h) h
  · exact h

theorem State.memOk.performAll {s : State} {sp : Space} {o : MemOp} {ts : List LaneTr} (h : s.memOk) :
    (performAll s sp o ts).2.memOk := by
  induction ts generalizing s with
  | nil => exact h
  | cons t ts ih => exact ih (.performLane h)

theorem State.memOk.performWins {s : State} {sp : Space} {o : MemOp} {ls : List LaneAcc} (h : s.memOk) :
    (performWins s sp o ls).2.memOk := by
  induction ls generalizing s with
  | nil => exact h
  | cons a ls ih => exact ih (.performWin h)

theorem State.memOk.retireParts {s : State} {bad : List (Nat × Nat × Nat × Nat)} (h : s.memOk) :
    (s.retireParts bad).memOk :=
  .foldl h fun _ _ h => .ite (.retire h) h

theorem State.memOk.access {s : State} {sp : Space} {o : MemOp} {ls : List LaneAcc} (h : s.memOk) :
    (access s sp o ls).2.memOk := by
  unfold Machine.access
  have ht {rest} : (Machine.translateLanes s sp o rest).2.memOk := .translateLanes h
  dsimp only
  split
  · exact .ite (.retireParts (.performAll (.performWins (.ite (.releaseBy ht) ht))))
      (.performAll (.performWins (.ite (.releaseBy ht) ht)))
  · exact .openRecords (.performAll (.performWins (.ite (.releaseBy ht) ht)))

/-! ### Fetching, raising and issuing -/

theorem Res.memOk.withOps {s : State} {ops : List OpOk} {k : Res} (h : s.memOk) (hk : k.memOk) :
    (withOps s ops k).memOk := by
  unfold Machine.withOps
  split
  · exact .raise h
  · exact hk

theorem State.memOk.fetch {s : State} {sp : Space} {pc : Nat} (h : s.memOk) : (s.fetch sp pc).2.memOk := by
  unfold State.fetch
  refine .ite_snd h ?_
  have ht := State.memOk.translate h (sp := sp) (va := pc / 64 * 64)
  generalize s.translate sp (pc / 64 * 64) = r at ht
  obtain ⟨tr, t⟩ := r
  dsimp only
  split
  · exact ht
  · exact ht
  · exact .retire ht
  · split
    · exact ht
    · split
      · exact .ite (.pick ht) (.updCore (.pick ht))
      · exact .ite (.of_mem rfl ht) (.updCore (.of_mem rfl ht))

theorem State.memOk.consume {s u : State} {bad : List Nat} {pa lo hi : Nat} (h : s.memOk)
    (e : s.consume bad pa lo hi = some u) : u.memOk := by
  obtain ⟨_, _, rfl⟩ := Option.map_eq_some_iff.1 e
  exact .retire h

theorem State.memOk.target {s : State} {sp : Space} {base : Dword} {t : Nat} (h : s.memOk) :
    (s.target sp base t).2.memOk := by
  unfold State.target
  refine .ite_snd h (.ite_snd h ?_)
  split
  · rename_i he
    exact .of_snd he (.fetch h)
  · rename_i he
    exact .of_snd he (.fetch h)
  · split
    · rename_i he
      refine .consume ?_ he
      rename_i hf _ _
      exact .of_snd hf (.fetch h)
    · rename_i he _ _
      exact .of_snd he (.fetch h)

theorem State.memOk.targets {s : State} {sp : Space} {base : Dword} {ts : List Nat} (h : s.memOk) :
    (s.targets sp base ts).2.2.memOk := by
  induction ts generalizing s with
  | nil => exact h
  | cons t ts ih => exact ih (.target h)

theorem State.memOk.checkTargets {s : State} {sp : Space} {base : Dword} {ts : List Nat} (h : s.memOk) :
    (s.checkTargets sp base ts).2.memOk := by
  unfold State.checkTargets
  split
  split
  · rename_i he
    exact .of_snd_snd he (.targets h)
  · rename_i he
    exact .of_snd_snd he (.targets h)
  · rename_i he
    exact .of_snd_snd he (.targets h)
  · rename_i he
    exact .of_snd_snd he (.targets h)

theorem State.memOk.park {s : State} {c : Ctx} {qs : List (BitVec 16 × Nat)} {all : Bool} (h : s.memOk) :
    (s.park c qs all).memOk :=
  .updPath h

theorem Res.memOk.quietly {c : Ctx} {s : State} {k : Res} (h : s.memOk) (hk : k.memOk) : (quietly c s k).memOk :=
  .ite (.wait (.updPath h)) hk

theorem Res.memOk.quietlyIf {p : Prop} [Decidable p] {c : Ctx} {s : State} {k : Res} (h : s.memOk) (hk : k.memOk) :
    ((if p then Machine.quietly c s else id) k).memOk := by
  split
  · exact .quietly h hk
  · exact hk

theorem Res.memOk.transferIn {sp : Space} {base : Dword} {c : Ctx} {s : State} {ts : List Nat} {k : State → Res}
    (h : s.memOk)
    (hk : ∀ t, t.memOk → (k t).memOk) : (transferIn sp base c s ts k).memOk := by
  unfold Machine.transferIn
  split
  · rename_i he
    exact hk _ (.of_snd he (.checkTargets h))
  · rename_i he
    exact .raise (.of_snd he (.checkTargets h))
  · rename_i he
    exact .wait (.park (.openRecords (.of_snd he (.checkTargets h))))

theorem Res.memOk.transfer {c : Ctx} {s : State} {ts : List Nat} {k : State → Res} (h : s.memOk)
    (hk : ∀ t, t.memOk → (k t).memOk) : (transfer c s ts k).memOk :=
  .transferIn h hk

theorem State.memOk.readOld {reader : Mask} {ps : List Pend} {s : State} {w : Wave} {o : OldReg} (h : s.memOk) :
    (readOld reader ps s w o).2.memOk := by
  unfold Machine.readOld
  refine .ite_snd h ?_
  split
  · dsimp only
    exact .pick h
  · split
    rename_i he
    exact .of_snd he (.pick h)
  · dsimp only
    exact .pick h
  · exact h
  · exact h

theorem State.memOk.readView {reader : Mask} {s : State} {w : Wave} {ps : List Pend} (h : s.memOk) :
    (readView reader s w ps).2.memOk :=
  List.foldlRecOn (motive := fun x : Wave × State => x.2.memOk) ps _ h fun _ hx _ _ =>
    List.foldlRecOn (motive := fun x : Wave × State => x.2.memOk) _ _ hx fun _ hy _ _ => .readOld hy

theorem State.memOk.overtake {lat : Option Nat} {g : Regs} {r : OldReg} {ps : List Pend} {w : Wave} {s : State}
    (h : s.memOk) : (overtake lat g r ps w s).2.2.2.memOk := by
  induction ps generalizing w s with
  | nil => exact h
  | cons p ps ih =>
    unfold Machine.overtake
    dsimp only
    split
    · exact ih h
    · exact ih (.ite_snd (.choose h) h)

theorem State.memOk.track {s : State} {c : Ctx} {i : Instr} {e : Option Ext} {old : Regs} (h : s.memOk) :
    (s.track c i e old).memOk := by
  unfold State.track
  split
  · exact h
  · exact .setWave h
  · refine .setWave (List.foldlRecOn (motive := fun x : List Pend × List OldReg × Wave × State => x.2.2.2.memOk) _ _ h ?_)
    exact fun _ hx _ _ => .overtake hx

theorem State.memOk.closeRegion {s : State} {c : Ctx} {pc : Dword} (h : s.memOk) : (s.closeRegion c pc).memOk :=
  .updWave h

theorem State.memOk.clearIdem {s : State} {c : Ctx} (h : s.memOk) : (s.clearIdem c).memOk := by
  unfold State.clearIdem
  split
  · exact .updBlock h
  · exact h

theorem State.memOk.merge {fuel : Nat} {s : State} {a : Who} (h : s.memOk) : (State.merge fuel s a).memOk := by
  induction fuel generalizing s with
  | zero => exact h
  | succ fuel ih =>
    unfold State.merge
    split
    · exact h
    · rename_i w0 _
      have hs : State.memOk (if w0.settle 70 a.half = w0 then s else s.setWave a.core a.slot (w0.settle 70 a.half)) :=
        .ite h (.setWave h)
      dsimp only
      generalize (if w0.settle 70 a.half = w0 then s else s.setWave a.core a.slot (w0.settle 70 a.half)) = u at hs
      split
      · split
        · split
          · exact hs
          · have hf := @State.memOk.fetch u
            split
            · rename_i hline
              have hu := State.memOk.of_snd hline (.fetch hs)
              split
              · rename_i hbad
                exact .raise (.consume hu hbad)
              · split
                · exact .raise hu
                · split
                  · rename_i hok
                    exact ih (.updWave (.of_snd hok (.checkTargets hu)))
                  · rename_i hfault
                    exact .raise (.of_snd hfault (.checkTargets hu))
                  · rename_i hmiss
                    exact .updWave (.openRecords (.of_snd hmiss (.checkTargets hu)))
              · exact .raise hu
            · rename_i hmiss
              exact .updWave (.openRecords (.of_snd hmiss (.fetch hs)))
            · rename_i hfault
              exact .raise (.of_snd hfault (.fetch hs))
        · exact hs
      · exact hs

theorem State.memOk.finish {i : Instr} {e : Option Ext} {c : Ctx} {s : State} {falls closes : Bool} (h : s.memOk) :
    (finish i e c s falls closes).memOk := by
  unfold Machine.finish
  split
  · split
    · exact .merge (.clearIdem (.updCore (.updWave h)))
    · split
      · dsimp only
        split
        · exact .clearIdem (.updCore (.updWave h))
        · split
          · exact .raise (.updPath (.closeRegion (.clearIdem (.updCore (.updWave h)))))
          · exact .merge (.closeRegion (.setWave (.clearIdem (.updCore (.updWave h)))))
      · dsimp only
        split
        · exact .clearIdem (.updCore (.updWave h))
        · split
          · exact .raise (.updPath (.clearIdem (.updCore (.updWave h))))
          · exact .merge (.setWave (.clearIdem (.updCore (.updWave h))))
  · split
    · exact .merge (.updCore (.updWave h))
    · split
      · dsimp only
        split
        · exact .updCore (.updWave h)
        · split
          · exact .raise (.updPath (.closeRegion (.updCore (.updWave h))))
          · exact .merge (.closeRegion (.setWave (.updCore (.updWave h))))
      · dsimp only
        split
        · exact .updCore (.updWave h)
        · split
          · exact .raise (.updPath (.updCore (.updWave h)))
          · exact .merge (.setWave (.updCore (.updWave h)))

theorem State.memOk.conclude {i : Instr} {e : Option Ext} {c : Ctx} {old : Regs} {sched : Bool} {r : Res} (h : r.memOk) :
    (conclude i e c old sched r).memOk := by
  cases r with
  | next s | nextR s | jump s => exact .finish (.ite (.track h) h)
  | wait s => exact h
  | raise s code addr => exact .raise h

theorem State.memOk.issue {i : Instr} {e : Option Ext} {body : Ctx → State → Res} {c : Ctx} {s : State} (h : s.memOk)
    (hb : ∀ c s, s.memOk → (body c s).memOk) : (issue i e body c s).memOk := by
  unfold Machine.issue
  split
  · exact .raise h
  · exact .conclude (hb _ _ (.ite_snd (.readView (.put h)) (.put h)))

end Sys2Proof.Machine

end

-- ==== The memories stay canonical: instructions of the lanes and of memory; O54 ====
section
/-!
The bodies of the instructions keep the canonical form of the memories: arithmetic, lanes, packets, loads and stores.
-/

namespace Sys2Proof.Machine

/-! ### Integer instructions -/

theorem Res.memOk.intMould {op : IntOp} {o : Op3} {c : Ctx} {s : State} (h : s.memOk) : (intMould op o c s).memOk :=
  .withOps h (.next (.put h))

theorem Res.memOk.countMould {f : Nat → Nat → Nat} {o : Op3} {c : Ctx} {s : State} (h : s.memOk) :
    (countMould f o c s).memOk :=
  .withOps h (.next (.put h))

theorem Res.memOk.movMould {o : Op3} {c : Ctx} {s : State} (h : s.memOk) : (movMould o c s).memOk :=
  .withOps h (.next (.put h))

theorem Res.memOk.moviMould {o : Op3} {code ty : Nat} {c : Ctx} {s : State} (h : s.memOk) :
    (moviMould o code ty c s).memOk :=
  .withOps h (.next (.put h))

theorem Res.memOk.madBody {o : Op3} {c : Ctx} {s : State} (h : s.memOk) : (madBody o c s).memOk :=
  .withOps h (.next (.put h))

theorem Res.memOk.bfxBody {o : Op3} {c : Ctx} {s : State} (h : s.memOk) : (bfxBody o c s).memOk :=
  .withOps h (.next (.put h))

theorem Res.memOk.bfiBody {o : Op3} {c : Ctx} {s : State} (h : s.memOk) : (bfiBody o c s).memOk :=
  .withOps h (.next (.put h))

theorem Res.memOk.cmpBody {o : Op3} {c : Ctx} {s : State} (h : s.memOk) : (cmpBody o c s).memOk :=
  .withOps h (.next (.put h))

theorem Res.memOk.selBody {o : Op3} {c : Ctx} {s : State} (h : s.memOk) : (selBody o c s).memOk :=
  .withOps h (.next (.put h))

theorem Res.memOk.leaBody {o : Op3} {c : Ctx} {s : State} (h : s.memOk) : (leaBody o c s).memOk :=
  .withOps h (.next (.put h))

/-! ### Floats and conversions -/

theorem Res.memOk.fltMould {op : FltOp} {o : Op3} {c : Ctx} {s : State} (h : s.memOk) : (fltMould op o c s).memOk :=
  .withOps h (.next (.put h))

theorem Res.memOk.fltFun {f : FV → Approx} {o : Op3} {c : Ctx} {s : State} (h : s.memOk) : (fltFun f o c s).memOk :=
  .withOps h (.next (.put h))

theorem Res.memOk.cvtBody {e : Ext} {c : Ctx} {s : State} (h : s.memOk) : (cvtBody e c s).memOk :=
  .withOps h (.next (.put h))

theorem Res.memOk.bqntBody {e : Ext} {c : Ctx} {s : State} (h : s.memOk) : (bqntBody e c s).memOk :=
  .withOps h (.ite (.next h) (.next (.put h)))

theorem Res.memOk.vdotBody {e : Ext} {c : Ctx} {s : State} (h : s.memOk) : (vdotBody e c s).memOk :=
  .withOps h (.next (.put h))

/-! ### Predicates and lanes -/

theorem Res.memOk.plogBody {e : Ext} {c : Ctx} {s : State} (h : s.memOk) : (plogBody e c s).memOk :=
  .withOps h (.next (.put h))

theorem Res.memOk.pmovBody {e : Ext} {c : Ctx} {s : State} (h : s.memOk) : (pmovBody e c s).memOk := by
  unfold Machine.pmovBody
  dsimp only
  split
  · exact .ite (.withOps h (.next (.put h))) (.withOps h (.next (.put h)))
  · exact .withOps h (.next (.ite h (.put h)))

theorem Res.memOk.ballotBody {e : Ext} {c : Ctx} {s : State} (h : s.memOk) : (ballotBody e c s).memOk :=
  .withOps h (.next (.put h))

theorem Res.memOk.voteBody {e : Ext} {c : Ctx} {s : State} (h : s.memOk) : (voteBody e c s).memOk :=
  .withOps h (.next (.put h))

theorem Res.memOk.mprefixBody {e : Ext} {c : Ctx} {s : State} (h : s.memOk) : (mprefixBody e c s).memOk :=
  .withOps h (.next (.put h))

theorem Res.memOk.electBody {d : Nat} {m : Ctx → Mask} {c : Ctx} {s : State} (h : s.memOk) : (electBody d m c s).memOk :=
    by
  unfold Machine.electBody
  refine .withOps h (.next ?_)
  split
  · exact h
  · exact .put h

theorem Res.memOk.shflBody {e : Ext} {c : Ctx} {s : State} (h : s.memOk) : (shflBody e c s).memOk :=
  .withOps h (.next (.put h))

theorem Res.memOk.lscanBody {e : Ext} {c : Ctx} {s : State} (h : s.memOk) : (lscanBody e c s).memOk :=
  .withOps h (.next (.put h))

theorem Res.memOk.lredBody {e : Ext} {c : Ctx} {s : State} (h : s.memOk) : (lredBody e c s).memOk :=
  .withOps h (.next (.put h))

/-! ### Packets and requests -/

theorem State.memOk.send {s u : State} {p : Packet} (h : s.memOk) (e : s.send p = some u) : u.memOk := by
  obtain ⟨_, _, rfl⟩ := Option.map_eq_some_iff.1 e
  exact .of_mem rfl h

theorem State.memOk.trySend {s : State} {p : Packet} (h : s.memOk) : (s.trySend p).memOk := by
  unfold State.trySend
  cases he : s.send p with
  | none => exact h
  | some t => exact .send h he

theorem State.memOk.updPort {s : State} {k : Nat} {f : Port → Port} (h : s.memOk) : (s.updPort k f).memOk :=
  .of_mem rfl h

theorem State.memOk.recv {s : State} {p : Packet} {f : State → State} (h : s.memOk) (hf : ∀ t, t.memOk → (f t).memOk) :
    (s.recv p f).memOk :=
  .ite (hf s h) (.updPort h)

theorem State.memOk.exported {s : State} {src off n : Nat} {a : Acc} (h : s.memOk) : (s.exported src off n a).2.memOk :=
    by
  unfold State.exported
  split
  · exact h
  · refine .ite_snd h (.ite_snd h (.ite_snd h (.ite_snd h ?_)))
    have ht {sp va} : (s.translate sp va).2.memOk := .translate h
    dsimp only
    split
    · exact ht
    · exact ht
    · exact .retire ht
    · split
      · exact ht
      · exact ht
      · exact .ite_snd ht (.ite_snd ht (.ite_snd (.retire ht) ht))

theorem State.memOk.serve {s : State} {p : Packet} (h : s.memOk) : (s.serve p).2.memOk := by
  unfold State.serve
  dsimp only
  split
  · rename_i he
    exact .of_snd he (.exported h)
  · split
    · rename_i he _ _
      exact State.memOk_setBytes (.of_snd he (.exported h)) _ _
    · rename_i he _ _
      exact .ite (State.memOk_setNum (.of_snd he (.exported h)) _ _ _) (.of_snd he (.exported h))
    · rename_i he _ _ _
      exact .of_snd he (.exported h)

theorem State.memOk.ask {s : State} {handle : BitVec 32} {half l va : Nat} {inst : Option Nat} {p : Packet} (h : s.memOk)
    :
    (s.ask handle half l va inst p).memOk := by
  unfold State.ask
  dsimp only
  split
  · exact .of_mem (s := (State.serve _ _).2) rfl (.serve h)
  · split
    · rename_i t he
      exact .of_mem (s := t) rfl (.send h he)
    · exact .of_mem rfl h

theorem State.memOk.withdraw {s : State} {p : Req → Bool} (h : s.memOk) : (s.withdraw p).memOk :=
  .foldl (.of_mem rfl h) fun _ _ h => .trySend h

theorem State.memOk.giveUp {s : State} {p : Req → Bool} (h : s.memOk) : (s.giveUp p).memOk :=
  .of_mem (s := State.withdraw _ _) rfl (.withdraw h)

theorem State.memOk.dropReqs {s : State} {c : Ctx} (h : s.memOk) : (s.dropReqs c).memOk :=
  .giveUp h

theorem State.memOk.wakeReq {s : State} {r : Req} (h : s.memOk) : (s.wakeReq r).memOk := by
  unfold State.wakeReq
  split
  · exact h
  · split
    · exact .updWave h
    · split
      · exact h
      · split
        · exact h
        · exact .ite h (.updWave h)

theorem State.memOk.install {s : State} {core peer off : Nat} {bs : List Byte} (h : s.memOk) :
    (s.install core peer off bs).memOk :=
  .ite (.foldl h fun _ _ h => .foldl h fun _ _ h => .setCopy h) h

theorem State.memOk.payAcks {s : State} (h : s.memOk) : s.payAcks.memOk :=
  .foldl (.of_mem rfl h) fun _ _ h => .trySend h

theorem State.memOk.answerReq {s : State} {p : Packet} (h : s.memOk) : (s.answerReq p).memOk := by
  unfold State.answerReq
  split
  · exact h
  · split
    · exact .payAcks (.of_mem rfl h)
    · refine .payAcks (.wakeReq ?_)
      split
      · exact .ite (.install (.of_mem rfl h)) (.of_mem rfl h)
      · exact .of_mem rfl h

theorem State.memOk.waitOn {s : State} {c : Ctx} {i : Instr} (h : s.memOk) : (s.waitOn c i).memOk :=
  .updPath (.of_mem rfl h)

theorem State.memOk.waitReqs {s : State} {c : Ctx} {i : Instr} (h : s.memOk) : (s.waitReqs c i).memOk :=
  .ite (.updPath h) (.waitOn h)

/-! ### Loads, stores, atomics and fences -/

theorem State.memOk.setProg {s : State} {c : Ctx} {done : Mask} {k : Nat} (h : s.memOk) : (s.setProg c done k).memOk :=
  .updPath h

theorem State.memOk.bumpSfr {s : State} {c : Ctx} (h : s.memOk) : (s.bumpSfr c).memOk :=
  .updWave h

theorem State.memOk.resume {s : State} {a : Who} {f : Instr → Option (Option Ext × (Ctx → State → Res))} (h : s.memOk)
    (hf : ∀ i e body, f i = some (e, body) → ∀ c s, s.memOk → (body c s).memOk) : (s.resume a f).memOk := by
  unfold State.resume
  split
  · exact h
  · rename_i c _
    split
    · exact h
    · rename_i i e body hbody
      have hres : (body c (s.updPath c fun p => { p with wait := .ready })).memOk := by
        obtain ⟨j, -, hj⟩ := Option.bind_eq_some_iff.1 hbody
        obtain ⟨x, hx, hxe⟩ := Option.map_eq_some_iff.1 hj
        obtain ⟨-, rfl⟩ := Prod.mk.inj hxe
        exact hf j e body hx _ _ (.updPath h)
      generalize body c (s.updPath c fun p => { p with wait := .ready }) = r at hres
      cases r with
      | wait t =>
        dsimp only
        split
        · exact .ite h (.updPath hres)
        · exact hres
      | next t | nextR t | jump t | raise t code a => exact .conclude hres

theorem State.memOk.performAtomn {s : State} {sp : Space} {a : AtomnOp} (h : s.memOk) : (s.performAtomn sp a).2.memOk :=
  .ite_snd (.retire h) (.performLane h)

theorem State.memOk.drainAtomn {s : State} {core slot : Nat} (h : s.memOk) : (s.drainAtomn core slot).memOk := by
  unfold State.drainAtomn
  split
  · exact h
  · refine .setWave (List.foldlRecOn (motive := fun x : State × Wave => x.1.memOk) _ _ h ?_)
    exact fun _ hx _ _ => .performAtomn (.setWave hx)

theorem State.memOk.orphanError {s : State} {o : Orphan} (h : s.memOk) : (s.orphanError o).memOk := by
  unfold State.orphanError
  split
  · exact .ite (.killBlock (.updCore h)) (.updCore h)
  · exact .updCore h

theorem State.memOk.drainOrphans {s : State} {on : Nat → Bool} (h : s.memOk) : (s.drainOrphans on).memOk :=
  .foldl (.of_cells rfl rfl h) fun _ _ h => .ite (.performAtomn h) (.orphanError (.performAtomn h))

theorem State.memOk.orderAtomn {s : State} {c : Ctx} {sync : Bool} {ls : List LaneAcc} {n : Nat} (h : s.memOk) :
    (s.orderAtomn c sync ls n).memOk := by
  unfold State.orderAtomn
  dsimp only
  split
  · exact h
  · exact .ite (.drainAtomn h) h

theorem State.memOk.askLanes {s : State} {c : Ctx} {o : MemOp} {ts : List LaneTr} (h : s.memOk) :
    (s.askLanes c o ts).2.memOk := by
  induction ts generalizing s with
  | nil => exact h
  | cons t ts ih =>
    unfold State.askLanes
    split
    · exact ih (.of_mem rfl h)
    · exact ih (.ask h)

theorem Res.memOk.runAccess {i : Instr} {o : MemOp} {close : Bool} {ls : List LaneAcc}
    {put : List (Nat × Nat) → Wave → Wave} {c : Ctx} {s : State} (h : s.memOk) :
    (runAccess i o close ls put c s).memOk := by
  unfold Machine.runAccess
  refine .ite (.next h) ?_
  extract_lets done0 rs got s1 s2 s3 done left s4
  have h3 : s3.memOk := .ite (.bumpSfr (.put (.dropReqs h))) (.put (.dropReqs h))
  have h4 : s4.memOk := .orderAtomn h3
  clear_value s3 s4
  split
  · exact .raise (.setProg h3)
  · split
    · exact .raise (.setProg h3)
    · refine .quietlyIf h3 ?_
      split
      rename_i p s5 hp
      have h5 := State.memOk.of_snd hp (.ite_snd h4 (.access h4))
      extract_lets parked
      split
      rename_i vs s6 hv
      have h6 := State.memOk.of_snd hv (.ite_snd (.askLanes h5) h5)
      extract_lets vals s7 s8 done' s9
      have h9 : s9.memOk := .setProg (.ite (.bumpSfr (.put h6)) (.put h6))
      clear_value s9
      split
      · exact .raise h9
      · refine .ite (.wait (.park h9)) (.ite (.wait (.waitReqs h9)) ?_)
        exact .ite (.nextR (.ite (.acquire h9) h9)) (.next (.ite (.acquire h9) h9))

theorem Res.memOk.ldBody {i : Instr} {m : MemArgs} {c : Ctx} {s : State} (h : s.memOk) : (ldBody i m c s).memOk :=
  .withOps h (.runAccess h)

theorem Res.memOk.stBody {i : Instr} {m : MemArgs} {c : Ctx} {s : State} (h : s.memOk) : (stBody i m c s).memOk :=
  .withOps h (.runAccess h)

theorem Res.memOk.atomBody {e : Ext} {c : Ctx} {s : State} (h : s.memOk) : (atomBody e c s).memOk :=
  .withOps h (.runAccess h)

theorem Res.memOk.atomnBody {e : Ext} {c : Ctx} {s : State} (h : s.memOk) : (atomnBody e c s).memOk := by
  refine .withOps h (.ite (.next h) ?_)
  extract_lets done0 rs got done s1 s2 ls sp
  have h2 : s2.memOk := .ite (.bumpSfr (.dropReqs h)) (.dropReqs h)
  clear_value s2
  split
  · exact .raise (.setProg h2)
  · split
    · exact .raise (.setProg h2)
    · refine .quietlyIf h2 ?_
      split
      split
      rename_i f s3 hf
      have h3 := State.memOk.of_snd hf (.translateLanes h2)
      split
      · exact .raise (.setProg (.ite (.retireParts h3) h3))
      · split
        rename_i qs whole s4 hq
        have h4 := State.memOk.of_snd_snd hq (.openRecords h3)
        refine .ite (.wait (.park (.setProg h4))) ?_
        split
        split
        extract_lets s5 sp' s6
        have h6 : s6.memOk := .ite (.releaseBy (.orderAtomn h4)) (.orderAtomn h4)
        clear_value s6
        exact .ite (.wait (.waitReqs (.setProg (.askLanes h6))))
          (.nextR (.updWave (.ite (.bumpSfr (.performAll (.performWins h6))) (.performAll (.performWins h6)))))

theorem State.memOk.feSet {s : State} {core : Nat} {full : Bool} {ls : List LaneAcc} (h : s.memOk) :
    (s.feSet core full ls).memOk :=
  .setFe h

theorem Res.memOk.ldlBody {i : Instr} {m : MemArgs} {c : Ctx} {s : State} (h : s.memOk) : (ldlBody i m c s).memOk := by
  unfold Machine.ldlBody
  refine .withOps h ?_
  dsimp only
  split
  · exact .raise h
  · split
    · exact .wait (.waitOn h)
    · split
      · exact .raise h
      · exact .next (.put (.ite (.bumpSfr (.acquire (.orderAtomn (.ite (.feSet h) h)))) (.ite (.feSet h) h)))

theorem Res.memOk.stlBody {i : Instr} {m : MemArgs} {c : Ctx} {s : State} (h : s.memOk) : (stlBody i m c s).memOk := by
  unfold Machine.stlBody
  refine .withOps h ?_
  extract_lets ls n core sync t u
  have hu : u.memOk := .foldl (.ite (.releaseBy (.orderAtomn h)) h) fun _ _ h => .setSpad h
  clear_value u
  split
  · exact .raise h
  · exact .ite (.wait (.waitOn h)) (.quietlyIf h (.ite (.nextR (.bumpSfr (.feSet hu))) (.next hu)))

/-- What performing packed elements comes to leaves the memories in canonical form. -/
def Packed.memOk : Packed → Prop
  | .done s => s.memOk
  | .stop r => r.memOk

theorem Packed.memOk.done {s : State} (h : s.memOk) : (Packed.done s).memOk := h

theorem Packed.memOk.stop {r : Res} (h : r.memOk) : (Packed.stop r).memOk := h

theorem State.memOk.of_done {x : Packed} {s : State} (e : x = .done s) (h : x.memOk) : s.memOk := by
  rw [e] at h
  exact h

theorem Res.memOk.of_stop {x : Packed} {r : Res} (e : x = .stop r) (h : x.memOk) : r.memOk := by
  rw [e] at h
  exact h

theorem Packed.memOk.packElems {i : Instr} {o : MemOp} {base : Nat} {put : List (Nat × Nat) → Wave → Wave} {c : Ctx}
    {data : Nat → Nat} {k : Nat} {ls : List Nat} {s : State} (h : s.memOk) :
    (packElems i o base put c data k ls s).memOk := by
  induction ls generalizing k s with
  | nil => exact h
  | cons l ls ih =>
    unfold Machine.packElems
    have hs : (s.setProg c 0 k).memOk := .setProg h
    dsimp only
    generalize s.setProg c 0 k = u at hs
    split
    · split
      · exact ih (.put (.dropReqs hs))
      · split
        · exact .stop (.raise (.dropReqs hs))
        · exact .stop (.wait (.waitReqs (.dropReqs hs)))
    · split
      · exact .stop (.raise hs)
      · have ha := State.memOk.access (.orderAtomn hs (c := c) (sync := false)
          (ls := [⟨l, (base + k * o.n) % 2 ^ 64, data l, 0⟩])
          (n := o.n)) (sp := c.space u) (o := o) (ls := [⟨l, (base + k * o.n) % 2 ^ 64, data l, 0⟩])
        split
        · exact .stop (.raise ha)
        · split
          · exact .stop (.wait (.park ha))
          · split
            · exact .stop (.wait (.waitReqs (.askLanes ha)))
            · exact ih (.put (.askLanes ha))

theorem Res.memOk.cmpstBody {e : Ext} {c : Ctx} {s : State} (h : s.memOk) : (cmpstBody e c s).memOk := by
  refine .withOps h (.ite (.next (.put h)) (.ite (.raise h) (.quietlyIf h ?_)))
  dsimp only
  split
  · rename_i he
    refine .of_stop he (.packElems ?_)
    exact .ite (.ite (.bumpSfr (.releaseBy (.orderAtomn h))) (.releaseBy (.orderAtomn h))) h
  · rename_i he
    have ht := State.memOk.of_done he (.packElems
      (.ite (.ite (.bumpSfr (.releaseBy (.orderAtomn h))) (.releaseBy (.orderAtomn h))) h))
    exact .ite (.nextR (.put ht)) (.next (.put ht))

theorem Res.memOk.expldBody {e : Ext} {c : Ctx} {s : State} (h : s.memOk) : (expldBody e c s).memOk := by
  refine .withOps h (.ite (.next (.put h)) (.ite (.raise h) ?_))
  dsimp only
  split
  · rename_i he
    exact .of_stop he (.packElems h)
  · rename_i he
    have ht := State.memOk.of_done he (.packElems h)
    exact .next (.put (.ite (.bumpSfr (.acquire (.orderAtomn ht))) ht))

theorem Res.memOk.fenceBody {e : Ext} {c : Ctx} {s : State} (h : s.memOk) : (fenceBody e c s).memOk := by
  refine .ite (.next h) (.quietly h ?_)
  extract_lets ord t u v
  have ht : t.memOk := .orderAtomn h
  have hu : u.memOk := .ite (.releaseBy ht) ht
  exact .next (.bumpSfr (.ite (.acquire hu) hu))

theorem Res.memOk.fenceoBody {c : Ctx} {s : State} (h : s.memOk) : (fenceoBody c s).memOk :=
  .ite (.next h) (.next (.bumpSfr (.orderAtomn h)))

theorem Res.memOk.fencerBody {e : Ext} {c : Ctx} {s : State} (h : s.memOk) : (fencerBody e c s).memOk := by
  refine .ite (.next h) (.quietlyIf h ?_)
  extract_lets scope cores cut t u v w x
  have hx : x.memOk := .foldl (.foldl (.drainOrphans (.foldl h fun _ _ h => .drainAtomn h)) fun _ _ h => .release h)
    fun _ _ h => .acquire h
  exact .ite (.wait (.waitOn (.setProg hx))) (.next (.bumpSfr (.widenRecords hx)))

theorem Res.memOk.prefBody {e : Ext} {c : Ctx} {s : State} (h : s.memOk) : (prefBody e c s).memOk :=
  .withOps h (.next h)

theorem State.memOk.flushGran {s : State} {g : Nat} {us : List Nat} {n : Nat} (h : s.memOk) :
    (s.flushGran g us n).memOk := by
  induction us generalizing n with
  | nil => cases n <;> exact h
  | cons u us ih =>
    cases n with
    | zero => exact h
    | succ n => exact .pushCopy ih

theorem State.memOk.rangePages {s : State} {sp : Space} {lo hi : Nat} {ps : List Nat} (h : s.memOk) :
    (s.rangePages sp lo hi ps).2.memOk := by
  induction ps generalizing s with
  | nil => exact h
  | cons pg ps ih =>
    unfold State.rangePages
    refine .ite_snd (ih h) (.ite_snd (ih h) ?_)
    have hr := ih (.translate h (sp := sp) (va := max lo (pg * 4096)))
    dsimp only
    split
    · exact hr
    · exact hr
    · exact hr
    · exact .ite_snd hr (.ite_snd hr hr)

theorem Res.memOk.maintBody {inv : Bool} {e : Ext} {c : Ctx} {s : State} (h : s.memOk) : (maintBody inv e c s).memOk := by
  unfold Machine.maintBody
  refine .withOps h (.ite (.next h) (.ite (.raise h) (.ite (.next h) ?_)))
  dsimp only
  have ht {sp lo hi ps} : ((s.orderAtomn c true [] 0).rangePages sp lo hi ps).2.memOk := .rangePages (.orderAtomn h)
  split
  · exact .raise (.foldl ht fun _ _ h => .retire h)
  · exact .raise ht
  · have hu {t : State} {ks : List Nat} {f : State → Nat → List Nat} {g} (ht : t.memOk) :
      (ks.foldl (fun s k => (f s k).foldl
        (fun s x => s.flushGran x (cachePath k) (scopeDepth (e.m 2 3))) s)
        (ks.foldl (fun s k => s.flushWaves k g) t)).memOk :=
      .foldl (.foldl ht fun _ _ h => .flushWaves h) fun _ _ h => .foldl h fun _ _ h => .flushGran h
    exact .ite (.next (hu ht)) (.next (.foldl (.foldl (hu ht) fun _ _ h => .foldl h fun _ _ h =>
      .foldl h fun _ _ h => .dropCopy h) fun _ _ h => .updCore h))

theorem State.memOk.mapWaves {s : State} {f : Nat → Nat → Wave → Wave} (h : s.memOk) : (s.mapWaves f).memOk :=
  .of_mem rfl h

theorem State.memOk.hostAnswered {s : State} {die : Nat} {seq : BitVec 16} {raise : Bool} (h : s.memOk) :
    (s.hostAnswered die seq raise).memOk :=
  .ite h (.of_mem rfl h)

theorem State.memOk.walkAgain {s : State} {die : Nat} {seq : BitVec 16} (h : s.memOk) : (s.walkAgain die seq).memOk := by
  unfold State.walkAgain
  split
  · exact h
  · exact .foldl (.of_mem (s := State.hostAnswered _ _ _ _) rfl (.hostAnswered (.of_cells rfl rfl h))) fun _ _ h =>
      .merge h

theorem State.memOk.agentFault {s : State} {core code addr : Nat} (h : s.memOk) : (s.agentFault core code addr).memOk :=
    by
  unfold State.agentFault
  split
  · exact .takeException h
  · exact h

theorem State.memOk.raiseDue {s : State} {die : Nat} {seq : BitVec 16} (h : s.memOk) : (s.raiseDue die seq).memOk := by
  unfold State.raiseDue
  refine .foldl h fun _ _ h => .foldl h fun _ _ h => ?_
  split
  · exact .agentFault (.updWave h)
  · exact h

theorem State.memOk.raiseParked {s : State} {die : Nat} {seq : BitVec 16} (h : s.memOk) :
    (s.raiseParked die seq).memOk := by
  unfold State.raiseParked
  split
  · exact h
  · refine .foldl (.of_cells rfl rfl (.raiseDue (.hostAnswered h))) fun _ _ h => ?_
    split
    · exact h
    · exact .ite (.takeException (.updWave h)) (.takeException (.updPath h))

theorem State.memOk.unlessMin {s : State} {k : State → State} (h : s.memOk) (hk : ∀ t, t.memOk → (k t).memOk) :
    (s.unlessMin k).memOk :=
  .ite h (hk s h)

theorem State.memOk.fbpop {s : State} {die : Nat} (h : s.memOk) : (s.fbpop die).memOk :=
  .of_cells rfl rfl h

theorem State.memOk.struck {s : State} {a : Config.Strike} (h : s.memOk) : (s.struck a).memOk := by
  unfold State.struck
  split
  · exact .ite h (.of_cells rfl rfl h)
  · split
    · exact h
    · exact .ite (.setCopy h) (.retire (.dropCopy h))
  · exact .updCore h
  · exact .updWave h
  · exact .updMSet h

end Sys2Proof.Machine

end

-- ==== The memories stay canonical: barriers, traps and control flow; O54 ====
section
/-!
Images, barriers, traps and control flow keep the canonical form of the memories.
-/

namespace Sys2Proof.Machine

/-! ### Images of waves -/

theorem State.memOk.forgetNames {s : State} {core slot : Nat} (h : s.memOk) : (s.forgetNames core slot).memOk := by
  unfold State.forgetNames
  split
  · exact .giveUp h
  · exact h

theorem State.memOk.quiesce {s : State} {core slot : Nat} (h : s.memOk) : (s.quiesce core slot).memOk :=
  .updCore (.updWave (.forgetNames (.drainAtomn h)))

theorem State.memOk.saveOut {s : State} {core slot : Nat} (h : s.memOk) : (s.saveOut core slot).memOk := by
  unfold State.saveOut
  dsimp only
  split
  · exact .release (.quiesce h)
  · exact .updWaveObj (.vacate (State.memOk_setBytes (.release (.quiesce h)) _ _))

theorem State.memOk.enqueue {s : State} {cluster : Nat} {sc : BitVec 32} {a : BitVec 32 ⊕ Nat} (h : s.memOk) :
    (s.enqueue cluster sc a).memOk :=
  .of_mem rfl h

theorem State.memOk.readyWave {s : State} {h1 : BitVec 32} (h : s.memOk) : (s.readyWave h1).memOk := by
  unfold State.readyWave
  split
  · exact .enqueue (.updWaveObj h)
  · exact h

theorem State.memOk.install' {s : State} {core slot : Nat} {w : Wave} (h : s.memOk) : (s.install' core slot w).memOk :=
  .foldl (.updWaveObj (.setWave (.updCore (.acquire (.flushUnit h))))) fun _ _ h => .merge h

theorem State.memOk.loadIn {s u : State} {core slot : Nat} {hd : BitVec 32} {bs : List Byte} (h : s.memOk)
    (e : s.loadIn core slot hd bs = some u) : u.memOk := by
  unfold State.loadIn at e
  split at e
  · split at e <;> cases e
    exact .install' h
  · cases e

/-! ### Barriers, blocks and regrouping -/

theorem State.memOk.updBar {s : State} {l key : Nat} {f : Bar → Bar} (h : s.memOk) : (s.updBar l key f).memOk :=
  .updLaunch h

theorem State.memOk.arriveBar {s : State} {c : Ctx} {r : BarRef} (h : s.memOk) : (s.arriveBar c r).memOk :=
  .bumpSfr (.updBar (.releaseBy (.orderAtomn h)))

theorem State.memOk.completeBar {s : State} {c : Ctx} {r : BarRef} (h : s.memOk) : (s.completeBar c r).memOk :=
  .bumpSfr (.acquire (.orderAtomn h))

theorem Res.memOk.barBody {i : Instr} {wait : Bool} {id d : Nat} {c : Ctx} {s : State} (h : s.memOk) :
    (barBody i wait id d c s).memOk := by
  unfold Machine.barBody
  refine .withOps h ?_
  split
  · exact .raise h
  · split
    · exact .raise h
    · split
      · dsimp only
        split
        · exact .ite (.nextR (.completeBar h)) (.wait (.waitOn h))
        · exact .ite (.wait (.waitOn h)) (.quietly h (.nextR (.put (.arriveBar h))))
      · dsimp only
        split
        · exact .ite (.nextR (.completeBar h)) (.wait (.waitOn h))
        · exact .ite (.wait (.waitOn h)) (.quietly h (.ite (.nextR (.completeBar (.arriveBar h)))
            (.wait (.waitOn (.setProg (.arriveBar h))))))

theorem Res.memOk.barwBody {i : Instr} {id a : Nat} {c : Ctx} {s : State} (h : s.memOk) : (barwBody i id a c s).memOk :=
    by
  unfold Machine.barwBody
  refine .withOps h ?_
  split
  · exact .raise h
  · split
    · exact .raise h
    · dsimp only
      split
      · exact .raise h
      · exact .ite (.next (.completeBar h)) (.wait (.waitOn h))

theorem Res.memOk.barBodyOf {i : Instr} {e : Option Ext} {body : Ctx → State → Res} (he : barBodyOf i = some (e, body))
    (c : Ctx) (s : State) (h : s.memOk) : (body c s).memOk := by
  unfold Machine.barBodyOf at he
  split at he <;> cases he
  · exact .barBody h
  · exact .barBody h
  · exact .barwBody h

theorem State.memOk.nextPhase {s : State} {l key : Nat} (h : s.memOk) : (s.nextPhase l key).memOk :=
  .foldl (.updBar h) fun _ _ h => .resume h fun _ _ _ => Res.memOk.barBodyOf

theorem State.memOk.lookAgain {s : State} {core slot : Nat} (h : s.memOk) : (s.lookAgain core slot).memOk :=
  .foldl h fun _ _ h => .resume h fun _ _ _ => Res.memOk.barBodyOf

theorem State.memOk.peerRelease {s : State} {key base count phase : Nat} (h : s.memOk) :
    (s.peerRelease key base count phase).memOk := by
  unfold State.peerRelease
  split
  · exact .ite (.nextPhase h) h
  · exact h

theorem State.memOk.peerArrive {s : State} {src key base count phase : Nat} {final : Bool} (h : s.memOk) :
    (s.peerArrive src key base count phase final).memOk := by
  unfold State.peerArrive
  split
  · exact h
  · exact .ite (.foldl (.of_mem rfl h) fun _ _ h => .ite (.peerRelease h) (.trySend h)) (.of_mem rfl h)

theorem State.memOk.phaseComplete {s : State} {blk k : Nat} (h : s.memOk) : (s.phaseComplete blk k).memOk := by
  unfold State.phaseComplete
  split
  · exact h
  · split
    · dsimp only
      split
      · split
        · exact h
        · exact .ite (.peerArrive (.updBar h)) (.trySend (.updBar h))
      · exact h
    · exact .ite (.nextPhase h) h

theorem State.memOk.withdrawBars {s : State} {core slot : Nat} (h : s.memOk) : (s.withdrawBars core slot).memOk := by
  unfold State.withdrawBars
  refine .foldl h fun _ _ h => ?_
  split
  · exact h
  · split
    · split
      · split
        · exact h
        · exact .ite (.conclude (.nextR (.completeBar h))) (.updPath (.updBar h))
      · exact h
    · exact h

theorem State.memOk.tryRegroup {s : State} {blk : Nat} (h : s.memOk) : (s.tryRegroup blk).memOk := by
  unfold State.tryRegroup
  dsimp only
  split
  · exact h
  · split
    · exact h
    · split
      · refine .foldl h fun _ _ h => ?_
        split
        · exact .raise (.updWave h)
        · exact h
      · refine .foldl (.foldl h fun _ _ h => .updWave h) fun _ _ h => ?_
        split
        · exact .conclude (.nextR (.bumpSfr (.acquire (.releaseBy (.orderAtomn h)))))
        · exact h

theorem Res.memOk.regroupBody {i : Instr} {key : Bool} {e : Ext} {c : Ctx} {s : State} (h : s.memOk) :
    (regroupBody i key e c s).memOk := by
  unfold Machine.regroupBody
  split
  split
  · exact .raise h
  · refine .withOps h ?_
    split
    · exact .raise h
    · exact .ite (.raise h) (.quietly h (.wait (.tryRegroup (.waitOn h))))

theorem Res.memOk.vgrowBody {e : Ext} {c : Ctx} {s : State} (h : s.memOk) : (vgrowBody e c s).memOk :=
  .withOps h (.ite (.next h) (.ite (.next (.put h)) (.wait (.waitOn (.updCore h)))))

theorem Res.memOk.vshrinkBody {e : Ext} {c : Ctx} {s : State} (h : s.memOk) : (vshrinkBody e c s).memOk := by
  unfold Machine.vshrinkBody
  dsimp only
  split
  · exact .next h
  · exact .ite (.raise h) (.next (.updCore (.put h)))

theorem State.memOk.passGrows {s : State} {core slot : Nat} {f : Instr → Bool} {ok : Bool} {fuel : Nat} (h : s.memOk) :
    (s.passGrows core slot f ok fuel).memOk := by
  induction fuel generalizing s with
  | zero => exact h
  | succ fuel ih =>
    unfold State.passGrows
    dsimp only
    split
    · exact h
    · exact ih (.conclude (.next (.put h)))

theorem State.memOk.endGrows {s : State} {core slot : Nat} {f : Instr → Bool} {ok : Bool} (h : s.memOk) :
    (s.endGrows core slot f ok).memOk :=
  .passGrows (.updWave h)

theorem State.memOk.grantBlock {s : State} {core : Nat} (h : s.memOk) : (s.grantBlock core).memOk := by
  unfold State.grantBlock
  split
  · exact .ite h (.endGrows (.updWave (.updCore h)))
  · exact h

theorem State.memOk.vgrowBreak {s : State} {core : Nat} (h : s.memOk) : (s.vgrowBreak core).memOk := by
  unfold State.vgrowBreak
  dsimp only
  split
  · exact h
  · split
    · exact h
    · exact .endGrows (.updCore h)

/-! ### Traps and their records -/

theorem State.memOk.makeWave {s u : State} {n : NewWave} {hd : BitVec 32} (h : s.memOk) (e : s.makeWave n = some (hd, u))
    :
    u.memOk := by
  unfold State.makeWave at e
  split at e
  · extract_lets gen h' id w addr t kern t' v at e
    have ht : t.memOk := State.memOk_setBytes h _ _
    have hv : v.memOk := .setObj (s := t') (.of_mem (s := t) rfl ht)
    clear_value v
    obtain ⟨-, rfl⟩ := Prod.mk.inj (Option.some.inj e)
    exact .enqueue hv
  · cases e

theorem State.memOk.terminate {s : State} {h1 : BitVec 32} {blk : Option Nat} (h : s.memOk) :
    (s.terminate h1 blk).memOk := by
  unfold State.terminate
  split
  · exact .killBlock h
  · exact .endHandle h

theorem State.memOk.forgetReqs {s : State} {h1 : BitVec 32} {half : Nat} (h : s.memOk) : (s.forgetReqs h1 half).memOk :=
  .giveUp h

theorem State.memOk.rewrite {s : State} {h1 : BitVec 32} {w : Wave} (h : s.memOk) : (s.rewrite h1 w).memOk :=
  .updWaveObj (State.memOk_setBytes h _ _)

theorem State.memOk.regroupAfter {s : State} {blk : Option Nat} (h : s.memOk) : (s.regroupAfter blk).memOk := by
  unfold State.regroupAfter
  split
  · exact .tryRegroup h
  · exact h

theorem State.memOk.resumeWave {s : State} {h1 : BitVec 32} (h : s.memOk) : (s.resumeWave h1).memOk := by
  unfold State.resumeWave
  split
  · exact .ite h (.lookAgain (.setWave h))
  · split
    · exact h
    · exact .ite (.readyWave (.updWaveObj h)) (.updWaveObj h)
  · exact h

theorem State.memOk.releaseHeld {s : State} {blk : Option Nat} (h : s.memOk) : (s.releaseHeld blk).memOk := by
  unfold State.releaseHeld
  split
  · exact h
  · exact .ite h (.tryEndBlock (.foldl (.updBlock h) fun _ _ h => .foldl h fun _ _ h => .resumeWave h))

theorem State.memOk.returnWave {s : State} {id : WaveId} (h : s.memOk) : (s.returnWave id).memOk := by
  unfold State.returnWave
  extract_lets hd cores core t
  have ht : t.memOk := .of_mem rfl h
  clear_value t
  split
  · exact .readyWave ht
  · exact .getD (fun _ => .loadIn ht) (.readyWave ht)

theorem State.memOk.giveVerdict {s : State} {core slot : Nat} {d : Due} (h : s.memOk) :
    (s.giveVerdict core slot d).memOk := by
  unfold State.giveVerdict
  split
  · exact h
  · exact .ite (.terminate h) (.regroupAfter (.releaseHeld (.lookAgain (.merge (.setWave (.ite h (.forgetReqs h)))))))

theorem State.memOk.tryVerdict {s : State} {core slot : Nat} {d : Due} (h : s.memOk) :
    (s.tryVerdict core slot d).memOk := by
  unfold State.tryVerdict
  split
  · exact h
  · dsimp only
    split
    · rename_i he
      exact .giveVerdict (.of_snd he (.checkTargets h))
    · rename_i he
      exact .agentFault (.of_snd he (.checkTargets h))
    · rename_i he
      exact .updWave (.openRecords (.of_snd he (.checkTargets h)))

theorem State.memOk.applyVerdict {s : State} {h1 : BitVec 32} {d : Due} (h : s.memOk) : (s.applyVerdict h1 d).memOk := by
  unfold State.applyVerdict
  split
  · exact h
  · split
    · exact h
    · split
      · exact .tryVerdict h
      · split
        · exact .terminate h
        · exact .ite (.returnWave (.updWaveObj h)) (.updWaveObj h)

theorem State.memOk.settleWave {s : State} {core slot : Nat} (h : s.memOk) : (s.settleWave core slot).memOk := by
  unfold State.settleWave
  split
  · exact h
  · split
    · split
      · exact .setWave h
      · exact .ite (.tryVerdict (.setWave h)) h
    · exact .raiseLater h

theorem State.memOk.settleWaves {s : State} (h : s.memOk) : s.settleWaves.memOk :=
  .foldl h fun _ _ h => .settleWave h

theorem State.memOk.passPosting {s : State} {r : TrapRec} (h : s.memOk) : (s.passPosting r).memOk := by
  unfold State.passPosting
  split
  · exact .setWave h
  · exact .rewrite h
  · exact h

theorem State.memOk.engineGo {s : State} {h1 : BitVec 32} {blk : Option Nat} {post : Option TrapRec} (h : s.memOk) :
    (s.engineGo h1 blk post).memOk := by
  unfold State.engineGo
  split
  · refine .regroupAfter (.releaseHeld (.updBlock ?_))
    split
    · exact .passPosting h
    · exact h
  · exact .resumeWave h

theorem State.memOk.engineVerdict {s : State} {r : TrapRec} {v : Nat} (h : s.memOk) : (s.engineVerdict r v).memOk := by
  unfold State.engineVerdict
  split
  · exact .ite (.applyVerdict h) (.engineGo h)
  · split
    · exact .killBlock h
    · exact .endHandle h

theorem State.memOk.handlerDone {s : State} {r : TrapRec} {v : Nat} (h : s.memOk) : (s.handlerDone r v).memOk := by
  unfold State.handlerDone
  split
  · exact h
  · exact .ite (.engineVerdict h) (.applyVerdict h)

theorem State.memOk.askBack {s : State} {h1 : BitVec 32} (h : s.memOk) : (s.askBack h1).memOk :=
  .withdraw h

theorem State.memOk.halt {s : State} {core slot : Nat} (h : s.memOk) : (s.halt core slot).memOk :=
  .quiesce (.withdrawBars h)

theorem State.memOk.keepImage {s : State} {hd : BitVec 32} (h : s.memOk) : (s.keepImage hd).memOk := by
  unfold State.keepImage
  split
  · rename_i c k _
    have ht : (s.halt c k).memOk := .halt h
    dsimp only
    generalize s.halt c k = t at ht
    split
    · exact State.memOk_setBytes ht _ _
    · exact ht
  · exact h

theorem State.memOk.terminateW {s : State} {h1 : BitVec 32} {blk : Option Nat} (h : s.memOk) :
    (s.terminateW h1 blk).memOk := by
  unfold State.terminateW
  split
  · exact .ite h (.killBlock h)
  · exact .ite (.endHandle h) h

theorem State.memOk.deliver {s : State} {core : Nat} (h : s.memOk) : (s.deliver core).memOk := by
  unfold State.deliver
  split
  · exact h
  · rename_i r rs _
    refine .ite h (.ite (.askBack h) ?_)
    extract_lets t u
    have ht : t.memOk := .updCore h
    clear_value t
    split
    · exact .terminateW (.ite (.endHandle ht) ht)
    · have hu : u.memOk := .keepImage ht
      clear_value u
      split
      · rename_i he
        split at he
        · cases he
        · exact .makeWave hu he
      · exact .handlerDone hu

theorem State.memOk.restartAgent {s : State} {core : Nat} (h : s.memOk) : (s.restartAgent core).memOk :=
  .ite (.updWave (.updCore (.of_mem rfl h))) h

theorem State.memOk.saveWave {s : State} {core slot : Nat} (h : s.memOk) : (s.saveWave core slot).memOk :=
  .saveOut (.withdrawBars h)

theorem State.memOk.haltWave {s : State} {core slot : Nat} (h : s.memOk) : (s.haltWave core slot).memOk :=
  .askBack (.updWave h)

theorem State.memOk.finishWave {s : State} {core slot : Nat} (h : s.memOk) : (s.finishWave core slot).memOk := by
  unfold State.finishWave
  dsimp only
  split
  · exact .drainAtomn h
  · split
    · exact .raiseLater (.drainAtomn h)
    · split
      · refine .handlerDone ?_
        split
        · exact .tryRegroup (.endWave (.drainAtomn h))
        · exact .endWave (.drainAtomn h)
      · split
        · exact .tryRegroup (.endWave (.drainAtomn h))
        · exact .endWave (.drainAtomn h)

/-! ### The issuing turn -/

theorem State.memOk.issuing {s : State} {a : Who} (h : s.memOk) : (s.issuing a).memOk :=
  .of_mem (s := State.updWave _ _ _ _) rfl (.updWave (.updCore h))

theorem State.memOk.yields {s : State} {core slot : Nat} (h : s.memOk) : (s.yields core slot).memOk :=
  .updWave h

/-! ### Control flow -/

theorem State.memOk.setPc {s : State} {c : Ctx} {pc : Nat} (h : s.memOk) : (s.setPc c pc).memOk :=
  .updPath h

theorem Res.memOk.gotoBody {i : Instr} {link : Bool} {t : Ctx → Nat} {c : Ctx} {s : State} (h : s.memOk) :
    (gotoBody i link t c s).memOk :=
  .transfer h fun _ h => .jump (.setPc (.ite (.put h) h))

theorem Res.memOk.gotoAbsBody {i : Instr} {link : Bool} {e : Ext} {c : Ctx} {s : State} (h : s.memOk) :
    (gotoAbsBody i link e c s).memOk :=
  .withOps h (.gotoBody h)

theorem Res.memOk.retBody {c : Ctx} {s : State} (h : s.memOk) : (retBody c s).memOk :=
  .transfer h fun _ h => .jump (.setPc h)

theorem Res.memOk.bruBody {p : Nat} {neg : Bool} {t : Nat} {c : Ctx} {s : State} (h : s.memOk) :
    (bruBody p neg t c s).memOk :=
  .ite (.next h) (.transfer h fun _ h => .jump (.setPc h))

theorem Res.memOk.bruExtBody {e : Ext} {abs : Bool} {c : Ctx} {s : State} (h : s.memOk) : (bruExtBody e abs c s).memOk :=
  .withOps h (.bruBody h)

theorem Res.memOk.divide {c : Ctx} {s : State} {join : Nat} {jmpi : Option Dword} {paths : List (Nat × Mask)}
    {pending : Mask} (h : s.memOk) : (divide c s join jmpi paths pending).memOk :=
  .ite (.raise h) (.jump (.updWave h))

theorem Res.memOk.brcBody {e : Ext} {c : Ctx} {s : State} (h : s.memOk) : (brcBody e c s).memOk :=
  .withOps h (.transfer h fun _ h => .ite (.raise h) (.ite (.next h) (.ite (.jump (.setPc h)) (.divide h))))

theorem Res.memOk.jmpiBody {e : Ext} {c : Ctx} {s : State} (h : s.memOk) : (jmpiBody e c s).memOk := by
  unfold Machine.jmpiBody
  refine .withOps h (.ite (.next h) (.transfer h fun _ h => ?_))
  split
  · exact .jump (.setPc h)
  · exact .divide h

theorem Res.memOk.loopBody {e : Ext} {c : Ctx} {s : State} (h : s.memOk) : (loopBody e c s).memOk :=
  .withOps h (.ite (.raise h) (.transfer h fun _ h => .ite (.raise h) (.ite (.jump (.setPc h)) (.next (.updWave h)))))

theorem Res.memOk.loopxBody {e : Ext} {c : Ctx} {s : State} (h : s.memOk) : (loopxBody e c s).memOk := by
  unfold Machine.loopxBody
  dsimp only
  split
  · exact .raise h
  · exact .ite (.raise h) (.jump (.setPc (.updWave h)))

theorem Res.memOk.brklBody {e : Ext} {c : Ctx} {s : State} (h : s.memOk) : (brklBody e c s).memOk := by
  unfold Machine.brklBody
  refine .withOps h ?_
  split
  · exact .raise h
  · dsimp only
    split
    · exact .next h
    · exact .ite (.next (.updWave h)) (.jump (.updWave (.updWave h)))

theorem Res.memOk.regionBody {a : Ctx} {s : State} (h : s.memOk) : (regionBody a s).memOk :=
  .nextR h

theorem Res.memOk.exitBody {c : Ctx} {s : State} (h : s.memOk) : (exitBody c s).memOk :=
  .ite (.wait (.finishWave (.updWave h))) (.jump (.updWave h))

theorem Res.memOk.nopBody {a : Ctx} {s : State} (h : s.memOk) : (nopBody a s).memOk :=
  .next h

theorem Res.memOk.yieldBody {c : Ctx} {s : State} (h : s.memOk) : (yieldBody c s).memOk :=
  .next (.yields h)

theorem Res.memOk.trapBody {code : Nat} {a : Ctx} {s : State} (h : s.memOk) : (trapBody code a s).memOk :=
  .raise h

end Sys2Proof.Machine

end

-- ==== The memories stay canonical: engines and the fabric; O54 ====
section
/-!
The matrix and copy engines, collectives and the switch keep the canonical form of the memories.
-/

namespace Sys2Proof.Machine

/-! ### Engines, channels and collectives -/

theorem State.memOk.updChan {s : State} {core ch : Nat} {f : Chan → Chan} (h : s.memOk) : (s.updChan core ch f).memOk :=
  .updCore h

theorem State.memOk.dones {s : State} {core : Nat} {a : Cmd} (h : s.memOk) : (s.dones core a).memOk :=
  .foldl h fun _ _ h => .updChan h

theorem State.memOk.setPosted {s : State} {core : Nat} {blk : Option Nat} {i : Nat} {t : BitVec 4} (h : s.memOk) :
    (s.setPosted core blk i t).memOk := by
  unfold State.setPosted
  split
  · exact .updMSet h
  · exact h

theorem State.memOk.post {s : State} {c : Ctx} {fifo : Bool} {i : Instr} {scal : List (BitVec 64)} {regs : List VReg}
    {act : Mask} {record : List Byte} {resv : List (Nat × Resv)} (h : s.memOk) :
    (s.post c fifo i scal regs act record resv).2.memOk :=
  .updCore (.of_mem rfl h)

theorem State.memOk.reserveAll {s : State} {core : Nat} {rs : List (Nat × Bool)} (h : s.memOk) :
    (s.reserveAll core rs).2.memOk := by
  induction rs generalizing s with
  | nil => exact h
  | cons r rs ih =>
    unfold State.reserveAll
    split
    · exact ih (.updChan h)
    · exact ih h

theorem State.memOk.credit {s : State} {c : Ctx} {id n : Nat} (h : s.memOk) : (s.credit c id n).memOk := by
  unfold State.credit
  split
  · exact .updBar h
  · exact h

theorem Res.memOk.postFifo {i : Instr} {e : Ext} {descs : List Nat} {put : Bool} {scal : List (BitVec 64)}
    {regs : List VReg} {act : Mask} {tag : Option (Nat × BitVec 4)} {c : Ctx} {s : State} (h : s.memOk) :
    (postFifo i e descs put scal regs act tag c s).memOk := by
  unfold Machine.postFifo
  split
  · exact .raise h
  · refine .ite (.wait (.waitOn h)) ?_
    extract_lets chans
    split
    rename_i hr
    split
    rename_i hp
    have ht := State.memOk.of_snd hp (.post (.of_snd hr (.reserveAll h)))
    extract_lets u v
    have hu : u.memOk := .ite (.credit ht) ht
    have hv : v.memOk := by
      cases tag with
      | some kt => exact .setPosted hu
      | none => exact hu
    exact .nextR (.ite (.put hv) hv)

theorem Res.memOk.mmaBody {e : Ext} {c : Ctx} {s : State} (h : s.memOk) : (mmaBody e c s).memOk :=
  .withOps h (.ite (.next h) (.postFifo h))

theorem Res.memOk.acczBody {e : Ext} {c : Ctx} {s : State} (h : s.memOk) : (acczBody e c s).memOk :=
  .withOps h (.ite (.next h) (.postFifo h))

theorem Res.memOk.accwrBody {e : Ext} {c : Ctx} {s : State} (h : s.memOk) : (accwrBody e c s).memOk :=
  .withOps h (.ite (.next h) (.postFifo h))

theorem Res.memOk.tilemvBody {i : Instr} {ld : Bool} {e : Ext} {c : Ctx} {s : State} (h : s.memOk) :
    (tilemvBody i ld e c s).memOk :=
  .withOps h (.ite (.next h) (.postFifo h))

theorem Res.memOk.accrdBody {e : Ext} {c : Ctx} {s : State} (h : s.memOk) : (accrdBody e c s).memOk :=
  .withOps h (.ite (.next h) (.ite (.wait (.waitOn (.setProg h))) (.ite (.raise h) (.next (.put h)))))

theorem State.memOk.wakePosts {s : State} {core : Nat} (h : s.memOk) : (s.wakePosts core).memOk :=
  .updCore h

theorem State.memOk.updCmd {s : State} {core id : Nat} {f : Cmd → Cmd} (h : s.memOk) : (s.updCmd core id f).memOk :=
  .updCore h

theorem State.memOk.dropCmd {s : State} {core id : Nat} {blk : Option Nat} (h : s.memOk) :
    (s.dropCmd core id blk).memOk := by
  unfold State.dropCmd
  split
  · exact .tryEndBlock (.wakePosts (.updCore h))
  · exact .wakePosts (.updCore h)

theorem State.memOk.dropEngReqs {s : State} {h1 : BitVec 32} {half : Nat} (h : s.memOk) : (s.dropEngReqs h1 half).memOk :=
  .giveUp h

theorem State.memOk.recordError {s : State} {core : Nat} {a : Cmd} {addr : Nat} (h : s.memOk) :
    (s.recordError core a addr).memOk := by
  unfold State.recordError
  split
  · split
    · split
      · exact .ite (.privTrap h) h
      · exact .ite (.privTrap h) (.trapBlock (.updCore h))
    · exact .ite (.privTrap h) (.trapBy (.updCore h))
  · split
    · split
      · exact .ite (.privTrap h) h
      · exact .ite (.privTrap h) (.trapBlock (.updCore h))
    · exact .ite (.privTrap h) (.trapBy (.updCore h))

theorem State.memOk.engineFault {s : State} {core : Nat} {a : Cmd} {addr : Nat} (h : s.memOk) :
    (s.engineFault core a addr).memOk :=
  .dropCmd (.dropEngReqs (.updCore (.foldl (.of_mem (s := State.recordError _ _ _ _) rfl (.recordError h)) fun _ _ h =>
    .dropEngReqs h)))

theorem State.memOk.peerVals {s : State} {hd : BitVec 32} {half : Nat} {inst : LaneTr → Option Nat} {o : MemOp}
    {ts : List LaneTr} (h : s.memOk) : (s.peerVals hd half inst o ts).2.memOk := by
  induction ts generalizing s with
  | nil => exact h
  | cons t ts ih =>
    unfold State.peerVals
    extract_lets q
    clear_value q
    cases q with
    | none => exact ih (.ask h)
    | some r =>
      have ht := ih h
      dsimp only
      split
      · exact ht
      · exact ht
      · exact .ite_snd ht (by split <;> exact ht)

theorem State.memOk.fetchNeed {s : State} {sp : Space} {h1 : BitVec 32} {half scope : Nat} {need : List (Nat × Nat)}
    (h : s.memOk) : (s.fetchNeed sp h1 half scope need).2.memOk := by
  unfold State.fetchNeed
  dsimp only
  split
  · exact h
  · split
    · exact .ite (.retireParts (.translateLanes h)) (.translateLanes h)
    · refine .ite_snd (.openRecords (.translateLanes h)) ?_
      split
      · rename_i he
        exact .performAll (.of_snd he (.peerVals (.openRecords (.translateLanes h))))
      · rename_i he
        exact .of_snd he (.peerVals (.openRecords (.translateLanes h)))
      · exact .peerVals (.openRecords (.translateLanes h))

theorem State.memOk.storePieces {s : State} {sp : Space} {h1 : BitVec 32} {half l scope : Nat}
    {ps : List (Nat × Nat × Nat)} (h : s.memOk) : (s.storePieces sp h1 half l scope ps).2.memOk := by
  unfold State.storePieces
  dsimp only
  split
  · exact h
  · split
    · exact .translateLanes h
    · exact .ite_snd (.openRecords (.translateLanes h)) (.foldl
        (.foldl (.openRecords (.translateLanes h)) fun _ _ h => .performLane h) fun _ _ h => .ask h)

theorem State.memOk.addOne {s : State} {sp : Space} {h1 : BitVec 32} {half scope addr : Nat} (h : s.memOk) :
    (s.addOne sp h1 half scope addr).2.memOk := by
  unfold State.addOne
  refine .ite_snd h ?_
  split
  · exact h
  · split
    split
    · rename_i he _ _ _ _
      exact .of_snd he (.access h)
    · rename_i he _ _
      exact .ite_snd (.of_snd he (.access h)) (.foldl (.of_snd he (.access h)) fun _ _ h => .ask h)

theorem State.memOk.countCmd {s : State} {core : Nat} {a : Cmd} {scope : Nat} {counter : Option Nat} (h : s.memOk) :
    (s.countCmd core a scope counter).memOk := by
  unfold State.countCmd
  split
  · exact .dropCmd h
  · dsimp only
    split
    · rename_i he
      exact .dropCmd (.dropEngReqs (.of_snd he (.addOne h)))
    · rename_i he
      exact .updCmd (.of_snd he (.addOne h))
    · rename_i he
      exact .updCmd (.of_snd he (.addOne h))
    · rename_i he
      exact .engineFault (.of_snd he (.addOne h))

theorem State.memOk.mmaExecute {s : State} {core : Nat} (h : s.memOk) : (s.mmaExecute core).memOk := by
  unfold State.mmaExecute
  split
  · exact h
  · split
    · exact h
    · split
      · exact .engineFault h
      · exact .updCmd h

theorem State.memOk.endEntry {s : State} {core : Nat} {x : Cmd} (h : s.memOk) : (s.endEntry core x).memOk := by
  unfold State.endEntry
  extract_lets t u
  have ht : t.memOk := .dones h
  have hu : u.memOk := by
    dsimp only [u]
    split
    · exact .ite (.releaseBy ht) ht
    · exact .ite (.releaseBy ht) ht
  exact .countCmd (.of_mem (s := u) rfl hu)

theorem State.memOk.fifoCounting {s : State} {core : Nat} {a : Cmd} (h : s.memOk) : (s.fifoCounting core a).memOk :=
  .countCmd h

theorem State.memOk.mmaComplete {s : State} {core : Nat} (h : s.memOk) : (s.mmaComplete core).memOk := by
  unfold State.mmaComplete
  split
  · exact h
  · split
    · exact h
    · split
      · exact .fifoCounting h
      · split
        · exact h
        · refine .endEntry ?_
          split
          · exact .updMSet h
          · exact h

theorem State.memOk.entryRun {s : State} {core : Nat} {f : Instr → Option (Nat → State → Except Nat State)} (h : s.memOk)
    (hf : ∀ i g, f i = some g → ∀ k t, g k s = .ok t → t.memOk) : (s.entryRun core f).memOk := by
  unfold State.entryRun
  split
  · exact h
  · split
    · exact h
    · rename_i g hg
      refine .ite (.fifoCounting h) ?_
      split
      · split
        · rename_i ht
          exact .endEntry (hf _ g hg _ _ ht)
        · exact .engineFault h
      · exact h

theorem State.memOk.acczExecute {s : State} {core : Nat} (h : s.memOk) : (s.acczExecute core).memOk := by
  refine .entryRun h fun i g hg k t ht => ?_
  split at hg <;> cases hg
  cases ht
  exact .updMSet h

theorem State.memOk.accwrExecute {s : State} {core : Nat} (h : s.memOk) : (s.accwrExecute core).memOk := by
  unfold State.accwrExecute
  split
  · exact h
  · refine .entryRun h fun i g hg k t ht => ?_
    split at hg <;> cases hg
    cases ht
    exact .updMSet h

theorem State.memOk.engSpad {s : State} {core off : Nat} {bs : List Byte} (h : s.memOk) : (s.engSpad core off bs).memOk :=
  .ite h (.setFe (.setSpad h))

theorem State.memOk.tilemvLdExecute {s : State} {core : Nat} (h : s.memOk) : (s.tilemvLdExecute core).memOk := by
  unfold State.tilemvLdExecute
  split
  · exact h
  · refine .entryRun h fun i g hg k t ht => ?_
    split at hg <;> cases hg
    dsimp only at ht
    split at ht <;> cases ht
    exact .updMSet h

theorem State.memOk.tilemvStExecute {s : State} {core : Nat} (h : s.memOk) : (s.tilemvStExecute core).memOk := by
  unfold State.tilemvStExecute
  split
  · exact h
  · refine .entryRun h fun i g hg k t ht => ?_
    split at hg <;> cases hg
    dsimp only at ht
    split at ht
    · cases ht
    · split at ht
      · cases ht
        exact h
      · rw [← Except.ok.inj ht]
        exact .foldl h fun _ _ h => .foldl h fun _ _ h => .engSpad h

theorem Res.memOk.chinitBody {e : Ext} {c : Ctx} {s : State} (h : s.memOk) : (chinitBody e c s).memOk := by
  unfold Machine.chinitBody
  refine .withOps h (.ite (.next h) ?_)
  split
  · exact .raise h
  · exact .ite (.raise h) (.next (.updCore h))

theorem Res.memOk.reserveBody {i : Instr} {put : Bool} {e : Ext} {c : Ctx} {s : State} (h : s.memOk) :
    (reserveBody i put e c s).memOk := by
  unfold Machine.reserveBody
  refine .withOps h (.ite (.next h) ?_)
  dsimp only
  split
  · exact .raise h
  · exact .ite (.nextR (.put (.bumpSfr (.acquire (.orderAtomn (.updChan h)))))) (.wait (.waitOn (.setProg (.updChan h))))

theorem Res.memOk.doneBody {put : Bool} {e : Ext} {c : Ctx} {s : State} (h : s.memOk) : (doneBody put e c s).memOk := by
  unfold Machine.doneBody
  refine .withOps h (.ite (.next h) ?_)
  dsimp only
  split
  · exact .raise h
  · split
    · exact .raise h
    · exact .quietly h (.nextR (.bumpSfr (.updChan (.releaseBy (.orderAtomn h)))))

theorem State.memOk.grantNext {s : State} {core ch : Nat} (h : s.memOk) : (s.grantNext core ch).memOk := by
  unfold State.grantNext
  split
  · exact h
  · dsimp only
    split
    · exact h
    · split
      · refine .resume h fun i e body hb c t ht => ?_
        split at hb <;> cases hb
        · exact .reserveBody ht
        · exact .reserveBody ht
      · exact .updChan h

theorem Res.memOk.postRead {i : Instr} {scope : Nat} {need : List (Nat × Nat)} {c : Ctx} {s : State}
    {k : List (Nat × Nat) → State → Res} (h : s.memOk) (hk : ∀ vals t, t.memOk → (k vals t).memOk) :
    (postRead i scope need c s k).memOk := by
  unfold Machine.postRead
  have hf {sp hd half} := State.memOk.fetchNeed (sp := sp) (h1 := hd) (half := half) (scope := scope) (need := need)
    (.foldl (as := need) (f := fun s x => s.orderAtomn c false [⟨0, x.1, 0, 0⟩] x.2) h fun _ _ h => .orderAtomn h)
  dsimp only
  split
  · rename_i he
    exact hk _ _ (.of_snd he hf)
  · rename_i he
    exact .wait (.waitOn (.of_snd he hf))
  · rename_i he
    exact .wait (.park (.of_snd he hf))
  · rename_i he
    exact .raise (.dropEngReqs (.of_snd he hf))

theorem Res.memOk.cpyBody {e : Ext} {c : Ctx} {s : State} (h : s.memOk) : (cpyBody e c s).memOk := by
  unfold Machine.cpyBody
  refine .withOps h (.ite (.next h) (.ite (.wait (.waitOn h)) (.ite (.raise h) (.ite (.raise h)
    (.postRead h fun vals t ht => ?_)))))
  extract_lets u r hd dst scal f regs v
  have hu : u.memOk := .dropEngReqs ht
  have hv : v.memOk := .ite (.bumpSfr (.releaseBy (.orderAtomn hu))) hu
  clear_value u v
  refine .ite (.raise hu) ?_
  split
  · exact .raise hu
  · refine .ite (.raise hu) (.withOps hu (.ite (.raise hu) (.ite (.raise hu) (.quietlyIf hu ?_))))
    split
    rename_i hr
    split
    rename_i hp
    have hw := State.memOk.of_snd hp (.post (.of_snd hr (.reserveAll hv)))
    extract_lets x
    have hx : x.memOk := .ite (.credit hw) hw
    exact .nextR (.ite (.setPosted hx) hx)

theorem State.memOk.engRead {s : State} {core : Nat} {a : Cmd} {need : List (Nat × Nat)}
    {k : List (Nat × Nat) → State → State} (h : s.memOk) (hk : ∀ vals t, t.memOk → (k vals t).memOk) :
    (s.engRead core a need k).memOk := by
  unfold State.engRead
  have hf := State.memOk.fetchNeed (sp := s.engSpace core a) (h1 := engHandle core) (half := a.id + 2)
    (scope := a.order.2) (need := need) h
  split
  · rename_i he
    exact hk _ _ (.of_snd he hf)
  · rename_i he
    exact .updCmd (.of_snd he hf)
  · rename_i he
    exact .updCmd (.of_snd he hf)
  · rename_i he
    exact .engineFault (.of_snd he hf)

theorem State.memOk.copyRead {s : State} {core : Nat} {a : Cmd} (h : s.memOk) : (s.copyRead core a).memOk := by
  unfold State.copyRead
  dsimp only
  split
  · exact .engineFault h
  · exact .engRead h fun _ _ h => .updCmd (.dropEngReqs h)

theorem State.memOk.gatherRead {s : State} {core : Nat} {a : Cmd} (h : s.memOk) : (s.gatherRead core a).memOk :=
  .engRead h fun _ _ h => .engRead h fun _ _ h => .updCmd (.dropEngReqs h)

theorem State.memOk.fire {s : State} {core : Nat} {a : Cmd} (h : s.memOk) : (s.fire core a).memOk := by
  unfold State.fire
  split
  · split
    · exact .copyRead (.acquire h)
    · exact .gatherRead (.acquire h)
    · exact .acquire h
  · split
    · exact .copyRead h
    · exact .gatherRead h
    · exact h

theorem State.memOk.landData {s t : State} {core : Nat} {a : Cmd} (h : s.memOk) (e : s.landData core a = .ok t) :
    t.memOk := by
  unfold State.landData at e
  dsimp only at e
  split at e
  · rw [← Except.ok.inj e]
    exact .engSpad h
  · split at e <;> rw [← Except.ok.inj e]
    · exact .engSpad h
    · exact h
  · split at e <;> rw [← Except.ok.inj e]
    · exact .updMSet h
    · exact h
  · split at e
    · exact nomatch e
    · rw [← Except.ok.inj e]
      refine .foldl h fun t b ht => ?_
      split
      · exact .engSpad ht
      · exact .winWrite ht
      · exact ht

theorem State.memOk.releaseCmd {s : State} {core : Nat} {a : Cmd} (h : s.memOk) : (s.releaseCmd core a).memOk :=
  .ite (.updCmd (.dones (.ite (.releaseBy h) h))) (.countCmd (.dones (.ite (.releaseBy h) h)))

theorem State.memOk.completeCopy {s : State} {core : Nat} {a : Cmd} (h : s.memOk) : (s.completeCopy core a).memOk := by
  unfold State.completeCopy
  split
  · split
    · exact .copyRead h
    · exact .gatherRead h
  · split
    · rename_i he
      exact .releaseCmd (.landData h he)
    · exact .engineFault h
  · exact .countCmd h
  · exact h

theorem State.memOk.followOn {s : State} {core : Nat} (h : s.memOk) : (s.followOn core).memOk := by
  unfold State.followOn
  split
  · exact h
  · split
    · exact h
    · exact .wakePosts (.updCore (.of_mem (s := Prod.snd _) rfl (.reserveAll h)))

theorem Res.memOk.gthrBody {e : Ext} {c : Ctx} {s : State} (h : s.memOk) : (gthrBody e c s).memOk := by
  unfold Machine.gthrBody
  refine .withOps h (.ite (.next h) (.ite (.wait (.waitOn h))
    (.ite (.raise h) (.ite (.raise h) (.ite (.raise h) (.ite (.raise h) ?_))))))
  split
  · exact .raise h
  · split
    · exact .raise h
    · exact .quietlyIf h (.nextR (.post (.reserveAll (.ite (.bumpSfr (.releaseBy (.orderAtomn h))) h))))

theorem Res.memOk.cwaitBody {e : Ext} {c : Ctx} {s : State} (h : s.memOk) : (cwaitBody e c s).memOk := by
  unfold Machine.cwaitBody
  extract_lets b m target ord o fin rs u
  have hfin {t : State} (ht : t.memOk) : (fin t).memOk := .next (.ite (.bumpSfr (.acquire ht)) ht)
  have hu : u.memOk := .dropReqs h
  clear_value fin u
  refine .withOps h ?_
  split
  · exact .next h
  · extract_lets a got v sp
    have hv : v.memOk := .orderAtomn hu
    clear_value got v
    split
    · exact .raise (.dropReqs h)
    · split
      · refine .ite (hfin hu) ?_
        dsimp only
        exact .wait (.waitReqs (.askLanes (.access hu)))
      · split
        · exact .raise hu
        · have ht : (access v sp o [a]).2.memOk := .access hv
          dsimp only
          split
          · exact .raise ht
          · refine .ite (.wait (.park ht)) (.ite ?_ (.ite (hfin ht) (.wait (.waitOn ht))))
            split
            · exact .ite (hfin (.askLanes ht)) (.wait (.waitOn (.askLanes ht)))
            · exact .wait (.waitReqs (.askLanes ht))

theorem State.memOk.collRefuse {s : State} {a : Cmd} (h : s.memOk) : (s.collRefuse a).memOk :=
  .foldl h fun _ _ h => .engineFault h

theorem State.memOk.collCombine {s : State} {a : Cmd} (h : s.memOk) : (s.collCombine a).memOk := by
  unfold State.collCombine
  split
  · exact h
  · split
    · exact h
    · exact .ite (.collRefuse h) (.foldl (.ite h (.of_mem rfl h)) fun _ _ h => .updCmd h)

theorem State.memOk.collRead {s : State} {core : Nat} {a : Cmd} (h : s.memOk) : (s.collRead core a).memOk :=
  .engRead h fun _ _ h => .updCmd (.dropEngReqs h)

theorem State.memOk.collWrite {s : State} {core : Nat} {a : Cmd} {ps : List (Nat × Nat × Nat)} (h : s.memOk) :
    (s.collWrite core a ps).memOk := by
  unfold State.collWrite
  split
  · dsimp only
    split
    · split
      · exact .releaseCmd (.updBlock (.dropEngReqs h))
      · exact .engineFault h
      · exact h
    · split
      · rename_i he
        exact .releaseCmd (.updBlock (.dropEngReqs (.of_snd he (.storePieces h))))
      · rename_i he
        exact .of_snd he (.storePieces h)
      · rename_i he
        exact .updCmd (.of_snd he (.storePieces h))
      · rename_i he
        exact .engineFault (.of_snd he (.storePieces h))
  · dsimp only
    split
    · split
      · exact .releaseCmd (.dropEngReqs h)
      · exact .engineFault h
      · exact h
    · split
      · rename_i he
        exact .releaseCmd (.dropEngReqs (.of_snd he (.storePieces h)))
      · rename_i he
        exact .of_snd he (.storePieces h)
      · rename_i he
        exact .updCmd (.of_snd he (.storePieces h))
      · rename_i he
        exact .engineFault (.of_snd he (.storePieces h))

theorem State.memOk.updColl {s : State} {core id : Nat} {f : Coll → Coll} (h : s.memOk) : (s.updColl core id f).memOk :=
  .of_mem rfl h

theorem State.memOk.heardDone {s : State} {ident dst from' : Nat} (h : s.memOk) : (s.heardDone ident dst from').memOk :=
    by
  unfold State.heardDone
  split
  · exact .of_mem rfl h
  · exact .ite h (.of_mem rfl h)

theorem State.memOk.sendDone {s : State} {core : Nat} {a : Cmd} (h : s.memOk) : (s.sendDone core a).memOk := by
  unfold State.sendDone
  split
  · exact h
  · exact .ite h (.foldl (.updColl h) fun _ _ h => .ite h (.ite (.heardDone h) (.trySend h)))

theorem State.memOk.shuffleRead {s : State} {core : Nat} {a : Cmd} (h : s.memOk) : (s.shuffleRead core a).memOk := by
  refine .engRead h fun vals t ht => ?_
  extract_lets u y v
  have hv : v.memOk := .updCmd (.dropEngReqs ht)
  clear_value v
  exact .sendDone (.foldl (.of_mem (s := v) rfl hv) fun _ _ h => .trySend h)

theorem Res.memOk.collBody {e : Ext} {c : Ctx} {s : State} (h : s.memOk) : (collBody e c s).memOk := by
  unfold Machine.collBody
  extract_lets op nlvl i sc bad
  have hbad {u : State} (hu : u.memOk) : (bad u).memOk := .raise (.dropEngReqs hu)
  clear_value bad
  refine .withOps h (.ite (.next h) (.ite (.wait (.waitOn h)) (.ite (.raise h) (.postRead h fun vals t ht => ?_))))
  extract_lets r q again enter
  have henter {u : State} {record side} (hu : u.memOk) : (enter u record side).memOk := by
    refine .quietlyIf (.dropEngReqs hu) ?_
    extract_lets v
    have hv : v.memOk := .ite (.bumpSfr (.releaseBy (.orderAtomn (.dropEngReqs hu)))) (.dropEngReqs hu)
    clear_value v
    exact .nextR (.of_mem (s := v) rfl hv)
  clear_value enter
  exact .ite (hbad ht) (.ite (henter ht) (.postRead ht fun _ _ h => .ite (hbad h) (.ite (henter h)
    (.postRead h fun _ _ h => .ite (hbad h) (.postRead h fun _ _ h => .ite (hbad h) (henter h))))))

theorem State.memOk.forward {s : State} {p : Packet} (h : s.memOk) : (s.forward p).memOk :=
  .of_mem rfl h

theorem State.memOk.switchSegment {s : State} {p : Packet} (h : s.memOk) : (s.switchSegment p).memOk := by
  unfold State.switchSegment
  split
  · exact h
  · split
    · exact .forward h
    · dsimp only
      split
      · exact .of_mem rfl h
      · exact .ite (.foldl (.of_mem rfl h) fun _ _ h => .forward h) (.of_mem rfl h)
      · exact .forward h

theorem State.memOk.pairTimeout {s : State} {plane n : Nat} (h : s.memOk) : (s.pairTimeout plane n).memOk := by
  unfold State.pairTimeout
  split
  · exact .ite (.forward (.of_mem rfl h)) h
  · exact h

/-- The state that handling a received segment leaves. -/
def SegDone.state : SegDone → State
  | .gone s | .keep s => s

theorem State.memOk.writeSegment {s : State} {core : Nat} {a : Cmd} {off : Nat} {hd : SegHead} {bs : List Byte}
    {k : State → State} (h : s.memOk) (hk : ∀ t, t.memOk → (k t).memOk) :
    (s.writeSegment core a off hd bs k).state.memOk := by
  unfold State.writeSegment
  have hq {half ps} : (if s.league.reqs.any fun r => r.under (engHandle core) half
      then (s.engAnswers (engHandle core) half, s)
      else s.storePieces (s.engSpace core a) (engHandle core) half 0 a.order.2 ps).2.memOk := .ite_snd h (.storePieces h)
  dsimp only
  split
  · exact hk _ (.dropEngReqs hq)
  · exact hq
  · exact hq
  · exact .engineFault (.dropEngReqs hq)

theorem State.memOk.takeUncoded {s : State} {p : Packet} (h : s.memOk) : (s.takeUncoded p).state.memOk := by
  unfold State.takeUncoded
  dsimp only
  split
  · exact h
  · exact .writeSegment h fun _ h => .trySend (.updColl h)

theorem State.memOk.takeCoded {s : State} {p : Packet} (h : s.memOk) : (s.takeCoded p).state.memOk := by
  unfold State.takeCoded
  dsimp only
  split
  · exact h
  · rename_i core a _
    split
    · exact .trySend (.updColl h)
    · have hf {hd half need} := State.memOk.fetchNeed (sp := s.engSpace core a) (h1 := hd) (half := half)
        (scope := a.order.2) (need := need) h
      split
      · rename_i he
        exact .writeSegment (.of_snd he hf) fun _ h => .trySend (.updColl (.dropEngReqs h))
      · rename_i he
        exact .engineFault (.dropEngReqs (.of_snd he hf))
      · rename_i he
        exact .of_snd he hf

theorem State.memOk.retrySegments {s : State} (h : s.memOk) : s.retrySegments.memOk := by
  refine .foldl (.of_mem rfl h) fun t p ht => ?_
  have hd : (if p.type = 0x11 then t.takeCoded p else t.takeUncoded p).state.memOk := by
    split
    · exact .takeCoded ht
    · exact .takeUncoded ht
  revert hd
  generalize (if p.type = 0x11 then t.takeCoded p else t.takeUncoded p) = d
  intro hd
  cases d with
  | gone u => exact hd
  | keep u => exact .of_mem (s := u) rfl hd

theorem State.memOk.uncodedSegment {s : State} {p : Packet} (h : s.memOk) : (s.uncodedSegment p).memOk := by
  unfold State.uncodedSegment
  have hd := State.memOk.takeUncoded (p := p) h
  refine .ite h ?_
  cases e : s.takeUncoded p with
  | gone u => rw [e] at hd; exact hd
  | keep u => rw [e] at hd; exact .of_mem (s := u) rfl hd

theorem State.memOk.codedSegment {s : State} {p : Packet} (h : s.memOk) : (s.codedSegment p).memOk := by
  unfold State.codedSegment
  have hd := State.memOk.takeCoded (p := p) h
  refine .ite h (.ite (.trySend ?_) ?_)
  · split
    · exact .updColl h
    · exact h
  · cases e : s.takeCoded p with
    | gone u => rw [e] at hd; exact hd
    | keep u => rw [e] at hd; exact .of_mem (s := u) rfl hd

theorem State.memOk.segmentAck {s : State} {p : Packet} (h : s.memOk) : (s.segmentAck p).memOk := by
  unfold State.segmentAck
  dsimp only
  split
  · exact h
  · exact .sendDone (.updColl h)

theorem State.memOk.segmentNegative {s : State} {p : Packet} (h : s.memOk) : (s.segmentNegative p).memOk := by
  unfold State.segmentNegative
  split
  · exact h
  · dsimp only
    split
    · exact h
    · split
      · exact .trySend h
      · exact h

theorem State.memOk.shuffleDone {s : State} {p : Packet} (h : s.memOk) : (s.shuffleDone p).memOk :=
  .ite (.heardDone h) h

theorem State.memOk.collComplete {s : State} {core : Nat} {a : Cmd} (h : s.memOk) : (s.collComplete core a).memOk := by
  unfold State.collComplete
  split
  · split
    · exact .collRead h
    · dsimp only
      split
      · exact .ite (.collWrite (.collCombine h)) (.collCombine h)
      · exact .collCombine h
    · exact .collWrite h
    · exact .countCmd h
    · exact h
  · split
    · exact .retrySegments (.shuffleRead h)
    · split
      · exact .collRefuse h
      · split
        · dsimp only
          split
          · exact .collWrite (.updCmd (.of_mem (s := State.retrySegments _) rfl (.retrySegments h)))
          · exact .retrySegments h
        · dsimp only
          split
          · exact .collWrite (.updCmd (.of_mem (s := State.retrySegments _) rfl (.retrySegments h)))
          · exact .retrySegments h
    · exact .collWrite h
    · exact .countCmd h
    · exact h

theorem State.memOk.raiseRecord {s : State} {die : Nat} {seq : BitVec 16} (h : s.memOk) : (s.raiseRecord die seq).memOk :=
  .foldl (.raiseParked h) fun _ _ h => .ite (.engineFault h) h

/-! ### The switch and the fabric -/

theorem State.memOk.passDone {s : State} {c : Ctx} {i : Instr} {o : MemOp} {close last : Bool} (h : s.memOk) :
    (s.passDone c i o close last).memOk := by
  unfold State.passDone
  split
  · split
    · exact .ite (.clearIdem (.closeRegion (.bumpSfr (.acquire h)))) (.bumpSfr (.acquire h))
    · exact .ite (.clearIdem (.closeRegion (.acquire h))) (.acquire h)
  · split
    · exact .ite (.clearIdem (.closeRegion (.bumpSfr h))) (.bumpSfr h)
    · exact .ite (.clearIdem (.closeRegion h)) h

theorem Res.memOk.runRemote {i : Instr} {o : MemOp} {close : Bool} {ls : List RemLane}
    {put : List (Nat × Nat) → Wave → Wave} {c : Ctx} {s : State} (h : s.memOk) :
      (runRemote i o close ls put c s).memOk := by
  refine .ite (.next h) ?_
  extract_lets rs got t u done left v p pass w
  have hu : u.memOk := .put (.dropReqs h)
  have hv : v.memOk := .ite hu (.passDone hu)
  have hw : w.memOk := .setProg hv
  clear_value u v w
  split
  · exact .raise (.setProg hu)
  · refine .ite (.ite (.nextR hv) (.next hv)) (.ite (.raise hw) ?_)
    split
    · exact .raise hw
    · have hx : (if o.sync then w.orderAtomn c true [] 0 else w).memOk := .ite (.orderAtomn hw) hw
      exact .quietlyIf hw (.wait (.waitReqs (.foldl (.ite (.releaseBy hx) hx) fun _ _ h => .ask h)))

theorem Res.memOk.rldBody {e : Ext} {c : Ctx} {s : State} (h : s.memOk) : (rldBody e c s).memOk :=
  .withOps h (.runRemote h)

theorem Res.memOk.rstBody {e : Ext} {c : Ctx} {s : State} (h : s.memOk) : (rstBody e c s).memOk :=
  .withOps h (.runRemote h)

theorem Res.memOk.ratomBody {e : Ext} {c : Ctx} {s : State} (h : s.memOk) : (ratomBody e c s).memOk :=
  .withOps h (.runRemote h)

theorem Res.memOk.rmcstBody {e : Ext} {c : Ctx} {s : State} (h : s.memOk) : (rmcstBody e c s).memOk := by
  unfold Machine.rmcstBody
  refine .withOps h (.ite (.raise h) (.ite (.next h) ?_))
  split
  · exact .nextR (.ite (.bumpSfr (.put (.dropReqs h))) (.put (.dropReqs h)))
  · split
    · exact .raise h
    · exact .quietlyIf h (.wait (.waitReqs (.of_mem (s := State.trySend _ _) rfl
        (.trySend (.ite (.releaseBy (.orderAtomn h)) h)))))

theorem State.memOk.answerRequest {s : State} {types : List Nat} {p : Packet} (h : s.memOk) :
    (s.answerRequest types p).memOk := by
  unfold State.answerRequest
  split
  · refine .recv h fun _ h => .trySend ?_
    split
    · rename_i he
      exact .of_snd he (.exported h)
    · split
      · rename_i he _ _
        exact State.memOk_setBytes (.of_snd he (.exported h)) _ _
      · rename_i he _ _
        exact .ite (State.memOk_setNum (.of_snd he (.exported h)) _ _ _) (.of_snd he (.exported h))
      · rename_i he _ _ _
        exact .of_snd he (.exported h)
  · exact h

theorem State.memOk.emit {s : State} {p : Packet} (h : s.memOk) : (s.emit p).memOk :=
  .of_mem rfl h

theorem State.memOk.updSw {s : State} {f : Switch → Switch} (h : s.memOk) : (s.updSw f).memOk :=
  .of_mem rfl h

theorem State.memOk.countMember {s : State} {plane tag src peer status : Nat} (h : s.memOk) :
    (s.countMember plane tag src peer status).memOk := by
  unfold State.countMember
  split
  · exact h
  · exact .ite (.emit (.updSw h)) (.updSw h)

theorem State.memOk.dropPeerPage {s : State} {peer page : Nat} (h : s.memOk) : (s.dropPeerPage peer page).memOk :=
  .of_mem (s := State.mk _ _ _ _ _ _ _ _ _ _ _ _ _ _ _) rfl (.of_cells rfl rfl h)

theorem State.memOk.wakeInval {s : State} {h1 : BitVec 32} (h : s.memOk) : (s.wakeInval h1).memOk :=
  .ite h (.mapWaves h)

theorem State.memOk.importerDone {s : State} {peer : Nat} {page : BitVec 40} (h : s.memOk) :
    (s.importerDone peer page).memOk :=
  .foldl (.of_mem rfl h) fun _ _ h => .wakeInval h

theorem State.memOk.windowWrite {s : State} {i word : Nat} {v : BitVec 64} (h : s.memOk) :
    (s.windowWrite i word v).memOk :=
  .ite (.of_mem rfl h) h

end Sys2Proof.Machine

end

-- ==== The memories stay canonical: the kernel and its blocks; O54 ====
section
/-!
Kernel objects, system instructions and the placing of blocks keep the canonical form of the memories.
-/

namespace Sys2Proof.Machine

/-! ### Kernel objects -/

theorem Res.memOk.kernDone {e : Ext} {c : Ctx} {s : State} {r : BitVec 64} (h : s.memOk) : (kernDone e c s r).memOk :=
  .nextR (.bumpSfr (.put (.orderAtomn h)))

theorem Res.memOk.storeAt {i : Instr} {c : Ctx} {s : State} {a : Nat} {bs : List Byte} {back : State → State}
    {k : State → Res} (h : s.memOk) (hb : ∀ t, t.memOk → (back t).memOk) (hk : ∀ t, t.memOk → (k t).memOk) :
    (storeAt i c s a bs back k).memOk := by
  unfold Machine.storeAt
  dsimp only
  have hg {p} : (s.giveUp p).memOk := .giveUp h
  refine .ite (.ite (.wait (.waitOn (hb s h))) ?_) ?_
  · split
    · exact .raise (hb _ hg)
    · exact hk _ hg
  · split <;> rename_i he
    · exact hk _ (.of_snd he (.storePieces hg))
    · exact .wait (.waitOn (hb _ (.of_snd he (.storePieces hg))))
    · exact .wait (.park (hb _ (.of_snd he (.storePieces hg))))
    · exact .raise (hb _ (.of_snd he (.storePieces hg)))

theorem Res.memOk.refuse {e : Ext} {c : Ctx} {s : State} {why : Nat} (h : s.memOk) : (refuse e c s why).memOk :=
  .ite (.kernDone h) (.raise h)

theorem State.memOk.closeWaits {s : State} {k : KWait} {hd : BitVec 32} (h : s.memOk) : (s.closeWaits k hd).memOk :=
  .foldl h fun t x ht => .resume ht fun i e body hb c u hu => by
    obtain ⟨q, -, hq⟩ := Option.map_eq_some_iff.1 hb
    obtain ⟨-, rfl⟩ := Prod.mk.inj hq
    exact Res.memOk.kernDone hu

theorem State.memOk.setPort {s : State} {h1 : BitVec 32} {ms : List Msg} {rs : List RemoteSender} (h : s.memOk) :
    (s.setPort h1 ms rs).memOk := by
  unfold State.setPort
  split
  · exact State.memOk_setBytes (.updObj h) _ _
  · exact h

theorem State.memOk.serveRemote {fuel : Nat} {s : State} {hd : BitVec 32} (h : s.memOk) :
    (State.serveRemote fuel s hd).memOk := by
  induction fuel generalizing s with
  | zero => exact h
  | succ fuel ih =>
    unfold State.serveRemote
    split
    · exact .ite (ih (.trySend (.setPort h))) h
    · exact h

theorem State.memOk.dropTlb {s : State} {pasid : BitVec 20} {vas : List Nat} (h : s.memOk) :
    (s.dropTlb pasid vas).memOk :=
  .of_mem rfl h

theorem State.memOk.takePages {s : State} {root : Nat} {pasid : BitVec 20} {gs : List (Nat × Nat)} (h : s.memOk) :
    (s.takePages root pasid gs).memOk :=
  .dropTlb (.foldl h fun _ _ h => State.memOk_setNum h _ _ _)

theorem State.memOk.givePages {s : State} {root : Nat} {gs : List (Nat × Nat)} (h : s.memOk) :
    (s.givePages root gs).memOk :=
  .foldl h fun _ _ h => State.memOk_setNum h _ _ _

theorem State.memOk.unmove {s before : State} {ms : List (Nat × Nat × Nat)} {pasid : BitVec 20} {vas : List Nat}
    (h : s.memOk) : (s.unmove before ms pasid vas).memOk :=
  .dropTlb (.foldl h fun _ _ h => State.memOk_setNum (State.memOk_setNum h _ _ _) _ _ _)

theorem State.memOk.moveGrant {s : State} {ms : List (Nat × Nat × Nat)} (h : s.memOk) : (s.moveGrant ms).memOk :=
  .foldl (.foldl h fun _ _ h => State.memOk_setNum h _ _ _) fun _ _ h => State.memOk_setNum h _ _ _

theorem State.memOk.movePages {s : State} {ms : List (List (Nat × Nat × Nat))} (h : s.memOk) : (s.movePages ms).memOk :=
  .foldl h fun _ _ h => .moveGrant h

theorem Res.memOk.psendRemote {e : Ext} {peer : Nat} {r : BitVec 32} {epoch : Nat} {msg : List Byte} {c : Ctx}
    {s : State} (h : s.memOk) : (psendRemote e peer r epoch msg c s).memOk := by
  unfold Machine.psendRemote
  split
  · dsimp only
    split
    · exact .kernDone (.dropReqs (.ite (.dropReqs h) h))
    · split
      · split
        · exact .wait (.waitReqs (.dropReqs h))
        · exact .ite (.wait (.waitOn (.dropReqs h))) (.wait (.waitReqs (.ask (.releaseBy (.orderAtomn (.dropReqs h))))))
      · split
        · exact .wait (.waitReqs h)
        · exact .ite (.wait (.waitOn h)) (.wait (.waitReqs (.ask (.releaseBy (.orderAtomn h)))))
  · dsimp only
    split
    · exact .kernDone (.dropReqs (.ite (.dropReqs h) h))
    · split
      · split
        · exact .wait (.waitReqs (.dropReqs h))
        · exact .ite (.wait (.waitOn (.dropReqs h))) (.wait (.waitReqs (.ask (.releaseBy (.orderAtomn (.dropReqs h))))))
      · split
        · exact .wait (.waitReqs h)
        · exact .ite (.wait (.waitOn h)) (.wait (.waitReqs (.ask (.releaseBy (.orderAtomn h)))))

theorem Res.memOk.psendBody {e : Ext} {c : Ctx} {s : State} (h : s.memOk) : (psendBody e c s).memOk := by
  refine .withOps h (.ite (.next h) ?_)
  dsimp only
  split
  · exact .refuse h
  · refine .ite (.raise h) (.ite (.raise h) (.postRead h fun vals t ht => ?_))
    have hu {hd half} : (t.dropEngReqs hd half).memOk := .dropEngReqs ht
    split
    · exact .psendRemote hu
    · exact .refuse hu
    · split
      · exact .raise hu
      · exact .ite (.raise hu) (.ite (.kernDone hu) (.ite (.wait (.waitOn hu)) (.ite (.wait (.waitOn hu))
          (.kernDone (.serveRemote (.setPort (.takePages (.releaseBy (.orderAtomn hu)))))))))

theorem Res.memOk.precvBody {e : Ext} {c : Ctx} {s : State} (h : s.memOk) : (precvBody e c s).memOk := by
  unfold Machine.precvBody
  refine .withOps h (.ite (.next h) ?_)
  split
  · dsimp only
    split
    · exact .refuse h
    · split
      · exact .raise h
      · split
        · exact .raise h
        · split
          · exact .kernDone h
          · split
            · exact .wait (.waitOn h)
            · split
              · exact .raise h
              · refine .postRead h fun _ _ h => ?_
                split
                · exact .raise (.dropEngReqs h)
                · exact .storeAt (.movePages (.dropEngReqs h)) (fun _ h => .unmove h) fun _ h => .kernDone
                    (.acquire (.serveRemote (.setPort h)))
  · dsimp only
    split
    · exact .refuse h
    · split
      · exact .raise h
      · split
        · exact .raise h
        · split
          · exact .wait (.waitOn h)
          · split
            · exact .wait (.waitOn h)
            · split
              · exact .raise h
              · refine .postRead h fun _ _ h => ?_
                split
                · exact .raise (.dropEngReqs h)
                · exact .storeAt (.movePages (.dropEngReqs h)) (fun _ h => .unmove h) fun _ h => .kernDone
                    (.acquire (.serveRemote (.setPort h)))

theorem Res.memOk.wcreateBody {e : Ext} {c : Ctx} {s : State} (h : s.memOk) : (wcreateBody e c s).memOk := by
  refine .withOps h (.ite (.next h) (.ite (.raise h) (.postRead h fun vals t ht => .ite (.raise (.dropEngReqs ht)) ?_)))
  extract_lets bad
  clear_value bad
  cases bad with
  | some why => exact .raise (.dropEngReqs ht)
  | none =>
    refine .quietly (.dropEngReqs ht) ?_
    have hu {hd half c sp n} : (((t.dropEngReqs hd half).orderAtomn c true [] 0).releaseBy sp n).memOk :=
      .releaseBy (.orderAtomn (.dropEngReqs ht))
    split
    · exact .kernDone hu
    · rename_i he
      exact .kernDone (.makeWave hu he)

theorem State.memOk.newObj {s t : State} {c : Ctx} {body : Nat → Body} {hd : BitVec 32} (h : s.memOk)
    (e : s.newObj c body = some (hd, t)) : t.memOk := by
  unfold State.newObj at e
  obtain ⟨i, -, hi⟩ := Option.map_eq_some_iff.1 e
  obtain ⟨-, rfl⟩ := Prod.mk.inj hi
  exact .setObj h

theorem Res.memOk.objnewBody {e : Ext} {c : Ctx} {s : State} (h : s.memOk) : (objnewBody e c s).memOk := by
  refine .withOps h (.ite (.next h) (.ite (.raise h) (.ite (.raise h) ?_)))
  dsimp only
  split
  · exact .kernDone h
  · rename_i he
    have ht := State.memOk.newObj h he
    exact .ite (.kernDone h) (.kernDone (.ite (.of_mem rfl ht) ht))

theorem State.memOk.leaveSets {s : State} {h1 : BitVec 32} (h : s.memOk) : (s.leaveSets h1).memOk :=
  .of_mem rfl h

theorem State.memOk.freeEnded {s : State} {h1 : BitVec 32} (h : s.memOk) : (s.freeEnded h1).memOk := by
  unfold State.freeEnded
  split
  · exact .ite (.freeObj h) h
  · exact h

theorem State.memOk.closePort {s : State} {h1 : BitVec 32} (h : s.memOk) : (s.closePort h1).memOk := by
  unfold State.closePort
  split
  · exact h
  · exact .freeObj (.of_mem (s := List.foldl _ _ _) rfl (.foldl
      (.closeWaits (.closeWaits (.foldl h fun _ _ h => .givePages h))) fun _ _ h => .trySend h))

theorem Res.memOk.objdelBody {e : Ext} {c : Ctx} {s : State} (h : s.memOk) : (objdelBody e c s).memOk := by
  unfold Machine.objdelBody
  refine .withOps h (.ite (.next h) ?_)
  dsimp only
  split
  · exact .raise h
  · exact .raise h
  · split
    · exact .kernDone (.closePort h)
    · exact .kernDone (.foldl (.freeObj (.closeWaits h)) fun _ _ h => .freeEnded h)
    · exact .kernDone h
    · exact .kernDone (.freeObj h)
    · exact .kernDone (.freeObj (.leaveSets h))

theorem State.memOk.expire {s : State} {i : Nat} (h : s.memOk) : (s.expire i).memOk :=
  .updObj h

theorem State.memOk.expireDue {s : State} (h : s.memOk) : s.expireDue.memOk :=
  .of_mem rfl h

theorem State.memOk.setMembers {s : State} {h1 : BitVec 32} {ms : List (BitVec 32)} (h : s.memOk) :
    (s.setMembers h1 ms).memOk := by
  unfold State.setMembers
  split
  · exact State.memOk_setBytes (.updObj h) _ _
  · exact h

theorem State.memOk.syncSets {s : State} (h : s.memOk) : s.syncSets.memOk := by
  unfold State.syncSets
  refine .foldl h fun _ _ h => ?_
  split
  · exact .ite h (State.memOk_setBytes h _ _)
  · exact h

theorem Res.memOk.wsaddBody {e : Ext} {c : Ctx} {s : State} (h : s.memOk) : (wsaddBody e c s).memOk := by
  unfold Machine.wsaddBody
  refine .withOps h (.ite (.next h) ?_)
  split
  · dsimp only
    split
    · exact .raise h
    · exact .kernDone (.ite (.setMembers h) (.freeEnded (.setMembers h)))
    · exact .raise h
  · dsimp only
    split
    · exact .raise h
    · exact .kernDone (.ite (.setMembers h) (.freeEnded (.setMembers h)))
    · exact .raise h

theorem State.memOk.consumeMember {s : State} {set : BitVec 32} {slot : Nat} {ms : List (BitVec 32)} (h : s.memOk) :
    (s.consumeMember set slot ms).memOk := by
  unfold State.consumeMember
  dsimp only
  split
  · exact .updObj h
  · exact .ite (.freeObj (.leaveSets (.setMembers h))) (.setMembers h)
  · exact h

theorem Res.memOk.wswaitBody {e : Ext} {c : Ctx} {s : State} (h : s.memOk) : (wswaitBody e c s).memOk := by
  unfold Machine.wswaitBody
  refine .withOps (.expireDue h) (.ite (.next (.expireDue h)) ?_)
  split
  · dsimp only
    split
    · exact .refuse (.expireDue h)
    · split
      · exact .ite (.kernDone (.consumeMember (.expireDue h))) (.wait (.waitOn (.expireDue h)))
      · exact .kernDone (.expireDue h)
    · exact .raise (.expireDue h)
  · dsimp only
    split
    · exact .refuse (.expireDue h)
    · split
      · exact .ite (.kernDone (.consumeMember (.expireDue h))) (.wait (.waitOn (.expireDue h)))
      · exact .wait (.waitOn (.expireDue h))
    · exact .raise (.expireDue h)

theorem Res.memOk.timerBody {e : Ext} {arm : Bool} {c : Ctx} {s : State} (h : s.memOk) : (timerBody e arm c s).memOk := by
  unfold Machine.timerBody
  refine .withOps h (.ite (.next h) ?_)
  split
  · dsimp only
    split
    · exact .raise h
    · split
      · exact .kernDone (.updObj (.expire h))
      · exact .raise (.expire h)
  · dsimp only
    split
    · exact .raise h
    · split
      · exact .kernDone (.updObj (.expire h))
      · exact .raise (.expire h)

theorem Res.memOk.nslookupBody {e : Ext} {c : Ctx} {s : State} (h : s.memOk) : (nslookupBody e c s).memOk := by
  refine .withOps h (.ite (.next h) ?_)
  extract_lets name peer done u p v
  have hdone {t : State} {st n : Nat} (ht : t.memOk) : (done t st n).memOk := .next (.bumpSfr (.put (.orderAtomn ht)))
  clear_value done
  refine .ite ?_ ?_
  · split
    · exact hdone h
    · exact .ite (hdone h) (hdone h)
  · split
    · refine .ite (hdone (.dropReqs h)) (.ite (hdone (.dropReqs h)) ?_)
      split
      · exact hdone (.dropReqs h)
      · rename_i he
        exact hdone (.newObj (.dropReqs h) he)
    · exact .ite (.wait (.waitReqs h)) (.wait (.waitReqs (.ask (.orderAtomn h))))

theorem State.memOk.nameLookup {s : State} {p : Packet} (h : s.memOk) : (s.nameLookup p).memOk :=
  .ite h (.trySend h)

theorem State.memOk.giveBack {s : State} {p : Packet} (h : s.memOk) : (s.giveBack p).memOk := by
  unfold State.giveBack
  dsimp only
  split
  · exact h
  · exact .ite (.serveRemote (.trySend (.setPort h))) h

theorem State.memOk.portMessage {s : State} {p : Packet} (h : s.memOk) : (s.portMessage p).memOk := by
  unfold State.portMessage
  split
  · split
    dsimp only
    split
    · exact h
    · split
      · exact .giveBack h
      · split
        · exact .trySend h
        · split
          · exact .trySend (.setPort h)
          · rename_i he _ _ _ _ _ _ _ _ _
            exact .ite (.trySend h) (.trySend (.setPort (.of_snd he (.tick h))))
  · split
    · dsimp only
      split
      · exact h
      · exact .ite (.giveBack h) (.trySend h)
    · split
      dsimp only
      split
      · exact h
      · split
        · exact .giveBack h
        · split
          · exact .trySend (.setPort h)
          · rename_i he _ _ _
            exact .ite (.trySend h) (.trySend (.setPort (.of_snd he (.tick h))))

theorem State.memOk.portMessageAnswer {s : State} {p : Packet} (h : s.memOk) : (s.portMessageAnswer p).memOk := by
  unfold State.portMessageAnswer
  dsimp only
  split
  · exact h
  · exact .ite (.withdraw (.of_mem rfl h)) (.answerReq h)

/-! ### System instructions -/

theorem Res.memOk.srdBody {e : Ext} {c : Ctx} {s : State} (h : s.memOk) : (srdBody e c s).memOk :=
  .withOps h (.next (.put (.of_mem rfl h)))

theorem Res.memOk.sysDone {e : Ext} {c : Ctx} {s : State} {v : Nat} (h : s.memOk) : (sysDone e c s v).memOk :=
  .next (.put h)

theorem State.memOk.writeCtl {s : State} {core k : Nat} {v : BitVec 64} (h : s.memOk) : (s.writeCtl core k v).memOk := by
  unfold State.writeCtl
  split
  · exact .updCore h
  · exact .ite h (.updCore h)

theorem Res.memOk.crdBody {e : Ext} {c : Ctx} {s : State} (h : s.memOk) : (crdBody e c s).memOk :=
  .withOps h (.sysDone h)

theorem Res.memOk.cwrBody {e : Ext} {c : Ctx} {s : State} (h : s.memOk) : (cwrBody e c s).memOk :=
  .withOps h (.next (.writeCtl h))

theorem Res.memOk.rftBody {e : Ext} {c : Ctx} {s : State} (h : s.memOk) : (rftBody e c s).memOk := by
  unfold Machine.rftBody
  refine .withOps h (.ite (.raise h) ?_)
  dsimp only
  split
  · exact .raise h
  · split
    · exact .ite (.sysDone h) (.transferIn h fun _ h => .sysDone (.ite (.engineGo h) (.giveVerdict h)))
    · exact .sysDone h

theorem State.memOk.dropPages {s : State} {core : Nat} {pasid : BitVec 20} {lo hi : Nat} (h : s.memOk) :
    (s.dropPages core pasid lo hi).memOk :=
  .updCore h

theorem State.memOk.sendInval {s : State} {h1 : BitVec 32} {a : Nat × List Nat} (h : s.memOk) :
    (s.sendInval h1 a).memOk :=
  .of_mem (s := List.foldl _ _ _) rfl (.foldl h fun _ _ h => .trySend h)

theorem Res.memOk.tlbinvBody {e : Ext} {c : Ctx} {s : State} (h : s.memOk) : (tlbinvBody e c s).memOk := by
  unfold Machine.tlbinvBody
  extract_lets va n all hd mine core scope cores go pasid
  have hgo {t : State} {k : Nat} (ht : t.memOk) : (go t k).memOk :=
    .ite (.wait (.waitOn (.setProg ht))) (.ite (.wait (.setProg ht)) (.sysDone ht))
  clear_value go
  refine .withOps h (.ite (.raise h) (.ite (hgo h) ?_))
  dsimp only
  have ht {lo hi} : (cores.foldl (fun s k => s.dropPages k pasid lo hi) (cores.foldl (fun s k => s.release k scope)
      ((cores.foldl (fun s k => (s.core k).waves.foldl (fun s (x : Nat × Wave) => s.drainAtomn k x.1) s) s).drainOrphans
        fun k => cores.contains k))).memOk :=
    .foldl (.foldl (.drainOrphans (.foldl h fun _ _ h => .foldl h fun _ _ h => .drainAtomn h)) fun _ _ h => .release h)
      fun _ _ h => .dropPages h
  exact hgo (.ite ht (.foldl ht fun _ _ h => .sendInval h))

theorem Res.memOk.idleWaitBody {e : Ext} {c : Ctx} {s : State} (h : s.memOk) : (idleWaitBody e c s).memOk := by
  unfold Machine.idleWaitBody
  refine .withOps h (.ite (.wait (.waitOn h)) ?_)
  dsimp only
  split
  · exact .next (.put (.bumpSfr (.acquire (.updCore (.updCore h)))))
  · exact .next (.put (.updCore h))

theorem Res.memOk.mgsigBody {e : Ext} {c : Ctx} {s : State} (h : s.memOk) : (mgsigBody e c s).memOk :=
  .withOps h (.ite (.raise h) (.ite (.sysDone h) (.quietly h
    (.sysDone (.bumpSfr (.signal (.releaseBy (.orderAtomn h))))))))

theorem State.memOk.addHeld {s : State} {core n : Nat} {take : Bool} (h : s.memOk) : (s.addHeld core n take).memOk :=
  .ite h (.updCore h)

theorem Res.memOk.pwracqBody {e : Ext} {c : Ctx} {s : State} (h : s.memOk) : (pwracqBody e c s).memOk :=
  .withOps h (.ite (.raise h) (.ite (.sysDone h) (.ite (.sysDone (.addHeld (.of_mem rfl h)))
    (.wait (.waitOn (.of_mem rfl h))))))

theorem Res.memOk.pwrrelBody {e : Ext} {c : Ctx} {s : State} (h : s.memOk) : (pwrrelBody e c s).memOk :=
  .withOps h (.ite (.raise h) (.sysDone (.addHeld (.of_mem rfl h))))

theorem State.memOk.writeEntry {s t : State} {i n : Nat} {bs : List Byte} (h : s.memOk)
    (e : s.writeEntry i bs = .inl (n, t)) : t.memOk := by
  have hinl {p : Nat × State} (hp : (Sum.inl p : (Nat × State) ⊕ Nat) = .inl (n, t)) (ht : p.2.memOk) : t.memOk := by
    rw [Sum.inl.inj hp] at ht
    exact ht
  unfold State.writeEntry at e
  dsimp only at e
  split at e
  · split at e
    · exact hinl e h
    · split at e
      · split at e
        · exact nomatch e
        · split at e
          · exact hinl e (.setObj (.ite (.of_mem rfl h) h))
          · exact hinl e h
      · exact nomatch e
  · split at e
    · exact hinl e (.setObj h)
    · split at e
      · split at e
        · exact hinl e h
        · exact hinl e (.freeObj h)
      · exact nomatch e
  · split at e
    · exact hinl e (.setObj h)
    · split at e
      · split at e
        · exact hinl e h
        · exact hinl e (.freeObj h)
      · exact nomatch e
  · split at e
    · exact hinl e h
    · split at e
      · exact hinl e (.setObj (.ite (.unqueue h) h))
      · exact nomatch e
  · exact nomatch e

theorem Res.memOk.entryArgs {e : Ext} {c : Ctx} {s : State} {k : Nat → Nat → Res} (h : s.memOk)
    (hk : ∀ i buf, (k i buf).memOk) : (entryArgs e c s k).memOk :=
  .withOps h (.ite (.raise h) (.ite (.raise h) (hk _ _)))

theorem Res.memOk.objrdBody {e : Ext} {c : Ctx} {s : State} (h : s.memOk) : (objrdBody e c s).memOk :=
  .entryArgs h fun _ _ => .storeAt h (fun _ h => h) fun _ h => .sysDone (.bumpSfr h)

theorem Res.memOk.objwrBody {e : Ext} {c : Ctx} {s : State} (h : s.memOk) : (objwrBody e c s).memOk := by
  refine .entryArgs h fun i buf => .postRead h fun vals t ht => .ite (.raise (.dropEngReqs ht)) ?_
  split
  · exact .raise (.dropEngReqs ht)
  · rename_i he
    exact .sysDone (.bumpSfr (.writeEntry (.dropEngReqs ht) he))

theorem State.memOk.dropEngines {s : State} {core blk : Nat} (h : s.memOk) : (s.dropEngines core blk).memOk :=
  .updBlock (.updCore h)

theorem State.memOk.repost {s : State} {core : Nat} {fifo : Bool} {xs : List Cmd} (h : s.memOk) :
    (s.repost core fifo xs).memOk :=
  .foldl h fun _ _ h => .updCore (.of_mem rfl h)

theorem State.memOk.putEngines {s : State} {core blk : Nat} {im : BlkImage} (h : s.memOk) :
    (s.putEngines core blk im).memOk := by
  unfold State.putEngines
  refine .repost (.repost ?_)
  split
  · refine .updLaunch (.updCore ?_)
    split
    · exact .updBlock (.updCore h)
    · exact h
  · refine .updCore ?_
    split
    · exact .updBlock (.updCore h)
    · exact h

theorem State.memOk.saveMatrix {s : State} {core : Nat} {blk : Option Nat} {at' : Nat} (h : s.memOk) :
    (s.saveMatrix core blk at').memOk := by
  unfold State.saveMatrix
  split
  · exact h
  · exact .updBlock (State.memOk_setBytes (.dropEngines h) _ _)

theorem Res.memOk.ctxsvBody {e : Ext} {c : Ctx} {s : State} (h : s.memOk) : (ctxsvBody e c s).memOk := by
  unfold Machine.ctxsvBody
  extract_lets keep mst hd
  refine .withOps h ?_
  split
  · exact .raise h
  · split
    · refine .ite (.sysDone h) ?_
      extract_lets stopped fired at' done t
      have hdone {t : State} (ht : t.memOk) : (done t).memOk := .sysDone (.ite (.saveMatrix ht) ht)
      clear_value done
      refine .ite (.raise h) (.ite (.wait (.ite (.askBack h) (.haltWave h))) (.ite ?_ (.ite ?_ ?_)))
      · exact hdone (.ite (.readyWave (.saveWave h)) (.saveWave h))
      · exact hdone (.keepImage h)
      · exact .storeAt (.setProg h) (fun _ ht => ht) fun _ ht => hdone (.halt ht)
    · exact .sysDone h

theorem Res.memOk.ctxldLoad {e : Ext} {h1 : BitVec 32} {bs : List Byte} {c : Ctx} {s : State} (h : s.memOk) :
    (ctxldLoad e h1 bs c s).memOk := by
  unfold Machine.ctxldLoad
  split
  · split
    · split
      · dsimp only
        split
        · split
          · split
            · split
              · exact .sysDone h
              · split
                · exact .raise h
                · refine .sysDone ?_
                  split
                  · rename_i he _ _ _ _ _ _
                    refine .updBlock (.putEngines (.updWave (.loadIn ?_ he)))
                    exact .unqueue h
                  · rename_i he _ _ _
                    refine .updWave (.loadIn ?_ he)
                    exact .unqueue h
            · split
              · exact .sysDone h
              · split
                · exact .raise h
                · refine .sysDone ?_
                  split
                  · rename_i he _ _ _ _ _ _
                    refine .updBlock (.putEngines (.updWave (.loadIn ?_ he)))
                    exact .unqueue h
                  · rename_i he _ _ _
                    refine .updWave (.loadIn ?_ he)
                    exact .unqueue h
          · exact .sysDone h
        · exact .raise h
      · dsimp only
        split
        · split
          · split
            · split
              · exact .sysDone h
              · split
                · exact .raise h
                · refine .sysDone ?_
                  split
                  · rename_i he _ _ _ _ _ _
                    refine .updBlock (.putEngines (.updWave (.loadIn ?_ he)))
                    exact .unqueue h
                  · rename_i he _ _ _
                    refine .updWave (.loadIn ?_ he)
                    exact .unqueue h
            · split
              · exact .sysDone h
              · split
                · exact .raise h
                · refine .sysDone ?_
                  split
                  · rename_i he _ _ _ _ _ _
                    refine .updBlock (.putEngines (.updWave (.loadIn ?_ he)))
                    exact .unqueue h
                  · rename_i he _ _ _
                    refine .updWave (.loadIn ?_ he)
                    exact .unqueue h
          · exact .sysDone h
        · exact .raise h
    · split
      · dsimp only
        split
        · split
          · split
            · split
              · exact .sysDone h
              · split
                · exact .raise h
                · rename_i he
                  refine .sysDone (.updWave (.loadIn ?_ he))
                  exact .unqueue h
            · split
              · exact .sysDone h
              · split
                · exact .raise h
                · rename_i he
                  refine .sysDone (.updWave (.loadIn ?_ he))
                  exact .unqueue h
          · exact .sysDone h
        · exact .raise h
      · dsimp only
        split
        · split
          · split
            · split
              · exact .sysDone h
              · split
                · exact .raise h
                · rename_i he
                  refine .sysDone (.updWave (.loadIn ?_ he))
                  exact .unqueue h
            · split
              · exact .sysDone h
              · split
                · exact .raise h
                · rename_i he
                  refine .sysDone (.updWave (.loadIn ?_ he))
                  exact .unqueue h
          · exact .sysDone h
        · exact .raise h
  · exact .sysDone h

theorem Res.memOk.ctxldBody {e : Ext} {c : Ctx} {s : State} (h : s.memOk) : (ctxldBody e c s).memOk := by
  unfold Machine.ctxldBody
  refine .withOps h ?_
  split
  · dsimp only
    split
    · exact .raise h
    · exact .ctxldLoad h
    · exact .sysDone h
  · dsimp only
    split
    · exact .raise h
    · exact .postRead h fun _ _ h => .postRead h fun _ _ h => .ctxldLoad (.dropEngReqs h)
    · exact .sysDone h

theorem State.memOk.grantAgent {s : State} {core : Nat} (h : s.memOk) : (s.grantAgent core).memOk := by
  unfold State.grantAgent
  split
  · refine .resume h fun i e body hb c t ht => ?_
    split at hb <;> cases hb
    exact .pwracqBody ht
  · exact h

theorem State.memOk.wakeIdle {s : State} {core : Nat} (h : s.memOk) : (s.wakeIdle core).memOk := by
  unfold State.wakeIdle
  split
  · refine .resume h fun i e body hb c t ht => ?_
    split at hb <;> cases hb
    exact .idleWaitBody ht
  · exact h

theorem State.memOk.retire' {s : State} {core slot n : Nat} (h : s.memOk) : (s.retire' core slot n).memOk :=
  .updWave h

/-! ### Placing, evicting and restoring -/

theorem State.memOk.placeOne {s : State} {l : Launch} {blk t core slot j base : Nat} (h : s.memOk) :
    (s.placeOne l blk t core slot j base).memOk := by
  unfold State.placeOne
  split
  · exact h
  · exact .updBlock (.setWave (.flushUnit (.updCore (.setObj (.of_mem rfl h)))))

theorem State.memOk.takeTokens {s : State} {core n : Nat} (h : s.memOk) : (s.takeTokens core n).memOk :=
  .addHeld (.of_mem rfl h)

theorem State.memOk.placeBlock {s : State} {l : Launch} {blk core : Nat} (h : s.memOk) :
    (s.placeBlock l blk core).memOk := by
  unfold State.placeBlock
  split
  · exact h
  · extract_lets base slots tok t set u v
    have ht : t.memOk := .updCore (.takeTokens (.acquire h))
    clear_value t set
    have hu : u.memOk := by
      cases set with
      | some i => exact .updCore ht
      | none => exact ht
    clear_value u
    exact .foldl (.of_mem (s := u) rfl hu) fun _ _ h => .placeOne h

theorem State.memOk.claimNow {s : State} {core li : Nat} {l : Launch} (h : s.memOk) : (s.claimNow core li l).memOk := by
  unfold State.claimNow
  extract_lets u c t tick v b
  have hv : v.memOk := .updLaunch (.acquire (State.memOk_setNum (.release h) _ _ _))
  clear_value v
  dsimp only
  exact .ite (.updLaunch hv) (.ite (.of_mem (s := v) rfl hv) (.placeBlock (.of_mem (s := v) rfl hv)))

theorem State.memOk.claim {s : State} {core li : Nat} (h : s.memOk) : (s.claim core li).memOk := by
  unfold State.claim
  split
  · exact h
  · split
    · exact h
    · split
      · exact .claimNow h
      · exact .updLaunch h
      · exact .ite (.claimNow h) h

theorem State.memOk.grantTokens {s : State} (h : s.memOk) : s.grantTokens.memOk := by
  unfold State.grantTokens
  split
  · exact h
  · exact .grantAgent h
  · split
    · split
      · exact .of_mem rfl h
      · exact .ite (.placeBlock (.of_mem rfl h)) h
    · exact .of_mem rfl h

theorem State.memOk.restoreBlock {s : State} {blk core : Nat} (h : s.memOk) : (s.restoreBlock blk core).memOk := by
  unfold State.restoreBlock
  split
  · exact h
  · split
    · exact h
    · exact .foldl (.putEngines (.updBlock (.updCore (.takeTokens (.of_mem rfl h))))) fun _ _ h =>
        .getD (fun _ e => .loadIn h e) h

theorem State.memOk.takeBlock {s : State} {blk core : Nat} (h : s.memOk) : (s.takeBlock blk core).memOk := by
  unfold State.takeBlock
  split
  · exact h
  · split
    · exact .ite (.placeBlock (.unqueue h)) h
    · exact .restoreBlock (.unqueue h)
    · exact h

theorem State.memOk.joinLists {s : State} (h : s.memOk) : s.joinLists.memOk :=
  .foldl h fun _ _ h => .readyWave h

theorem State.memOk.evict {s : State} {core slot : Nat} (h : s.memOk) : (s.evict core slot).memOk := by
  unfold State.evict
  split
  · exact h
  · split
    · exact .saveWave (.forgetReqs (.forgetReqs h))
    · exact .ite (.updWaveObj (.saveWave (.forgetReqs (.forgetReqs h))))
        (.readyWave (.saveWave (.forgetReqs (.forgetReqs h))))

theorem State.memOk.takeEntry {s : State} {a : BitVec 32 ⊕ Nat} {core : Nat} (h : s.memOk) :
    (s.takeEntry a core).memOk := by
  unfold State.takeEntry
  split
  · exact .takeBlock h
  · split
    · exact .getD (fun _ e => .loadIn (.unqueue h) e) h
    · exact h

theorem State.memOk.evictSoon {s : State} {core slot : Nat} (h : s.memOk) : (s.evictSoon core slot).memOk :=
  .ite (.evict h) (.haltWave h)

theorem State.memOk.evictHalted {s : State} (h : s.memOk) : s.evictHalted.memOk :=
  .foldl h fun _ _ h => .evict h

theorem State.memOk.dispatch {s : State} {cl : Nat} (h : s.memOk) : (s.dispatch cl).memOk := by
  unfold State.dispatch
  dsimp only
  split
  · exact .takeEntry (.of_mem (s := State.joinLists _) rfl (.joinLists (.evictHalted h)))
  · split
    · exact .evictSoon (.joinLists (.evictHalted h))
    · exact .joinLists (.evictHalted h)

theorem State.memOk.refill {s : State} {i core : Nat} (h : s.memOk) : (s.refill i core).memOk := by
  unfold State.refill
  split
  · exact .ite (.takeEntry h) h
  · exact h

theorem State.memOk.restoreChosen {s : State} {blk core : Nat} (h : s.memOk) : (s.restoreChosen blk core).memOk := by
  unfold State.restoreChosen
  split
  · exact .ite (.takeEntry h) h
  · exact h

theorem State.memOk.giveTokens {s : State} {blk : Nat} (h : s.memOk) : (s.giveTokens blk).memOk := by
  unfold State.giveTokens
  split
  · exact .updBlock (.addHeld (.of_mem rfl h))
  · exact h

theorem State.memOk.writeBlock {s : State} {blk : Nat} {b : Block} {im : BlkImage} (h : s.memOk) :
    (s.writeBlock blk b im).memOk :=
  State.memOk_setBytes (State.memOk_setBytes (.ite (State.memOk_setBytes h _ _) h) _ _) _ _

theorem State.memOk.saveBlock {s : State} {blk : Nat} (h : s.memOk) : (s.saveBlock blk).memOk := by
  unfold State.saveBlock
  split
  · exact h
  · exact .enqueue (.updBlock (.giveTokens (.dropEngines (.writeBlock
      (.foldl (.foldl h fun _ _ h => .forgetReqs (.forgetReqs h)) fun _ _ h => .saveWave h)))))

theorem State.memOk.flushBlock {s : State} {blk : Nat} (h : s.memOk) : (s.flushBlock blk).memOk := by
  unfold State.flushBlock
  split
  · exact h
  · refine .enqueue (.updBlock (.giveTokens (.dropEngines (.updLaunch (.foldl h fun _ _ h => ?_)))))
    split
    · exact .freeObj (.vacate h)
    · exact .freeObj h

theorem State.memOk.mustLeave {s : State} {blk : Nat} {noDrain : Bool} (h : s.memOk) : (s.mustLeave blk noDrain).memOk :=
    by
  unfold State.mustLeave
  split
  · exact .ite (.updCore (.updBlock h)) h
  · exact h

theorem State.memOk.leave {s : State} {blk : Nat} {m : Manner} (h : s.memOk) : (s.leave blk m).memOk := by
  unfold State.leave
  split
  · exact h
  · split
    · exact h
    · split
      · exact h
      · split
        · exact .updBlock (.foldl h fun _ _ h => .updWave h)
        · exact .ite (.saveBlock h) (.foldl h fun _ _ h => .haltWave h)
        · exact .ite (.flushBlock h) (.foldl h fun _ _ h => .haltWave h)

theorem State.memOk.drainLimit {s : State} {blk : Nat} (h : s.memOk) : (s.drainLimit blk).memOk := by
  unfold State.drainLimit
  split
  · split
    · exact .ite (.mustLeave h) h
    · exact h
  · exact h

theorem State.memOk.turnWindows {s : State} (h : s.memOk) : s.turnWindows.memOk :=
  .of_mem rfl h

theorem State.memOk.swap {s : State} {core : Nat} (h : s.memOk) : (s.swap core).memOk := by
  unfold State.swap
  split
  · exact h
  · split
    · exact h
    · exact .ite (.updCore (.mustLeave h)) h

theorem State.memOk.fulfilSwap {s : State} {core : Nat} (h : s.memOk) : (s.fulfilSwap core).memOk := by
  unfold State.fulfilSwap
  split
  · exact h
  · split
    · exact h
    · dsimp only
      split
      · exact .takeBlock (.updCore h)
      · exact .updCore h

theorem State.memOk.periodRelease {s : State} {i : Nat} (h : s.memOk) : (s.periodRelease i).memOk :=
  .updObj h

theorem State.memOk.progress {s : State} (h : s.memOk) : s.progress.memOk :=
  .foldl (.foldl h fun _ _ h => .swap h) fun _ _ h => .dispatch h

theorem State.memOk.noteWork {s : State} (h : s.memOk) : s.noteWork.memOk :=
  .of_mem rfl h

theorem State.memOk.releaseDue {s : State} (h : s.memOk) : s.releaseDue.memOk :=
  .of_mem rfl h

theorem State.memOk.overrun {s : State} {i : Nat} (h : s.memOk) : (s.overrun i).memOk := by
  unfold State.overrun
  split
  · exact .foldl (.foldl (.ite h (.updCore (.of_mem rfl h))) fun _ _ h => .evictSoon h) fun _ _ h => .ite (.mustLeave h) h
  · exact h

theorem State.memOk.overruns {s : State} (h : s.memOk) : s.overruns.memOk := by
  unfold State.overruns
  refine .foldl h fun _ _ h => ?_
  split
  · exact .overrun h
  · exact h

end Sys2Proof.Machine

end

-- ==== The memories stay canonical: launches, boot and time; O54 ====
section
/-!
Queues, launches, the mailbox, boot and the passing of time keep the canonical form of the memories.
-/

namespace Sys2Proof.Machine

/-! ### Queues, launches and the mailbox -/

theorem State.memOk.updQueue {s : State} {fn q : Nat} {f : Queue → Queue} (h : s.memOk) : (s.updQueue fn q f).memOk :=
  .of_mem rfl h

theorem State.memOk.updPkt {s : State} {fn q n : Nat} {f : QPkt → QPkt} (h : s.memOk) : (s.updPkt fn q n f).memOk :=
  .updQueue h

theorem State.memOk.finishPkt {s : State} {fn q n : Nat} (h : s.memOk) : (s.finishPkt fn q n).memOk :=
  .updPkt h

theorem State.memOk.badPkt {s : State} {fn q n : Nat} (h : s.memOk) : (s.badPkt fn q n).memOk :=
  .updQueue (.finishPkt h)

theorem State.memOk.stopQueue {s : State} {fn q : Nat} (h : s.memOk) : (s.stopQueue fn q).memOk :=
  .updQueue h

theorem State.memOk.enableQueue {s : State} {fn q : Nat} (h : s.memOk) : (s.enableQueue fn q).memOk :=
  .ite h (.updQueue h)

theorem State.memOk.writeTail {s : State} {fn q t : Nat} (h : s.memOk) : (s.writeTail fn q t).memOk := by
  unfold State.writeTail
  dsimp only
  split
  · exact h
  · exact .ite (.updQueue h) (.updQueue (.of_mem rfl h))

theorem State.memOk.devAccess {s : State} {sp : Space} {h1 : BitVec 32} {half : Nat} {o : MemOp} {a : LaneAcc}
    (h : s.memOk) : (s.devAccess sp h1 half o a).2.memOk := by
  unfold State.devAccess
  split
  · split
    · exact h
    · exact .dropEngReqs h
    · exact .dropEngReqs h
  · split
    · exact h
    · split
      split
      · rename_i he _ _ _ _
        exact .of_snd he (.access h)
      · rename_i he _ _
        exact .ite_snd (.of_snd he (.access h)) (.foldl (.of_snd he (.access h)) fun _ _ h => .ask h)

theorem State.memOk.startPkt {s : State} {fn q : Nat} {is : QPkt → Bool} {k : QPkt → State → State} (h : s.memOk)
    (hk : ∀ p t, t.memOk → (k p t).memOk) : (s.startPkt fn q is k).memOk := by
  unfold State.startPkt
  split
  · exact .ite (hk _ _ h) h
  · exact h

theorem State.memOk.finishWait {s : State} {fn q : Nat} (h : s.memOk) : (s.finishWait fn q).memOk := by
  unfold State.finishWait
  split
  · exact h
  · split
    · exact h
    · split
      · rename_i he
        exact .ite (.finishPkt (.of_snd he (.devAccess h))) (.of_snd he (.devAccess h))
      · rename_i he
        exact .updPkt (.of_snd he (.devAccess h))
      · rename_i he
        exact .of_snd he (.devAccess h)

theorem State.memOk.endLaunch {s : State} {li status : Nat} (h : s.memOk) : (s.endLaunch li status).memOk :=
  .updLaunch h

theorem State.memOk.setCounters {s : State} {li v : Nat} (h : s.memOk) : (s.setCounters li v).memOk :=
  .foldl h fun _ _ h => State.memOk_setNum h _ _ _

theorem State.memOk.startLaunch {s : State} {li : Nat} (h : s.memOk) : (s.startLaunch li).memOk :=
  .updLaunch (.setCounters h)

theorem State.memOk.launchAnswer {s : State} {key base count : Nat} {ok : Bool} (h : s.memOk) :
    (s.launchAnswer key base count ok).memOk := by
  unfold State.launchAnswer
  split
  · exact .ite (.startLaunch h) (.endLaunch h)
  · exact h

theorem State.memOk.answerSet {s : State} {e : PeerSet} {ms : List Nat} {ok : Bool} (h : s.memOk) :
    (s.answerSet e ms ok).memOk :=
  .foldl h fun _ _ h => .ite (.launchAnswer h) (.trySend h)

theorem State.memOk.refuseLate {s : State} {key : Nat → Bool} (h : s.memOk) : (s.refuseLate key).memOk :=
  .foldl (.of_mem rfl h) fun _ _ h => .ite h (.answerSet h)

theorem State.memOk.launchArrive {s : State} {src key base count : Nat} {levels : List Byte} {failed : Bool}
    (h : s.memOk) : (s.launchArrive src key base count levels failed).memOk := by
  unfold State.launchArrive
  split
  · exact h
  · dsimp only
    split
    · exact .answerSet (.of_mem (s := State.refuseLate _ _) rfl (.refuseLate h))
    · split
      · exact .answerSet (.of_mem (s := State.refuseLate _ _) rfl (.refuseLate h))
      · exact .ite (.answerSet (.of_mem (s := State.refuseLate _ _) rfl (.refuseLate h)))
          (.of_mem (s := State.refuseLate _ _) rfl (.refuseLate h))

theorem State.memOk.launchArrivalTimeout {s : State} {key : Nat} (h : s.memOk) : (s.launchArrivalTimeout key).memOk :=
  .refuseLate h

theorem State.memOk.launchAnswerTimeout {s : State} {li : Nat} (h : s.memOk) : (s.launchAnswerTimeout li).memOk := by
  unfold State.launchAnswerTimeout
  split
  · exact .ite (.endLaunch h) h
  · exact h

theorem State.memOk.endSets {s : State} (h : s.memOk) : s.endSets.memOk :=
  .foldl (.refuseLate h) fun _ _ h => .launchAnswerTimeout h

theorem State.memOk.judged {s : State} {li status : Nat} (h : s.memOk) : (s.judged li status).memOk := by
  unfold State.judged
  split
  · exact h
  · split
    · exact .ite (.launchArrive (.ite (.updLaunch h) (.endLaunch h))) (.trySend (.ite (.updLaunch h) (.endLaunch h)))
    · exact .ite (.startLaunch h) (.endLaunch h)

theorem State.memOk.checkLaunch {s : State} {li : Nat} (h : s.memOk) : (s.checkLaunch li).memOk := by
  unfold State.checkLaunch
  split
  · exact h
  · split
    · exact h
    · split
      · split
        · dsimp only
          split
          · exact .judged (.dropEngReqs h)
          · exact .ite (.judged (.dropEngReqs h)) (.judged (.dropEngReqs h))
        · dsimp only
          split
          · exact .judged (.dropEngReqs h)
          · split
            · exact .judged (.dropEngReqs h)
            · split
              · rename_i he
                exact .judged (.dropEngReqs (.of_snd he (.fetchNeed h)))
              · rename_i he
                exact .of_snd he (.fetchNeed h)
              · rename_i he
                exact .updLaunch (.of_snd he (.fetchNeed h))
              · rename_i he
                exact .judged (.dropEngReqs (.of_snd he (.fetchNeed h)))
      · split
        · dsimp only
          split
          · exact .judged (.dropEngReqs h)
          · exact .ite (.judged (.dropEngReqs h)) (.judged (.dropEngReqs h))
        · dsimp only
          split
          · exact .judged (.dropEngReqs h)
          · split
            · exact .judged (.dropEngReqs h)
            · split
              · rename_i he
                exact .judged (.dropEngReqs (.of_snd he (.fetchNeed h)))
              · rename_i he
                exact .of_snd he (.fetchNeed h)
              · rename_i he
                exact .updLaunch (.of_snd he (.fetchNeed h))
              · rename_i he
                exact .judged (.dropEngReqs (.of_snd he (.fetchNeed h)))

theorem State.memOk.launchPkt {s : State} {fn q : Nat} (h : s.memOk) : (s.launchPkt fn q).memOk := by
  unfold State.launchPkt
  split
  · exact .checkLaunch h
  · exact .startPkt h fun _ _ h => .ite (.badPkt h) (.checkLaunch (.of_mem rfl h))

theorem State.memOk.closeLaunch {s : State} {li : Nat} (h : s.memOk) : (s.closeLaunch li).memOk := by
  unfold State.closeLaunch
  split
  · exact h
  · exact .ite (.of_mem rfl h) (.finishPkt (.updLaunch h))

theorem State.memOk.completeLaunch {s : State} {li : Nat} (h : s.memOk) : (s.completeLaunch li).memOk := by
  unfold State.completeLaunch
  split
  · exact h
  · split
    · exact h
    · dsimp only
      split
      · exact .closeLaunch (.foldl (.drainOrphans h) fun _ _ h => .release h)
      · split
        · rename_i he
          exact .closeLaunch (.of_snd he (.devAccess (.foldl (.drainOrphans h) fun _ _ h => .release h)))
        · rename_i he
          exact .updLaunch (.of_snd he (.devAccess (.foldl (.drainOrphans h) fun _ _ h => .release h)))
        · rename_i he
          exact .updLaunch (.of_snd he (.devAccess (.foldl (.drainOrphans h) fun _ _ h => .release h)))
        · rename_i he
          exact .closeLaunch (.of_snd he (.devAccess (.foldl (.drainOrphans h) fun _ _ h => .release h)))

theorem State.memOk.destroyQueue {s : State} {fn q : Nat} (h : s.memOk) : (s.destroyQueue fn q).memOk := by
  unfold State.destroyQueue
  refine .foldl (.stopQueue h) fun _ _ h => .ite ?_ h
  split
  · exact .updLaunch (.setCounters h)
  · exact .endLaunch (.dropEngReqs h)
  · exact .endLaunch (.dropEngReqs h)
  · exact h

theorem State.memOk.respond {s : State} {cmd status value : Nat} (h : s.memOk) : (s.respond cmd status value).memOk :=
  .of_mem rfl h

theorem State.memOk.mail {s : State} {cmd n : Nat} {k : List Nat → State → State} (h : s.memOk)
    (hk : ∀ ns t, t.memOk → (k ns t).memOk) : (s.mail cmd n k).memOk :=
  .ite h (.ite (.respond h) (.ite (.respond h) (hk _ _ h)))

theorem State.memOk.mailVersion {s : State} (h : s.memOk) : s.mailVersion.memOk :=
  .mail h fun _ _ h => .respond (.of_mem rfl h)

theorem State.memOk.mailDestroy {s : State} (h : s.memOk) : s.mailDestroy.memOk :=
  .mail h fun _ _ h => .ite (.of_mem (s := State.destroyQueue _ _ _) rfl (.destroyQueue h)) (.respond h)

theorem State.memOk.destroyAnswer {s : State} (h : s.memOk) : s.destroyAnswer.memOk := by
  unfold State.destroyAnswer
  split
  · exact h
  · exact .updQueue (.ite (.respond (.of_mem rfl h)) (.of_mem rfl h))

theorem State.memOk.mailPasidDown {s : State} (h : s.memOk) : s.mailPasidDown.memOk :=
  .mail h fun _ _ h => .ite (.respond h) (.of_mem (s := List.foldl _ _ _) rfl (.foldl h fun _ _ h => .destroyQueue h))

theorem State.memOk.pasidAnswer {s : State} (h : s.memOk) : s.pasidAnswer.memOk := by
  unfold State.pasidAnswer
  split
  · exact .ite h (.respond (.of_mem rfl h))
  · exact h

theorem State.memOk.mailPreempt {s : State} (h : s.memOk) : s.mailPreempt.memOk :=
  .mail h fun _ _ h => .ite (.respond h) (.respond (.foldl h fun _ _ h => .ite (.mustLeave h) h))

theorem State.memOk.mailBootclr {s : State} (h : s.memOk) : s.mailBootclr.memOk :=
  .mail h fun _ _ h => .ite (.respond (.of_mem rfl h)) (.respond h)

theorem State.memOk.mailUnknown {s : State} (h : s.memOk) : s.mailUnknown.memOk :=
  .ite (.respond h) h

theorem State.memOk.updTdi {s : State} {n : Nat} {f : Tdi → Tdi} (h : s.memOk) : (s.updTdi n f).memOk :=
  .of_mem rfl h

theorem State.memOk.leaveRun {s : State} {n : Nat} (h : s.memOk) : (s.leaveRun n).memOk :=
  .updTdi (.of_cells rfl rfl (.foldl (.foldl (.foldl (.foldl h fun _ _ h => .ite (.stopQueue h) h) fun _ _ h =>
    .killBlock h)
    fun _ _ h => .ite (.endHandle h) h) fun _ _ h => .finishPkt (.updLaunch (.dropEngReqs h))))

theorem State.memOk.tdiError {s : State} {n : Nat} (h : s.memOk) : (s.tdiError n).memOk := by
  unfold State.tdiError
  split
  · exact .updTdi (.leaveRun h)
  · exact .updTdi h
  · exact h

theorem State.memOk.onTdi {s : State} {k : State → State} (h : s.memOk) (hk : ∀ t, t.memOk → (k t).memOk) :
    (s.onTdi k).memOk :=
  .unlessMin h hk

theorem State.memOk.tdiLock {s : State} {n : Nat} (h : s.memOk) : (s.tdiLock n).memOk := by
  unfold State.tdiLock
  split
  · exact .updTdi h
  · exact h

theorem State.memOk.tdiStart {s : State} {n : Nat} (h : s.memOk) : (s.tdiStart n).memOk := by
  unfold State.tdiStart
  split
  · exact .updTdi (.of_cells rfl rfl h)
  · exact h

theorem State.memOk.tdiStop {s : State} {n : Nat} (h : s.memOk) : (s.tdiStop n).memOk := by
  unfold State.tdiStop
  split
  · exact .updTdi (.leaveRun h)
  · exact .updTdi h
  · exact h

theorem State.memOk.tdiReport {s : State} {n : Nat} (h : s.memOk) : (s.tdiReport n).memOk := by
  unfold State.tdiReport
  split
  · exact h
  · exact .updTdi h

theorem State.memOk.mailRegbind {s : State} (h : s.memOk) : s.mailRegbind.memOk := by
  unfold State.mailRegbind
  refine .mail h fun _ _ h => ?_
  split
  split
  · exact .respond h
  · split
    · exact .ite (.respond h) (.respond h)
    · exact .ite (.respond h) (.respond (.updTdi (.of_cells rfl rfl h)))

theorem State.memOk.measure {s : State} (h : s.memOk) : s.measure.memOk :=
  .of_mem rfl h

theorem State.memOk.writeBase {s : State} {fn q : Nat} {v : BitVec 64} (h : s.memOk) : (s.writeBase fn q v).memOk := by
  unfold State.writeBase
  dsimp only
  split
  · exact h
  · exact .ite (.tdiError (.updQueue h)) (.updQueue h)

theorem State.memOk.writeSize {s : State} {fn q : Nat} {v : BitVec 64} (h : s.memOk) : (s.writeSize fn q v).memOk :=
  .ite h (.updQueue h)

theorem State.memOk.clearStat {s : State} {fn q : Nat} {v : BitVec 64} (h : s.memOk) : (s.clearStat fn q v).memOk :=
  .updQueue h

theorem State.memOk.onQueue {s : State} {fn q : Nat} {k : State → State} (h : s.memOk) (hk : ∀ t, t.memOk → (k t).memOk) :
    (s.onQueue fn q k).memOk :=
  .ite (hk s h) h

theorem State.memOk.fbResponse {s : State} {die : Nat} {v : BitVec 64} (h : s.memOk) : (s.fbResponse die v).memOk :=
  .ite (.raiseRecord h) (.walkAgain h)

theorem State.memOk.ring {s : State} (h : s.memOk) : s.ring.memOk :=
  .updCore (.of_mem rfl h)

theorem State.memOk.writeBar {s : State} {fn off : Nat} {v : BitVec 64} (h : s.memOk) : (s.writeBar fn off v).memOk := by
  refine .ite h (.ite (.onQueue h fun t ht => ?_) (.ite h (.ite (.of_mem rfl h) (.ite (.ite (.ring h) h) (.ite h
    (.ite ?_ (.ite (.windowWrite h) h)))))))
  · split
    · exact .writeBase ht
    · exact .writeSize ht
    · exact .writeTail ht
    · exact .ite (.enableQueue ht) (.updQueue ht)
    · exact .clearStat ht
    · exact ht
  · dsimp only
    split
    · exact .ite (.fbpop h) h
    · exact .fbResponse h
    · exact h

theorem State.memOk.onLaunchPacket {s : State} {p : Packet} {kinds : List Nat} {k : Nat → Nat → Nat → Nat → State → State}
    (h : s.memOk) (hk : ∀ kind l n m t, t.memOk → (k kind l n m t).memOk) : (s.onLaunchPacket p kinds k).memOk :=
  .ite (.recv h (hk _ _ _ _)) h

/-! ### Boot and temperature -/

theorem State.memOk.cleared {s : State} (h : s.memOk) : s.cleared.memOk :=
  ⟨rfl, h.2⟩

theorem State.memOk.train {s : State} (h : s.memOk) : s.train.1.memOk :=
  .of_mem rfl h

theorem State.memOk.startAgent {s : State} {k : Nat} (h : s.memOk) : (s.startAgent k).memOk :=
  .setWave h

theorem State.memOk.startAgents {s : State} (h : s.memOk) : s.startAgents.memOk :=
  .foldl h fun _ _ h => .startAgent h

theorem State.memOk.powerOn {s : State} (h : s.memOk) : s.powerOn.memOk := by
  unfold State.powerOn
  dsimp only
  split
  · exact .startAgent (.of_mem (s := State.cleared _) rfl (.cleared h))
  · split
    · exact .startAgent (.of_mem (s := State.cleared _) rfl (.cleared h))
    · split
      · exact .startAgent (.of_mem (s := State.cleared _) rfl (.cleared h))
      · split
        · exact .of_mem (s := State.cleared _) rfl (.cleared h)
        · split
          · exact .of_mem (s := Prod.fst _) rfl (.train (.cleared h))
          · exact .ite (.of_mem (s := Prod.fst _) rfl (.train (.cleared h)))
              (.startAgents (.of_mem (s := Prod.fst _) rfl (.train (.cleared h))))

theorem State.memOk.throttle {s : State} {die : Nat} {f : BitVec 3 → BitVec 3} (h : s.memOk) : (s.throttle die f).memOk :=
  .foldl h fun _ _ h => .updCore h

theorem State.memOk.tempHigh {s : State} {die : Nat} (h : s.memOk) : (s.tempHigh die).memOk :=
  .ite (.throttle h) h

theorem State.memOk.tempCool {s : State} {die : Nat} (h : s.memOk) : (s.tempCool die).memOk :=
  .ite (.throttle h) h

/-! ### Time -/

theorem State.memOk.spendBudgets {s : State} {dt : Nat} (h : s.memOk) : (s.spendBudgets dt).memOk :=
  .of_mem rfl h

theorem State.memOk.noteWaves {s : State} (h : s.memOk) : s.noteWaves.memOk :=
  .of_mem rfl h

theorem State.memOk.settle {s : State} (h : s.memOk) : s.settle.memOk :=
  .syncSets (.progress (.foldl (.noteWork (.joinLists (.evictHalted
    (.overruns (.releaseDue (.expireDue (.endSets (.turnWindows (.settleWaves h))))))))) fun _ _ h => .fulfilSwap h))

theorem State.memOk.sensed {s : State} {a : Option (Nat × BitVec 12 × BitVec 4)} (h : s.memOk) : (s.sensed a).memOk := by
  unfold State.sensed
  split
  · exact .ite (.updCore h) h
  · exact h

theorem State.memOk.thermal {s u : State} (h : s.memOk) : (s.thermal u).memOk :=
  .foldl (.foldl h fun _ _ h => .tempHigh h) fun _ _ h => .ite (.tempCool h) h

theorem State.memOk.elapse {s : State} (h : s.memOk) : s.elapse.memOk := by
  unfold State.elapse
  extract_lets u dt t v late
  have ht : t.memOk := .settle (.spendBudgets (.of_mem (s := u) rfl (.noteWaves (.joinLists h))))
  have hv : v.memOk := .thermal (.sensed (.getD (fun w hw => by
    obtain ⟨x, -, rfl⟩ := Option.map_eq_some_iff.1 hw
    exact .struck ht) ht))
  clear_value v
  exact .of_mem (s := v) rfl hv

theorem State.memOk.nextTurn {s : State} (h : s.memOk) : s.nextTurn.2.memOk := by
  unfold State.nextTurn
  split
  · exact .of_mem rfl h
  · exact h

end Sys2Proof.Machine

end

-- ==== Every step keeps the memories canonical; O54 ====
section
/-!
Every instruction, every event and the time that a step takes keep the canonical form of the memories.
-/

namespace Sys2Proof.Machine

/-! ### Every meaning keeps the memories -/

/-- A meaning that keeps the memories in canonical form. -/
def Act.KeepsMem (f : Act) : Prop := ∀ s t, s.memOk → f s = .next t → t.memOk

theorem Act.KeepsMem.next {g : State → State} (hg : ∀ s, s.memOk → (g s).memOk) : Act.KeepsMem fun s => .next (g s) :=
  fun s t h e => by
    rw [← Host.Outcome.next.inj e]
    exact hg s h

theorem Act.KeepsMem.runWave {i : Instr} {e : Option Ext} {body : Ctx → State → Res}
    (hb : ∀ c s, s.memOk → (body c s).memOk) : Act.KeepsMem (runWave i e body) := fun s t h he => by
  unfold Machine.runWave at he
  split at he
  · cases he
  · split at he
    · rw [← Host.Outcome.next.inj he]
      exact .issue h hb
    · cases he

/-- A split that an event lets go on keeps the memories where the bodies it may resume with do. -/
theorem Act.KeepsMem.resume {w : Who} {f : Instr → Option (Option Ext × (Ctx → State → Res))}
    (hf : ∀ i e body, f i = some (e, body) → ∀ c s, s.memOk → (body c s).memOk) :
    Act.KeepsMem fun s => .next (s.resume w f) :=
  .next fun _ h => .resume h hf

/-- Every instruction's body and every event is assembled from operations that keep the memories in canonical form. -/
theorem exec_keepsMem (i : Instr) : Act.KeepsMem (exec i) := by
  cases i with
  | nop =>
    exact .runWave fun _ _ h => .nopBody h
  | addReg _ | addImm _ | addLit _ | addExt _ | subReg _ | subImm _ | subLit _ | subExt _ | mulReg _ | mulImm _
  | mulLit _ | mulExt _ | mulhReg _ | mulhImm _ | mulhLit _ | mulhExt _ | divReg _ | divImm _ | divLit _ | divExt _
  | minReg _ | minImm _ | minLit _ | minExt _ | maxReg _ | maxImm _ | maxLit _ | maxExt _ | andReg _ | andImm _
  | andLit _ | andExt _ | orReg _ | orImm _ | orLit _ | orExt _ | xorReg _ | xorImm _ | xorLit _ | xorExt _
  | andnReg _ | andnImm _ | andnLit _ | andnExt _ | shlReg _ | shlImm _ | shlLit _ | shlExt _ | shrReg _ | shrImm _
  | shrLit _ | shrExt _ | sarReg _ | sarImm _ | sarLit _ | sarExt _ =>
    exact .runWave fun _ _ h => .intMould h
  | popcReg _ | popcExt _ | clzReg _ | clzExt _ | ctzReg _ | ctzExt _ =>
    exact .runWave fun _ _ h => .countMould h
  | movReg _ | movExt _ =>
    exact .runWave fun _ _ h => .movMould h
  | moviImm _ | moviLit _ | moviExt _ =>
    exact .runWave fun _ _ h => .moviMould h
  | faddReg _ | faddImm _ | faddLit _ | faddExt _ | fsubReg _ | fsubImm _ | fsubLit _ | fsubExt _ | fmulReg _
  | fmulImm _ | fmulLit _ | fmulExt _ | fminReg _ | fminImm _ | fminLit _ | fminExt _ | fmaxReg _ | fmaxImm _
  | fmaxLit _ | fmaxExt _ | ffma _ =>
    exact .runWave fun _ _ h => .fltMould h
  | frcpReg _ | frcpExt _ | frsqReg _ | frsqExt _ | fsqrtReg _ | fsqrtExt _ | fex2Reg _ | fex2Ext _ | flg2Reg _
  | flg2Ext _ =>
    exact .runWave fun _ _ h => .fltFun h
  | mad _ =>
    exact .runWave fun _ _ h => .madBody h
  | bfx _ =>
    exact .runWave fun _ _ h => .bfxBody h
  | bfi _ =>
    exact .runWave fun _ _ h => .bfiBody h
  | cmp _ =>
    exact .runWave fun _ _ h => .cmpBody h
  | sel _ =>
    exact .runWave fun _ _ h => .selBody h
  | lea _ =>
    exact .runWave fun _ _ h => .leaBody h
  | plog _ =>
    exact .runWave fun _ _ h => .plogBody h
  | pmov _ =>
    exact .runWave fun _ _ h => .pmovBody h
  | ballot _ =>
    exact .runWave fun _ _ h => .ballotBody h
  | vote _ =>
    exact .runWave fun _ _ h => .voteBody h
  | mprefix _ =>
    exact .runWave fun _ _ h => .mprefixBody h
  | elect _ | electExt _ =>
    exact .runWave fun _ _ h => .electBody h
  | cvt _ =>
    exact .runWave fun _ _ h => .cvtBody h
  | bqnt _ =>
    exact .runWave fun _ _ h => .bqntBody h
  | vdot _ =>
    exact .runWave fun _ _ h => .vdotBody h
  | shfl _ =>
    exact .runWave fun _ _ h => .shflBody h
  | lscan _ =>
    exact .runWave fun _ _ h => .lscanBody h
  | lred _ =>
    exact .runWave fun _ _ h => .lredBody h
  | bra _ | braDisp _ | call _ | callDisp _ =>
    exact .runWave fun _ _ h => .gotoBody h
  | braAbs _ | callAbs _ =>
    exact .runWave fun _ _ h => .gotoAbsBody h
  | brc _ =>
    exact .runWave fun _ _ h => .brcBody h
  | bru _ _ _ =>
    exact .runWave fun _ _ h => .bruBody h
  | bruAbs _ | bruDisp _ =>
    exact .runWave fun _ _ h => .bruExtBody h
  | ret =>
    exact .runWave fun _ _ h => .retBody h
  | jmpi _ =>
    exact .runWave fun _ _ h => .jmpiBody h
  | loop _ =>
    exact .runWave fun _ _ h => .loopBody h
  | loopx _ =>
    exact .runWave fun _ _ h => .loopxBody h
  | brkl _ =>
    exact .runWave fun _ _ h => .brklBody h
  | region =>
    exact .runWave fun _ _ h => .regionBody h
  | exit =>
    exact .runWave fun _ _ h => .exitBody h
  | yield =>
    exact .runWave fun _ _ h => .yieldBody h
  | trap _ | brk =>
    exact .runWave fun _ _ h => .trapBody h
  | ldReg _ | ldLit _ | ldExt _ =>
    exact .runWave fun _ _ h => .ldBody h
  | stReg _ | stLit _ | stExt _ =>
    exact .runWave fun _ _ h => .stBody h
  | ldlReg _ | ldlLit _ | ldlExt _ =>
    exact .runWave fun _ _ h => .ldlBody h
  | stlReg _ | stlLit _ | stlExt _ =>
    exact .runWave fun _ _ h => .stlBody h
  | cmpst _ =>
    exact .runWave fun _ _ h => .cmpstBody h
  | expld _ =>
    exact .runWave fun _ _ h => .expldBody h
  | atom _ =>
    exact .runWave fun _ _ h => .atomBody h
  | atomn _ =>
    exact .runWave fun _ _ h => .atomnBody h
  | fence _ =>
    exact .runWave fun _ _ h => .fenceBody h
  | fenceo _ =>
    exact .runWave fun _ _ h => .fenceoBody h
  | fencer _ =>
    exact .runWave fun _ _ h => .fencerBody h
  | pref _ =>
    exact .runWave fun _ _ h => .prefBody h
  | cflush _ | cinv _ =>
    exact .runWave fun _ _ h => .maintBody h
  | rld _ =>
    exact .runWave fun _ _ h => .rldBody h
  | rst _ =>
    exact .runWave fun _ _ h => .rstBody h
  | ratom _ =>
    exact .runWave fun _ _ h => .ratomBody h
  | rmcst _ =>
    exact .runWave fun _ _ h => .rmcstBody h
  | cpy _ =>
    exact .runWave fun _ _ h => .cpyBody h
  | mma _ =>
    exact .runWave fun _ _ h => .mmaBody h
  | accrd _ =>
    exact .runWave fun _ _ h => .accrdBody h
  | accwr _ =>
    exact .runWave fun _ _ h => .accwrBody h
  | accz _ =>
    exact .runWave fun _ _ h => .acczBody h
  | tilemvLd _ | tilemvSt _ =>
    exact .runWave fun _ _ h => .tilemvBody h
  | chinit _ =>
    exact .runWave fun _ _ h => .chinitBody h
  | chputRes _ | chgetWait _ =>
    exact .runWave fun _ _ h => .reserveBody h
  | chputDone _ | chgetDone _ =>
    exact .runWave fun _ _ h => .doneBody h
  | cwait _ =>
    exact .runWave fun _ _ h => .cwaitBody h
  | coll _ =>
    exact .runWave fun _ _ h => .collBody h
  | gthr _ =>
    exact .runWave fun _ _ h => .gthrBody h
  | bar _ | bara _ =>
    exact .runWave fun _ _ h => .barBody h
  | barw _ =>
    exact .runWave fun _ _ h => .barwBody h
  | regroupKey _ | regroupHome _ =>
    exact .runWave fun _ _ h => .regroupBody h
  | vgrow _ =>
    exact .runWave fun _ _ h => .vgrowBody h
  | vshrink _ =>
    exact .runWave fun _ _ h => .vshrinkBody h
  | wcreate _ =>
    exact .runWave fun _ _ h => .wcreateBody h
  | psend _ =>
    exact .runWave fun _ _ h => .psendBody h
  | precv _ =>
    exact .runWave fun _ _ h => .precvBody h
  | objnew _ =>
    exact .runWave fun _ _ h => .objnewBody h
  | objdel _ =>
    exact .runWave fun _ _ h => .objdelBody h
  | wsadd _ =>
    exact .runWave fun _ _ h => .wsaddBody h
  | wswait _ =>
    exact .runWave fun _ _ h => .wswaitBody h
  | tarm _ | tcancel _ =>
    exact .runWave fun _ _ h => .timerBody h
  | nslookup _ =>
    exact .runWave fun _ _ h => .nslookupBody h
  | srd _ =>
    exact .runWave fun _ _ h => .srdBody h
  | crd _ =>
    exact .runWave fun _ _ h => .crdBody h
  | cwr _ | ktcodePop _ | kmodeIntlkWrite _ =>
    exact .runWave fun _ _ h => .cwrBody h
  | rft _ =>
    exact .runWave fun _ _ h => .rftBody h
  | ctxsv _ =>
    exact .runWave fun _ _ h => .ctxsvBody h
  | ctxld _ =>
    exact .runWave fun _ _ h => .ctxldBody h
  | tlbinv _ =>
    exact .runWave fun _ _ h => .tlbinvBody h
  | idle _ =>
    exact .runWave fun _ _ h => .idleWaitBody h
  | objrd _ =>
    exact .runWave fun _ _ h => .objrdBody h
  | objwr _ =>
    exact .runWave fun _ _ h => .objwrBody h
  | pwracq _ =>
    exact .runWave fun _ _ h => .pwracqBody h
  | pwrrel _ =>
    exact .runWave fun _ _ h => .pwrrelBody h
  | mgsig _ =>
    exact .runWave fun _ _ h => .mgsigBody h
  | agentRestart _ =>
    exact .next fun _ h => .restartAgent h
  | trapRecordDelivery _ =>
    exact .next fun _ h => .deliver h
  | translationFill _ _ _ =>
    exact .next fun _ h => .ite (.updCore h) (.updWave h)
  | atomnPerform _ _ =>
    exact .next fun _ h => .drainOrphans (.drainAtomn h)
  | fbpop _ =>
    exact .next fun _ h => .unlessMin h fun _ h => .fbpop h
  | fbrespWalkAgain _ _ =>
    exact .next fun _ h => .unlessMin h fun _ h => .walkAgain h
  | fbrespRaise _ _ =>
    exact .next fun _ h => .unlessMin h fun _ h => .raiseRecord h
  | vgrowGrant _ =>
    exact .next fun _ h => .grantBlock h
  | vgrowDeadlockBreak _ =>
    exact .next fun _ h => .vgrowBreak h
  | blockDrainDone _ =>
    exact .next fun s h => by
      split
      · exact .updCore h
      · exact h
  | barrierPhaseComplete _ _ =>
    exact .next fun _ h => .phaseComplete h
  | cwaitSatisfied _ =>
    exact .resume fun i e body hb c s h => by
      split at hb <;> cases hb
      exact Res.memOk.cwaitBody h
  | fullEmptyWake _ =>
    exact .resume fun i e body hb c s h => by
      split at hb <;> cases hb
      · exact Res.memOk.ldlBody h
      · exact Res.memOk.stlBody h
  | fencerComplete _ =>
    exact .resume fun i e body hb c s h => by
      split at hb <;> cases hb
      exact Res.memOk.fencerBody h
  | kernelObjectWake _ =>
    exact .resume fun i e body hb c s h => by
      split at hb <;> cases hb
      · exact Res.memOk.psendBody h
      · exact Res.memOk.precvBody h
      · exact Res.memOk.wswaitBody h
  | tokenGrant =>
    exact .next fun _ h => .grantTokens h
  | idleWake _ =>
    exact .next fun _ h => .wakeIdle h
  | channelReservationGrant _ _ =>
    exact .next fun _ h => .grantNext h
  | mmaExecute _ =>
    exact .next fun _ h => .mmaExecute h
  | mmaComplete _ =>
    exact .next fun _ h => .mmaComplete h
  | acczExecute _ =>
    exact .next fun _ h => .acczExecute h
  | accwrExecute _ =>
    exact .next fun _ h => .accwrExecute h
  | tilemvLdExecute _ =>
    exact .next fun _ h => .tilemvLdExecute h
  | tilemvStExecute _ =>
    exact .next fun _ h => .tilemvStExecute h
  | copyFire _ =>
    exact .next fun s h => by
      split
      · split
        · exact .fire h
        · exact .collComplete (.fire h)
        · exact h
      · exact h
  | copyComplete _ _ | gatherComplete _ _ =>
    exact .next fun s h => by
      split
      · split
        · exact .completeCopy h
        · exact h
      · exact h
  | followOnMmaEntry _ =>
    exact .next fun _ h => .followOn h
  | gatherFire _ =>
    exact .next fun s h => by
      split
      · split
        · exact .fire h
        · exact h
      · exact h
  | collComplete _ _ =>
    exact .next fun s h => by
      split
      · split
        · exact .collComplete h
        · exact h
      · exact h
  | timerExpiry _ =>
    exact .next fun _ h => .expire h
  | scPeriodRelease _ =>
    exact .next fun _ h => .periodRelease h
  | scBudgetExhausted _ =>
    exact .next fun _ h => .overrun h
  | kernelDispatch _ =>
    exact .next fun _ h => .dispatch h
  | waveRefill _ _ =>
    exact .next fun _ h => .refill h
  | progressWindowSwap _ =>
    exact .next fun _ h => .swap h
  | preemptDrain _ | preemptSave _ | preemptFlushRestart _ =>
    exact .next fun _ h => .leave h
  | drainLimitExpiry _ =>
    exact .next fun _ h => .drainLimit h
  | blockRestore _ _ =>
    exact .next fun _ h => .restoreChosen h
  | blockPlacement _ _ =>
    exact .next fun _ h => .claim h
  | congestionLevelChange _ _ =>
    exact .next fun _ h => .of_cells rfl rfl h
  | qbaseWrite _ _ _ =>
    exact .next fun _ h => .onQueue h fun _ h => .writeBase h
  | qsizeWrite _ _ _ =>
    exact .next fun _ h => .onQueue h fun _ h => .writeSize h
  | queueEnable _ _ =>
    exact .next fun _ h => .onQueue h fun _ h => .enableQueue h
  | qtailWrite _ _ _ =>
    exact .next fun _ h => .onQueue h fun _ h => .writeTail h
  | qstatClear _ _ _ =>
    exact .next fun _ h => .onQueue h fun _ h => .clearStat h
  | registerWrite _ _ _ =>
    exact .next fun _ h => .writeBar h
  | noopPacket _ _ =>
    exact .next fun _ h => .onQueue h fun _ h => .startPkt h fun _ _ h => .finishPkt h
  | launchPacket _ _ =>
    exact .next fun _ h => .onQueue h fun _ h => .launchPkt h
  | waitPacket _ _ =>
    exact .next fun _ h => .onQueue h fun _ h => .startPkt h fun _ _ h => .updPkt h
  | waitPacketFinish _ _ =>
    exact .next fun _ h => .onQueue h fun _ h => .finishWait h
  | reservedPacket _ _ =>
    exact .next fun _ h => .onQueue h fun _ h => .startPkt h fun _ _ h => .badPkt h
  | launchCompletionRecord _ =>
    exact .next fun _ h => .completeLaunch h
  | launchArrivalReceipt _ =>
    exact .next fun _ h => .onLaunchPacket h fun _ _ _ _ _ h => .launchArrive h
  | launchReleaseReceipt _ | launchRefusalReceipt _ =>
    exact .next fun _ h => .onLaunchPacket h fun _ _ _ _ _ h => .launchAnswer h
  | launchArrivalTimeout _ =>
    exact .next fun _ h => .launchArrivalTimeout h
  | launchAnswerTimeout _ =>
    exact .next fun _ h => .launchAnswerTimeout h
  | mailboxVersion =>
    exact .next fun _ h => .mailVersion h
  | qdestroy =>
    exact .next fun _ h => .mailDestroy h
  | qdestroyAnswer =>
    exact .next fun _ h => .destroyAnswer h
  | pasiddown =>
    exact .next fun _ h => .mailPasidDown h
  | pasiddownAnswer =>
    exact .next fun _ h => .pasidAnswer h
  | regbind =>
    exact .next fun _ h => .mailRegbind h
  | preempt =>
    exact .next fun _ h => .mailPreempt h
  | bootclr =>
    exact .next fun _ h => .mailBootclr h
  | windowEntryWrite _ _ _ =>
    exact .next fun _ h => .unlessMin h fun _ h => .windowWrite h
  | windowEntryReadback _ _ | flitRetransmit _ | reservedPacketDrop _ =>
    exact .next fun _ h => h
  | lockInterface _ =>
    exact .next fun _ h => .onTdi h fun _ h => .tdiLock h
  | getDeviceInterfaceReport _ =>
    exact .next fun _ h => .onTdi h fun _ h => .tdiReport h
  | startInterface _ =>
    exact .next fun _ h => .onTdi h fun _ h => .tdiStart h
  | stopInterface _ =>
    exact .next fun _ h => .onTdi h fun _ h => .tdiStop h
  | tdiConfigChange _ | ideIntegrityFailure _ =>
    exact .next fun _ h => .onTdi h fun _ h => .tdiError h
  | getMeasurements =>
    exact .next fun _ h => .measure h
  | powerOnReset =>
    exact .next fun _ h => .powerOn h
  | tempHigh _ =>
    exact .next fun _ h => .tempHigh h
  | tempCoolTick _ =>
    exact .next fun _ h => .tempCool h
  | remoteReadRequest _ | remoteWriteRequest _ | remoteAtomicRequest _ =>
    exact .next fun _ h => .answerRequest h
  | remoteResponseReceipt _ =>
    exact .next fun _ h => .ite (.countMember h) (.ite (.recv h fun _ h => .segmentAck h)
      (.ite (.recv h fun _ h => .answerReq h) h))
  | requestTimeout _ =>
    exact .next fun s h => by
      split
      · exact .answerReq (.of_mem rfl h)
      · exact h
  | multicastWrite _ =>
    exact .next fun s h => .ite h <| by
      split
      · exact .emit h
      · exact .ite (.emit h) (.foldl (.updSw h) fun _ _ h => .emit h)
  | multicastCopyReceipt _ =>
    exact .next fun _ h => .ite (.recv h fun _ h => .countMember (.trySend (.serve h))) h
  | multicastMemberTimeout _ _ _ =>
    exact .next fun s h => by
      split
      · exact .countMember h
      · exact h
  | aggregatedAckReceipt _ | nameReplyReceipt _ =>
    exact .next fun _ h => .ite (.recv h fun _ h => .answerReq h) h
  | groupTableWrite _ =>
    exact .next fun _ h => .ite (.updSw h) h
  | invalidateReceipt _ =>
    exact .next fun _ h => .ite (.recv h fun _ h => .payAcks (.of_mem rfl (.dropPeerPage h))) h
  | invalidateAckReceipt _ =>
    exact .next fun _ h => .ite (.recv h fun _ h => .importerDone h) h
  | importerCloseTimeout _ _ =>
    exact .next fun s h => .ite (.importerDone (.of_mem (s := s) rfl h)) h
  | portMessageReceipt _ =>
    exact .next fun _ h => .recv h fun _ h => .portMessage h
  | nameLookupReceipt _ =>
    exact .next fun _ h => .recv h fun _ h => .nameLookup h
  | shuffleSegmentSwitch _ =>
    exact .next fun _ h => .switchSegment h
  | shufflePairTimeout _ _ =>
    exact .next fun _ h => .pairTimeout h
  | uncodedSegmentReceipt _ =>
    exact .next fun _ h => .recv h fun _ h => .uncodedSegment h
  | codedSegmentReceipt _ =>
    exact .next fun _ h => .recv h fun _ h => .codedSegment h
  | segmentNegativeReceipt _ =>
    exact .next fun _ h => .recv h fun _ h => .segmentNegative h
  | shuffleDoneReceipt _ =>
    exact .next fun _ h => .recv h fun _ h => .shuffleDone h
  | peerBarrierArrival _ =>
    exact .next fun _ h => .ite (.recv h fun _ h => .peerArrive h) h
  | peerBarrierRelease _ =>
    exact .next fun _ h => .ite (.recv h fun _ h => .peerRelease h) h
  | linkVersionMismatch _ | portDown _ =>
    exact .next fun _ h => .updPort h
  | registerResultsWritten _ _ _ =>
    exact .next fun _ h => .retire' h
  | cacheLineWriteBack _ _ =>
    exact .next fun _ h => .foldl h fun _ _ h => .dropCopy (.pushCopy h)
  | linkRetrained _ _ _ =>
    exact .next fun _ h => .unlessMin h fun _ h => .updPort h
  | portMessageAnswerReceipt _ =>
    exact .next fun _ h => .recv h fun _ h => .portMessageAnswer h
  | mailboxUnknownCommand =>
    exact .next fun _ h => .mailUnknown h

/-! ### The step -/

/-- The device's own events are each the meaning of an instruction. -/
def AllExec (fs : List Act) : Prop := ∀ f ∈ fs, ∃ i, f = exec i

theorem wakeOf_exec (a : Who) (pc : Dword) (w : Wait) : AllExec (wakeOf a pc w) := by
  unfold wakeOf AllExec
  split <;> simp only [List.mem_singleton, List.not_mem_nil, List.mem_ite_nil_left, forall_eq, and_imp, implies_true,
    IsEmpty.forall_iff]
  · exact ⟨.translationFill a.core a.slot false, rfl⟩
  · exact ⟨.fullEmptyWake a, rfl⟩
  · exact ⟨.fullEmptyWake a, rfl⟩
  · exact ⟨.fencerComplete a, rfl⟩
  · exact ⟨.cwaitSatisfied a, rfl⟩
  · exact ⟨.kernelObjectWake a, rfl⟩
  · exact ⟨.kernelObjectWake a, rfl⟩
  · exact ⟨.kernelObjectWake a, rfl⟩
  · exact fun _ _ hf => ⟨.idleWake a.core, hf⟩

theorem Wave.events_exec (w : Wave) (core slot : Nat) : AllExec (w.events core slot) := by
  intro f hf
  simp only [Wave.events, List.mem_append, List.mem_map, List.mem_ite_nil_left, List.mem_singleton,
    List.mem_flatMap] at hf
  obtain (⟨n, -, rfl⟩ | ⟨-, rfl⟩) | ⟨h, -, p, -, hp⟩ := hf
  · exact ⟨.registerResultsWritten core slot n, rfl⟩
  · exact ⟨.atomnPerform core slot, rfl⟩
  · exact wakeOf_exec _ _ _ f hp

theorem Core.engineEvents_exec (k : Core) (core : Nat) : AllExec (k.engineEvents core) := by
  intro f hf
  simp only [Core.engineEvents, List.mem_append, List.mem_map, List.mem_ite_nil_left, List.mem_cons, List.not_mem_nil,
    or_false,
    List.mem_flatMap] at hf
  obtain ((⟨-, rfl | rfl | rfl | rfl | rfl | rfl⟩ | ⟨-, rfl | rfl | rfl | rfl⟩) | ⟨x, -, rfl | rfl | rfl⟩) |
    ⟨x, -, rfl⟩ := hf
  · exact ⟨.mmaExecute core, rfl⟩
  · exact ⟨.mmaComplete core, rfl⟩
  · exact ⟨.acczExecute core, rfl⟩
  · exact ⟨.accwrExecute core, rfl⟩
  · exact ⟨.tilemvLdExecute core, rfl⟩
  · exact ⟨.tilemvStExecute core, rfl⟩
  · exact ⟨.copyFire core, rfl⟩
  · exact ⟨.gatherFire core, rfl⟩
  · exact ⟨.translationFill core 0 true, rfl⟩
  · exact ⟨.followOnMmaEntry core, rfl⟩
  · exact ⟨.copyComplete core x.id, rfl⟩
  · exact ⟨.gatherComplete core x.id, rfl⟩
  · exact ⟨.collComplete core x.id, rfl⟩
  · exact ⟨.channelReservationGrant core x.1, rfl⟩

theorem Core.events_exec (k : Core) (core : Nat) : AllExec (k.events core) := by
  intro f hf
  simp only [Core.events, List.mem_append, List.mem_ite_nil_left, List.mem_ite_nil_right, List.mem_cons,
    List.not_mem_nil, or_false,
    List.mem_flatMap] at hf
  obtain (((((hf | ⟨-, rfl⟩) | ⟨-, rfl⟩) | ⟨-, rfl | rfl⟩) | ⟨-, rfl⟩) | ⟨-, rfl⟩) | ⟨x, -, hf⟩ := hf
  · exact k.engineEvents_exec core f hf
  · exact ⟨.trapRecordDelivery core, rfl⟩
  · exact ⟨.agentRestart core, rfl⟩
  · exact ⟨.vgrowGrant core, rfl⟩
  · exact ⟨.vgrowDeadlockBreak core, rfl⟩
  · exact ⟨.blockDrainDone core, rfl⟩
  · exact ⟨.progressWindowSwap core, rfl⟩
  · exact x.2.events_exec core x.1 f hf

theorem Obj.events_exec (o : Obj) (i : Nat) : AllExec (o.events i) := by
  unfold Obj.events AllExec
  split <;> simp only [List.forall_mem_cons, List.not_mem_nil, IsEmpty.forall_iff, implies_true, and_true]
  · exact ⟨.timerExpiry i, rfl⟩
  · exact ⟨⟨.scPeriodRelease i, rfl⟩, ⟨.scBudgetExhausted i, rfl⟩⟩
  · exact ⟨.kernelDispatch 0, rfl⟩

theorem Block.events_exec (b : Block) (i : Nat) : AllExec (b.events i) := by
  intro f hf
  unfold Block.events at hf
  split at hf
  · simp only [List.mem_append, List.mem_map, List.mem_ite_nil_right, List.mem_cons, List.not_mem_nil, or_false] at hf
    obtain (⟨k, -, rfl⟩ | ⟨-, rfl | rfl | rfl⟩) | ⟨-, rfl⟩ := hf
    · exact ⟨.barrierPhaseComplete i k, rfl⟩
    · exact ⟨.preemptDrain i, rfl⟩
    · exact ⟨.preemptSave i, rfl⟩
    · exact ⟨.preemptFlushRestart i, rfl⟩
    · exact ⟨.drainLimitExpiry i, rfl⟩
  · cases hf

theorem Launch.events_exec (l : Launch) (i : Nat) : AllExec (l.events i) := by
  unfold Launch.events AllExec
  split <;> simp only [List.forall_mem_append, List.forall_mem_map, List.forall_mem_cons, List.not_mem_nil,
    IsEmpty.forall_iff,
    implies_true, and_true]
  · exact ⟨.launchPacket l.fn l.q, rfl⟩
  · exact ⟨.launchAnswerTimeout i, rfl⟩
  · exact ⟨fun k _ => ⟨.blockPlacement k i, rfl⟩, ⟨.launchCompletionRecord i, rfl⟩⟩
  · exact ⟨.launchCompletionRecord i, rfl⟩

theorem Queue.events_exec (k : Queue) (fn q : Nat) : AllExec (k.events fn q) := by
  intro f hf
  unfold Queue.events at hf
  rw [List.mem_append] at hf
  obtain hf | hf := hf
  · cases hk : k.startable with
    | none => rw [hk] at hf; cases hf
    | some p =>
      rw [hk] at hf
      dsimp only at hf
      split_ifs at hf <;> simp only [List.mem_cons, List.not_mem_nil, or_false] at hf
      · exact ⟨.noopPacket fn q, hf⟩
      · exact ⟨.launchPacket fn q, hf⟩
      · obtain rfl | rfl := hf
        · exact ⟨.waitPacket fn q, rfl⟩
        · exact ⟨.reservedPacket fn q, rfl⟩
      · exact ⟨.reservedPacket fn q, hf⟩
  · rw [List.mem_ite_nil_right, List.mem_singleton] at hf
    exact ⟨.waitPacketFinish fn q, hf.2⟩

theorem State.peerBarEvents_exec (s : State) : AllExec s.peerBarEvents := by
  intro f hf
  obtain ⟨x, -, hx⟩ := List.mem_filterMap.1 hf
  dsimp only at hx
  split at hx
  · obtain ⟨b, -, rfl⟩ := Option.map_eq_some_iff.1 hx
    exact ⟨.barrierPhaseComplete b.1 (x.2.nlvl - 1), rfl⟩
  · cases hx

theorem State.mailEvents_exec (s : State) : AllExec s.mailEvents := by
  intro f hf
  simp only [State.mailEvents, List.mem_append, List.mem_ite_nil_left, List.mem_ite_nil_right, List.mem_cons,
    List.not_mem_nil,
    or_false] at hf
  obtain (⟨-, rfl | rfl | rfl | rfl | rfl | rfl | rfl⟩ | ⟨-, rfl⟩) | ⟨-, rfl⟩ := hf
  · exact ⟨.mailboxVersion, rfl⟩
  · exact ⟨.qdestroy, rfl⟩
  · exact ⟨.pasiddown, rfl⟩
  · exact ⟨.regbind, rfl⟩
  · exact ⟨.preempt, rfl⟩
  · exact ⟨.bootclr, rfl⟩
  · exact ⟨.mailboxUnknownCommand, rfl⟩
  · exact ⟨.qdestroyAnswer, rfl⟩
  · exact ⟨.pasiddownAnswer, rfl⟩

theorem State.leagueEvents_exec (s : State) : AllExec s.leagueEvents := by
  intro f hf
  simp only [State.leagueEvents, List.mem_append, List.mem_filterMap, List.mem_flatMap, List.mem_map,
    Option.ite_none_right_eq_some, Option.some.injEq] at hf
  obtain (⟨r, -, -, rfl⟩ | ⟨v, -, p, -, rfl⟩) | ⟨e, -, rfl⟩ := hf
  · exact ⟨.requestTimeout r.tag, rfl⟩
  · exact ⟨.importerCloseTimeout p v.page, rfl⟩
  · exact ⟨.launchArrivalTimeout (BitVec.ofNat 32 e.key), rfl⟩

theorem State.candidates_exec (s : State) : AllExec s.candidates := by
  intro f hf
  unfold State.candidates at hf
  split at hf
  · exact ⟨.powerOnReset, List.mem_singleton.1 hf⟩
  · simp only [List.mem_append, List.mem_flatMap, List.mem_filterMap, List.mem_map, List.mem_ite_nil_left,
      List.mem_singleton,
      Option.ite_none_left_eq_some, Option.some.injEq] at hf
    obtain (((((((((⟨x, -, h⟩ | ⟨x, -, h⟩) | ⟨x, -, -, rfl⟩) | ⟨x, -, h⟩) | ⟨x, -, h⟩) | ⟨x, -, h⟩) | ⟨o, -, rfl⟩) |
      ⟨-, rfl⟩) | h) | h) | h := hf
    · exact x.2.events_exec _ f h
    · exact x.2.events_exec _ f h
    · exact ⟨.kernelDispatch (x.1 / 256), rfl⟩
    · exact x.2.events_exec _ f h
    · exact x.2.events_exec _ f h
    · exact x.2.events_exec _ _ f h
    · exact ⟨.atomnPerform o.core 0, rfl⟩
    · exact ⟨.tokenGrant, rfl⟩
    · exact s.peerBarEvents_exec f h
    · exact s.mailEvents_exec f h
    · exact s.leagueEvents_exec f h

theorem State.candidates_keepMem {s : State} {f : Act} (hf : f ∈ s.candidates) : Act.KeepsMem f := by
  obtain ⟨i, rfl⟩ := s.candidates_exec f hf
  exact exec_keepsMem i

/-- The state that fetching an instruction leaves. -/
def FetchedIns.state : FetchedIns → State
  | .stop s | .ins _ s => s

theorem State.memOk.fetchIns {s : State} {c : Ctx} (h : s.memOk) : (s.fetchIns c).state.memOk := by
  unfold State.fetchIns
  extract_lets pc sp
  split
  · exact State.memOk.raise h
  · have hf := State.memOk.fetch (sp := sp) (pc := pc.toNat) h
    split
    · rename_i he
      dsimp only
      exact State.memOk.park (.openRecords (.of_snd he hf))
    · rename_i he
      exact State.memOk.raise (.of_snd he hf)
    · rename_i he
      have ht := State.memOk.of_snd he hf
      dsimp only
      split
      · rename_i hc
        exact State.memOk.raise (.consume ht hc)
      · exact ht
      · exact State.memOk.raise ht
      · exact State.memOk.raise ht

theorem issueTurn_keepsMem {s t : State} {a : Who} (h : s.memOk) (e : issueTurn s a = .next t) : t.memOk := by
  unfold issueTurn at e
  dsimp only at e
  split at e
  · rw [← Host.Outcome.next.inj e]
    exact h
  · rename_i c _
    have hf := State.memOk.fetchIns (c := c) h
    split at e
    · split at e
      · rename_i u hu
        rw [hu] at hf
        rw [← Host.Outcome.next.inj e]
        exact .issuing hf
      · rename_i i u hu
        rw [hu] at hf
        exact exec_keepsMem i _ t (.issuing hf) e
    · rw [← Host.Outcome.next.inj e]
      exact h

theorem turn_keepsMem {s t : State} {r : Turn} (h : s.memOk) (e : turn s r = .next t) : t.memOk := by
  cases r with
  | issue a => exact issueTurn_keepsMem h e
  | event i =>
    unfold turn at e
    dsimp only at e
    split at e
    · exact exec_keepsMem i s t h e
    · rw [← Host.Outcome.next.inj e]
      exact h

theorem State.nextTurn_keepsMem {s t : State} {f : Act} (h : s.nextTurn = (some (.act f), t)) : Act.KeepsMem f := by
  unfold State.nextTurn at h
  split at h
  · cases h
  · obtain ⟨hnext, -⟩ := Prod.mk.inj h
    have hevent : s.candidates[s.free / 2 % s.candidates.length]? = some f := by
      split at hnext <;> simp [Option.or_eq_some_iff] at hnext
      · exact hnext
      · exact hnext.2
    exact State.candidates_keepMem (List.mem_of_getElem? hevent)

/-- Settles O54: every instruction's body, every event of the device and the time that a step takes are assembled from
operations that write memory only through `State.setBytes` or a host write, and those keep the canonical form. -/
theorem memoryStaysCanonical : Obligations.MemoryStaysCanonical := by
  intro s t h e
  unfold step at e
  split at e
  · rename_i u hnext
    rw [← Host.Outcome.next.inj e]
    exact .elapse (.of_snd hnext (.nextTurn h))
  · rename_i n u hnext
    have hu : u.memOk := .of_snd hnext (.nextTurn h)
    split at e
    · rename_i v hv
      rw [← Host.Outcome.next.inj e]
      refine .elapse ?_
      cases n with
      | turn r => exact turn_keepsMem hu hv
      | act f => exact State.nextTurn_keepsMem hnext u v hu hv
    · cases e
    · cases e

end Sys2Proof.Machine

end

-- ==== TLBINV, IDLE and MGSIG complete; O44 ====
section
/-!
TLBINV first discards its range, then waits for what it has asked of others; IDLE answers latched events or waits; MGSIG queues a
signal or finds the queue full (R191, R373, R374, R386, R428, R429). Each body's answer in each case is a lemma of its own.
-/

namespace Sys2Proof.Machine

variable {e : Ext} {s : State} {c : Ctx}

/-! ### TLBINV -/

/-- How TLBINV goes on once its range is discarded, with the progress k: the importers first, then the stores on the cores it
names, then its end. -/
def tlbinvEnd (e : Ext) (c : Ctx) (cores : List Nat) (u : State) (k : Nat) : Res :=
  if u.league.invs.any fun v => v.handle = c.w.id.handle then .wait ((u.setProg c 0 k).waitOn c (.tlbinv e))
  else if u.storesOpen cores (k / 4) then .wait (u.setProg c 0 k)
  else sysDone e c u (k % 4 - 1)

/-- The cores TLBINV names. -/
def tlbinvCores (e : Ext) (c : Ctx) (s : State) : List Nat := (c.who.core :: s.unitCores (e.m 2 3) c.who.core).eraseDups

/-- The state in which TLBINV has discarded the addresses from lo to hi and asked the importers. -/
def State.tlbinvSent (s : State) (e : Ext) (c : Ctx) (lo hi : Nat) : State :=
  let cores := tlbinvCores e c s
  let pasid := (s.core c.who.core).ctl.kpasid
  let up := 2 ^ s.pageBits pasid lo
  let top := 2 ^ s.pageBits pasid (hi - 1)
  let u := cores.foldl (fun s k => (s.core k).waves.foldl (fun s (x : Nat × Wave) => s.drainAtomn k x.1) s) s
  let u := u.drainOrphans fun k => cores.contains k
  let u := cores.foldl (fun s k => s.release k (e.m 2 3)) u
  let u := cores.foldl (fun s k => s.dropPages k pasid lo hi) u
  if e.m 2 3 ≠ 5 then u
  else (u.invalidates pasid (lo / up * up) ((hi + top - 1) / top * top)).foldl (fun s x => s.sendInval c.w.id.handle x) u

section
variable (hops : checkOps [sDst c e.d9.toNat, sRun c e.a9.toNat, sRun c e.b9.toNat] = none)
  (hrange : e.m 5 1 = 1 ∨ (c.sVal e.a9.toNat).toNat % 4096 = 0 ∧ (c.sVal e.a9.toNat).toNat < 2 ^ 52 ∧
    1 ≤ (c.sVal e.b9.toNat).toNat ∧ (c.sVal e.b9.toNat).toNat ≤ 2 ^ 20)
include hops hrange

/-- With its operands and range in order, TLBINV discards at its first attempt and goes on at each. -/
theorem tlbinvBody_eq :
    let lo := if e.m 5 1 = 1 then 0 else (c.sVal e.a9.toNat).toNat
    let hi := if e.m 5 1 = 1 then 2 ^ 52 else (c.sVal e.a9.toNat).toNat + 4096 * (c.sVal e.b9.toNat).toNat
    tlbinvBody e c s = if c.progress.k ≠ 0 then tlbinvEnd e c (tlbinvCores e c s) s c.progress.k
      else tlbinvEnd e c (tlbinvCores e c s) (s.tlbinvSent e c lo hi) (4 * (s.tlbinvSent e c lo hi).now + 1) := by
  intro lo hi
  unfold tlbinvBody
  extract_lets va n all
  have hbad : ¬(!decide all && (decide (va % 4096 ≠ 0) || decide (2 ^ 52 ≤ va) || decide (n < 1) || decide (2 ^ 20 < n))) = true := by
    simp only [Bool.and_eq_true, Bool.or_eq_true, Bool.not_eq_true', decide_eq_true_eq, decide_eq_false_iff_not, all, va, n]
    omega
  have hpair : (if all then (0, 2 ^ 52) else (va, va + 4096 * n)) = (lo, hi) := (apply_ite₂ Prod.mk all 0 va (2 ^ 52) _).symm
  rw [withOps_ok hops, if_neg hbad, hpair]
  rfl

end

/-- What an attempt of TLBINV comes to, where its body has come to its end. -/
theorem exec_tlbinv (hi : Issues (.tlbinv e) (some e) s c) {cores : List Nat} {u : State} {k : Nat}
    (hb : tlbinvBody e c (s.put c c.w) = tlbinvEnd e c cores u k) :
    ((u.league.invs.any fun v => v.handle = c.w.id.handle) = true →
      exec (.tlbinv e) s = .next ((u.setProg c 0 k).waitOn c (.tlbinv e))) ∧
    ((u.league.invs.any fun v => v.handle = c.w.id.handle) = false → u.storesOpen cores (k / 4) = true →
      exec (.tlbinv e) s = .next (u.setProg c 0 k)) ∧
    ((u.league.invs.any fun v => v.handle = c.w.id.handle) = false → u.storesOpen cores (k / 4) = false →
      exec (.tlbinv e) s = .next (ended (.tlbinv e) (some e) c s
        (u.put c (writeS c (u.mine c) e.d9.toNat (BitVec.ofNat 64 (k % 4 - 1)))))) := by
  refine ⟨fun hopen => runWave_wait hi ?_, fun hopen hstores => runWave_wait hi ?_, fun hopen hstores => runWave_next hi ?_⟩
  · rw [hb, tlbinvEnd, if_pos hopen]
  · rw [hb, tlbinvEnd, hopen, if_neg Bool.false_ne_true, if_pos hstores]
  · rw [hb, tlbinvEnd, hopen, if_neg Bool.false_ne_true, hstores, if_neg Bool.false_ne_true]
    rfl

/-! ### IDLE -/

theorem idleWaitBody_waits (hops : checkOps [OpOk.when (scalarOk c.w e.d9.toNat && scalarOk c.w (e.d9.toNat + 1) &&
      e.d9.toNat % 2 == 0 && e.d9.toNat != 320), sRun c e.a9.toNat] = none)
    (hev : s.latchedAt c.who.core (c.sVal e.a9.toNat).toNat = 0) : idleWaitBody e c s = .wait (s.waitOn c (.idle e)) := by
  unfold idleWaitBody
  rw [withOps_ok hops]
  exact if_pos hev

/-! ### MGSIG -/

section
variable (hops : checkOps [sDst c e.d9.toNat, sRun c e.a9.toNat, sRun c e.b9.toNat] = none)
  (ht : (c.sVal e.a9.toNat).toNat < 128 ∨ (c.sVal e.a9.toNat).toNat = 255)
include hops ht

theorem mgsigBody_eq : mgsigBody e c s = if 16 ≤ (s.core (c.sVal e.a9.toNat).toNat).sigQ.length then sysDone e c s 1 else
    let u := (s.orderAtomn c true [] 0).releaseBy (c.space s) 4
    quietly c s (sysDone e c ((u.signal (c.sVal e.a9.toNat).toNat (c.sVal e.b9.toNat) c.who.core).bumpSfr c) 0) := by
  unfold mgsigBody
  rw [withOps_ok hops]
  exact if_neg (by simpa [or_iff_not_imp_left] using ht)

end

/-- Settles O44: each instruction's body, case by case. -/
theorem invalidatesIdleAndSignals : Obligations.InvalidatesIdleAndSignals := by
  unfold Obligations.InvalidatesIdleAndSignals
  intro e s c s₀ core done
  have hcore (d : Nat) : (s₀.core d).sigQ = (s.core d).sigQ := State.core_put (g := Core.sigQ) (fun _ _ => rfl) s c c.w d
  refine ⟨?tlbinv, ?idle, ?mgsig⟩
  case tlbinv =>
    intro hi hops all va n hrange lo hi' pasid cores u₁ u₂ u₃ u₄ up top sent open' at'
    have hsent : s₀.tlbinvSent e c lo hi' = sent := ite_not _ _ _
    have hb := tlbinvBody_eq (s := s₀) hops hrange
    refine ⟨fun hk => exec_tlbinv hi ?_, fun hk => exec_tlbinv hi ?_⟩
    · rw [hb, if_neg (not_not.2 hk), ← hsent]
      rfl
    · rw [hb, if_pos hk]
      rfl
  case idle =>
    intro hi hops ev u
    exact ⟨fun hev => runWave_wait hi (idleWaitBody_waits hops hev),
      fun hev hq => runWave_next hi (idleWaitBody_event hops hev ((hcore core).trans hq)),
      fun x src rest hev hq => runWave_next hi (idleWaitBody_signal hops hev ((hcore core).trans hq))⟩
  case mgsig =>
    intro hi hops t ht
    refine ⟨fun hfull => runWave_next hi ?_, fun hroom hquiet => runWave_next hi ?_⟩
    · rw [mgsigBody_eq hops ht, if_pos hfull]
      rfl
    · have hquiet' : ¬s₀.hasReqs c.w.id.handle = true := Bool.not_eq_true _ ▸ hquiet
      rw [mgsigBody_eq hops ht, if_neg (Nat.not_le.2 hroom)]
      exact if_neg hquiet'

end Sys2Proof.Machine

end

-- ==== The lowest-numbered check that fails; O20, O23 ====
section
/-!
What `worst` answers (R183), and what a run of writes leaves of a byte: shared by the statements about memory and scratchpads.
-/

namespace Sys2Proof.Machine

/-- A minimum over a list is the least of its start and its values. -/
theorem foldl_min_eq {α : Type} {g : α → Nat} {k : Nat} : ∀ {l : List α} {b : Nat}, k ≤ b → (∀ x ∈ l, k ≤ g x) →
    (k = b ∨ ∃ x ∈ l, g x = k) → l.foldl (fun m x => min m (g x)) b = k
  | [], b, _, _, h => by
    obtain h | ⟨x, hx, -⟩ := h
    · exact h.symm
    · cases hx
  | y :: l, b, hb, hle, h => by
    have hy : k ≤ g y := hle y List.mem_cons_self
    refine foldl_min_eq (l := l) (b := min b (g y)) (le_min hb hy) (fun x hx => hle x (List.mem_cons_of_mem _ hx)) ?_
    obtain h | ⟨x, hx, hk⟩ := h
    · exact .inl (by omega)
    · obtain rfl | hx := List.mem_cons.1 hx
      · exact .inl (by omega)
      · exact .inr ⟨x, hx, hk⟩

theorem worst_nil : worst [] = none := rfl

/-- The lowest-numbered step that fails, at the lowest address that fails it. -/
theorem worst_eq {fs : List (Nat × Nat × Nat)} {st code va : Nat} (h : (st, code, va) ∈ fs) (hst : st < 1000) (hva : va < 2 ^ 64)
    (hstep : ∀ f ∈ fs, st ≤ f.1) (hcode : ∀ f ∈ fs, f.1 = st → f.2.1 = code) (hlow : ∀ f ∈ fs, f.1 = st → va ≤ f.2.2) :
    worst fs = some (code, va) := by
  have hmin : fs.foldl (fun m f => min m f.1) 1000 = st :=
    foldl_min_eq (g := fun f => f.1) hst.le hstep (.inr ⟨_, h, rfl⟩)
  have hhit {f : Nat × Nat × Nat} : f ∈ fs.filter (fun f => f.1 = st) ↔ f ∈ fs ∧ f.1 = st := by
    rw [List.mem_filter, decide_eq_true_eq]
  have haddr : (fs.filter fun f => f.1 = st).foldl (fun m f => min m f.2.2) (2 ^ 64) = va :=
    foldl_min_eq (g := fun f => f.2.2) hva.le (fun f hf => hlow f (hhit.1 hf).1 (hhit.1 hf).2) (.inr ⟨_, hhit.2 ⟨h, rfl⟩, rfl⟩)
  obtain ⟨f, hf⟩ : ∃ f, (fs.filter fun f => f.1 = st).find? (fun f => f.2.2 = va) = some f :=
    Option.isSome_iff_exists.1 (List.find?_isSome.2 ⟨_, hhit.2 ⟨h, rfl⟩, decide_eq_true rfl⟩)
  have hfst := hhit.1 (List.mem_of_find?_eq_some hf)
  unfold worst
  split
  · cases h
  · simp only [hmin, haddr, hf, hcode f hfst.1 hfst.2]

/-- A byte of a number's little-endian bytes. -/
theorem getD_leBytes (d : Byte) : ∀ {n k : Nat} (v : Nat), k < n → (leBytes n v).getD k d = byteOf v k
  | n + 1, 0, v, _ => by simp [leBytes, byteOf]
  | n + 1, k + 1, v, h => by
    have hpow : 2 ^ (8 * (k + 1)) = 256 * 2 ^ (8 * k) := by rw [Nat.mul_add, Nat.pow_add]; omega
    rw [leBytes, List.getD_cons_succ, getD_leBytes d _ (Nat.lt_of_succ_lt_succ h), byteOf, byteOf, hpow, Nat.div_div_eq_div_mul]

theorem length_leBytes : ∀ n v : Nat, (leBytes n v).length = n
  | 0, _ => rfl
  | n + 1, v => congrArg (· + 1) (length_leBytes n (v / 256))

end Sys2Proof.Machine

end

-- ==== Scratchpad accesses; O23 ====
section
/-!
LDL and STL check every lane's offset, then read or write the block's scratchpad (R185, R206, R379, R424).
-/

namespace Sys2Proof.Machine

variable {s : State} {c : Ctx}

/-! ### The scratchpad -/

/-- A number stored in a scratchpad changes the bytes it covers. -/
theorem State.scratch_setSpad {core n : Nat} (h : Sparse.wf memDefault (s.core core).scratch = true) (a v x : Nat) :
    Sparse.get memDefault ((s.setSpad core a (leBytes n v)).core core).scratch x =
      if a ≤ x ∧ x < a + n then byteOf v (x - a) else Sparse.get memDefault (s.core core).scratch x := by
  rw [State.setSpad, State.core_updCore]
  refine (Sparse.get_setRange _ a x h).trans ?_
  rw [length_leBytes]
  split
  · exact getD_leBytes _ _ (by omega)
  · rfl

theorem State.scratch_wf_setSpad {core a : Nat} {bs : List Byte} (h : Sparse.wf memDefault (s.core core).scratch = true) :
    Sparse.wf memDefault ((s.setSpad core a bs).core core).scratch = true := by
  rw [State.setSpad, State.core_updCore]
  exact Sparse.wf_setRange _ _ h

/-- The numbers of some lanes stored in a scratchpad, one after another. -/
def State.setSpads (s : State) (core n : Nat) (ls : List LaneAcc) : State :=
  ls.foldl (fun u a => u.setSpad core a.va (leBytes n a.x)) s

theorem State.setSpads_concat (s : State) (core n : Nat) (ls : List LaneAcc) (a : LaneAcc) :
    s.setSpads core n (ls ++ [a]) = (s.setSpads core n ls).setSpad core a.va (leBytes n a.x) :=
  List.foldl_concat ..

theorem State.setSpads_mem (s : State) (core n : Nat) (ls : List LaneAcc) : (s.setSpads core n ls).mem = s.mem :=
  List.foldlRecOn (motive := fun u : State => u.mem = s.mem) _ _ rfl fun _ h _ _ => h

theorem State.core_setSpads_ne {core k : Nat} (hk : k ≠ core) (s : State) (n : Nat) (ls : List LaneAcc) :
    (s.setSpads core n ls).core k = s.core k :=
  List.foldlRecOn (motive := fun u : State => u.core k = s.core k) _ _ rfl fun _ h _ _ => (State.core_updCore_ne _ hk _).trans h

theorem State.scratch_wf_setSpads {core : Nat} (h : Sparse.wf memDefault (s.core core).scratch = true) (n : Nat)
    (ls : List LaneAcc) :
    Sparse.wf memDefault ((s.setSpads core n ls).core core).scratch = true :=
  List.foldlRecOn (motive := fun u : State => Sparse.wf memDefault (u.core core).scratch = true) _ _ h
    fun _ h _ _ => State.scratch_wf_setSpad h

/-- Each byte is the last lane's that covers it. -/
theorem State.scratch_setSpads {core : Nat} (h : Sparse.wf memDefault (s.core core).scratch = true) (n : Nat) (ls : List LaneAcc)
    (x : Nat) : Sparse.get memDefault ((s.setSpads core n ls).core core).scratch x =
      match ls.reverse.find? fun a => a.va ≤ x && x < a.va + n with
      | some a => byteOf a.x (x - a.va)
      | none => Sparse.get memDefault (s.core core).scratch x := by
  induction ls using List.reverseRecOn with
  | nil => rfl
  | append_singleton ls a ih =>
    rw [State.setSpads_concat, State.scratch_setSpad (State.scratch_wf_setSpads h n ls), List.reverse_concat, List.find?_cons]
    by_cases hx : a.va ≤ x ∧ x < a.va + n
    · rw [if_pos hx, decide_eq_true hx.1, decide_eq_true hx.2]
      rfl
    · have hcover : (decide (a.va ≤ x) && decide (x < a.va + n)) = false := by
        rw [← Bool.decide_and]; exact decide_eq_false hx
      rw [if_neg hx, ih, hcover]

/-! ### The checks -/

theorem spadLanes_va_lt {m : MemArgs} {data : Nat → Nat} {a : LaneAcc} (h : a ∈ spadLanes c m data) : a.va < 2 ^ 64 := by
  obtain ⟨l, -, rfl⟩ := List.mem_map.1 h
  exact (Nat.mod_lt _ (by decide)).trans (by decide)

/-- What an access of a scratchpad fails: 1 where misaligned, 2 where outside the allocation. -/
def spadFail (s : State) (c : Ctx) (n : Nat) (a : LaneAcc) : Option (Nat × Nat × Nat) :=
  if a.va % n ≠ 0 then some (1, Exc.misalignedAccess, a.va)
  else if a.va < (s.spadOf c).1 ∨ (s.spadOf c).1 + (s.spadOf c).2 < a.va + n then some (2, Exc.permission, a.va)
  else none

theorem spadCheck_eq (n : Nat) (ls : List LaneAcc) : spadCheck s c n ls = worst (ls.filterMap (spadFail s c n)) := rfl

theorem spadCheck_misaligned {n : Nat} {ls : List LaneAcc} {a : LaneAcc} (ha : a ∈ ls) (hva : a.va < 2 ^ 64) (hn : a.va % n ≠ 0)
    (hlow : ∀ b ∈ ls, b.va % n ≠ 0 → a.va ≤ b.va) : spadCheck s c n ls = some (Exc.misalignedAccess, a.va) := by
  rw [spadCheck_eq]
  refine worst_eq (st := 1) (List.mem_filterMap.2 ⟨a, ha, if_pos hn⟩) (by decide) hva ?_ ?_ ?_
  all_goals
    intro f hf
    obtain ⟨b, hb, hbf⟩ := List.mem_filterMap.1 hf
    unfold spadFail at hbf
    split_ifs at hbf with hbn hout <;> cases hbf
  · exact le_rfl
  · exact Nat.le_succ 1
  · exact fun _ => rfl
  · exact nofun
  · exact fun _ => hlow b hb hbn
  · exact nofun

theorem spadCheck_outside {n : Nat} {ls : List LaneAcc} {a : LaneAcc} (ha : a ∈ ls) (hva : a.va < 2 ^ 64)
    (hn : ∀ b ∈ ls, b.va % n = 0) (hout : a.va < (s.spadOf c).1 ∨ (s.spadOf c).1 + (s.spadOf c).2 < a.va + n)
    (hlow : ∀ b ∈ ls, b.va < (s.spadOf c).1 ∨ (s.spadOf c).1 + (s.spadOf c).2 < b.va + n → a.va ≤ b.va) :
    spadCheck s c n ls = some (Exc.permission, a.va) := by
  rw [spadCheck_eq]
  refine worst_eq (st := 2)
    (List.mem_filterMap.2 ⟨a, ha, (if_neg (not_not.2 (hn a ha))).trans (if_pos hout)⟩) (by decide) hva ?_ ?_ ?_
  all_goals
    intro f hf
    obtain ⟨b, hb, hbf⟩ := List.mem_filterMap.1 hf
    unfold spadFail at hbf
    rw [if_neg (not_not.2 (hn b hb))] at hbf
    split_ifs at hbf with hbout
    cases hbf
  · exact le_rfl
  · exact fun _ => rfl
  · exact fun _ => hlow b hb hbout

/-! ### LDL and STL -/

/-- A split that may issue waits for no wake. -/
theorem State.feReady_eq {full : Bool} {ls : List LaneAcc} (h : c.path.wait = .ready ∨ c.path.wait = .quiet) :
    s.feReady c full ls = s.feAll c.who.core full ls := by
  unfold State.feReady
  obtain h | h := h <;> rw [h] <;> exact Bool.and_true _

theorem Issues.wait {i : Instr} {e : Option Ext} (h : Issues i e s c) : c.path.wait = .ready ∨ c.path.wait = .quiet := by
  have hready := h.ready
  simp only [Ctx.ready, Bool.and_eq_true, Bool.or_eq_true, beq_iff_eq] at hready
  obtain ⟨⟨⟨-, hwait⟩, -⟩, -⟩ := hready
  exact hwait.imp_right And.left

section
variable {i : Instr} {m : MemArgs}

/-- The body of LDL, or of STL. -/
def spadBody (st : Bool) (i : Instr) (m : MemArgs) : Ctx → State → Res := if st then stlBody i m else ldlBody i m

/-- The operand checks of LDL, or of STL. -/
def spadOps (c : Ctx) (st : Bool) (m : MemArgs) : List OpOk :=
  [spadAddrOk c m.a, offOk c m.lit m.off, dataOk c (!st) m.u m.sz m.d]

/-- The lanes of LDL, or of STL. -/
def spadAccs (c : Ctx) (st : Bool) (m : MemArgs) : List LaneAcc := spadLanes c m fun l => if st then dataVal c m.sz m.d l else 0

variable {st : Bool}

theorem spadBody_raises (hops : checkOps (spadOps c st m) = none) {code a : Nat}
    (hcheck : spadCheck s c (szBytes m.sz) (spadAccs c st m) = some (code, a)) : spadBody st i m c s = .raise s code a := by
  cases st
  · simp only [spadBody, spadOps, spadAccs, Bool.false_eq_true, if_false, Bool.not_false] at hops hcheck ⊢
    simp only [ldlBody, withOps_ok hops, hcheck]
  · simp only [spadBody, spadOps, spadAccs, if_true, Bool.not_true] at hops hcheck ⊢
    simp only [stlBody, withOps_ok hops, hcheck]

theorem spadBody_waits (hops : checkOps (spadOps c st m) = none)
    (hcheck : spadCheck s c (szBytes m.sz) (spadAccs c st m) = none) (hfe : m.fe ≠ 0)
    (hnot : s.feReady c (!st) (spadAccs c st m) = false) : spadBody st i m c s = .wait (s.waitOn c i) := by
  cases st
  · simp only [spadBody, spadOps, spadAccs, Bool.false_eq_true, if_false, Bool.not_false] at hops hcheck hnot ⊢
    simp only [ldlBody, withOps_ok hops, hcheck, hnot]
    simp [hfe]
  · simp only [spadBody, spadOps, spadAccs, if_true, Bool.not_true] at hops hcheck hnot ⊢
    simp only [stlBody, withOps_ok hops, hcheck, hnot]
    simp [hfe]

section
variable (hcheck : spadCheck s c (szBytes m.sz) (spadAccs c false m) = none) (hops : checkOps (spadOps c false m) = none)
include hcheck hops

/-- An LDL of the plain form, or with no lane, takes the scratchpad's numbers. -/
theorem ldlBody_plain (hfe : m.fe = 0 ∨ spadAccs c false m = []) (hwait : c.path.wait = .ready ∨ c.path.wait = .quiet)
    (hsound : s.spadError c.who.core (szBytes m.sz) (spadAccs c false m) = none) :
    ldlBody i m c s = .next (s.put c (loadInto c m.sz m.d (c.memLanes m)
      ((spadAccs c false m).map fun a => (a.l, leNat (s.spad c.who.core a.va (szBytes m.sz)))) (s.mine c))) := by
  have hready : (m.fe ≠ 0 && !s.feReady c true (spadAccs c false m)) = false := by
    obtain hfe | hls := hfe
    · rw [hfe]; rfl
    · rw [hls, State.feReady_eq hwait]; exact Bool.and_false _
  have hsync : (m.fe ≠ 0 && !(spadAccs c false m).isEmpty) = false := by
    obtain hfe | hls := hfe
    · rw [hfe]; rfl
    · rw [hls]; exact Bool.and_false _
  have hclear : (m.fe = 2 && !(spadAccs c false m).isEmpty) = false := by
    obtain hfe | hls := hfe
    · rw [hfe]; rfl
    · rw [hls]; exact Bool.and_false _
  simp only [spadAccs, spadOps, Bool.false_eq_true, if_false, Bool.not_false] at hcheck hops hready hsync hclear hsound ⊢
  simp only [ldlBody, withOps_ok hops, hcheck, hready, hsync, hclear, hsound, Bool.false_eq_true, if_false]

end

section
variable (hcheck : spadCheck s c (szBytes m.sz) (spadAccs c true m) = none) (hops : checkOps (spadOps c true m) = none)
include hcheck hops

/-- An STL of the plain form, or with no lane, stores its lanes' data. -/
theorem stlBody_plain (hfe : m.fe = 0 ∨ spadAccs c true m = []) (hwait : c.path.wait = .ready ∨ c.path.wait = .quiet) :
    stlBody i m c s = .next (s.setSpads c.who.core (szBytes m.sz) (spadAccs c true m)) := by
  have hready : (m.fe ≠ 0 && !s.feReady c false (spadAccs c true m)) = false := by
    obtain hfe | hls := hfe
    · rw [hfe]; rfl
    · rw [hls, State.feReady_eq hwait]; exact Bool.and_false _
  have hsync : (m.fe ≠ 0 && !(spadAccs c true m).isEmpty) = false := by
    obtain hfe | hls := hfe
    · rw [hfe]; rfl
    · rw [hls]; exact Bool.and_false _
  simp only [spadAccs, spadOps, if_true, Bool.not_true] at hcheck hops hready hsync ⊢
  simp only [stlBody, withOps_ok hops, hcheck, hready, hsync, Bool.false_eq_true, if_false]
  rfl

end

end

/-- A scratchpad instruction runs the body of its kind. -/
theorem exec_spadOf {i : Instr} {st : Bool} {e : Option Ext} {m : MemArgs} (h : Claims.spadOf i = some (st, e, m)) :
    exec i = runWave i e (spadBody st i m) := by
  unfold Claims.spadOf at h
  split at h <;> cases h <;> rfl

theorem State.spadOf_put (s : State) (c d : Ctx) (w : Wave) : (s.put c w).spadOf d = s.spadOf d := rfl

/-- What is read of scratchpads and full-empty bits stands where a wave's registers are written. -/
theorem State.spad_put (s : State) (c : Ctx) (w : Wave) (core a n : Nat) : (s.put c w).spad core a n = s.spad core a n := by
  rw [State.spad, State.core_put (g := Core.scratch) (fun _ _ => rfl), State.spad]

theorem State.feAll_put (s : State) (c : Ctx) (w : Wave) (core : Nat) (full : Bool) (ls : List LaneAcc) :
    (s.put c w).feAll core full ls = s.feAll core full ls := by
  unfold State.feAll
  rw [State.core_put (g := Core.fe) (fun _ _ => rfl)]

theorem State.spadError_put (s : State) (c : Ctx) (w : Wave) (core n : Nat) (ls : List LaneAcc) :
    (s.put c w).spadError core n ls = s.spadError core n ls := by
  unfold State.spadError State.spadBad
  rw [State.core_put (g := Core.badSpad) (fun _ _ => rfl)]

/-- Settles O23: the stores byte by byte, then each case of LDL's and STL's bodies. -/
theorem scratchpadAccesses : Obligations.ScratchpadAccesses := by
  unfold Obligations.ScratchpadAccesses
  refine ⟨fun s core n ls hwf => ⟨State.scratch_setSpads hwf n ls, s.setSpads_mem core n ls,
    fun k hk => State.core_setSpads_ne hk s n ls⟩, ?_⟩
  intro i st e m s c hi hissues hops n ls u core out
  have hwait := hissues.wait
  have hva {a : LaneAcc} (ha : a ∈ ls) : a.va < 2 ^ 64 := spadLanes_va_lt ha
  rw [exec_spadOf hi]
  refine ⟨fun a ha hn hlow => runWave_raise hissues (spadBody_raises hops (spadCheck_misaligned ha (hva ha) hn hlow)),
    fun hn a ha hout hlow =>
      runWave_raise hissues (spadBody_raises hops (spadCheck_outside ha (hva ha) hn hout hlow)), fun hwithin => ?_⟩
  have hcheck : spadCheck u c n ls = none := spadCheck_of_within hwithin
  have hspad : u.spad core = s.spad core := funext₂ fun _ _ => s.spad_put ..
  refine ⟨?plainLoad, ?plainStore, ?waits, ?load, ?store⟩
  case plainLoad =>
    rintro hfe rfl hsound
    have hb := ldlBody_plain (i := i) hcheck hops hfe hwait ((s.spadError_put ..).trans hsound)
    refine runWave_next hissues (hb.trans ?_)
    rw [State.mine_put, ← hspad]
    rfl
  case plainStore =>
    rintro hfe rfl
    exact runWave_next hissues (stlBody_plain hcheck hops hfe hwait)
  case waits =>
    intro hfe hls hnot
    refine runWave_wait hissues (spadBody_waits hops hcheck hfe ?_)
    rw [State.feReady_eq hwait]
    exact (s.feAll_put ..).trans hnot
  case load =>
    rintro hfe hls rfl hall hsound
    have hready := (State.feReady_eq (s := u) (full := true) (ls := ls) hwait).trans ((s.feAll_put ..).trans hall)
    refine runWave_next hissues ((ldlBody_ready hops hcheck hfe hls hready ((s.spadError_put ..).trans hsound)).trans ?_)
    rw [← hspad]
    rfl
  case store =>
    rintro hfe hls rfl hall hreqs
    have hready := (State.feReady_eq (s := u) (full := false) (ls := ls) hwait).trans ((s.feAll_put ..).trans hall)
    exact runWave_nextR hissues (stlBody_ready hops hcheck hfe hls hready hreqs)

end Sys2Proof.Machine

end

-- ==== LD, ST and ATOM complete or trap; O20 ====
section
/-!
The lanes of LD, ST and ATOM are checked, then accessed, then what has been read is put where the instruction says (R183, R189,
R206, R319, R377, R423).
-/

namespace Sys2Proof.Machine

variable {s : State} {c : Ctx}

/-! ### The checks before translation -/

/-- What a lane's access fails before translation (R183). -/
def laneFail (s : State) (proc : BitVec 32) (o : MemOp) (a : LaneAcc) : Option (Nat × Nat × Nat) :=
  if a.va % o.n ≠ 0 then some (1, Exc.misalignedAccess, a.va)
  else if a.va ≥ 2 ^ 52 then some (2, Exc.permission, a.va)
  else if isWindow a.va then
    if (List.range o.n).any (fun k => (s.window proc (a.va + k)).isNone) || (o.acc = .atomic && o.scope = 0)
      then some (3, Exc.permission, a.va)
    else if o.acc ≠ .write && (List.range o.n).any (fun k => ((s.window proc (a.va + k)).map s.winBad).getD false)
      then some (10, Exc.dataIntegrity, a.va)
    else none
  else none

section
variable {proc : BitVec 32} {o : MemOp} {a : LaneAcc} {ls : List LaneAcc}

theorem lanesOk_eq (ls : List LaneAcc) : lanesOk s proc o ls = worst (ls.filterMap (laneFail s proc o)) := rfl

theorem laneFail_misaligned (h : a.va % o.n ≠ 0) : laneFail s proc o a = some (1, Exc.misalignedAccess, a.va) := if_pos h

/-- An aligned access fails nothing before the bound of the addresses. -/
theorem laneFail_aligned (h : a.va % o.n = 0) : (2 ^ 52 ≤ a.va ∧ laneFail s proc o a = some (2, Exc.permission, a.va)) ∨
    (a.va < 2 ^ 52 ∧ ∀ f, laneFail s proc o a = some f → 2 < f.1) := by
  unfold laneFail
  rw [if_neg (not_not.2 h)]
  by_cases hva : a.va ≥ 2 ^ 52
  · exact .inl ⟨hva, if_pos hva⟩
  · refine .inr ⟨by omega, fun f hf => ?_⟩
    rw [if_neg hva] at hf
    split_ifs at hf <;> cases hf
    · exact Nat.lt_succ_self 2
    · exact Nat.lt_of_sub_ne_zero nofun

theorem lanesOk_misaligned (ha : a ∈ ls) (hva : a.va < 2 ^ 64) (hn : a.va % o.n ≠ 0)
    (hlow : ∀ b ∈ ls, b.va % o.n ≠ 0 → a.va ≤ b.va) : lanesOk s proc o ls = some (Exc.misalignedAccess, a.va) := by
  have hfail {f : Nat × Nat × Nat} (hf : f ∈ ls.filterMap (laneFail s proc o)) :
      (f.1 = 1 ∧ f.2.1 = Exc.misalignedAccess ∧ a.va ≤ f.2.2) ∨ 1 < f.1 := by
    obtain ⟨b, hb, hbf⟩ := List.mem_filterMap.1 hf
    by_cases hbn : b.va % o.n = 0
    · obtain ⟨-, h⟩ | ⟨-, h⟩ := laneFail_aligned (s := s) (proc := proc) hbn
      · rw [h] at hbf
        cases hbf
        exact .inr (Nat.lt_succ_self 1)
      · exact .inr (Nat.lt_of_succ_lt (h f hbf))
    · rw [laneFail_misaligned hbn] at hbf
      cases hbf
      exact .inl ⟨rfl, rfl, hlow b hb hbn⟩
  rw [lanesOk_eq]
  refine worst_eq (st := 1) (List.mem_filterMap.2 ⟨a, ha, laneFail_misaligned hn⟩) (by decide) hva (fun f hf => ?_)
    (fun f hf h => ?_)
    fun f hf h => ?_
  all_goals obtain ⟨hst, hcode, hle⟩ | hst := hfail hf
  · exact hst.ge
  · exact hst.le
  · exact hcode
  · omega
  · exact hle
  · omega

theorem lanesOk_beyond (ha : a ∈ ls) (hva : a.va < 2 ^ 64) (hn : ∀ b ∈ ls, b.va % o.n = 0) (hout : 2 ^ 52 ≤ a.va)
    (hlow : ∀ b ∈ ls, 2 ^ 52 ≤ b.va → a.va ≤ b.va) : lanesOk s proc o ls = some (Exc.permission, a.va) := by
  have hfail {f : Nat × Nat × Nat} (hf : f ∈ ls.filterMap (laneFail s proc o)) :
      (f.1 = 2 ∧ f.2.1 = Exc.permission ∧ a.va ≤ f.2.2) ∨ 2 < f.1 := by
    obtain ⟨b, hb, hbf⟩ := List.mem_filterMap.1 hf
    obtain ⟨hbva, h⟩ | ⟨-, h⟩ := laneFail_aligned (s := s) (proc := proc) (hn b hb)
    · rw [h] at hbf
      cases hbf
      exact .inl ⟨rfl, rfl, hlow b hb hbva⟩
    · exact .inr (h f hbf)
  have hmem : laneFail s proc o a = some (2, Exc.permission, a.va) := by
    obtain ⟨-, h⟩ | ⟨h, -⟩ := laneFail_aligned (s := s) (proc := proc) (hn a ha)
    · exact h
    · omega
  rw [lanesOk_eq]
  refine worst_eq (st := 2) (List.mem_filterMap.2 ⟨a, ha, hmem⟩) (by decide) hva (fun f hf => ?_)
    (fun f hf h => ?_) fun f hf h => ?_
  all_goals obtain ⟨hst, hcode, hle⟩ | hst := hfail hf
  · exact hst.ge
  · exact hst.le
  · exact hcode
  · omega
  · exact hle
  · omega

end

/-- With nothing held no access is held back. -/
theorem State.heldBy_nil (s : State) (sp : Space) (va : Nat) : s.heldBy sp [] va = none := by
  unfold State.heldBy
  refine Option.bind_eq_none_iff.2 fun b _ => Option.map_eq_none_iff.2 (List.find?_eq_none.2 fun r _ => ?_)
  simp

/-! ### The first attempt of an access -/

/-- How accesses of which none parks or goes to a peer end: with what one of them finds, or with the acquire. -/
def accessEnds (close : Bool) (o : MemOp) (c : Ctx) (t : State) : Option (Nat × Nat) → Res
  | some (code, a) => .raise t code a
  | none =>
    let t := if o.ord % 2 = 1 then t.acquire c.who.core o.scope else t
    if close then .nextR t else .next t

section
variable {i : Instr} {o : MemOp} {close : Bool} {ls : List LaneAcc} {put : List (Nat × Nat) → Wave → Wave}

theorem runAccess_noLane : runAccess i o close [] put c s = .next s := rfl

theorem Ctx.progress_of_none (h : c.path.prog = none) : c.progress = ⟨c.path.pc, 0, 0, []⟩ := by
  rw [Ctx.progress, Path.progress, h]

/-- Without requests no lane has an answer. -/
theorem answers_of_noReqs (o : MemOp) (ls : List LaneAcc) :
    ls.filterMap (fun a => (([] : List Req).find? fun r => r.lane = a.l).bind fun r =>
      (r.value o a.va).map fun v => (a.l, v)) = [] :=
  List.filterMap_eq_nil_iff.2 fun _ _ => rfl

section
variable (hls : ls ≠ []) (hprog : c.path.prog = none) (hreqs : s.reqsOf c = []) (hput : ∀ w, put [] w = w)
  (hself : s.put c (s.mine c) = s)
include hls hprog hreqs hput hself

/-- Nothing has performed and nothing is held: the accesses of all the lanes are checked. -/
theorem runAccess_checks {code a : Nat} (hok : lanesOk s (c.space s).proc o ls = some (code, a)) :
    runAccess i o close ls put c s = .raise (s.setProg c 0 0) code a := by
  have hprogress := Ctx.progress_of_none hprog
  have hempty : ls.isEmpty = false := by simpa using hls
  have hneg : negative [] = none := rfl
  have hmask : valMask [] = 0 := rfl
  simp only [runAccess, hempty, hprogress, hreqs, answers_of_noReqs, State.dropReqs_of_none hreqs, hput, hself, hneg, hmask]
  simp [hok]

variable (hok : lanesOk s (c.space s).proc o ls = none) (hquiet : 2 ≤ o.ord → s.hasReqs c.w.id.handle = false)
  {vals : List (Nat × Nat)} {u : State}
include hok hquiet

theorem runAccess_performs {fault : Option (Nat × Nat)}
    (hacc : let s₁ := s.orderAtomn c (o.sync || 2 ≤ o.ord) ls o.n
      access s₁ (if o.sync then c.syncSpace s₁ else c.space s₁) o ls = (⟨vals, [], [], false, fault⟩, u)) :
    let t := u.put c (put vals (u.mine c))
    let t := (if o.sync ∧ vals ≠ [] then t.bumpSfr c else t).setProg c (valMask vals) 0
    runAccess i o close ls put c s = accessEnds close o c t fault := by
  intro t t
  have hprogress := Ctx.progress_of_none hprog
  have hempty : ls.isEmpty = false := by simpa using hls
  have hneg : negative [] = none := rfl
  have hmask : valMask [] = 0 := rfl
  have hsync : (o.sync && !vals.isEmpty) = true ↔ o.sync = true ∧ vals ≠ [] := by
    rw [Bool.and_eq_true, Bool.not_eq_true', List.isEmpty_eq_false_iff]
  have hzero : 0 ||| valMask vals = valMask vals := BitVec.zero_or
  have hor : (0 ||| 0 : Mask) = 0 := rfl
  have hlane (l : Nat) : (0 : Mask).getLsbD l = false := BitVec.getLsbD_zero
  dsimp only at hacc
  simp only [runAccess, hempty, hprogress, hreqs, answers_of_noReqs, State.dropReqs_of_none hreqs, hput, hself, hneg, hmask]
  simp only [hor, hlane, Bool.not_false, List.filter_true, hok, State.heldBy_nil, Option.isNone_none, List.filterMap_none, hempty,
    Option.map_none, decide_true, Bool.and_true, List.isEmpty_nil, Bool.not_true, Bool.and_false, if_false, Bool.false_eq_true]
  simp only [hacc, State.askLanes]
  rw [quietly_ok fun h => hquiet (of_decide_eq_true h)]
  simp only [Bool.not_false, Bool.and_true, if_true, List.append_nil, List.foldl_nil, List.isEmpty_nil, Bool.not_true,
    Bool.or_false, List.length_nil, Nat.lt_irrefl, if_false, Bool.false_eq_true, hzero, hsync]
  cases fault <;> rfl

end

end

/-! ### The instructions -/

/-- An access by lanes runs its lanes' accesses once its operands pass. -/
theorem exec_accessOf {i : Instr} {x : Claims.Access} (h : Claims.accessOf i = some x) :
    ∃ body, exec i = runWave i x.ext body ∧ ∀ c s, checkOps (x.ops c) = none →
      body c s = runAccess i x.op x.closes (x.lanes c) (x.into c) c s := by
  unfold Claims.accessOf at h
  split at h <;> cases h <;> exact ⟨_, rfl, fun c s hops => withOps_ok hops⟩

/-- With no value nothing is written. -/
theorem Claims.into_nil {i : Instr} {x : Claims.Access} (h : Claims.accessOf i = some x) (c : Ctx) (w : Wave) :
    x.into c [] w = w := by
  unfold Claims.accessOf at h
  split at h <;> cases h
  case h_7 =>
    exact ite_eq_left_iff.2 fun _ => writeDst_noLane
  all_goals rfl

/-- Settles O20: the checks before translation, then each way an access ends. -/
theorem memoryAccessesComplete : Obligations.MemoryAccessesComplete := by
  unfold Obligations.MemoryAccessesComplete
  refine ⟨fun s proc o ls a ha hva => ⟨lanesOk_misaligned ha hva, lanesOk_beyond ha hva⟩, ?_⟩
  intro i x s c hx hi hops s₀ s₁ sp
  obtain ⟨body, hexec, hbody⟩ := exec_accessOf hx
  have hb := hbody c s₀ hops
  have hself : s₀.put c (s₀.mine c) = s₀ := by simp [s₀]
  have hput := Claims.into_nil hx c
  rw [hexec]
  refine ⟨fun hls => runWave_next hi (hb.trans ?_), fun code a hls hprog hreqs hok => runWave_raise hi (hb.trans ?_),
    fun vals code a u hls hprog hreqs hok hquiet hacc => runWave_raise hi (hb.trans ?_),
    fun vals u hls hprog hreqs hok hquiet hacc hvals => ?_⟩
  · rw [hls]; rfl
  · exact runAccess_checks (s := s₀) hls hprog hreqs hput hself hok
  · exact runAccess_performs (s := s₀) hls hprog hreqs hput hself hok hquiet hacc
  · have hend := hb.trans (runAccess_performs (s := s₀) hls hprog hreqs hput hself hok hquiet hacc)
    have hsync (v w : State) : (if x.op.sync ∧ vals ≠ [] then v else w) = if x.op.sync then v else w :=
      ite_congr (propext (and_iff_left hvals)) (fun _ => rfl) fun _ => rfl
    simp only [hsync] at hend
    cases hc : x.closes with
    | false =>
      rw [hc] at hend
      exact runWave_next hi hend
    | true =>
      rw [hc] at hend
      exact runWave_nextR hi hend

end Sys2Proof.Machine

end

-- ==== Accesses that reach memory; O21, O22 ====
section
/-!
Where every address of an access reaches memory, its translations leave memory and what the other lanes are to find, and the
access is its performances in the order of the lanes.
-/

namespace Sys2Proof.Machine

/-! ### A translation leaves what the next lanes find -/

/-- A walk depends on memory and on the count of the choices made. -/
theorem walkFrom_of_mem {s t : State} (hmem : t.mem = s.mem) (hfree : t.free = s.free) (va lvl base : Nat) :
    walkFrom t va lvl base = walkFrom s va lvl base := by
  have hnum (a n : Nat) : t.num a n = s.num a n := State.num_of_hbm (by rw [hmem]) a n
  induction lvl generalizing base with
  | zero => simp only [walkFrom, hnum, State.badData_of_mem hmem, hfree]
  | succ lvl ih => simp only [walkFrom, hnum, State.badData_of_mem hmem, ih]

theorem State.granBad_of_mem {s t : State} (hmem : t.mem = s.mem) (g : Nat) (us : List Nat) (skip : Nat) (m : BitVec 16) :
    t.granBad g us skip m = s.granBad g us skip m := by
  have hcopy (u : Nat) : t.copy? u g = s.copy? u g := by unfold State.copy?; rw [hmem]
  induction us generalizing skip m with
  | nil => simp only [State.granBad, State.eccAt, hmem]
  | cons u us ih => simp only [State.granBad, hcopy, ih]

theorem State.badRead_of_mem {s t : State} (hmem : t.mem = s.mem) (us : List Nat) (skip pa n : Nat) :
    t.badRead us skip pa n = s.badRead us skip pa n :=
  State.granBad_of_mem hmem _ us skip _

/-- A translation that agrees with the walk leaves memory and the count of the choices, and of the core's translations it
changes none but its own key's, which then is the walk's leaf. -/
theorem State.translate_agrees {s : State} {sp : Space} {va : Nat} {l : Leaf} (hwalk : walkFrom s va 3 sp.root = .ok l)
    (hheld : (Sparse.get? (tlbKey sp.pasid va) (s.core sp.core).tlb).getD (l.lvl, l.pte) = (l.lvl, l.pte)) :
    ∃ t, s.translate sp va = (.ok l, t) ∧ t.mem = s.mem ∧ t.free = s.free ∧
      ∀ k, Sparse.get? k (t.core sp.core).tlb = Sparse.get? k (s.core sp.core).tlb ∨
        k = tlbKey sp.pasid va ∧ Sparse.get? k (t.core sp.core).tlb = some (l.lvl, l.pte) := by
  simp only [State.translate, hwalk]
  cases hg : Sparse.get? (tlbKey sp.pasid va) (s.core sp.core).tlb with
  | none =>
    dsimp only
    split
    · exact ⟨_, rfl, rfl, rfl, fun k => .inl rfl⟩
    · refine ⟨_, rfl, rfl, rfl, fun k => ?_⟩
      rw [State.core_updCore]
      by_cases hk : k = tlbKey sp.pasid va
      · exact .inr ⟨hk, by rw [hk]; exact Sparse.get?_put_self ..⟩
      · exact .inl (Sparse.get?_put_ne hk ..)
  | some x =>
    rw [hg, Option.getD_some] at hheld
    subst hheld
    exact ⟨s, by simp [State.pick], rfl, rfl, fun k => .inl rfl⟩

/-- Two addresses of one address space with the same key are of one page. -/
theorem page_of_tlbKey {pasid : BitVec 20} {va vb : Nat} (h : tlbKey pasid va = tlbKey pasid vb) : va / 4096 = vb / 4096 := by
  unfold tlbKey at h
  omega

/-- What a translation leaves keeps an address reaching memory, the translation of its own key being its leaf. -/
theorem reaches_of_tlb {s t : State} {sp : Space} {o : MemOp} {leaf : Nat → Leaf} {a : LaneAcc} (h : Claims.Reaches s sp o leaf a)
    (hmem : t.mem = s.mem) (hfree : t.free = s.free)
    (htlb : Sparse.get? (tlbKey sp.pasid a.va) (t.core sp.core).tlb = Sparse.get? (tlbKey sp.pasid a.va) (s.core sp.core).tlb ∨
      Sparse.get? (tlbKey sp.pasid a.va) (t.core sp.core).tlb = some ((leaf (a.va / 4096)).lvl, (leaf (a.va / 4096)).pte)) :
    Claims.Reaches t sp o leaf a := by
  obtain ⟨hva, hwin, hwalk, hheld, hpermit, htier, hc, hlocal⟩ := h
  refine ⟨hva, hwin, by rw [walkFrom_of_mem hmem hfree, hwalk], ?_, by rw [permit_of_mem hmem, hpermit], htier, hc, fun h => ?_⟩
  · rcases htlb with htlb | htlb
    · rw [htlb, hheld]
    · rw [htlb, Option.getD_some]
  · rw [hmem, State.badRead_of_mem hmem]
    exact hlocal h

/-- The translation of one address that reaches memory keeps the others reaching it. -/
theorem State.translate_reaches {s : State} {sp : Space} {o : MemOp} {leaf : Nat → Leaf} {a : LaneAcc}
    (ha : Claims.Reaches s sp o leaf a) :
    ∃ t, s.translate sp a.va = (.ok (leaf (a.va / 4096)), t) ∧ t.mem = s.mem ∧
      ∀ b, Claims.Reaches s sp o leaf b → Claims.Reaches t sp o leaf b := by
  have ⟨_, _, hwalk, hheld, _⟩ := ha
  obtain ⟨t, htrans, hmem, hfree, htlb⟩ := State.translate_agrees hwalk hheld
  refine ⟨t, htrans, hmem, fun b hb => reaches_of_tlb hb hmem hfree ?_⟩
  obtain h | ⟨hkey, h⟩ := htlb (tlbKey sp.pasid b.va)
  · exact .inl h
  · exact .inr (by rw [h, page_of_tlbKey hkey])

/-! ### The access is its performances -/

/-- The lane of an address that reaches memory, at the address's physical place. -/
def reached (leaf : Nat → Leaf) (a : LaneAcc) : LaneTr :=
  ⟨a, leaf (a.va / 4096), (leaf (a.va / 4096)).pa a.va, partOf (leaf (a.va / 4096)) a.va⟩

theorem translateLanes_reaches {sp : Space} {o : MemOp} {leaf : Nat → Leaf} {s : State} {ls : List LaneAcc}
    (h : ∀ a ∈ ls, Claims.Reaches s sp o leaf a) :
    ∃ t, translateLanes s sp o ls = (⟨ls.map (reached leaf), [], []⟩, t) ∧ t.mem = s.mem := by
  induction ls generalizing s with
  | nil => exact ⟨s, rfl, rfl⟩
  | cons a ls ih =>
    rw [List.forall_mem_cons] at h
    obtain ⟨ha, hls⟩ := h
    obtain ⟨t, htrans, hmem, hkeep⟩ := State.translate_reaches ha
    obtain ⟨u, hrest, humem⟩ := ih fun b hb => hkeep b (hls b hb)
    obtain ⟨-, -, -, -, hpermit, -, hc, hlocal⟩ := ha
    have hmem' : u.mem = s.mem := humem.trans hmem
    refine ⟨u, ?_, hmem'⟩
    have hsound : (decide ((leaf (a.va / 4096)).tier = 0) && (s.mem.retired.contains ((leaf (a.va / 4096)).pa a.va / 4096) ||
        (o.acc ≠ .write && s.badRead ((leaf (a.va / 4096)).path sp.core) (o.skip (leaf (a.va / 4096)))
          ((leaf (a.va / 4096)).pa a.va) o.n))) = false := by
      by_cases htier : (leaf (a.va / 4096)).tier = 0
      · obtain ⟨hret, hbad⟩ := hlocal htier
        by_cases hacc : o.acc = .write
        · rw [hret, hacc]; simp
        · rw [hret, hbad hacc]; simp
      · simp [htier]
    simp only [translateLanes, htrans, hrest, permit_of_mem hmem', hpermit, hc, hmem', State.badRead_of_mem hmem', hsound]
    simp [reached]

/-- An access without a release side whose addresses reach memory performs every lane. -/
theorem access_reaches {sp : Space} {o : MemOp} {leaf : Nat → Leaf} {s : State} {ls : List LaneAcc} (hord : o.ord < 2)
    (h : ∀ a ∈ ls, Claims.Reaches s sp o leaf a) :
    ∃ t, t.mem = s.mem ∧ access s sp o ls =
      (⟨(performAll t sp o (ls.map (reached leaf))).1, [], [], false, none⟩, (performAll t sp o (ls.map (reached leaf))).2) := by
  obtain ⟨t, hfound, hmem⟩ := translateLanes_reaches h
  refine ⟨t, hmem, ?_⟩
  have hwins : ls.partition (fun a => isWindow a.va) = ([], ls) := by
    rw [List.partition_eq_filter_filter]
    have hno : ∀ a ∈ ls, isWindow a.va = false := fun a ha => (h a ha).2.1
    refine Prod.ext ?_ ?_
    · exact List.filter_eq_nil_iff.2 fun a ha => by simp [hno a ha]
    · exact List.filter_eq_self.2 fun a ha => by simp [hno a ha]
  have hpeers : (ls.map (reached leaf)).partition (fun t => t.leaf.tier == 1) = ([], ls.map (reached leaf)) := by
    rw [List.partition_eq_filter_filter]
    have hno : ∀ t ∈ ls.map (reached leaf), (t.leaf.tier == 1) = false := by
      intro t ht
      obtain ⟨a, ha, rfl⟩ := List.mem_map.1 ht
      obtain ⟨-, -, -, -, -, htier, -⟩ := h a ha
      simpa [reached] using htier
    refine Prod.ext ?_ ?_
    · exact List.filter_eq_nil_iff.2 fun a ha => by simp [hno a ha]
    · exact List.filter_eq_self.2 fun a ha => by simp [hno a ha]
  have hnorelease : ¬ 2 ≤ o.ord := by omega
  simp only [access, hwins, hfound, List.map_nil, List.contains_nil, Bool.not_false, List.filter_true, List.isEmpty_nil, if_true,
    hpeers, hnorelease, decide_false, Bool.false_and, if_false, performWins, worst_nil, State.openRecords, List.nil_append,
    Bool.not_true, Bool.false_eq_true]

theorem map_fst_performAll (s : State) (sp : Space) (o : MemOp) (ts : List LaneTr) :
    (performAll s sp o ts).1.map (·.1) = ts.map (·.a.l) := by
  induction ts generalizing s with
  | nil => rfl
  | cons t ts ih => rw [performAll, List.map_cons, List.map_cons, ih]

/-! ### A leaf that refuses -/

/-- A refusal by a page's rights is found before the last stages, and is no error of the data. -/
theorem permit_refusal {s : State} {tdi : Nat} {k : Acc} {l : Leaf} {va st code : Nat}
    (h : permit s tdi k l va = some (st, code)) :
    st < 1000 ∧ code ≠ Exc.dataIntegrity := by
  have hcodes : Exc.permission ≠ Exc.dataIntegrity ∧ Exc.fetchFault ≠ Exc.dataIntegrity ∧
      Exc.writeToGlobalRo ≠ Exc.dataIntegrity := by decide
  obtain ⟨hpermission, hfetch, hglobal⟩ := hcodes
  unfold permit at h
  dsimp only at h
  split_ifs at h <;> cases h <;> exact ⟨by decide, ‹_›⟩

/-- One address whose page refuses it faults there, nothing performed. -/
theorem access_refused {s : State} {sp : Space} {o : MemOp} {l : Leaf} {a : LaneAcc} {st code : Nat} (hva : a.va < 2 ^ 52)
    (hwin : isWindow a.va = false) (hwalk : walkFrom s a.va 3 sp.root = .ok l)
    (hheld : (Sparse.get? (tlbKey sp.pasid a.va) (s.core sp.core).tlb).getD (l.lvl, l.pte) = (l.lvl, l.pte))
    (hpermit : permit s sp.tdi o.acc l a.va = some (st, code)) :
    ∃ u, access s sp o [a] = (⟨[], [], [], false, some (code, a.va)⟩, u) ∧ u.mem = s.mem := by
  obtain ⟨t, htrans, hmem⟩ := State.translate_of_walk hwalk hheld
  obtain ⟨hst, hcode⟩ := permit_refusal hpermit
  refine ⟨t, ?_, hmem⟩
  have hfound : translateLanes s sp o [a] = (⟨[], [(st, code, a.va, partOf l a.va)], []⟩, t) := by
    simp only [translateLanes, htrans, permit_of_mem hmem, hpermit]
  have hworst : worst [(st, code, a.va)] = some (code, a.va) :=
    worst_eq (List.mem_singleton_self _) hst (by omega) (by simp) (by simp) (by simp)
  have hwins : [a].partition (fun a => isWindow a.va) = ([], [a]) := by simp [List.partition_eq_filter_filter, hwin]
  simp only [access, hwins, hfound]
  simp [performWins, performAll, hworst, hcode]

/-- A page that cannot be read refuses reads, one that cannot be written refuses writes, one of the G kind as global. -/
theorem permit_rights (s : State) (tdi : Nat) (l : Leaf) (va : Nat) (hl : l.malformed = false) :
    (∀ k, k = .read ∨ k = .atomic → l.r = false → permit s tdi k l va = some (6, Exc.permission)) ∧
    (∀ k, k = .write ∨ k = .atomic ∧ l.r = true →
      (l.w = false → l.g = false → permit s tdi k l va = some (6, Exc.permission)) ∧
      (l.g = true → permit s tdi k l va = some (7, Exc.writeToGlobalRo))) := by
  refine ⟨?_, ?_⟩
  · rintro k (rfl | rfl) hr <;> simp [permit, hl, hr]
  · rintro k (rfl | ⟨rfl, hr⟩)
    · exact ⟨fun hw hg => by simp [permit, hl, hw, hg], fun hg => by simp [permit, hl, hg]⟩
    · exact ⟨fun hw hg => by simp [permit, hl, hr, hw, hg], fun hg => by simp [permit, hl, hr, hg]⟩

/-- Settles O21: translations that agree with the walks leave what the other lanes are to find, so every lane is found at its
place and performs; a refused address is the one fault found. -/
theorem reachableAccessesPerform : Obligations.ReachableAccessesPerform := by
  refine ⟨fun s sp o leaf ls hord h => ?_, fun s sp o l a st code hva hwin hwalk hheld hpermit => ?_, permit_rights⟩
  · obtain ⟨t, -, haccess⟩ := access_reaches hord h
    exact ⟨_, _, haccess, by rw [map_fst_performAll, List.map_map]; rfl⟩
  · obtain ⟨u, haccess, hmem⟩ := access_refused hva hwin hwalk hheld hpermit
    exact ⟨u, haccess, fun x => by rw [State.byte, hmem, State.byte]⟩

end Sys2Proof.Machine

end

-- ==== Uncached local memory; O22 ====
section
/-!
A path of no cache ends at HBM: what an access through it reads and leaves, byte by byte, of one granule, of one lane and of a
list of lanes.
-/

namespace Sys2Proof

/-! ### Bytes of numbers -/

theorem byteOf_eq_elem (v k : Nat) : byteOf v k = BitVec.ofNat 8 (elem 8 k v) := by
  exact BitVec.eq_of_toNat_eq (by simp [byteOf, elem])

theorem byteOf_leNat (bs : List Byte) {k : Nat} (h : k < bs.length) (d : Byte) : byteOf (leNat bs) k = bs.getD k d := by
  rw [← Machine.getD_leBytes d (leNat bs) h, leBytes_leNat]

theorem Sparse.getD_range {α : Type} (d e : α) (m : List (Nat × α)) {k n : Nat} (a : Nat) (h : k < n) :
    (Sparse.range d m a n).getD k e = Sparse.get d m (a + k) := by
  induction n generalizing a k with
  | zero => omega
  | succ n ih =>
    cases k with
    | zero => rfl
    | succ k =>
      have hnext : a + 1 + k = a + (k + 1) := by omega
      rw [Sparse.range, List.getD_cons_succ, ih (a + 1) (by omega), hnext]

theorem Sparse.del_of_get?_none {α : Type} {k : Nat} {m : List (Nat × α)} (h : Sparse.get? k m = none) :
    Sparse.del k m = m := by
  induction m with
  | nil => rfl
  | cons x m ih =>
    obtain ⟨j, a⟩ := x
    by_cases hj : j = k
    · simp [Sparse.get?, hj] at h
    · rw [Sparse.get?, if_neg hj] at h
      rw [Sparse.del, if_neg (Ne.symm hj), ih h]

/-- A byte of a number's low bytes shifted up. -/
theorem byteOf_shifted (v : Nat) {n o k : Nat} (hlo : o ≤ k) (hhi : k < o + n) :
    byteOf (v % 2 ^ (8 * n) * 2 ^ (8 * o)) k = byteOf v (k - o) := by
  refine BitVec.eq_of_getLsbD_eq fun i hi => ?_
  have hlow : 8 * o ≤ 8 * k + i := by omega
  have hplace : 8 * k + i - 8 * o = 8 * (k - o) + i := by omega
  have hin : 8 * (k - o) + i < 8 * n := by omega
  simp only [byteOf, BitVec.getLsbD_ofNat, Nat.testBit_div_two_pow, Nat.testBit_mul_two_pow, Nat.testBit_mod_two_pow,
    Nat.add_comm i]
  simp [hlow, hin, hplace]

end Sys2Proof

namespace Sys2Proof.Machine

/-! ### A granule in HBM -/

theorem State.byteOf_num (s : State) {n k : Nat} (a : Nat) (h : k < n) : byteOf (s.num a n) k = s.byte (a + k) := by
  have hlen : k < (s.bytes a n).length := by rwa [State.bytes, Sparse.length_range]
  rw [State.num, byteOf_leNat _ hlen memDefault, State.bytes, Sparse.getD_range _ _ _ _ h, State.byte]

/-- The bytes in the middle of a number. -/
theorem State.num_mid (s : State) (a i n r : Nat) : s.num a (i + n + r) / 2 ^ (8 * i) % 2 ^ (8 * n) = s.num (a + i) n := by
  have hsplit : s.num a (i + n + r) = s.num a i + 2 ^ (8 * i) * (s.num (a + i) n + 2 ^ (8 * n) * s.num (a + i + n) r) := by
    unfold State.num State.bytes
    rw [Nat.add_assoc, Sparse.range_add, leNat_append, Sparse.range_add, leNat_append, Sparse.length_range, Sparse.length_range]
  rw [hsplit, Nat.add_mul_div_left _ _ (by positivity), Nat.div_eq_of_lt (s.num_lt a i), Nat.zero_add, Nat.add_mul_mod_self_left,
    Nat.mod_eq_of_lt (s.num_lt _ _)]

theorem State.toNat_homeGran (s : State) (g : Nat) : (s.homeGran g).toNat = s.num (16 * g) 16 := by
  rw [State.homeGran, BitVec.toNat_ofNat, Nat.mod_eq_of_lt (s.num_lt _ 16)]

/-- A number within a granule, read of the granule. -/
theorem State.readVia_home (s : State) (skip : Nat) {pa n : Nat} (h : pa % 16 + n ≤ 16) :
    s.readVia [] skip pa n = (s.num pa n, s) := by
  have hmid := s.num_mid (16 * (pa / 16)) (pa % 16) n (16 - n - pa % 16)
  have hlen : pa % 16 + n + (16 - n - pa % 16) = 16 := by omega
  rw [hlen, Nat.div_add_mod] at hmid
  simp only [State.readVia, State.readGran, State.toNat_homeGran, hmid]

theorem granMask_getLsbD (o n : Nat) {k : Nat} (h : k < 16) :
    (granMask o n).getLsbD k = (decide (o ≤ k) && decide (k < o + n)) := by
  rw [granMask, BitVec.getLsbD_ofNat, Nat.testBit_mul_two_pow, Nat.testBit_two_pow_sub_one]
  by_cases hlo : o ≤ k
  · have hiff : k - o < n ↔ k < o + n := by omega
    simp [h, hlo, hiff]
  · simp [hlo]

theorem byteOf_mergeBytes (m : BitVec 16) (new old : BitVec 128) {k : Nat} (h : k < 16) :
    byteOf (mergeBytes m new old).toNat k = if m.getLsbD k then byteOf new.toNat k else byteOf old.toNat k := by
  have hlt := pack_lt 8 ((List.range 16).map fun k => if m.getLsbD k then elem 8 k new.toNat else elem 8 k old.toNat)
  rw [List.length_map, List.length_range] at hlt
  have helem (v : Nat) : elem 8 k v % 2 ^ 8 = elem 8 k v := Nat.mod_mod _ _
  rw [byteOf_eq_elem, mergeBytes, BitVec.toNat_ofNat, Nat.mod_eq_of_lt hlt, elem_pack]
  simp only [List.getD_eq_getElem?_getD, List.getElem?_map, List.getElem?_range h, Option.map_some, Option.getD_some]
  split
  · rw [helem, byteOf_eq_elem]
  · rw [helem, byteOf_eq_elem]

theorem State.byte_setNum {s : State} (hs : s.memOk) (a n v x : Nat) :
    (s.setNum a n v).byte x = if a ≤ x ∧ x < a + n then byteOf v (x - a) else s.byte x := by
  rw [State.setNum, State.byte_setBytes hs, length_leBytes]
  split
  · exact getD_leBytes _ _ (by omega)
  · rfl

/-- A write through no cache changes its own bytes of HBM. -/
theorem State.byte_writeVia_home {s : State} (hs : s.memOk) {pa n : Nat} (h : pa % 16 + n ≤ 16) (v x : Nat) :
    (s.writeVia [] pa n v).byte x = if pa ≤ x ∧ x < pa + n then byteOf v (x - pa) else s.byte x := by
  rw [State.writeVia, State.writeGran, State.byte_setNum hs]
  by_cases hgran : 16 * (pa / 16) ≤ x ∧ x < 16 * (pa / 16) + 16
  · have hk : x - 16 * (pa / 16) < 16 := by omega
    have hsize : v % 2 ^ (8 * n) * 2 ^ (8 * (pa % 16)) < 2 ^ 128 :=
      calc v % 2 ^ (8 * n) * 2 ^ (8 * (pa % 16)) < 2 ^ (8 * n) * 2 ^ (8 * (pa % 16)) :=
            Nat.mul_lt_mul_of_pos_right (Nat.mod_lt _ (by positivity)) (by positivity)
        _ = 2 ^ (8 * n + 8 * (pa % 16)) := (Nat.pow_add ..).symm
        _ ≤ 2 ^ 128 := Nat.pow_le_pow_right (by decide) (by omega)
    rw [if_pos hgran, byteOf_mergeBytes _ _ _ hk, granMask_getLsbD _ _ hk, State.toNat_homeGran, State.byteOf_num _ _ hk,
      BitVec.toNat_ofNat, Nat.mod_eq_of_lt hsize, Nat.add_sub_cancel' hgran.1]
    by_cases hx : pa ≤ x ∧ x < pa + n
    · have hlo : pa % 16 ≤ x - 16 * (pa / 16) := by omega
      have hhi : x - 16 * (pa / 16) < pa % 16 + n := by omega
      have hplace : x - 16 * (pa / 16) - pa % 16 = x - pa := by omega
      rw [if_pos hx, decide_eq_true hlo, decide_eq_true hhi, byteOf_shifted v hlo hhi, hplace]
      rfl
    · have hout : ¬ (pa % 16 ≤ x - 16 * (pa / 16) ∧ x - 16 * (pa / 16) < pa % 16 + n) := by omega
      rw [if_neg hx, if_neg (by simpa using hout)]
  · rw [if_neg hgran, if_neg (by omega)]

theorem State.writeVia_home_copies (s : State) (pa n v : Nat) : (s.writeVia [] pa n v).mem.copies = s.mem.copies := rfl

/-- An aligned number of at most a granule lies within its granule. -/
theorem Leaf.pa_within (l : Leaf) {va n : Nat} (hn : n = 1 ∨ n = 2 ∨ n = 4 ∨ n = 8 ∨ n = 16) (hva : va % n = 0) :
    l.pa va % 16 + n ≤ 16 := by
  have hsize : 16 ∣ 2 ^ l.size := by
    unfold Leaf.size
    split_ifs
    · exact ⟨2 ^ 26, by norm_num⟩
    · exact ⟨2 ^ 17, by norm_num⟩
    · exact ⟨2 ^ 12, by norm_num⟩
    · exact ⟨2 ^ 8, by norm_num⟩
  have hpa : l.pa va % 16 = va % 16 := by
    obtain ⟨k, hk⟩ := hsize
    have hoff : va % (16 * k) % 16 = va % 16 := Nat.mod_mul_right_mod _ _ _
    rw [Leaf.pa, hk, Nat.mul_left_comm, Nat.mul_add_mod, hoff]
  rw [hpa]
  rcases hn with rfl | rfl | rfl | rfl | rfl <;> omega

/-! ### A wave's separate copy -/

/-- The management core, which has no caches, holds no separate copy of a wave (R207). -/
def NoOwnCopies (s : State) (sp : Space) : Prop := sp.core = mgmtCore → ∀ g, s.copy? (waveUnit sp.core sp.slot) g = none

theorem State.copy?_of_copies {s t : State} (h : t.mem.copies = s.mem.copies) (u g : Nat) : t.copy? u g = s.copy? u g := by
  rw [State.copy?, h, State.copy?]

theorem NoOwnCopies.of_copies {s t : State} {sp : Space} (h : NoOwnCopies s sp) (hcopies : t.mem.copies = s.mem.copies) :
    NoOwnCopies t sp :=
  fun hcore g => (State.copy?_of_copies hcopies _ g).trans (h hcore g)

theorem State.markG_copies (s : State) (l : Leaf) (g : Nat) : (s.markG l g).mem.copies = s.mem.copies := by
  unfold State.markG
  split <;> rfl

/-- Dropping a copy makes none appear where there is none. -/
theorem State.copy?_dropCopy_none {s : State} {u : Nat} (h : ∀ g, s.copy? u g = none) (g g' : Nat) :
    (s.dropCopy u g').copy? u g = none := by
  have hg := h g
  have hg' := h g'
  unfold State.copy? at hg hg' ⊢
  rw [State.dropCopy, Sparse.get?_upd, if_pos rfl]
  cases hu : Sparse.get? u s.mem.copies with
  | none => rfl
  | some m =>
    rw [hu, Option.bind_some] at hg hg'
    rw [Option.map_some, Option.bind_some, Sparse.del_of_get?_none hg', hg]

/-- A wave's separate copies joined to its caches leave HBM, and none appears at the management core. -/
theorem State.joinCopy_noOwn {s : State} {sp : Space} (h : NoOwnCopies s sp) (g : Nat) :
    (s.joinCopy sp g).mem.hbm = s.mem.hbm ∧ NoOwnCopies (s.joinCopy sp g) sp := by
  by_cases hcore : sp.core = mgmtCore
  · have hpush : s.pushCopy (waveUnit sp.core sp.slot) [] (cachePath sp.core) g = s := by
      rw [State.pushCopy, h hcore g]
    have hjoin : s.joinCopy sp g = if sp.eng then s else s.dropCopy (waveUnit sp.core sp.slot) g := by
      simp only [State.joinCopy, hpush]
    rw [hjoin]
    split
    · exact ⟨rfl, h⟩
    · exact ⟨rfl, fun _ g' => State.copy?_dropCopy_none (h hcore) g' g⟩
  · exact ⟨State.joinCopy_hbm s hcore g, fun h => absurd h hcore⟩

/-! ### One lane -/

/-- An uncached page of local memory, of which no part is checked. -/
def Leaf.plain (l : Leaf) : Prop := l.tier = 0 ∧ l.nc = true ∧ l.c = false

theorem Leaf.plain.path_eq {l : Leaf} (h : l.plain) (core : Nat) : l.path core = [] := by
  obtain ⟨-, hnc, -⟩ := h
  simp [Leaf.path, hnc]

/-- What a lane's performance meets first: the separate copies of its granule joined, HBM as before. -/
theorem State.settle_noOwn {s : State} {sp : Space} (h : NoOwnCopies s sp) (l : Leaf) (g : Nat) :
    ((s.markG l g).joinCopy sp g).mem.hbm = s.mem.hbm ∧ NoOwnCopies ((s.markG l g).joinCopy sp g) sp := by
  obtain ⟨hhbm, hown⟩ := State.joinCopy_noOwn (h.of_copies (State.markG_copies s l g)) g
  exact ⟨hhbm.trans (State.markG_hbm s l g), hown⟩

theorem State.byte_of_hbm {s t : State} (h : t.mem.hbm = s.mem.hbm) (x : Nat) : t.byte x = s.byte x := by
  rw [State.byte, h, State.byte]

variable {s : State} {sp : Space} {o : MemOp} {t : LaneTr}

theorem performLane_read (hleaf : t.leaf.plain) (hacc : o.acc = .read) (hpa : t.pa % 16 + o.n ≤ 16) (hown : NoOwnCopies s sp) :
    ∃ u, performLane s sp o t = (s.num t.pa o.n, u) ∧ u.mem.hbm = s.mem.hbm ∧ NoOwnCopies u sp := by
  have hpath := hleaf.path_eq sp.core
  obtain ⟨htier, -, hc⟩ := hleaf
  obtain ⟨hhbm, hown'⟩ := State.settle_noOwn hown t.leaf (t.pa / 16)
  refine ⟨_, ?_, hhbm, hown'⟩
  simp [performLane, htier, hc, hpath, hacc, State.readVia_home _ _ hpa, State.num_of_hbm hhbm]

theorem performLane_write (hleaf : t.leaf.plain) (hacc : o.acc = .write) (hsync : o.sync = false) (hpa : t.pa % 16 + o.n ≤ 16)
    (hs : s.memOk) (hown : NoOwnCopies s sp) :
    ∃ u, performLane s sp o t = (0, u) ∧ u.memOk ∧ NoOwnCopies u sp ∧
      ∀ x, u.byte x = if t.pa ≤ x ∧ x < t.pa + o.n then byteOf t.a.x (x - t.pa) else s.byte x := by
  have hpath := hleaf.path_eq sp.core
  obtain ⟨htier, -, hc⟩ := hleaf
  obtain ⟨hhbm, hown'⟩ := State.settle_noOwn hown t.leaf (t.pa / 16)
  have hok : ((s.markG t.leaf (t.pa / 16)).joinCopy sp (t.pa / 16)).memOk := .joinCopy (.markG hs)
  refine ⟨((s.markG t.leaf (t.pa / 16)).joinCopy sp (t.pa / 16)).writeVia [] t.pa o.n t.a.x, ?_, .writeVia hok, hown'.of_copies
    (State.writeVia_home_copies ..), fun x => ?_⟩
  · simp [performLane, htier, hc, hpath, hacc, hsync]
  · rw [State.byte_writeVia_home hok hpa, State.byte_of_hbm hhbm]

theorem performLane_atomic {op ty : Nat} (hleaf : t.leaf.plain) (hacc : o.acc = .atomic) (hatom : o.atom = some (op, ty))
    (hpa : t.pa % 16 + o.n ≤ 16) (hs : s.memOk) (hown : NoOwnCopies s sp) :
    ∃ u, performLane s sp o t = (s.num t.pa o.n, u) ∧
      ∀ x, u.byte x = if atomWrites op (s.num t.pa o.n) t.a.x = true ∧ t.pa ≤ x ∧ x < t.pa + o.n
        then byteOf (atomNew op ty (s.num t.pa o.n) t.a.x t.a.y) (x - t.pa) else s.byte x := by
  have hpath := hleaf.path_eq sp.core
  obtain ⟨htier, -, hc⟩ := hleaf
  obtain ⟨hhbm, -⟩ := State.settle_noOwn hown t.leaf (t.pa / 16)
  have hok : ((s.markG t.leaf (t.pa / 16)).joinCopy sp (t.pa / 16)).memOk := .joinCopy (.markG hs)
  have hlane : performLane s sp o t = (s.num t.pa o.n, if atomWrites op (s.num t.pa o.n) t.a.x
      then ((s.markG t.leaf (t.pa / 16)).joinCopy sp (t.pa / 16)).writeVia [] t.pa o.n
        (atomNew op ty (s.num t.pa o.n) t.a.x t.a.y)
      else (s.markG t.leaf (t.pa / 16)).joinCopy sp (t.pa / 16)) := by
    simp [performLane, performAtom, htier, hc, hpath, hacc, hatom, State.pushGran, State.readVia_home _ _ hpa,
      State.num_of_hbm hhbm]
  refine ⟨_, hlane, fun x => ?_⟩
  by_cases hw : atomWrites op (s.num t.pa o.n) t.a.x = true
  · rw [if_pos hw, State.byte_writeVia_home hok hpa, State.byte_of_hbm hhbm]
    simp only [hw, true_and]
  · rw [if_neg hw, State.byte_of_hbm hhbm, if_neg fun h => hw h.1]

/-! ### A list of lanes -/

theorem performAll_reads {ts : List LaneTr} (hacc : o.acc = .read) (hts : ∀ t ∈ ts, t.leaf.plain ∧ t.pa % 16 + o.n ≤ 16)
    (hown : NoOwnCopies s sp) :
    ∃ u, performAll s sp o ts = (ts.map fun t => (t.a.l, s.num t.pa o.n), u) ∧ u.mem.hbm = s.mem.hbm := by
  induction ts generalizing s with
  | nil => exact ⟨s, rfl, rfl⟩
  | cons t ts ih =>
    rw [List.forall_mem_cons] at hts
    obtain ⟨⟨hleaf, hpa⟩, hrest⟩ := hts
    obtain ⟨u, hlane, hhbm, hown'⟩ := performLane_read hleaf hacc hpa hown
    obtain ⟨v, hall, hhbm'⟩ := ih hrest hown'
    refine ⟨v, ?_, hhbm'.trans hhbm⟩
    simp only [performAll, hlane, hall, State.num_of_hbm hhbm, List.map_cons]

theorem performAll_writes {ts : List LaneTr} (hacc : o.acc = .write) (hsync : o.sync = false)
    (hts : ∀ t ∈ ts, t.leaf.plain ∧ t.pa % 16 + o.n ≤ 16) (hs : s.memOk) (hown : NoOwnCopies s sp) :
    ∃ u, performAll s sp o ts = (ts.map fun t => (t.a.l, 0), u) ∧
      ∀ x, u.byte x = match ts.reverse.find? fun t => t.pa ≤ x && x < t.pa + o.n with
        | some t => byteOf t.a.x (x - t.pa)
        | none => s.byte x := by
  induction ts generalizing s with
  | nil => exact ⟨s, rfl, fun _ => rfl⟩
  | cons t ts ih =>
    rw [List.forall_mem_cons] at hts
    obtain ⟨⟨hleaf, hpa⟩, hrest⟩ := hts
    obtain ⟨u, hlane, hok, hown', hbyte⟩ := performLane_write hleaf hacc hsync hpa hs hown
    obtain ⟨v, hall, hbytes⟩ := ih hrest hok hown'
    refine ⟨v, by simp only [performAll, hlane, hall, List.map_cons], fun x => ?_⟩
    rw [hbytes, List.reverse_cons, List.find?_append]
    cases hlater : ts.reverse.find? fun t => t.pa ≤ x && x < t.pa + o.n with
    | some t' => rfl
    | none =>
      by_cases hx : t.pa ≤ x ∧ x < t.pa + o.n
      · simp [hbyte, hx]
      · have hx' : (decide (t.pa ≤ x) && decide (x < t.pa + o.n)) = false := by simpa using hx
        simp [hbyte, hx, hx']

/-- Settles O22: the access is its performances in the order of the lanes, and a path of no cache ends at HBM, where a lane's
performance reads and changes its own bytes. -/
theorem uncachedLocalMemory : Obligations.UncachedLocalMemory := by
  intro s sp o leaf ls hs hord hn hls hown pa
  obtain ⟨t, hmem, haccess⟩ := access_reaches hord fun a ha => (hls a ha).1
  have hlanes : ∀ u ∈ ls.map (reached leaf), u.leaf.plain ∧ u.pa % 16 + o.n ≤ 16 := by
    intro u hu
    obtain ⟨a, ha, rfl⟩ := List.mem_map.1 hu
    obtain ⟨⟨-, -, -, -, -, -, hc, -⟩, htier, hnc, hva⟩ := hls a ha
    exact ⟨⟨htier, hnc, hc⟩, Leaf.pa_within _ hn hva⟩
  have hnum (x n : Nat) : t.num x n = s.num x n := State.num_of_hbm (by rw [hmem]) x n
  have hbyte (x : Nat) : t.byte x = s.byte x := State.byte_of_hbm (by rw [hmem]) x
  have hown' : NoOwnCopies t sp := NoOwnCopies.of_copies hown (by rw [hmem])
  have hs' : t.memOk := by rwa [State.memOk, hmem]
  refine ⟨fun hacc => ?_, fun hacc hsync => ?_, fun a op ty hacc hatom hone => ?_⟩
  · obtain ⟨u, hall, hhbm⟩ := performAll_reads hacc hlanes hown'
    refine ⟨u, ?_, fun x => (State.byte_of_hbm hhbm x).trans (hbyte x)⟩
    rw [haccess, hall, List.map_map]
    simp only [hnum]
    rfl
  · obtain ⟨u, hall, hbytes⟩ := performAll_writes hacc hsync hlanes hs' hown'
    refine ⟨u, ?_, fun x => ?_⟩
    · rw [haccess, hall, List.map_map]
      rfl
    · rw [hbytes, ← List.map_reverse, List.find?_map, hbyte]
      have hcovers : ((fun t : LaneTr => t.pa ≤ x && x < t.pa + o.n) ∘ reached leaf) = fun a => pa a ≤ x && x < pa a + o.n := rfl
      rw [hcovers]
      cases ls.reverse.find? fun a => pa a ≤ x && x < pa a + o.n <;> rfl
  · subst hone
    obtain ⟨hleaf, hpa⟩ := hlanes (reached leaf a) (by simp)
    obtain ⟨u, hlane, hbytes⟩ := performLane_atomic hleaf hacc hatom hpa hs' hown'
    refine ⟨u, ?_, fun x => ?_⟩
    · rw [haccess, List.map_singleton]
      simp only [performAll, hlane, hnum]
      rfl
    · rw [hbytes, hnum, hbyte]
      rfl

end Sys2Proof.Machine

end

-- ==== Name lookups; O39 ====
section
/-!
NSLOOKUP answers from the device's own names, or asks the name's device and makes a remote port of its answer (R204, R237).
-/

namespace Sys2Proof.Machine

variable {e : Ext} {s : State} {c : Ctx}

/-- The process that an instruction acts for does not depend on what its wave's registers hold. -/
@[simp] theorem Ctx.process_put (c d : Ctx) (s : State) (w : Wave) : c.process (s.put d w) = c.process s := by
  rw [Ctx.process, Ctx.process, State.core_put (g := fun k => k.ctl.kproc) (fun _ _ => rfl)]

section
variable (hops : checkOps [sDst c e.d9.toNat, sRun c e.a9.toNat] = none) (hact : c.act true e.pg e.pn ≠ 0)
include hops hact

section
variable (hlocal : bits (c.sVal e.a9.toNat).toNat 63 55 = s.peer.toNat)
include hlocal

/-- A name of this device answers its port's handle to a process of the port's TDI, and status 3 to any other (R237). -/
theorem nslookupBody_named {h : BitVec 32}
    (hname : (s.kern.names.find? fun x => x.1 == c.sVal e.a9.toNat) = some (c.sVal e.a9.toNat, h)) :
    let mine := (s.named (c.process s)).map (·.tdi)
    nslookupBody e c s = .next (Claims.answer e c s
      (if (s.named h).map (·.tdi) = mine ∧ mine.isSome = true then kernResult 0 0 h.toNat else kernResult 3 0 0)) := by
  intro mine
  simp only [nslookupBody, withOps_ok hops, if_neg hact, if_pos hlocal, hname, Bool.and_eq_true, decide_eq_true_eq]
  by_cases hseen : (s.named h).map (·.tdi) = mine ∧ mine.isSome = true
  · rw [if_pos hseen, if_pos hseen]
    rfl
  · rw [if_neg hseen, if_neg hseen]
    rfl

/-- A name of this device that no port has answers status 3 (R237). -/
theorem nslookupBody_unnamed (hname : ∀ x ∈ s.kern.names, x.1 ≠ c.sVal e.a9.toNat) :
    nslookupBody e c s = .next (Claims.answer e c s (kernResult 3 0 0)) := by
  have hnone : (s.kern.names.find? fun x => x.1 == c.sVal e.a9.toNat) = none :=
    List.find?_eq_none.mpr fun x hx => by simpa using hname x hx
  simp only [nslookupBody, withOps_ok hops, if_neg hact, if_pos hlocal, hnone]
  rfl

end

section
variable (hremote : bits (c.sVal e.a9.toNat).toNat 63 55 ≠ s.peer.toNat)
include hremote

/-- Another device's name is asked for, behind the wave's pending atomics, and the split waits (R204, R213). -/
theorem nslookupBody_asks (hreqs : s.reqsOf c = []) :
    nslookupBody e c s = .wait (((s.orderAtomn c true [] 0).ask c.w.id.handle c.who.half ((lowest c.path.mask).getD 0) 0 none
      { Packet.plain 0x0C 0 (BitVec.ofNat 9 (bits (c.sVal e.a9.toNat).toNat 63 55)) 0 with
        ext := BitVec.ofNat 384 (c.sVal e.a9.toNat).toNat }).waitReqs c (.nslookup e)) := by
  simp only [nslookupBody, withOps_ok hops, if_neg hact, if_neg hremote, hreqs, List.findSome?_nil]
  rfl

/-- The answer that has come is taken: a lost one is status 6, a negative one its own status, and a handle becomes a remote port
where the object table has room (R237). -/
theorem nslookupBody_answered {a : Packet} (hanswer : (s.reqsOf c).findSome? (·.answer) = some a) :
    let u := s.dropReqs c
    let w := (Packet.word a 2).toNat
    nslookupBody e c s = .next (if a.status = 7 then Claims.answer e c u (kernResult 6 0 0)
      else if bits w 63 48 ≠ 0 then Claims.answer e c u (kernResult (bits w 63 48) 0 0)
      else match u.newObj c fun _ => .rport (bits (c.sVal e.a9.toNat).toNat 63 55) (BitVec.ofNat 32 w) (Packet.word a 3).toNat with
        | some (h, v) => Claims.answer e c v (kernResult 0 0 h.toNat)
        | none => Claims.answer e c u (kernResult 2 0 0)) := by
  intro u w
  simp only [nslookupBody, withOps_ok hops, if_neg hact, if_neg hremote, hanswer]
  split
  · rfl
  · split
    · rfl
    · cases u.newObj c fun _ => .rport (bits (c.sVal e.a9.toNat).toNat 63 55) (BitVec.ofNat 32 w) (Packet.word a 3).toNat <;> rfl

end

end

/-- Settles O39: the lookup among the device's own names, and each stage of asking another device. -/
theorem nameLookups : Obligations.NameLookups := by
  intro e s c hi hops hact s₀ name peer done
  refine ⟨fun h hlocal hname => ?named, fun hlocal hname => ?unnamed, fun hremote hreqs => ?asks,
    fun a hremote hanswer => ?answered⟩
  case named =>
    intro mine
    have hbody := nslookupBody_named (s := s₀) hops hact hlocal hname
    rw [Ctx.process_put] at hbody
    exact runWave_next hi hbody
  case unnamed => exact runWave_next hi (nslookupBody_unnamed (s := s₀) hops hact hlocal hname)
  case asks => exact runWave_wait hi (nslookupBody_asks (s := s₀) hops hact hremote hreqs)
  case answered =>
    intro u w
    have hbody := nslookupBody_answered (s := s₀) hops hact hremote hanswer
    refine ⟨fun hlost => runWave_next hi ?_, fun hcame hbad => runWave_next hi ?_, fun hcame hgood => ?_⟩
    · rw [hbody, if_pos hlost]
    · rw [hbody, if_neg hcame, if_pos hbad]
    · refine (runWave_next hi hbody).trans ?_
      rw [if_neg hcame, if_neg (not_not.mpr hgood)]
      cases u.newObj c fun _ => .rport peer (BitVec.ofNat 32 w) (Packet.word a 3).toNat <;> rfl

end Sys2Proof.Machine
end

-- ==== Barriers; O30 ====
section
/-!
BAR, BARA and BARW: the arrival with its release, and the completion with its acquire (R206, R324, R325).
-/

namespace Sys2Proof.Machine

variable {e : Ext} {i : Instr} {wait : Bool} {id d : Nat} {s : State} {c : Ctx} {r : BarRef}

/-! ### An arrival -/

@[simp] theorem State.orderAtomn_host (s : State) (c : Ctx) (sync : Bool) (ls : List LaneAcc) (n : Nat) :
    (s.orderAtomn c sync ls n).host = s.host := by
  simp only [State.orderAtomn]
  split_ifs
  · rfl
  · exact s.drainAtomn_host _ _
  · rfl

theorem State.launch?_of_host {t : State} (h : t.host = s.host) (l : Nat) : t.launch? l = s.launch? l := by
  rw [State.launch?, h, State.launch?]

theorem State.bar_of_host {t : State} (h : t.host = s.host) (l key : Nat) : t.bar l key = s.bar l key := by
  rw [State.bar, State.launch?_of_host h, State.bar]

/-- A barrier of a launch of the device, changed, reads as what it was changed to. -/
theorem State.bar_updBar {n : Nat} {l : Launch} (h : s.launch? n = some l) (key : Nat) (f : Bar → Bar) :
    (s.updBar n key f).bar n key = f (s.bar n key) := by
  rw [State.launch?] at h
  simp [State.bar, State.launch?, State.updBar, State.updLaunch, Sparse.get?_upd, h, Sparse.get]

/-- A barrier with one more arrival of a member counted (R324). -/
def Bar.arrived (b : Bar) (h : BitVec 32) (half : Nat) : Bar :=
  { b with counts := Sparse.put (memberKey h half) (b.count h half + 1) b.counts }

@[simp] theorem Bar.count_arrived_self (b : Bar) (h : BitVec 32) (half : Nat) :
    (b.arrived h half).count h half = b.count h half + 1 := by
  simp [Bar.count, Bar.arrived, Sparse.get]

theorem Bar.count_arrived_ne (b : Bar) {h h' : BitVec 32} {half half' : Nat} (hne : memberKey h' half' ≠ memberKey h half) :
    (b.arrived h half).count h' half' = b.count h' half' := by
  simp [Bar.count, Bar.arrived, Sparse.get, Sparse.get?_put_ne hne]

/-- An arrival counts its half at its barrier, and leaves all else of it as it was (R324, R325). -/
theorem State.bar_arriveBar {l : Launch} (h : s.launch? r.launch = some l) :
    (s.arriveBar c r).bar r.launch r.key = (s.bar r.launch r.key).arrived c.w.id.handle c.who.half := by
  have hhost : ((s.orderAtomn c true [] 0).releaseBy (c.space s) (Level.scope r.entry)).host = s.host :=
    (State.releaseBy_memOnly _ _ _).host.trans (s.orderAtomn_host ..)
  rw [State.arriveBar, State.bar_of_host (State.bumpSfr_host _ c), State.bar_updBar ((State.launch?_of_host hhost _).trans h),
    State.bar_of_host hhost, Bar.arrived]

/-! ### BAR and BARA -/

section
variable (hops : checkOps [if wait then OpOk.yes else sDst c d] = none) (hbar : s.barRef c id = some r) (hstack : c.half.stack = [])
include hops hbar hstack

/-- Once it has arrived at a phase, a BAR completes with the phase (R325). -/
theorem barBody_arrived {k : Nat} (hk : c.progress.k = k + 1) : barBody i wait id d c s =
    if k < (s.bar r.launch r.key).phase then .nextR (s.completeBar c r) else .wait (s.waitOn c i) := by
  simp [barBody, withOps_ok hops, hbar, hstack, hk]

section
variable (hk : c.progress.k = 0)
include hk

/-- An arrival of a half whose last one's phase is in progress waits (R325). -/
theorem barBody_early (hn : (s.bar r.launch r.key).phase < (s.bar r.launch r.key).count c.w.id.handle c.who.half) :
    barBody i wait id d c s = .wait (s.waitOn c i) := by
  have hn' : (s.bar r.launch r.key).count c.w.id.handle c.who.half ≠ 0 := Nat.ne_zero_of_lt hn
  simp [barBody, withOps_ok hops, hbar, hstack, hk, hn, hn']

/-- Any other arrives, its wave's requests to peers answered: BARA answers its token, and BAR waits for its phase (R206, R325). -/
theorem barBody_arrives (hn : (s.bar r.launch r.key).count c.w.id.handle c.who.half ≤ (s.bar r.launch r.key).phase)
    (hquiet : s.hasReqs c.w.id.handle = false) :
    let n := (s.bar r.launch r.key).count c.w.id.handle c.who.half
    let u := s.arriveBar c r
    barBody i wait id d c s = if !wait then .nextR (u.put c (writeS c (u.mine c) d (BitVec.ofNat 64 (n % 2 ^ 32))))
      else if n < (s.bar r.launch r.key).phase then .nextR (u.completeBar c r) else .wait ((u.setProg c 0 (n + 1)).waitOn c i) := by
  have hnot : ¬(s.bar r.launch r.key).phase < (s.bar r.launch r.key).count c.w.id.handle c.who.half := Nat.not_lt.mpr hn
  simp only [barBody, withOps_ok hops, hbar, hstack, hk, decide_eq_false hnot, quietly, hquiet]
  simp

end

end

/-! ### BARW -/

/-- A token that lies less than 2^31 arrivals behind the count names its phase (R325). -/
theorem tokenPhase_of_behind {n t : Nat} (hn : n ≠ 0) (hd : (n + 2 ^ 32 - 1 - t % 2 ^ 32) % 2 ^ 32 < 2 ^ 31) :
    tokenPhase n t = some ((n : Int) - 1 - ((n + 2 ^ 32 - 1 - t % 2 ^ 32) % 2 ^ 32 : Nat)) :=
  if_neg (not_or.mpr ⟨hn, Nat.not_le.mpr hd⟩)

/-- BARW completes once its token's phase has (R325). -/
theorem barwBody_of_token {a : Nat} (hops : checkOps [sRun c a] = none) (hbar : s.barRef c id = some r)
    (hstack : c.half.stack = []) :
    let n := (s.bar r.launch r.key).count c.w.id.handle c.who.half
    let d := (n + 2 ^ 32 - 1 - (c.sVal a).toNat % 2 ^ 32) % 2 ^ 32
    n ≠ 0 → d < 2 ^ 31 → barwBody i id a c s =
      if n ≤ (s.bar r.launch r.key).phase + d then .next (s.completeBar c r) else .wait (s.waitOn c i) := by
  intro n d hn hd
  have htoken : tokenPhase n (c.sVal a).toNat = some ((n : Int) - 1 - (d : Nat)) := tokenPhase_of_behind hn hd
  have hphase : ((n : Int) - 1 - (d : Nat) < ((s.bar r.launch r.key).phase : Nat)) ↔ n ≤ (s.bar r.launch r.key).phase + d := by omega
  dsimp only [n, d] at htoken hphase ⊢
  simp only [barwBody, withOps_ok hops, hbar, hstack, htoken, hphase]
  rfl

/-! ### The instructions -/

/-- A body that completes with its region where a condition holds, and waits where it does not. -/
theorem runWave_nextR_or_wait {x : Option Ext} {body : Ctx → State → Res} {p : Prop} [Decidable p] {u v : State}
    (hi : Issues i x s c) (hbody : body c (s.put c c.w) = if p then .nextR u else .wait v) :
    runWave i x body s = .next (if p then endedRegion i x c s u else v) := by
  by_cases hp : p
  · rw [if_pos hp] at hbody ⊢
    exact runWave_nextR hi hbody
  · rw [if_neg hp] at hbody ⊢
    exact runWave_wait hi hbody

/-- Settles O30: each body's answer on the barrier that the statement names, and the counts that an arrival leaves. -/
theorem barriersComplete : Obligations.BarriersComplete := by
  have hbarOps : checkOps [OpOk.yes] = none := rfl
  refine ⟨fun e s c r => ?instructions, ?counts⟩
  case instructions =>
    intro s₀ b n hbar hstack
    refine ⟨?arrived, ?bar, ?bara, ?early, ?barw⟩
    case arrived =>
      intro k hi hk
      exact runWave_nextR_or_wait hi (barBody_arrived (wait := true) hbarOps hbar hstack hk)
    case bar =>
      intro hi hk hn hquiet
      exact runWave_nextR_or_wait hi (barBody_arrives (s := s₀) (wait := true) hbarOps hbar hstack hk hn hquiet)
    case bara =>
      intro hi hops hk hn hquiet u
      exact runWave_nextR hi (barBody_arrives (s := s₀) (wait := false) hops hbar hstack hk hn hquiet)
    case early =>
      rintro i (rfl | ⟨rfl, hops⟩) hi hk hn
      · exact runWave_wait hi (barBody_early (wait := true) hbarOps hbar hstack hk hn)
      · exact runWave_wait hi (barBody_early (wait := false) hops hbar hstack hk hn)
    case barw =>
      intro hi hops d hn hd
      have hbody := barwBody_of_token (i := .barw e) hops hbar hstack hn hd
      by_cases hdone : n ≤ b.phase + d
      · rw [if_pos hdone]
        exact runWave_next hi (hbody.trans (if_pos hdone))
      · rw [if_neg hdone]
        exact runWave_wait hi (hbody.trans (if_neg hdone))
  case counts =>
    intro s c r l hl t
    rw [State.bar_arriveBar hl]
    exact ⟨rfl, rfl, Bar.count_arrived_self .., fun _ _ hne => Bar.count_arrived_ne _ hne⟩

end Sys2Proof.Machine
end

-- ==== Fences and cache maintenance; O25 ====
section
/-!
The fences, PREF, CFLUSH and CINV: what each does to the copies, and that CINV leaves none of its range in the caches of the
unit (R208 to R211, R338, R406).
-/

namespace Sys2Proof

variable {α : Type}

/-! ### Entries removed from a table -/

theorem Sparse.get?_eq_none_iff {k : Nat} {m : List (Nat × α)} : Sparse.get? k m = none ↔ k ∉ m.map (·.1) := by
  induction m with
  | nil => simp [Sparse.get?]
  | cons x m ih =>
    obtain ⟨j, a⟩ := x
    by_cases hj : j = k
    · simp [Sparse.get?, hj]
    · simp [Sparse.get?, hj, ih, Ne.symm hj]

theorem Sparse.keys_del (k : Nat) (m : List (Nat × α)) : (Sparse.del k m).map (·.1) = (m.map (·.1)).erase k := by
  induction m with
  | nil => rfl
  | cons x m ih =>
    obtain ⟨j, a⟩ := x
    by_cases hj : k = j
    · simp [Sparse.del, hj]
    · simp [Sparse.del, hj, ih, List.erase_cons_tail, Ne.symm hj]

theorem Sparse.keys_foldl_del (ks : List Nat) (m : List (Nat × α)) :
    (ks.foldl (fun m k => Sparse.del k m) m).map (·.1) = (m.map (·.1)).diff ks := by
  induction ks generalizing m with
  | nil => simp
  | cons k ks ih => rw [List.foldl_cons, ih, Sparse.keys_del, List.diff_cons]

/-- Once each listed key that meets a test has been removed, as often as it is listed, no such key is listed. -/
theorem Sparse.get?_foldl_del_filter {p : Nat → Bool} {k : Nat} (hk : p k = true) (m : List (Nat × α)) :
    Sparse.get? k (((m.map (·.1)).filter p).foldl (fun m j => Sparse.del j m) m) = none := by
  rw [Sparse.get?_eq_none_iff, Sparse.keys_foldl_del, ← List.count_eq_zero, List.count_diff, List.count_filter hk, Nat.sub_self]

end Sys2Proof

namespace Sys2Proof.Machine

variable {e : Ext} {s : State} {c : Ctx}

/-! ### Copies dropped -/

/-- A copy that is not there is not there once another is dropped. -/
theorem State.copy?_dropCopy_of_none {u g : Nat} (h : s.copy? u g = none) (u' g' : Nat) : (s.dropCopy u' g').copy? u g = none := by
  rw [State.copy?] at h
  rw [State.copy?, State.dropCopy, Sparse.get?_upd]
  split
  · next hu =>
    subst hu
    cases hm : Sparse.get? u s.mem.copies with
    | none => rfl
    | some m =>
      rw [hm, Option.bind_some] at h
      rw [Option.map_some, Option.bind_some]
      by_cases hg : g = g'
      · rw [← hg, Sparse.del_of_get?_none h, h]
      · rw [Sparse.get?_del_ne hg, h]
  · exact h

/-- The copies that a unit lists after some are dropped. -/
theorem State.copies_foldl_dropCopy (u : Nat) (gs : List Nat) (s : State) :
    Sparse.get? u (gs.foldl (fun s g => s.dropCopy u g) s).mem.copies =
      (Sparse.get? u s.mem.copies).map fun m => gs.foldl (fun m g => Sparse.del g m) m := by
  induction gs generalizing s with
  | nil => simp
  | cons g gs ih =>
    rw [List.foldl_cons, ih, State.dropCopy, Sparse.get?_upd, if_pos rfl, Option.map_map]
    rfl

/-- The granules of a range. -/
def inRange (rs : List (Nat × Nat)) (g : Nat) : Bool := rs.any fun r => decide (r.1 ≤ g) && decide (g < r.1 + r.2)

theorem inRange_iff {rs : List (Nat × Nat)} {g : Nat} : inRange rs g = true ↔ ∃ q ∈ rs, q.1 ≤ g ∧ g < q.1 + q.2 := by
  simp [inRange]

/-- A unit with its copies of a range dropped. -/
def State.dropRange (s : State) (rs : List (Nat × Nat)) (u : Nat) : State :=
  (s.rangeCopies u rs).foldl (fun s g => s.dropCopy u g) s

theorem State.copy?_dropRange_self (s : State) {rs : List (Nat × Nat)} {g : Nat} (hg : inRange rs g = true) (u : Nat) :
    (s.dropRange rs u).copy? u g = none := by
  rw [State.copy?, State.dropRange, State.copies_foldl_dropCopy, State.rangeCopies, Sparse.get]
  cases Sparse.get? u s.mem.copies with
  | none => rfl
  | some m => exact Sparse.get?_foldl_del_filter (p := inRange rs) hg m

theorem State.copy?_dropRange_of_none {u g : Nat} (h : s.copy? u g = none) (rs : List (Nat × Nat)) (u' : Nat) :
    (s.dropRange rs u').copy? u g = none :=
  List.foldlRecOn (motive := fun t : State => t.copy? u g = none) _ _ h fun _ ht g' _ => State.copy?_dropCopy_of_none ht u' g'

@[simp] theorem State.dropRange_hbm (s : State) (rs : List (Nat × Nat)) (u : Nat) : (s.dropRange rs u).mem.hbm = s.mem.hbm :=
  foldl_keeps (·.mem.hbm) _ (fun s g => s.dropCopy_hbm u g) _ s

/-- What one step of a fold brings about and every step keeps holds after the fold. -/
theorem foldl_reaches {α : Type} {P : State → Prop} {f : State → α → State} (hkeep : ∀ s b, P s → P (f s b)) {a : α}
    (hreach : ∀ s, P (f s a)) : ∀ {l : List α}, a ∈ l → ∀ s, P (l.foldl f s)
  | b :: l, ha, s => by
    rw [List.foldl_cons]
    rcases List.mem_cons.1 ha with rfl | ha
    · exact List.foldlRecOn (motive := P) _ _ (hreach s) fun t ht b _ => hkeep t b ht
    · exact foldl_reaches hkeep hreach ha _

/-- Units with their copies of a range dropped (R338). -/
def State.dropRanges (s : State) (rs : List (Nat × Nat)) (us : List Nat) : State := us.foldl (fun s u => s.dropRange rs u) s

@[simp] theorem State.dropRanges_hbm (s : State) (rs : List (Nat × Nat)) (us : List Nat) : (s.dropRanges rs us).mem.hbm = s.mem.hbm :=
  foldl_keeps (·.mem.hbm) _ (fun s u => s.dropRange_hbm rs u) us s

/-- None of the units holds a copy of the range any more (R338). -/
theorem State.copy?_dropRanges (s : State) {rs : List (Nat × Nat)} {us : List Nat} {u g : Nat} (hu : u ∈ us)
    (hg : inRange rs g = true) : (s.dropRanges rs us).copy? u g = none :=
  foldl_reaches (P := fun t => t.copy? u g = none) (fun _ v ht => State.copy?_dropRange_of_none ht rs v)
    (fun t => t.copy?_dropRange_self hg u) hu s

/-! ### CFLUSH and CINV (R338) -/

/-- The pages of the range of a CFLUSH or a CINV, translated behind the wave's pending atomics (R338). -/
def maintPages (e : Ext) (c : Ctx) (s : State) : Ranges × State :=
  let base := (c.sVal e.a9.toNat).toNat
  let lo := base / 128 * 128
  let hi := (base + offVal c e.lit e.b9.toNat + 127) / 128 * 128
  let u := s.orderAtomn c true [] 0
  u.rangePages (c.space u) lo hi ((List.range ((hi - 1) / 4096 - lo / 4096 + 1)).map fun k => lo / 4096 + k)

/-- The waves' separate copies and the dirty bytes of a range pushed out of the caches of a unit (R338). -/
def State.flushRange (s : State) (rs : List (Nat × Nat)) (scope core : Nat) : State :=
  let cores := s.unitCores scope core
  let d := scopeDepth scope
  let v := cores.foldl (fun s k => s.flushWaves k fun g => rs.any fun x => decide (x.1 ≤ g) && decide (g < x.1 + x.2)) s
  cores.foldl (fun s k => (((cachePath k).take d).flatMap fun u => s.rangeCopies u rs).foldl
    (fun s g => s.flushGran g (cachePath k) d) s) v

section
variable (hops : checkOps [sRun c e.a9.toNat,
  if 320 ≤ e.b9.toNat ∧ e.b9.toNat < 384 then sRun c e.b9.toNat else offOk c e.lit e.b9.toNat] = none) (inv : Bool)
include hops

/-- With no lane, or with no bytes at an address that is no window's, nothing is done. -/
theorem maintBody_idle (h : c.act true e.pg e.pn = 0 ∨
    (isWindow (c.sVal e.a9.toNat).toNat = false ∧ offVal c e.lit e.b9.toNat = 0)) : maintBody inv e c s = .next s := by
  rw [maintBody, withOps_ok hops]
  rcases h with hact | ⟨hwin, hlen⟩
  · rw [if_pos hact]
  · simp [hwin, hlen]

section
variable (hact : c.act true e.pg e.pn ≠ 0)
include hact

/-- A window address as base, or a length over 2^32, is no range (R338). -/
theorem maintBody_invalid (h : isWindow (c.sVal e.a9.toNat).toNat = true ∨ 2 ^ 32 < offVal c e.lit e.b9.toNat) :
    maintBody inv e c s = .raise s Exc.invalidOperand 0 := by
  rw [maintBody, withOps_ok hops, if_neg hact]
  exact if_pos h

section
variable (hwin : isWindow (c.sVal e.a9.toNat).toNat = false) (hpos : 0 < offVal c e.lit e.b9.toNat)
  (hlen : offVal c e.lit e.b9.toNat ≤ 2 ^ 32) {r : Ranges} {v : State} (hpages : maintPages e c s = (r, v)) (hlost : r.lost = [])
include hwin hpos hlen hpages hlost

/-- A range with an address that may not be translated raises at the lowest one, and not below the base (R338). -/
theorem maintBody_bad (hbad : r.bad ≠ []) :
    maintBody inv e c s = .raise v Exc.permission (max (c.sVal e.a9.toNat).toNat (r.bad.foldl min (2 ^ 64))) := by
  obtain ⟨a, as, hcons⟩ := List.exists_cons_of_ne_nil hbad
  have hvalid := not_or.mpr ⟨Bool.eq_false_iff.mp hwin, Nat.not_lt.mpr hlen⟩
  dsimp only [maintPages] at hpages
  simp only [maintBody, withOps_ok hops, if_neg hact, gt_iff_lt, if_neg hvalid, if_neg (Nat.ne_of_gt hpos), hpages, hlost, hcons]

/-- A range that meets no exception is flushed, and by CINV its copies and fetched lines are dropped after (R338). -/
theorem maintBody_range (hbad : r.bad = []) :
    let cores := v.unitCores (e.m 2 3) c.who.core
    let t := v.flushRange r.gran (e.m 2 3) c.who.core
    maintBody false e c s = .next t ∧ ∃ u : State, maintBody true e c s = .next u ∧
      u.mem = (t.dropRanges r.gran (cores.flatMap fun k => (cachePath k).take (scopeDepth (e.m 2 3)))).mem := by
  intro cores t
  have hvalid := not_or.mpr ⟨Bool.eq_false_iff.mp hwin, Nat.not_lt.mpr hlen⟩
  dsimp only [maintPages] at hpages
  simp only [maintBody, withOps_ok hops, if_neg hact, gt_iff_lt, if_neg hvalid, if_neg (Nat.ne_of_gt hpos), hpages, hlost, hbad]
  refine ⟨rfl, _, rfl, (foldl_keeps (·.mem) _ (fun s k => s.updCore_mem k _) _ _).trans ?_⟩
  rw [State.dropRanges, List.foldl_flatMap]
  rfl

end
end
end

/-- CFLUSH and CINV are one body, CINV's with the drop. -/
theorem exec_maint {i : Instr} (h : i = .cflush e ∨ i = .cinv e) : ∃ inv, exec i = runWave i (some e) (maintBody inv e) := by
  obtain rfl | rfl := h
  · exact ⟨false, rfl⟩
  · exact ⟨true, rfl⟩

/-- Settles O25: the fences and PREF by their bodies, CFLUSH and CINV by their range, which CINV leaves without copies. -/
theorem fencesAndCacheMaintenance : Obligations.FencesAndCacheMaintenance := by
  intro e s c u scope
  refine ⟨?fence, ?fenceo, ?fencer, ?noLane, ?pref, ?maint⟩
  case fence =>
    intro hi hact hquiet
    have hquiet' : ¬u.hasReqs c.w.id.handle = true := Bool.eq_false_iff.mp hquiet
    exact runWave_next hi ((if_neg hact).trans (if_neg hquiet'))
  case fenceo =>
    intro sc hi
    refine runWave_next hi ?_
    rw [fenceoBody]
    exact (apply_ite Res.next _ _ _).symm
  case fencer =>
    intro hi hact hquiet hk cores cut hopen
    refine runWave_next hi (fencerBody_cut (s := u) hact (.inr hquiet) ?_)
    rw [if_pos hk]
    exact hopen
  case noLane =>
    rintro i (rfl | rfl) hi hact
    · exact runWave_next hi (if_pos hact)
    · exact runWave_next hi (if_pos hact)
  case pref => exact fun hi hops => runWave_next hi (withOps_ok hops)
  case maint =>
    intro b ops len base i hform hi hops
    obtain ⟨inv, hexec⟩ := exec_maint hform
    refine ⟨fun h => ?idle, fun hact h => ?invalid, ?range⟩
    case idle =>
      rw [hexec]
      exact runWave_next hi (maintBody_idle hops inv h)
    case invalid =>
      rw [hexec]
      exact runWave_raise hi (maintBody_invalid hops inv hact h)
    intro hact hwin hpos hlen lo hi' u₁ pages r v cores units v' t hlost
    have hpages : maintPages e c u = (r, v) := rfl
    refine ⟨?flush, ?inv, fun hbad => ?bad⟩
    case bad =>
      rw [hexec]
      exact runWave_raise hi (maintBody_bad hops inv hact hwin hpos hlen hpages hlost hbad)
    case flush =>
      rintro hbad rfl
      exact runWave_next hi (maintBody_range hops hact hwin hpos hlen hpages hlost hbad).1
    case inv =>
      rintro hbad rfl
      obtain ⟨-, w, hbody, hmem⟩ := maintBody_range hops hact hwin hpos hlen hpages hlost hbad
      refine ⟨w, runWave_next hi hbody, ?_, fun k hk x hx g hg => ?_⟩
      · rw [hmem, State.dropRanges_hbm]
        rfl
      · rw [State.copy?_of_copies (congrArg (·.copies) hmem)]
        exact State.copy?_dropRanges _ (List.mem_flatMap.mpr ⟨k, hk, hx⟩) (inRange_iff.mpr hg)

end Sys2Proof.Machine
end

-- ==== Entries of the object table; O37 ====
section
/-!
The object table as handles name it: a freed entry, and every entry once the expiries that are due have happened (R222, R239).
-/

namespace Sys2Proof.Machine

variable {s : State}

/-- The index of a handle made of an entry is the entry's (R220). -/
theorem hIndex_mkHandle {i : Nat} (hi : i < 2 ^ 20) (type : Nat) (gen : BitVec 8) : hIndex (mkHandle type gen i) = i := by
  unfold hIndex mkHandle
  rw [BitVec.extractLsb'_append_eq_right, BitVec.toNat_ofNat, Nat.mod_eq_of_lt hi]

/-- A free entry is named by no handle (R222). -/
theorem State.named_of_free {h : BitVec 32} {o : Obj} (ho : s.obj? (hIndex h) = some o) (hfree : o.body = .free) :
    s.named h = none := by
  simp [State.named, ho, hfree, Body.type]

theorem State.obj?_freeObj {i : Nat} {o : Obj} (ho : s.obj? i = some o) :
    (s.freeObj i).obj? i = some { o with gen := o.gen + 1, owner := 0, state := 0, tdi := 0, body := .free } := by
  simp [State.freeObj, ho]

/-- Settles O37: the entry stays free until it is made anew, and its generation tells handles of before apart. -/
theorem freedHandlesNameNothing : Obligations.FreedHandlesNameNothing := by
  intro s i o ho htype hi t
  have hfreed : t.obj? i = some _ := State.obj?_freeObj ho
  refine ⟨⟨_, hfreed, rfl, rfl⟩, ?_, fun k hk => s.obj?_updObj_ne hk _⟩
  exact State.named_of_free (by rwa [hIndex_mkHandle hi]) rfl

/-- An expiry leaves an object's type. -/
theorem Body.type_expired (b : Body) (now : Nat) : (b.expired now).type = b.type := by
  cases b with
  | timer d p n r => simp only [Body.expired]; split <;> rfl
  | _ => rfl

theorem State.obj?_expireDue (s : State) (i : Nat) :
    s.expireDue.obj? i = (s.obj? i).map fun o => { o with body := o.body.expired s.now } :=
  Sparse.get?_map (α := Obj) (f := fun x => (x.1, { x.2 with body := x.2.body.expired s.now })) (fun _ => rfl) i s.kern.objs

/-- A handle names an object as before once the expiries that are due have happened. -/
theorem State.named_expireDue (s : State) (h : BitVec 32) :
    s.expireDue.named h = (s.named h).map fun o => { o with body := o.body.expired s.now } := by
  unfold State.named
  rw [s.obj?_expireDue]
  cases s.obj? (hIndex h) with
  | none => rfl
  | some o =>
    simp only [Option.map_some, Body.type_expired]
    split <;> rfl

theorem State.named_expireDue_none {h : BitVec 32} (hnone : s.named h = none) : s.expireDue.named h = none := by
  rw [s.named_expireDue, hnone]; rfl

end Sys2Proof.Machine
end

-- ==== What a kernel-object instruction does first; O34 ====
section
/-!
What every kernel-object instruction does first: without a lane it only advances, and a handle that names nothing raises OBJECT
(R222, R226, R228, R239).
-/

namespace Sys2Proof.Machine

variable {e : Ext} {s : State} {c : Ctx} {i : Instr} {ops : List OpOk}

/-- What a kernel-object instruction does once it has been issued. -/
def kernelBody : Instr → Ctx → State → Res
  | .wcreate e => wcreateBody e
  | .psend e => psendBody e
  | .precv e => precvBody e
  | .objnew e => objnewBody e
  | .objdel e => objdelBody e
  | .wsadd e => wsaddBody e
  | .wswait e => wswaitBody e
  | .tarm e => timerBody e true
  | .tcancel e => timerBody e false
  | .nslookup e => nslookupBody e
  | _ => fun _ s => .next s

/-- The kernel-object instructions with some fields. -/
def kernelInstrs (e : Ext) : List Instr :=
  [.wcreate e, .psend e, .precv e, .objnew e, .objdel e, .wsadd e, .wswait e, .tarm e, .tcancel e, .nslookup e]

theorem exec_kernel (hi : i ∈ kernelInstrs e) : exec i = runWave i (some e) (kernelBody i) := by
  simp only [kernelInstrs, List.mem_cons, List.not_mem_nil, or_false] at hi
  rcases hi with rfl | rfl | rfl | rfl | rfl | rfl | rfl | rfl | rfl | rfl <;> rfl

/-- With no lane it only advances; a WSWAIT has let what is due expire before (R226, R239). -/
theorem kernelBody_idle (hi : i ∈ kernelInstrs e) (hkern : Claims.kernOf e c i = some ops) (hops : checkOps ops = none)
    (hact : c.act true e.pg e.pn = 0) : kernelBody i c s = .next (if i = .wswait e then s.expireDue else s) := by
  rcases eq_or_ne i (.wswait e) with rfl | hne
  · obtain rfl : ops = _ := (Option.some.inj hkern).symm
    simp only [kernelBody, wswaitBody, withOps_ok hops, if_pos hact, if_true]
  · rw [if_neg hne]
    simp only [kernelInstrs, List.mem_cons, List.not_mem_nil, hne, or_false, false_or] at hi
    rcases hi with rfl | rfl | rfl | rfl | rfl | rfl | rfl | rfl | rfl <;> obtain rfl : ops = _ := (Option.some.inj hkern).symm
    all_goals
      simp only [kernelBody, wcreateBody, psendBody, precvBody, objnewBody, objdelBody, wsaddBody, timerBody, nslookupBody,
        if_pos hact]
      exact withOps_ok hops

/-- A handle that names nothing is refused for reason 1 (R222, R228). -/
theorem State.handleFault_unnamed {h : BitVec 32} (hnone : s.named h = none) (types : List Nat) (field' : Nat) (tdi : Bool) :
    s.handleFault c h types field' tdi = some (1 + 256 * field') := by
  simp only [State.handleFault, hnone]

/-- A refused handle raises OBJECT where the split has not waited on the object (R229). -/
theorem refuse_ready (hwait : c.path.wait = .ready) (why : Nat) : refuse e c s why = .raise s Exc.object why := by
  simp [refuse, Ctx.waited, hwait]

/-- The kernel-object instructions whose first operand is a handle. -/
def handleInstrs (e : Ext) : List Instr := [.psend e, .precv e, .objdel e, .wsadd e, .wswait e, .tarm e, .tcancel e]

/-- A handle that names nothing raises OBJECT with reason 1 in KTADDR (R222, R228). -/
theorem kernelBody_unnamed (hi : i ∈ handleInstrs e) (hkern : Claims.kernOf e c i = some ops) (hops : checkOps ops = none)
    (hact : c.act true e.pg e.pn ≠ 0) (hwait : c.path.wait = .ready) (hnone : s.named (c.handle e.a9.toNat) = none) :
    kernelBody i c s = .raise (if i = .wswait e then s.expireDue else s) Exc.object 1 := by
  have hfault (types : List Nat) (tdi : Bool) : s.handleFault c (c.handle e.a9.toNat) types 0 tdi = some 1 :=
    State.handleFault_unnamed hnone types 0 tdi
  rcases eq_or_ne i (.wswait e) with rfl | hne
  · obtain rfl : ops = _ := (Option.some.inj hkern).symm
    have hdue := State.handleFault_unnamed (c := c) (State.named_expireDue_none hnone) [4] 0 false
    simp only [kernelBody, wswaitBody, withOps_ok hops, if_neg hact, hdue, refuse_ready hwait, if_true]
  · rw [if_neg hne]
    simp only [handleInstrs, List.mem_cons, List.not_mem_nil, hne, or_false, false_or] at hi
    rcases hi with rfl | rfl | rfl | rfl | rfl | rfl <;> obtain rfl : ops = _ := (Option.some.inj hkern).symm
    all_goals
      simp only [kernelBody, psendBody, precvBody, objdelBody, wsaddBody, timerBody, if_neg hact, hfault, refuse_ready hwait,
        Option.orElse_some]
      exact withOps_ok hops

/-- Settles O34: what each body does first, by the instruction. -/
theorem kernelInstructionGuards : Obligations.KernelInstructionGuards := by
  intro e s c i ops hi hkern hissues hops s₀
  refine ⟨fun hact => ?idle, fun hact hhandle hwait hnone => ?unnamed⟩
  all_goals rw [exec_kernel hi]
  case idle => exact runWave_next hissues (kernelBody_idle hi hkern hops hact)
  case unnamed => exact runWave_raise hissues (kernelBody_unnamed hhandle hkern hops hact hwait hnone)

end Sys2Proof.Machine
end

-- ==== Wait sets and timers; O38 ====
section
/-!
WSADD, WSWAIT, TARM and TCANCEL: the member that a wait set answers first, and what each body answers (R229, R238 to R240).
-/

namespace Sys2Proof.Machine

/-! ### The ready member of the earliest time (R239) -/

/-- The earlier of the best so far and the next ready slot, the first on a tie. -/
def earlier (m : Option (Nat × Nat)) (x : Nat × Nat) : Option (Nat × Nat) :=
  match m with
  | none => some x
  | some y => if x.2 < y.2 then some x else some y

/-- The answer to a list of slots with their ready times: the one of the earliest time, the lowest slot on a tie. -/
def EarliestOf (rs : List (Nat × Nat)) : Option (Nat × Nat) → Prop
  | none => rs = []
  | some y => y ∈ rs ∧ ∀ z ∈ rs, y.2 ≤ z.2 ∧ (z.2 = y.2 → y.1 ≤ z.1)

/-- A later slot takes the place of the best so far only with an earlier time. -/
theorem EarliestOf.concat {rs : List (Nat × Nat)} {m : Option (Nat × Nat)} (h : EarliestOf rs m) {x : Nat × Nat}
    (hx : ∀ z ∈ rs, z.1 < x.1) : EarliestOf (rs ++ [x]) (earlier m x) := by
  cases m with
  | none =>
    obtain rfl : rs = [] := h
    simp [earlier, EarliestOf]
  | some y =>
    obtain ⟨hy, hbest⟩ := h
    have hyx := hx y hy
    rw [earlier]
    split
    · refine ⟨by simp, fun z hz => ?_⟩
      rcases List.mem_append.mp hz with hz | hz
      · have := (hbest z hz).1
        omega
      · obtain rfl := List.mem_singleton.mp hz
        omega
    · refine ⟨List.mem_append_left _ hy, fun z hz => ?_⟩
      rcases List.mem_append.mp hz with hz | hz
      · exact hbest z hz
      · obtain rfl := List.mem_singleton.mp hz
        omega

theorem earliestOf_foldl {rs : List (Nat × Nat)} (h : rs.Pairwise fun x y => x.1 < y.1) : EarliestOf rs (rs.foldl earlier none) := by
  induction rs using List.reverseRecOn with
  | nil => rfl
  | append_singleton rs x ih =>
    obtain ⟨hrs, -, hx⟩ := List.pairwise_append.mp h
    rw [List.foldl_append, List.foldl_cons, List.foldl_nil]
    exact (ih hrs).concat fun z hz => hx z hz x (by simp)

/-- The ready slots of a wait set with their times. -/
def State.readySlots (s : State) (ms : List (BitVec 32)) : List (Nat × Nat) :=
  ms.zipIdx.filterMap fun x => (s.memberReady x.1).map fun t => (x.2, t)

theorem State.readyMember_eq (s : State) (ms : List (BitVec 32)) : s.readyMember ms = (s.readySlots ms).foldl earlier none := rfl

theorem State.mem_readySlots {s : State} {ms : List (BitVec 32)} {k t : Nat} :
    (k, t) ∈ s.readySlots ms ↔ ∃ m, ms[k]? = some m ∧ s.memberReady m = some t := by
  simp [State.readySlots, List.mem_zipIdx_iff_getElem?]

theorem State.readySlots_ascend (s : State) (ms : List (BitVec 32)) : (s.readySlots ms).Pairwise fun x y => x.1 < y.1 := by
  have hslots : ms.zipIdx.Pairwise fun x y => x.2 < y.2 := by
    rw [← List.pairwise_map (f := Prod.snd) (R := (· < ·)), List.zipIdx_map_snd]
    exact List.pairwise_lt_range'
  refine hslots.filterMap _ fun x y hxy a ha b hb => ?_
  obtain ⟨t, -, rfl⟩ := Option.map_eq_some_iff.mp ha
  obtain ⟨u, -, rfl⟩ := Option.map_eq_some_iff.mp hb
  exact hxy

/-- The member that a WSWAIT answers is ready, and none is ready earlier, or at the same time in a lower slot (R239). -/
theorem State.readyMember_spec {s : State} {ms : List (BitVec 32)} {k t : Nat} (h : s.readyMember ms = some (k, t)) :
    (∃ m, ms[k]? = some m ∧ s.memberReady m = some t) ∧
      ∀ j m u, ms[j]? = some m → s.memberReady m = some u → t ≤ u ∧ (u = t → k ≤ j) := by
  have hearliest := earliestOf_foldl (s.readySlots_ascend ms)
  rw [← State.readyMember_eq, h] at hearliest
  obtain ⟨hmem, hbest⟩ := hearliest
  exact ⟨State.mem_readySlots.mp hmem, fun j m u hm hu => hbest (j, u) (State.mem_readySlots.mpr ⟨m, hm, hu⟩)⟩

/-! ### The bodies -/

variable {e : Ext} {s : State} {c : Ctx} {o : Obj} {a : BitVec 64} {ms : List (BitVec 32)}

/-- WSADD puts the member into its slot, frees what it replaces where nothing holds it any more, and answers it (R238, R435). -/
theorem wsaddBody_adds (hops : checkOps [sDst c e.d9.toNat, sRun c e.a9.toNat, sRun c e.b9.toNat] = none)
    (hact : c.act true e.pg e.pn ≠ 0) (hset : s.handleFault c (c.handle e.a9.toNat) [4] 0 false = none)
    (hnamed : s.named (c.handle e.a9.toNat) = some o) (hbody : o.body = .wset a ms) :
    let h := c.handle e.a9.toNat
    let m := if e.b9.toNat = 320 then 0 else c.handle e.b9.toNat
    (e.b9.toNat ≠ 320 → s.rport? m = none ∧ s.handleFault c m [2, 3, 5] 1 false = none) →
    let old := ms.getD (e.m 0 6) 0
    let u := s.setMembers h (updAt (fun _ => m) (e.m 0 6) ms)
    wsaddBody e c s = .nextR (Claims.answer e c (if old = m then u else u.freeEnded old) (kernResult 0 0 old.toNat)) := by
  intro h m hmember old u
  obtain ⟨gen, owner, st, tdi, body⟩ := o
  cases hbody
  have hok : (if e.b9.toNat = 320 then none else if (s.rport? m).isSome then some (7 + 256)
      else s.handleFault c m [2, 3, 5] 1 false) = none := by
    split
    · rfl
    · next hb =>
      obtain ⟨hlocal, hfault⟩ := hmember hb
      rw [hlocal, hfault]
      rfl
  simp only [m] at hok
  simp only [wsaddBody, withOps_ok hops, if_neg hact, hset, Option.orElse_none, hok, hnamed, kernDone_eq]
  rfl

section
variable (hops : checkOps [sDst c e.d9.toNat, sRun c e.a9.toNat] = none) (hact : c.act true e.pg e.pn ≠ 0)
  (hset : s.expireDue.handleFault c (c.handle e.a9.toNat) [4] 0 false = none)
  (hnamed : s.expireDue.named (c.handle e.a9.toNat) = some o) (hbody : o.body = .wset a ms)
include hops hact hset hnamed hbody

/-- A WSWAIT behind an earlier waiter waits though a member is ready (R229). -/
theorem wswaitBody_behind {k t : Nat} (hready : s.expireDue.readyMember ms = some (k, t))
    (hfirst : s.expireDue.firstInLine c .wset (c.handle e.a9.toNat) [] = false) :
    wswaitBody e c s = .wait (s.expireDue.waitOn c (.wswait e)) := by
  obtain ⟨gen, owner, st, tdi, body⟩ := o
  cases hbody
  simp only [wswaitBody, withOps_ok hops, if_neg hact, hset, hnamed, hready, hfirst, Bool.false_eq_true, if_false]

/-- With no member ready a WSWAIT answers status 1 where it is asked not to wait, else it waits (R229, R239). -/
theorem wswaitBody_none (hready : s.expireDue.readyMember ms = none) :
    wswaitBody e c s = if e.m 0 1 = 1 then .nextR (Claims.answer e c s.expireDue (kernResult 1 0 0))
      else .wait (s.expireDue.waitOn c (.wswait e)) := by
  obtain ⟨gen, owner, st, tdi, body⟩ := o
  cases hbody
  simp only [wswaitBody, withOps_ok hops, if_neg hact, hset, hnamed, hready, kernDone_eq]

end

/-- TARM and TCANCEL, after an expiry of the same tick, answer the pending count, clear it, and give the timer its new deadline,
none for a TCANCEL (R240). -/
theorem timerBody_answers {arm : Bool} {d p n r : Nat}
    (hops : checkOps ([sDst c e.d9.toNat, sRun c e.a9.toNat] ++ if arm then [sRun c e.b9.toNat, sRun c e.c9.toNat] else []) = none)
    (hact : c.act true e.pg e.pn ≠ 0) (htimer : s.handleFault c (c.handle e.a9.toNat) [5] 0 false = none)
    (hnamed : (s.expire (hIndex (c.handle e.a9.toNat))).named (c.handle e.a9.toNat) = some o) (hbody : o.body = .timer d p n r) :
    let h := c.handle e.a9.toNat
    let due := if arm then (c.sVal e.b9.toNat).toNat else 2 ^ 64 - 1
    timerBody e arm c s = .nextR (Claims.answer e c ((s.expire (hIndex h)).updObj (hIndex h) fun o =>
      { o with body := .timer (if due ≤ s.now then s.now + 1 else due) (if arm then (c.sVal e.c9.toNat).toNat else p) 0 0 })
      (kernResult 0 0 n)) := by
  obtain ⟨gen, owner, st, tdi, body⟩ := o
  cases hbody
  simp only [timerBody, withOps_ok hops, if_neg hact, htimer, hnamed, kernDone_eq]
  rfl

/-- Settles O38: the earliest ready member, then the four bodies. -/
theorem waitSetsAndTimers : Obligations.WaitSetsAndTimers := by
  refine ⟨fun s ms k t h => State.readyMember_spec h, ?_⟩
  intro e s c hact s₀ h
  refine ⟨?wsadd, ?wswait, ?timer⟩
  case wsadd =>
    intro o a ms hissues hops m hset hnamed hbody hmember old u
    exact runWave_nextR hissues (wsaddBody_adds hops hact hset hnamed hbody hmember)
  case wswait =>
    intro o a ms hissues hops s₁ hset hnamed hbody
    refine ⟨fun k t hfirst hready => ?_, fun k t hfirst hready => ?_, fun hready => ?_⟩
    · exact runWave_nextR hissues (wswaitBody_ready hops hact hset hnamed hbody hready hfirst)
    · exact runWave_wait hissues (wswaitBody_behind hops hact hset hnamed hbody hready hfirst)
    · exact runWave_nextR_or_wait hissues (wswaitBody_none hops hact hset hnamed hbody hready)
  case timer =>
    intro i arm o d p n r hi hissues hops htimer hnamed hbody due
    rcases hi with ⟨rfl, rfl⟩ | ⟨rfl, rfl⟩
    · exact runWave_nextR hissues (timerBody_answers hops hact htimer hnamed hbody)
    · exact runWave_nextR hissues (timerBody_answers hops hact htimer hnamed hbody)

end Sys2Proof.Machine
end

-- ==== Port messages; O35 ====
section
/-!
PSEND and PRECV: the message queued with its grants, the oldest one taken with them, and the answers and waits of a full or an
empty port (R229, R234, R235).
-/

namespace Sys2Proof.Machine

variable {e : Ext} {s : State} {c : Ctx} {i : Instr} {ops : List OpOk} {cap : Nat} {st : BitVec 64} {ms : List Msg} {rs : List RemoteSender}

/-! ### PSEND -/

/-- A message with its grants at the tail of a port: the pages have been taken from the sender, what the wave has written before
is released, and remote senders are served (R204, R234). -/
def State.sent (v : State) (c : Ctx) (h : BitVec 32) (msg : List Byte) (gs : List (Nat × Nat)) (ms : List Msg)
    (rs : List RemoteSender) : State :=
  let p := c.process v
  let u := (v.orderAtomn c true [] 0).releaseBy (c.space v) 4
  let u := u.takePages (v.rootAt (hIndex p)) (match u.process? p with | some (x, _, _, _) => x | none => 0) gs
  let u := u.setPort h (ms ++ [⟨u.now, slotBytes msg (hIndex p) gs⟩]) rs
  u.serveRemote 64 h

/-- What a PSEND does at a port of this device once it has read its message and its grants, which may be given (R229, R234). -/
def sendStep (e : Ext) (c : Ctx) (v : State) (h : BitVec 32) (msg : List Byte) (gs : List (Nat × Nat)) (cap : Nat) (ms : List Msg)
    (rs : List RemoteSender) : Res :=
  if cap ≤ ms.length && e.m 0 1 = 1 then kernDone e c v (kernResult 1 0 0)
  else if cap ≤ ms.length || !v.firstInLine c .send h rs then .wait (v.waitOn c (.psend e))
  else if v.hasReqs c.w.id.handle then .wait (v.waitOn c (.psend e))
  else kernDone e c (v.sent c h msg gs ms rs) (kernResult 0 0 0)

/-- With what it reads all read and its grants in order, a PSEND to a port of this device comes to `sendStep` (R234). -/
theorem psendBody_read {vals : List (Nat × Nat)} {v : State} {gs : List (Nat × Nat)}
    (hkern : Claims.kernOf e c (.psend e) = some ops) (hops : checkOps ops = none) (hact : c.act true e.pg e.pn ≠ 0)
    (halign : (c.sVal e.b9.toNat).toNat % 64 = 0) (halign' : e.m 1 3 ≠ 0 → (c.sOr e.c9.toNat).toNat % 16 = 0)
    (hhandle : s.handleFault c (c.handle e.a9.toNat) [3, 7] 0 true = none) (hlocal : s.rport? (c.handle e.a9.toNat) = none)
    (hposted : Claims.posted c 0 (((c.sVal e.b9.toNat).toNat, 64) ::
      (if e.m 1 3 = 0 then [] else [((c.sOr e.c9.toNat).toNat, 16 * e.m 1 3)])) s = (.ok vals, v)) :
    let h := c.handle e.a9.toNat
    let v := v.dropEngReqs c.w.id.handle (c.who.half + 2)
    v.rport? h = none → v.port? h = some (cap, st, ms, rs) →
    grantsOf (granBytes vals (c.sOr e.c9.toNat).toNat (16 * e.m 1 3)) (e.m 1 3) = some gs →
    v.grantsOk (v.rootAt (hIndex (c.process v))) gs = true →
    psendBody e c s = sendStep e c v h (granBytes vals (c.sVal e.b9.toNat).toNat 64) gs cap ms rs := by
  intro h v' hrport hport hgrants hok
  obtain rfl : ops = _ := (Option.some.inj hkern).symm
  have hgt : ¬(e.m 1 3 ≠ 0 ∧ (c.sOr e.c9.toNat).toNat % 16 ≠ 0) := fun ⟨hn, hbad⟩ => hbad (halign' hn)
  simp only [h, v'] at hrport hport hok
  simp only [psendBody, if_neg hact, hhandle, hlocal, halign]
  rw [withOps_ok hops, if_neg (by simp), if_neg (by simpa using hgt), postRead_of_posted hposted]
  simp only [hrport, hport, hgrants, hok, Bool.not_true, Bool.false_eq_true, if_false]
  rfl

section
variable {v : State} {h : BitVec 32} {msg : List Byte} {gs : List (Nat × Nat)}

/-- A full port answers status 1 where the PSEND is asked not to wait, else the split waits (R234). -/
theorem sendStep_full (hfull : cap ≤ ms.length) : sendStep e c v h msg gs cap ms rs =
    if e.m 0 1 = 1 then .nextR (Claims.answer e c v (kernResult 1 0 0)) else .wait (v.waitOn c (.psend e)) := by
  by_cases hnb : e.m 0 1 = 1 <;> simp [sendStep, hfull, hnb, kernDone_eq]

/-- A PSEND waits behind an earlier waiter (R229). -/
theorem sendStep_behind (hroom : ms.length < cap) (hfirst : v.firstInLine c .send h rs = false) :
    sendStep e c v h msg gs cap ms rs = .wait (v.waitOn c (.psend e)) := by
  simp [sendStep, hroom, hfirst]

/-- A PSEND that is first in line queues its message where there is room and its wave's requests are answered (R206, R234). -/
theorem sendStep_room (hroom : ms.length < cap) (hfirst : v.firstInLine c .send h rs = true)
    (hquiet : v.hasReqs c.w.id.handle = false) :
    sendStep e c v h msg gs cap ms rs = .nextR (Claims.answer e c (v.sent c h msg gs ms rs) (kernResult 0 0 0)) := by
  simp [sendStep, Nat.not_le.mpr hroom, hfirst, hquiet, kernDone_eq]

end

/-! ### PRECV -/

section
variable (hkern : Claims.kernOf e c (.precv e) = some ops) (hops : checkOps ops = none) (hact : c.act true e.pg e.pn ≠ 0)
  (halign : (c.sVal e.b9.toNat).toNat % 64 = 0) (hhandle : s.handleFault c (c.handle e.a9.toNat) [3, 7] 0 false = none)
include hkern hops hact halign hhandle

/-- An empty port answers status 1 where the PRECV is asked not to wait, else the split waits (R235). -/
theorem precvBody_empty (hport : s.port? (c.handle e.a9.toNat) = some (cap, st, [], rs)) :
    precvBody e c s = if e.m 0 1 = 1 then .nextR (Claims.answer e c s (kernResult 1 0 0)) else .wait (s.waitOn c (.precv e)) := by
  obtain rfl : ops = _ := (Option.some.inj hkern).symm
  simp only [precvBody, if_neg hact, hhandle, hport, if_neg (not_not.2 halign), kernDone_eq]
  exact withOps_ok hops

/-- A PRECV waits behind an earlier waiter (R229). -/
theorem precvBody_behind (hport : s.port? (c.handle e.a9.toNat) = some (cap, st, ms, rs)) (hms : ms ≠ [])
    (hfirst : s.firstInLine c .recv (c.handle e.a9.toNat) [] = false) : precvBody e c s = .wait (s.waitOn c (.precv e)) := by
  obtain rfl : ops = _ := (Option.some.inj hkern).symm
  obtain ⟨m, rest, rfl⟩ := List.exists_cons_of_ne_nil hms
  simp only [precvBody, if_neg hact, hhandle, hport, if_neg (not_not.2 halign), hfirst, Bool.not_false, if_true]
  exact withOps_ok hops

end

/-- The mapping of a message's pages asks the League for nothing. -/
theorem State.movePages_league (s : State) (ms : List (List (Nat × Nat × Nat))) : (s.movePages ms).league = s.league := by
  unfold State.movePages
  refine foldl_keeps (·.league) _ (fun t m => ?_) _ _
  exact (foldl_keeps (·.league) _ (fun u x => u.setNum_league ..) _ _).trans
    (foldl_keeps (·.league) _ (fun u x => u.setNum_league ..) _ _)

/-- A PRECV that is first in line maps the oldest message's grants, writes the message, and takes it off the port (R235). -/
theorem precvBody_takes {m : Msg} {rest : List Msg} {vals r : List (Nat × Nat)} {v u : State} {moves : List (List (Nat × Nat × Nat))}
    (hkern : Claims.kernOf e c (.precv e) = some ops) (hops : checkOps ops = none) (hact : c.act true e.pg e.pn ≠ 0)
    (halign : (c.sVal e.b9.toNat).toNat % 64 = 0) (hhandle : s.handleFault c (c.handle e.a9.toNat) [3, 7] 0 false = none)
    (hport : s.port? (c.handle e.a9.toNat) = some (cap, st, m :: rest, rs))
    (hfirst : s.firstInLine c .recv (c.handle e.a9.toNat) [] = true) (htable : m.grants.length ≠ 0 → e.c9.toNat ≠ 0)
    (hreqs : ∀ q ∈ s.league.reqs, q.of c.w.id.handle (c.who.half + 4) c.path.mask = false)
    (hposted : Claims.posted c 0 (if m.grants.length = 0 then [] else [((c.sOr e.c9.toNat).toNat, 8 * m.grants.length)]) s =
      (.ok vals, v)) :
    let v := v.dropEngReqs c.w.id.handle (c.who.half + 2)
    v.allMoves m (v.rootAt (hIndex (c.process v)))
      ((List.range m.grants.length).map fun j => leNat (granBytes vals ((c.sOr e.c9.toNat).toNat + 8 * j) 8)) = some moves →
    let v := v.movePages moves
    v.storePieces (c.space v) c.w.id.handle (c.who.half + 4) ((lowest c.path.mask).getD 0) 0
      (piecesOf (c.sVal e.b9.toNat).toNat (m.bytes.take 64)) = (.ok r, u) →
    precvBody e c s = .nextR (Claims.answer e c
      (((u.setPort (c.handle e.a9.toNat) rest rs).serveRemote 64 (c.handle e.a9.toNat)).acquire c.who.core 4)
      (kernResult 0 0 m.grants.length)) := by
  intro v₁ hmoves v₂ hstored
  obtain rfl : ops = _ := (Option.some.inj hkern).symm
  have hposted_reqs : ∀ q ∈ v.league.reqs, q.of c.w.id.handle (c.who.half + 4) c.path.mask = false := by
    rwa [Claims.posted_ok_league hposted]
  have hreqs₂ : ∀ q ∈ v₂.league.reqs, q.of c.w.id.handle (c.who.half + 4) c.path.mask = false := by
    rw [State.movePages_league]
    exact State.of_giveUp_false hposted_reqs
  have htable' : ¬(m.grants.length ≠ 0 ∧ e.c9.toNat = 0) := fun ⟨hk, hg⟩ => htable hk hg
  simp only [precvBody, if_neg hact, hhandle, hport, if_neg (not_not.2 halign), hfirst, Bool.not_true, Bool.false_eq_true, if_false]
  rw [withOps_ok hops, if_neg (by simpa using htable'), postRead_of_posted hposted]
  simp only [v₁] at hmoves
  simp only [hmoves]
  exact storeAt_of_stored hreqs₂ hstored _ _

/-- Settles O35: PSEND by what `sendStep` finds, PRECV by its three ends. -/
theorem portMessages : Obligations.PortMessages := by
  intro e s c hact s₀ half quiet h at' gt halign
  refine ⟨?psend, ?precv⟩
  case psend =>
    intro ops vals v cap st ms rs gs hissues hkern hops hhandle hlocal n halign' hposted v' hrport hport hgrants p hok
    have hbody := psendBody_read hkern hops hact halign halign' hhandle hlocal hposted hrport hport hgrants hok
    refine ⟨fun hroom hfirst hquiet => ?_, fun hfull => ?_, fun hroom hfirst => ?_⟩
    · have hreqs : v'.hasReqs c.w.id.handle = false :=
        State.hasReqs_dropEngReqs ((State.hasReqs_congr (Claims.posted_ok_league hposted) _).trans hquiet) _ _
      exact runWave_nextR hissues (hbody.trans (sendStep_room hroom hfirst hreqs))
    · exact runWave_nextR_or_wait hissues (hbody.trans (sendStep_full hfull))
    · exact runWave_wait hissues (hbody.trans (sendStep_behind hroom hfirst))
  case precv =>
    intro ops cap st ms rs hissues hkern hops hhandle hport
    refine ⟨fun hms => ?_, fun hms hfirst => ?_, ?_⟩
    · subst hms
      exact runWave_nextR_or_wait hissues (precvBody_empty hkern hops hact halign hhandle hport)
    · exact runWave_wait hissues (precvBody_behind hkern hops hact halign hhandle hport hms hfirst)
    · intro m rest vals v moves r u hms hfirst k htable hreqs hposted v₁ hmoves v₂ hstored u'
      subst hms
      exact runWave_nextR hissues
        (precvBody_takes hkern hops hact halign hhandle hport hfirst htable hreqs hposted hmoves hstored)

end Sys2Proof.Machine
end

-- ==== Objects made and deleted; O36 ====
section
/-!
WCREATE, OBJNEW and OBJDEL: the wave or the object made, and what becomes of one deleted (R230, R236, R237, R397, R398).
-/

namespace Sys2Proof.Machine

variable {e : Ext} {s : State} {c : Ctx} {ops : List OpOk}

/-! ### WCREATE -/

/-- The wave that a template gives (R230, R434). -/
def templateWave (c : Ctx) (s : State) (t : List Byte) : NewWave :=
  let sc := BitVec.ofNat 32 (field t 64 4)
  let place := bits (field t 68 1) 5 4
  { proc := c.process s
    sc := if sc = 0 then (if c.w.priv then (s.core c.who.core).ctl.ksc else c.w.id.sc) else sc
    entry := BitVec.ofNat 64 (field t 0 8)
    args := (List.range 7).map fun k => BitVec.ofNat 64 (field t (8 + 8 * k) 8)
    hold := BitVec.ofNat 4 (bits (field t 68 1) 3 0)
    placement := BitVec.ofNat 2 place
    cluster := s.homeCluster c.who.core place
    core := c.who.core
    kind := .single
    handles := none }

/-- The reason a template's scheduling context is refused: 0 stands for the caller's, any other names one (R230). -/
def State.contextFault (s : State) (sc : BitVec 32) : Option Nat :=
  if sc = 0 then none else match s.named sc with
    | none => some (1 + 256 * 3)
    | some o => if o.body.type = 6 then none else some (2 + 256 * 3)

/-- A WCREATE whose template is in order makes its wave, or answers status 2 with the object table full, once its wave's requests
are answered (R206, R230). -/
theorem wcreateBody_makes {vals : List (Nat × Nat)} {v : State}
    (hops : checkOps [sDst c e.d9.toNat, sRun c e.a9.toNat] = none) (hact : c.act true e.pg e.pn ≠ 0)
    (halign : (c.sVal e.a9.toNat).toNat % 16 = 0) (hquiet : s.hasReqs c.w.id.handle = false)
    (hposted : Claims.posted c 0 [((c.sVal e.a9.toNat).toNat, 80)] s = (.ok vals, v)) :
    let v := v.dropEngReqs c.w.id.handle (c.who.half + 2)
    let t := granBytes vals (c.sVal e.a9.toNat).toNat 80
    field t 0 8 % 64 = 0 → bits (field t 68 1) 7 6 = 0 → field t 69 11 = 0 →
    (BitVec.ofNat 32 (field t 64 4) ≠ 0 → ∃ o, v.named (BitVec.ofNat 32 (field t 64 4)) = some o ∧ o.body.type = 6) →
    let u := (v.orderAtomn c true [] 0).releaseBy (c.space v) 4
    wcreateBody e c s = .nextR (match u.makeWave (templateWave c u t) with
      | some (h, u) => Claims.answer e c u (kernResult 0 0 h.toNat)
      | none => Claims.answer e c u (kernResult 2 0 0)) := by
  intro v' t hentry hres hzero hsc u
  have hreqs : v'.hasReqs c.w.id.handle = false :=
    State.hasReqs_dropEngReqs ((State.hasReqs_congr (Claims.posted_ok_league hposted) _).trans hquiet) _ _
  have hcontext : v'.contextFault (BitVec.ofNat 32 (field t 64 4)) = none := by
    unfold State.contextFault
    split
    · rfl
    · next hne =>
      obtain ⟨o, ho, htype⟩ := hsc hne
      simp only [ho, htype, if_true]
  simp only [wcreateBody, withOps_ok hops, if_neg hact, if_neg (not_not.2 halign)]
  rw [postRead_of_posted hposted, if_neg (by simpa [t] using ⟨⟨hentry, hres⟩, hzero⟩)]
  split
  · next why hbad => exact absurd (hcontext.symm.trans hbad) (Option.some_ne_none why).symm
  · rw [quietly, hreqs, if_neg Bool.false_ne_true]
    change (match u.makeWave (templateWave c u t) with
      | none => kernDone e c u (kernResult 2 0 0)
      | some (h, u) => kernDone e c u (kernResult 0 0 h.toNat)) = _
    cases u.makeWave (templateWave c u t) <;> rfl

/-! ### OBJNEW -/

/-- The body of an object that OBJNEW makes at an index (R398). -/
def newBody (e : Ext) (c : Ctx) (s : State) (n : Nat) : Body :=
  let st := BitVec.ofNat 64 (s.kern.entryBase.toNat + 8192 * n)
  if e.m 0 4 = 3 then .port (c.sOr e.a9.toNat).toNat st (c.sOr e.b9.toNat) [] []
  else if e.m 0 4 = 4 then .wset st (List.replicate 64 0)
  else .timer (2 ^ 64 - 1) 0 0 0

/-- An object made at the lowest free index is its caller's process's, in the generation of its entry (R222, R398). -/
theorem State.newObj_of_free {n : Nat} (hfree : s.freeIndex = some n) (body : Nat → Body) :
    let gen := ((s.obj? n).map (·.gen)).getD 0
    s.newObj c body = some (mkHandle (body n).type gen n,
      s.setObj n ⟨gen, BitVec.ofNat 20 (hIndex (c.process s)), 0, ((s.named (c.process s)).map (·.tdi)).getD 0xFF, body n⟩) := by
  simp only [State.newObj, hfree, Option.map_some]

/-- A name listed with the port that has it (R237). -/
def State.bindName (s : State) (name : BitVec 64) (h : BitVec 32) : State :=
  { s with kern := { s.kern with names := s.kern.names ++ [(name, h)] } }

/-- A name listed leaves the objects and memory alone. -/
theorem State.bindName_ite (p : Prop) [Decidable p] (s : State) (name : BitVec 64) (h : BitVec 32) :
    (∀ k, (if p then s.bindName name h else s).obj? k = s.obj? k) ∧ (if p then s.bindName name h else s).mem = s.mem := by
  split <;> exact ⟨fun _ => rfl, rfl⟩

/-- OBJNEW of a port in its ranges with a name that is free, of a wait set or of a timer makes it at the lowest free index (R398). -/
theorem objnewBody_makes {n : Nat} (hkern : Claims.kernOf e c (.objnew e) = some ops) (hops : checkOps ops = none)
    (hact : c.act true e.pg e.pn ≠ 0)
    (hport : e.m 0 4 = 3 → 1 ≤ (c.sOr e.a9.toNat).toNat ∧ (c.sOr e.a9.toNat).toNat ≤ 64 ∧
      (c.sOr e.b9.toNat ≠ 0 → bits (c.sOr e.b9.toNat).toNat 63 55 = s.peer.toNat ∧ ∀ x ∈ s.kern.names, x.1 ≠ c.sOr e.b9.toNat))
    (hfree : s.freeIndex = some n) :
    let gen := ((s.obj? n).map (·.gen)).getD 0
    let h := mkHandle (newBody e c s n).type gen n
    let tdi := ((s.named (c.process s)).map (·.tdi)).getD 0xFF
    let u := s.setObj n ⟨gen, BitVec.ofNat 20 (hIndex (c.process s)), 0, tdi, newBody e c s n⟩
    objnewBody e c s = .nextR (Claims.answer e c
      (if e.m 0 4 = 3 ∧ c.sOr e.b9.toNat ≠ 0 then u.bindName (c.sOr e.b9.toNat) h else u) (kernResult 0 0 h.toNat)) := by
  intro gen h tdi u
  obtain rfl : ops = _ := (Option.some.inj hkern).symm
  have hcap : ¬(e.m 0 4 = 3 ∧ ((c.sOr e.a9.toNat).toNat < 1 ∨ 64 < (c.sOr e.a9.toNat).toNat)) := by
    rintro ⟨ht, hbad⟩
    obtain ⟨hlo, hhi, -⟩ := hport ht
    omega
  have hpeer : ¬((e.m 0 4 = 3 ∧ c.sOr e.b9.toNat ≠ 0) ∧ bits (c.sOr e.b9.toNat).toNat 63 55 ≠ s.peer.toNat) := by
    rintro ⟨⟨ht, hname⟩, hbad⟩
    obtain ⟨-, -, hnamed⟩ := hport ht
    exact hbad (hnamed hname).1
  have hnew : ¬((e.m 0 4 = 3 ∧ c.sOr e.b9.toNat ≠ 0) ∧ ∃ x ∈ s.kern.names, x.1 = c.sOr e.b9.toNat) := by
    rintro ⟨⟨ht, hname⟩, x, hx, hsame⟩
    obtain ⟨-, -, hnamed⟩ := hport ht
    exact (hnamed hname).2 x hx hsame
  have hmade := State.newObj_of_free (c := c) hfree (newBody e c s)
  unfold objnewBody
  dsimp only
  rw [withOps_ok hops, if_neg hact, if_neg (by simpa using hcap), if_neg (by simpa using hpeer)]
  split
  · next hnone => exact absurd (hmade.symm.trans hnone) (Option.some_ne_none _)
  · next h' u' hsome =>
    obtain ⟨rfl, rfl⟩ := Prod.mk.inj (Option.some.inj (hmade.symm.trans hsome))
    rw [if_neg (by simpa using hnew)]
    simp only [Bool.and_eq_true, decide_eq_true_eq]
    rfl

/-! ### OBJDEL -/

/-- What an OBJDEL does to an object by what it holds (R236, R397). -/
def deleteStep (e : Ext) (c : Ctx) (s : State) (h : BitVec 32) : Body → Res
  | .port .. => kernDone e c (s.closePort h) (kernResult 0 0 0)
  | .wset _ ms => kernDone e c (ms.foldl State.freeEnded ((s.closeWaits .wset h).freeObj (hIndex h))) (kernResult 0 0 0)
  | .wave _ _ _ _ _ none _ => kernDone e c s (kernResult 7 0 0)
  | .rport .. => kernDone e c (s.freeObj (hIndex h)) (kernResult 0 0 0)
  | _ => kernDone e c ((s.leaveSets h).freeObj (hIndex h)) (kernResult 0 0 0)

theorem objdelBody_named {o : Obj} (hops : checkOps [sDst c e.d9.toNat, sRun c e.a9.toNat] = none) (hact : c.act true e.pg e.pn ≠ 0)
    (hhandle : s.handleFault c (c.handle e.a9.toNat) [2, 3, 4, 5, 7] 0 false = none)
    (hnamed : s.named (c.handle e.a9.toNat) = some o) : objdelBody e c s = deleteStep e c s (c.handle e.a9.toNat) o.body := by
  simp only [objdelBody, withOps_ok hops, if_neg hact, hhandle, hnamed]
  rfl

section
variable {h : BitVec 32} {b : Body}

/-- A timer, or a wave that has ended, leaves the wait sets and is freed. -/
theorem deleteStep_frees (hb : b.type = 5 ∨ ∃ a r at' im id k t, b = .wave a r at' im id (some k) t) :
    deleteStep e c s h b = .nextR (Claims.answer e c ((s.leaveSets h).freeObj (hIndex h)) (kernResult 0 0 0)) := by
  rcases hb with htype | ⟨a, r, at', im, id, k, t, rfl⟩
  · cases b with
    | timer d p n r => rfl
    | _ => simp [Body.type] at htype
  · rfl

theorem deleteStep_rport (hb : b.type = 7) :
    deleteStep e c s h b = .nextR (Claims.answer e c (s.freeObj (hIndex h)) (kernResult 0 0 0)) := by
  cases b with
  | rport q r n => rfl
  | _ => simp [Body.type] at hb

theorem deleteStep_port (hb : b.type = 3) :
    deleteStep e c s h b = .nextR (Claims.answer e c (s.closePort h) (kernResult 0 0 0)) := by
  cases b with
  | port cap st name ms rs => rfl
  | _ => simp [Body.type] at hb

end

/-- Settles O36: the wave of the template, the object at the lowest free index, and each kind of object deleted. -/
theorem objectCreationAndDeletion : Obligations.ObjectCreationAndDeletion := by
  refine ⟨?wcreate, fun e s c hact => ?_⟩
  case wcreate =>
    intro e s c vals v hissues hops hact s₀ half at' halign hquiet hposted v' t sc place hentry hres hzero hsc u n
    refine (runWave_nextR hissues
      (wcreateBody_makes (s := s₀) hops hact halign hquiet hposted hentry hres hzero hsc)).trans ?_
    change Host.Outcome.next (endedRegion _ _ c s (match u.makeWave n with
      | some (h, u) => Claims.answer e c u (kernResult 0 0 h.toNat)
      | none => Claims.answer e c u (kernResult 2 0 0))) = _
    cases u.makeWave n <;> rfl
  intro s₀ h
  refine ⟨?objnew, ?objdel⟩
  case objnew =>
    intro ops n hissues hkern hops t cap name hport hfree gen st body handle
    have hbody := objnewBody_makes (s := s₀) hkern hops hact hport hfree
    refine ⟨_, runWave_nextR hissues hbody, ?_⟩
    obtain ⟨hobjs, hmem⟩ := State.bindName_ite (e.m 0 4 = 3 ∧ c.sOr e.b9.toNat ≠ 0) (s₀.setObj n _) (c.sOr e.b9.toNat) _
    exact ⟨⟨_, (hobjs n).trans (s₀.obj?_setObj n _), rfl, rfl, BitVec.toNat_ofNat _ _⟩,
      fun k hk => (hobjs k).trans (s₀.obj?_setObj_ne hk _), hmem⟩
  case objdel =>
    intro o hissues hops hhandle hnamed
    have hbody := objdelBody_named hops hact hhandle hnamed
    refine ⟨fun a r at' im id t ho => ?_, fun ho => ?_, fun ho => ?_, fun ho => ?_, fun a ms ho => ?_⟩
    · exact runWave_nextR hissues (by rw [hbody, ho]; rfl)
    · exact runWave_nextR hissues (hbody.trans (deleteStep_frees ho))
    · exact runWave_nextR hissues (hbody.trans (deleteStep_rport ho))
    · exact runWave_nextR hissues (hbody.trans (deleteStep_port ho))
    · exact runWave_nextR hissues (by rw [hbody, ho]; rfl)

end Sys2Proof.Machine
end

-- ==== Packets received and requests answered; for O60 ====
section
/-!
Packets received over a link that is up or is not, and the answer taken for a request (R271, R273, R278).
-/

namespace Sys2Proof.Machine

variable {s : State} {p : Packet}

/-- Over a link that is up a packet does what its receipt does. -/
theorem State.recv_of_linkOk (hlink : s.linkOk p = true) (f : State → State) : s.recv p f = f s := if_pos hlink

/-- A packet whose version is not its link's is dropped, and the link goes down (R273). -/
theorem State.recv_of_linkDown (hlink : s.linkOk p = false) (f : State → State) :
    s.recv p f = s.updPort p.plane.toNat fun x => { x with up := false } :=
  if_neg (by rw [hlink]; exact Bool.false_ne_true)

/-! ### Answers -/

theorem State.payAcks_reqs (s : State) : s.payAcks.league.reqs = s.league.reqs :=
  foldl_keeps (·.league.reqs) _ State.trySend_reqs _ _

theorem State.payAcks_mem (s : State) : s.payAcks.mem = s.mem :=
  foldl_keeps (·.mem) _ State.trySend_mem _ _

/-- A split that goes on leaves the League and memory alone. -/
theorem State.wakeReq_keeps (s : State) (r : Req) : (s.wakeReq r).league = s.league ∧ (s.wakeReq r).mem = s.mem := by
  unfold State.wakeReq
  dsimp only
  split
  · exact ⟨rfl, rfl⟩
  · split
    · simp
    · split
      · exact ⟨rfl, rfl⟩
      · split
        · exact ⟨rfl, rfl⟩
        · split
          · exact ⟨rfl, rfl⟩
          · simp

/-- The one request outstanding takes its answer, or is over where nothing waits for it any more (R278, R281). -/
theorem State.answerReq_single {r : Req} (hreqs : s.league.reqs = [r]) (hopen : r.answer = none) (htag : r.tag = p.tag.toNat)
    (hfrom : r.pkt.dst = p.src ∨ r.pkt.type = 7) (hinst : r.inst = none) :
    (s.answerReq p).league.reqs = (if r.orphan then [] else [{ r with answer := some p }]) ∧ (s.answerReq p).mem = s.mem := by
  have hfind : s.league.reqs.find? (fun r => r.answer.isNone && r.tag == p.tag.toNat && (r.pkt.dst == p.src || r.pkt.type == 7)) =
      some r := by
    rw [hreqs, List.find?_cons_of_pos]
    simpa [hopen, htag] using hfrom
  simp only [State.answerReq, hfind, hinst]
  cases horphan : r.orphan with
  | true =>
    rw [if_pos rfl, if_pos rfl, State.payAcks_reqs, State.payAcks_mem]
    exact ⟨by simp [hreqs], rfl⟩
  | false =>
    rw [if_neg Bool.false_ne_true, if_neg Bool.false_ne_true, State.payAcks_reqs, State.payAcks_mem, (State.wakeReq_keeps _ r).1,
      (State.wakeReq_keeps _ r).2]
    exact ⟨by simp [hreqs, htag, hinst, horphan], rfl⟩

/-- An event that takes a packet as an answer answers the one request it is for. -/
theorem answers_of_answerReq {i : Instr}
    (hexec : ∀ s : State, p.dst = s.peer → s.linkOk p = true → exec i s = .next (s.answerReq p)) : Claims.Answers i p := by
  intro s r hreqs hopen htag hfrom hinst hdst hlink
  exact ⟨_, hexec s hdst hlink, State.answerReq_single hreqs hopen htag hfrom hinst⟩

end Sys2Proof.Machine
end

-- ==== Remote accesses; O60 ====
section
/-!
Remote accesses: the exporter's answers, requests answered or timed out, multicasts at the switch and at their members, and the
group table (R272, R275, R278, R283, R284).
-/

namespace Sys2Proof.Machine

variable {s u : State} {p : Packet}

/-! ### The exporter's side (R275) -/

/-- The answer to a request before what it found: its type, its ends the other way round, its tag, length and offset. -/
def backTo (p : Packet) (type : Nat) : Packet :=
  { Packet.plain type p.dst p.src p.tag.toNat with lenm1 := p.lenm1, offset := p.offset }

/-- The access a packet of a type asks for. -/
def accessOf (type : Nat) : Acc := if type = 1 then .read else if type = 5 then .atomic else .write

/-- What the exporter's checks find for the access of a packet. -/
def State.asked (s : State) (p : Packet) (a : Acc) : Exported × State :=
  s.exported p.src.toNat p.offset.toNat (p.lenm1.toNat + 1) a

theorem State.serve_refused {r : Nat} (h : s.asked p (accessOf p.type.toNat) = (.no r, u)) :
    s.serve p = ({ backTo p (p.type.toNat + 1) with status := BitVec.ofNat 4 r }, u) := by
  unfold State.asked accessOf at h
  simp only [State.serve, h]
  rfl

theorem State.serve_read {g : Bool} {pa : Nat} (htype : p.type = 1) (h : s.asked p .read = (.ok g pa, u)) :
    let n := p.lenm1.toNat + 1
    s.serve p = ({ backTo p 2 with data := dataOf (u.bytes pa n), ndata := flits n, g := g }, u) := by
  have ht : p.type.toNat = 1 := by rw [htype]; rfl
  unfold State.asked at h
  simp only [State.serve, ht, if_true, h]
  rfl

theorem State.serve_write {g : Bool} {pa : Nat} (htype : p.type = 3) (h : s.asked p .write = (.ok g pa, u)) :
    s.serve p = (backTo p 4, u.setBytes pa (Packet.bytes p (p.lenm1.toNat + 1))) := by
  have ht : p.type.toNat = 3 := by rw [htype]; rfl
  unfold State.asked at h
  simp only [State.serve, ht, Nat.reduceEqDiff, if_false, h]
  rfl

theorem State.serve_atomic {g : Bool} {pa : Nat} (htype : p.type = 5) (h : s.asked p .atomic = (.ok g pa, u)) :
    let n := p.lenm1.toNat + 1
    let x := field (Packet.bytes p 16) 0 n
    s.serve p = ({ backTo p 6 with data := BitVec.ofNat 2048 (u.num pa n), ndata := 1 },
      if atomWrites p.atop.toNat (u.num pa n) x
        then u.setNum pa n (atomNew p.atop.toNat p.atty.toNat (u.num pa n) x (field (Packet.bytes p 16) n n)) else u) := by
  have ht : p.type.toNat = 5 := by rw [htype]; rfl
  unfold State.asked at h
  simp only [State.serve, ht, Nat.reduceEqDiff, if_false, if_true, h]
  rfl

/-- An access that no window covers is refused for reason 1 and changes nothing (R275). -/
theorem State.asked_of_noWindow (h : s.windowFor p.src.toNat p.offset.toNat = none) (a : Acc) : s.asked p a = (.no 1, s) := by
  simp only [State.asked, State.exported, h]

theorem State.answerRequest_other {t : Nat} (h : p.type.toNat ≠ t) : s.answerRequest [t] p = s := by
  simp [State.answerRequest, h]

/-- A request of its type is served, and its answer sent. -/
theorem State.answerRequest_serves {t : Nat} {a : Packet} (h : p.type.toNat = t) (hdst : p.dst = s.peer) (hlink : s.linkOk p = true)
    (hserve : s.serve p = (a, u)) : s.answerRequest [t] p = u.trySend a := by
  simp only [State.answerRequest, h, hdst, List.contains_cons, BEq.rfl, Bool.true_or, Bool.and_self, if_true,
    State.recv_of_linkOk hlink, hserve]

/-! ### Timeouts (R272) -/

section
variable {r : Req} {tag : Nat}

theorem State.timedOut_none (hreqs : s.league.reqs = [r]) (h : r.suspended = true ∨ s.now < r.at' + 100000) : s.timedOut tag = none := by
  rw [State.timedOut, hreqs, List.find?_singleton, if_neg]
  rcases h with h | h
  · simp [h]
  · simp [Nat.not_le.mpr h]

theorem State.timedOut_some (hreqs : s.league.reqs = [r]) (htag : r.tag = tag) (hopen : r.answer = none) (hsusp : r.suspended = false)
    (hlate : r.at' + 100000 ≤ s.now) : s.timedOut tag = some r := by
  rw [State.timedOut, hreqs, List.find?_singleton, if_pos]
  simp [htag, hopen, hsusp, hlate]

/-- A request unanswered for 100 µs is answered with reason 7. -/
theorem exec_requestTimeout_late (hreqs : s.league.reqs = [r]) (htag : r.tag = tag) (hlt : tag < 4096) (hopen : r.answer = none)
    (hinst : r.inst = none) (hsusp : r.suspended = false) (hlate : r.at' + 100000 ≤ s.now) : ∃ t a, exec (.requestTimeout tag) s = .next t ∧
      t.league.reqs = (if r.orphan then [] else [{ r with answer := some a }]) ∧ a.status = 7 := by
  have hfind := State.timedOut_some hreqs htag hopen hsusp hlate
  refine ⟨_, _, congrArg Host.Outcome.next (by rw [hfind]), (State.answerReq_single (by exact hreqs) hopen ?_ (.inl rfl) hinst).1, rfl⟩
  rw [htag]
  exact (BitVec.toNat_ofNat _ _).symm ▸ (Nat.mod_eq_of_lt hlt).symm

end

/-! ### Multicasts (R283, R284) -/

/-- Packets that leave the switch one after another. -/
theorem foldl_emit (f : Nat → Packet) (ks : List Nat) (s : State) : ks.foldl (fun s k => s.emit (f k)) s =
    { s with league := { s.league with netOut := s.league.netOut ++ ks.map f } } := by
  induction ks generalizing s with
  | nil => simp
  | cons k ks ih =>
    rw [List.foldl_cons, ih]
    simp [State.emit]

/-- The last member's answer sends the acknowledgement with the counts (R283). -/
theorem State.countMember_last {m : Mcast} {peer st : Nat} (hsw : s.league.sw.mcasts = [m]) (hwait : m.waiting = [peer]) :
    s.countMember m.plane m.tag m.src peer st =
      (s.updSw fun w => { w with mcasts := w.mcasts.erase m }).emit (mcastAck (BitVec.ofNat 9 m.src) m.plane m.tag
        (mcastResult (if st = 0 then m.pos + 1 else m.pos) (if st = 0 then m.neg else m.neg ++ [(peer, st)]))) := by
  have hfind : s.league.sw.mcasts.find? (fun x => x.plane = m.plane && x.tag = m.tag && x.src = m.src && x.waiting.contains peer) =
      some m := by
    rw [hsw, List.find?_cons_of_pos]
    simp [hwait]
  simp only [State.countMember, hfind, hwait]
  simp

/-- A response reaches this device's one request that it answers (R272, R278, R283). -/
theorem responses_answer (p : Packet) :
    (p.type = 2 ∨ (p.type = 4 ∧ (Packet.word p 2).getLsbD 63 = false) ∨ p.type = 6 → Claims.Answers (.remoteResponseReceipt p) p) ∧
      (p.type = 8 → Claims.Answers (.aggregatedAckReceipt p) p) := by
  refine ⟨fun htype => answers_of_answerReq fun s hdst hlink => congrArg Host.Outcome.next ?_,
    fun htype => answers_of_answerReq fun s hdst hlink => congrArg Host.Outcome.next ?_⟩
  · have hnone : p.type ≠ 8 ∧ ¬((p.type = 4 ∧ p.dst = s.peer) ∧ (Packet.word p 2).getLsbD 63 = true) := by
      rcases htype with h | ⟨h, hword⟩ | h
      · simp [h]
      · simp only [hword]
        simp [h]
      · simp [h]
    have hsome : p.type = 2 ∨ p.type = 4 ∨ p.type = 6 := by
      rcases htype with h | ⟨h, -⟩ | h <;> simp [h]
    rw [if_neg hnone.1, if_neg (by simpa using hnone.2), if_pos (by simpa [hdst, or_assoc] using hsome), State.recv_of_linkOk hlink]
  · rw [if_pos (by simp [htype, hdst]), State.recv_of_linkOk hlink]

section
variable (htype : p.type = 7)
include htype

/-- A multicast to no group is acknowledged with that (R284). -/
theorem exec_multicastWrite_noGroup (hgroup : Sparse.get? (p.plane.toNat * 4096 + p.group.toNat) s.league.sw.groups = none) :
    exec (.multicastWrite p) s = .next (s.emit (mcastAck p.src p.plane.toNat p.tag.toNat (2 ^ 63))) := by
  have hexec : exec (.multicastWrite p) s = execMulticastWrite p s := rfl
  simp only [hexec, execMulticastWrite, htype, ne_eq, not_true_eq_false, if_false, hgroup]

variable {map : BitVec 512} {ms : List Nat} (hgroup : Sparse.get? (p.plane.toNat * 4096 + p.group.toNat) s.league.sw.groups = some map)
  (hmembers : (List.range 512).filter (fun k => map.getLsbD k && k != p.src.toNat) = ms)
include hgroup hmembers

/-- One with no member but the sender is acknowledged at once (R283). -/
theorem exec_multicastWrite_alone (hnone : ms = []) :
    exec (.multicastWrite p) s = .next (s.emit (mcastAck p.src p.plane.toNat p.tag.toNat 0)) := by
  have hexec : exec (.multicastWrite p) s = execMulticastWrite p s := rfl
  simp only [hexec, execMulticastWrite, htype, ne_eq, not_true_eq_false, if_false, hgroup, hmembers, hnone, List.isEmpty_nil, if_true]

/-- The switch sends each member its copy and waits for their answers (R283). -/
theorem exec_multicastWrite_copies (hsome : ms ≠ []) : ∃ t, exec (.multicastWrite p) s = .next t ∧
    t.league.netOut = s.league.netOut ++ ms.map (fun k => { p with dst := BitVec.ofNat 9 k }) ∧
    t.league.sw.mcasts = s.league.sw.mcasts ++ [⟨p.plane.toNat, p.tag.toNat, p.src.toNat, ms, 0, [], s.now⟩] := by
  have hexec : exec (.multicastWrite p) s = execMulticastWrite p s := rfl
  simp only [hexec, execMulticastWrite, htype, ne_eq, not_true_eq_false, if_false, hgroup, hmembers]
  rw [if_neg (by simpa using hsome)]
  refine ⟨_, rfl, ?_⟩
  rw [foldl_emit]
  exact ⟨rfl, rfl⟩

end

/-- A member that has not answered for 20 µs is counted with reason 7; before, nothing happens (R272). -/
theorem exec_multicastMemberTimeout {m : Mcast} {peer : Nat} (hsw : s.league.sw.mcasts = [m]) (hpeer : peer ∈ m.waiting) :
    (s.now < m.at' + 20000 → exec (.multicastMemberTimeout m.plane m.tag peer) s = .next s) ∧
    (m.at' + 20000 ≤ s.now → exec (.multicastMemberTimeout m.plane m.tag peer) s = .next (s.countMember m.plane m.tag m.src peer 7)) := by
  have hexec : exec (.multicastMemberTimeout m.plane m.tag peer) s = execMulticastMemberTimeout m.plane m.tag peer s := rfl
  simp only [hexec, execMulticastMemberTimeout, hsw, List.find?_singleton]
  refine ⟨fun hnow => ?_, fun hnow => ?_⟩
  · rw [if_neg (by simp [hnow])]
  · rw [if_pos (by simpa [hnow] using hpeer)]

/-- A group's row is written by a manager alone (R284). -/
theorem exec_groupTableWrite (s : State) (p : Packet) (htype : p.type = 0x14) : let k := p.plane.toNat * 4096 + p.group.toNat
    (p.src.toNat ∉ s.league.sw.managers → exec (.groupTableWrite p) s = .next s) ∧
    (p.src.toNat ∈ s.league.sw.managers → (Packet.word p 2).getLsbD 0 = true → ∃ t, exec (.groupTableWrite p) s = .next t ∧
      Sparse.get? k t.league.sw.groups = some (p.data.setWidth 512) ∧ t.league.sw.managers = s.league.sw.managers) := by
  have hexec : exec (.groupTableWrite p) s = execGroupTableWrite p s := rfl
  intro k
  refine ⟨fun hsrc => ?_, fun hsrc hvalid => ?_⟩
  · rw [hexec, execGroupTableWrite, if_neg (by simp [hsrc])]
  · rw [hexec, execGroupTableWrite, if_pos (by simp [hsrc, htype])]
    refine ⟨_, rfl, ?_, rfl⟩
    simp only [State.updSw, hvalid, if_true]
    exact Sparse.get?_put_self _ _ _

theorem exec_multicastCopyReceipt {a : Packet} (htype : p.type = 7) (hdst : p.dst = s.peer) (hlink : s.linkOk p = true)
    (hserve : s.serve p = (a, u)) : exec (.multicastCopyReceipt p) s =
      .next ((u.trySend { a with plane := p.plane }).countMember p.plane.toNat p.tag.toNat p.src.toNat u.peer.toNat a.status.toNat) := by
  have hexec : exec (.multicastCopyReceipt p) s = execMulticastCopyReceipt p s := rfl
  rw [hexec, execMulticastCopyReceipt, if_pos (by simp [htype, hdst]), State.recv_of_linkOk hlink, hserve]

/-- The requests for this device, each with the access it asks for. -/
theorem exec_request {i : Instr} {a : Acc} {type : Nat} (hi : (i = .remoteReadRequest p ∧ a = .read ∧ type = 1) ∨
    (i = .remoteWriteRequest p ∧ a = .write ∧ type = 3) ∨ (i = .remoteAtomicRequest p ∧ a = .atomic ∧ type = 5)) (s : State) :
    exec i s = .next (s.answerRequest [type] p) ∧ a = accessOf type := by
  rcases hi with ⟨rfl, rfl, rfl⟩ | ⟨rfl, rfl, rfl⟩ | ⟨rfl, rfl, rfl⟩ <;> exact ⟨rfl, rfl⟩

/-- Remote accesses act as the manual says. -/
theorem remoteEvents : Claims.RemoteEvents := by
  refine ⟨?access, responses_answer, ?timeout, ?multicast, ?member, ?last, exec_groupTableWrite⟩
  case access =>
    intro s u p hdst hlink n back ask
    refine ⟨fun i a type hi => ?_, fun g pa htype hask => ?_, fun g pa htype hask => ?_, fun g pa htype hask => ?_,
      fun a hwindow => State.asked_of_noWindow hwindow a⟩
    · obtain ⟨hexec, rfl⟩ := exec_request hi s
      refine ⟨fun htype => ?_, fun r htype hask => ?_⟩
      · rw [hexec, State.answerRequest_other htype]
      · subst htype
        rw [hexec, State.answerRequest_serves rfl hdst hlink (State.serve_refused hask)]
        rfl
    · exact congrArg Host.Outcome.next (State.answerRequest_serves (by rw [htype]; rfl) hdst hlink (State.serve_read htype hask))
    · exact congrArg Host.Outcome.next (State.answerRequest_serves (by rw [htype]; rfl) hdst hlink (State.serve_write htype hask))
    · exact congrArg Host.Outcome.next (State.answerRequest_serves (by rw [htype]; rfl) hdst hlink (State.serve_atomic htype hask))
  case timeout =>
    intro s tag r hreqs htag hlt hopen hinst
    refine ⟨fun hearly => congrArg Host.Outcome.next ?_, exec_requestTimeout_late hreqs htag hlt hopen hinst⟩
    rw [State.timedOut_none hreqs hearly]
  case multicast =>
    intro s p htype ack
    refine ⟨exec_multicastWrite_noGroup htype, ?_, fun a u hdst hlink hserve => exec_multicastCopyReceipt htype hdst hlink hserve⟩
    intro map hgroup ms
    exact ⟨exec_multicastWrite_alone htype hgroup rfl, exec_multicastWrite_copies htype hgroup rfl⟩
  case member =>
    intro s p htype
    have hexec : exec (.remoteResponseReceipt p) s = execRemoteResponseReceipt p s := rfl
    rw [hexec, execRemoteResponseReceipt, if_pos htype]
  case last =>
    intro s m peer hsw hpeer
    obtain ⟨hearly, hlate⟩ := exec_multicastMemberTimeout hsw hpeer
    refine ⟨hearly, hlate, ?_⟩
    intro st hwait neg
    refine ⟨_, State.countMember_last hsw hwait, ?_, rfl⟩
    simp [State.emit, State.updSw, hsw]

end Sys2Proof.Machine
end

-- ==== Invalidates, remote messages and names; O60 ====
section
/-!
Invalidates, remote messages and names: pages dropped and acknowledged, importers closed, messages queued, held, refused or asked
back, and lookups answered (R229, R237, R281, R288).
-/

namespace Sys2Proof.Machine

variable {s : State} {p : Packet}

/-! ### Invalidates (R281) -/

/-- With no request outstanding the one acknowledgement owed goes out. -/
theorem State.payAcks_owing (hreqs : s.league.reqs = []) (hacks : s.league.acks = []) (a : Packet) :
    ({ s with league := { s.league with reqs := [], acks := [a] } } : State).payAcks = s.trySend a := by
  have hsame : ({ s with league := { s.league with reqs := [], acks := [] } } : State) = s := by rw [← hreqs, ← hacks]
  refine Eq.trans ?_ (congrArg (State.trySend · a) hsame)
  simp [State.payAcks]

/-- With no marked read outstanding and nothing owed an invalidate is acknowledged at once. -/
theorem exec_invalidateReceipt_idle (htype : p.type = 9) (hdst : p.dst = s.peer) (hlink : s.linkOk p = true)
    (hreqs : s.league.reqs = []) (hacks : s.league.acks = []) : exec (.invalidateReceipt p) s =
      .next ((s.dropPeerPage p.src.toNat (p.offset.toNat / 4096)).trySend
        { Packet.plain 0x0A s.peer p.src p.tag.toNat with offset := p.offset }) := by
  have hexec : exec (.invalidateReceipt p) s = execInvalidateReceipt p s := rfl
  rw [hexec, execInvalidateReceipt, if_pos (by simp [htype, hdst]), State.recv_of_linkOk hlink]
  generalize hu : s.dropPeerPage p.src.toNat (p.offset.toNat / 4096) = u
  have hpeer : u.peer = s.peer := by rw [← hu]; rfl
  have hureqs : u.league.reqs = [] := by rw [← hu]; exact hreqs
  have huacks : u.league.acks = [] := by rw [← hu]; exact hacks
  rw [← hpeer]
  simp only [hureqs, huacks, List.map_nil, List.nil_append]
  exact congrArg Host.Outcome.next (State.payAcks_owing hureqs huacks _)

theorem Sparse.get?_filter_none {α : Type} {f : Nat × α → Bool} {k : Nat} (hf : ∀ a, f (k, a) = false) (m : List (Nat × α)) :
    Sparse.get? k (m.filter f) = none := by
  rw [Sparse.get?_eq_none_iff]
  intro hk
  obtain ⟨⟨j, a⟩, hmem, rfl⟩ := List.mem_map.mp hk
  exact absurd (List.mem_filter.mp hmem).2 (by simp [hf])

/-- No unit keeps a copy of a granule of a page that has been dropped. -/
theorem State.copy?_dropPeerPage (s : State) (peer page unit : Nat) {k : Nat} (hk : k < 256) :
    (s.dropPeerPage peer page).copy? unit (peerGran (peer * 2 ^ 40 + page * 4096) + k) = none := by
  unfold State.copy? State.dropPeerPage
  dsimp only
  rw [Sparse.get?_map (by intro; rfl)]
  cases Sparse.get? unit s.mem.copies with
  | none => rfl
  | some m => exact Sparse.get?_filter_none (by simp [hk]) m

/-- A TLBINV that goes on leaves the League alone. -/
theorem State.wakeInval_league (s : State) (h : BitVec 32) : (s.wakeInval h).league = s.league := by
  unfold State.wakeInval
  split <;> rfl

theorem State.importerDone_league (s : State) (peer : Nat) (page : BitVec 40) : (s.importerDone peer page).league =
    { s.league with invs := (s.league.invs.map fun v =>
        if v.page = page then { v with left := v.left.filter (· ≠ peer) } else v).filter fun v => !v.left.isEmpty } :=
  foldl_keeps (·.league) _ State.wakeInval_league _ _

/-- The last importer's acknowledgement ends the wait. -/
theorem State.importerDone_last {peer : Nat} {v : Inval} (hinvs : s.league.invs = [v]) (hleft : v.left = [peer]) :
    (s.importerDone peer v.page).league.invs = [] := by
  simp [State.importerDone_league, hinvs, hleft]

theorem exec_invalidateAckReceipt_last {v : Inval} (htype : p.type = 0x0A) (hdst : p.dst = s.peer) (hlink : s.linkOk p = true)
    (hinvs : s.league.invs = [v]) (hleft : v.left = [p.src.toNat]) (hpage : v.page = BitVec.ofNat 40 (p.offset.toNat / 4096)) :
    ∃ t, exec (.invalidateAckReceipt p) s = .next t ∧ t.league.invs = [] := by
  have hexec : exec (.invalidateAckReceipt p) s = execInvalidateAckReceipt p s := rfl
  refine ⟨_, ?_, State.importerDone_last hinvs hleft⟩
  rw [hexec, execInvalidateAckReceipt, if_pos (by simp [htype, hdst]), State.recv_of_linkOk hlink, hpage]

/-- An importer that has not acknowledged for 1 ms is closed to the windows over the page, and the wait for it ends. -/
theorem exec_importerCloseTimeout {peer : Nat} {v : Inval} (hinvs : s.league.invs = [v]) (hleft : v.left = [peer]) :
    (s.now < v.at' + 1000000 → exec (.importerCloseTimeout peer v.page) s = .next s) ∧
    (v.at' + 1000000 ≤ s.now → ∃ t, exec (.importerCloseTimeout peer v.page) s = .next t ∧ t.league.invs = [] ∧
      ∀ x ∈ s.windowsOver v.page.toNat, (x.1, peer) ∈ t.league.closed) := by
  have hexec : exec (.importerCloseTimeout peer v.page) s = execImporterCloseTimeout peer v.page s := rfl
  rw [hexec, execImporterCloseTimeout]
  refine ⟨fun hnow => ?_, fun hnow => ?_⟩
  · rw [if_neg (by simp [hinvs, hnow])]
  · rw [if_pos (by simp [hinvs, hleft, hnow])]
    refine ⟨_, rfl, State.importerDone_last hinvs hleft, fun x hx => ?_⟩
    rw [State.importerDone_league]
    refine List.mem_append.mpr ?_
    by_cases hclosed : (x.1, peer) ∈ s.league.closed
    · exact .inl hclosed
    · exact .inr (List.mem_filter.mpr ⟨List.mem_map.mpr ⟨x, hx, rfl⟩, by simpa [State.mapWaves] using hclosed⟩)

/-! ### Ports (R288) -/

/-- An object a handle names stands at the handle's index, and the handle is made of its type and generation (R222). -/
theorem State.named_eq_some {h : BitVec 32} {o : Obj} : s.named h = some o ↔
    s.obj? (hIndex h) = some o ∧ hIndex h ≠ 0 ∧ o.body.type ≠ 0 ∧ h = mkHandle o.body.type o.gen (hIndex h) := by
  unfold State.named
  cases s.obj? (hIndex h) with
  | none => simp
  | some x =>
    simp only [Option.some.injEq]
    constructor
    · intro hx
      split at hx
      · next hc => obtain rfl := Option.some.inj hx; exact ⟨rfl, hc⟩
      · cases hx
    · rintro ⟨rfl, hc⟩
      rw [if_pos hc]

/-- An object changed that keeps its type and generation is named as before. -/
theorem State.named_updObj {h : BitVec 32} {o : Obj} {f : Obj → Obj} (ho : s.named h = some o) (htype : (f o).body.type = o.body.type)
    (hgen : (f o).gen = o.gen) : (s.updObj (hIndex h) f).named h = some (f o) := by
  obtain ⟨hobj, hrest⟩ := State.named_eq_some.mp ho
  rw [State.named_eq_some, State.obj?_updObj, hobj, htype, hgen]
  exact ⟨rfl, hrest⟩

/-- The port that a handle names is the object it names, where that is a port. -/
theorem State.port?_eq_some {h : BitVec 32} {cap : Nat} {st : BitVec 64} {ms : List Msg} {rs : List RemoteSender} :
    s.port? h = some (cap, st, ms, rs) ↔ ∃ o nm, s.named h = some o ∧ o.body = .port cap st nm ms rs := by
  unfold State.port?
  rcases s.named h with _ | ⟨gen, owner, state, tdi, body⟩
  · simp
  · cases body <;> simp

section
variable {h : BitVec 32} {cap : Nat} {st : BitVec 64} {ms : List Msg} {rs : List RemoteSender}

/-- A port reads back the messages and the held senders it has been given. -/
theorem State.port?_setPort (hport : s.port? h = some (cap, st, ms, rs)) (ms' : List Msg) (rs' : List RemoteSender) :
    (s.setPort h ms' rs').port? h = some (cap, st, ms', rs') := by
  obtain ⟨⟨gen, owner, state, tdi, body⟩, nm, ho, rfl⟩ := State.port?_eq_some.mp hport
  rw [State.setPort, hport, State.port?_eq_some]
  exact ⟨_, nm, State.named_updObj ho rfl rfl, rfl⟩

theorem State.setPort_peer (s : State) (h : BitVec 32) (ms : List Msg) (rs : List RemoteSender) : (s.setPort h ms rs).peer = s.peer := by
  unfold State.setPort
  split <;> rfl

theorem State.port?_of_kern {t : State} (hkern : t.kern = s.kern) (h : BitVec 32) : t.port? h = s.port? h := by
  unfold State.port? State.named State.obj?
  rw [hkern]

/-- A port with no sender held serves none. -/
theorem State.serveRemote_none (hport : s.port? h = some (cap, st, ms, [])) (fuel : Nat) : s.serveRemote fuel h = s := by
  cases fuel with
  | zero => rfl
  | succ fuel => simp only [State.serveRemote, hport]

end

theorem exec_portMessageReceipt (hlink : s.linkOk p = true) : exec (.portMessageReceipt p) s = .next (s.portMessage p) :=
  congrArg Host.Outcome.next (State.recv_of_linkOk hlink _)

section
variable (htype : p.type = 0x0B) (hdst : p.dst = s.peer)
include htype hdst

/-- A message that names no port, or comes under an epoch of another restart, is answered closed. -/
theorem State.portMessage_closed (hnew : bits (Packet.word p 2).toNat 63 63 = 0) (hsend : bits (Packet.word p 2).toNat 33 33 = 0)
    (hclosed : s.port? (BitVec.ofNat 32 (Packet.word p 2).toNat) = none ∨ (Packet.word p 4).toNat ≠ s.boot.epoch) :
    s.portMessage p = s.trySend (portAnswer s.peer p.src p.tag.toNat 4) := by
  have hnone : (if (Packet.word p 4).toNat = s.boot.epoch then s.port? (BitVec.ofNat 32 (Packet.word p 2).toNat) else none) = none := by
    rcases hclosed with h | h
    · rw [h, ite_self]
    · rw [if_neg h]
  rw [State.portMessage, if_neg (by simp [htype, hdst, hnew]), if_neg (by simp [hsend])]
  simp only [hnone]

variable {cap : Nat} {st : BitVec 64} {ms : List Msg} {rs : List RemoteSender}

section
variable (hnew : bits (Packet.word p 2).toNat 63 63 = 0) (hback : bits (Packet.word p 2).toNat 33 33 = 1)
  (hport : s.port? (BitVec.ofNat 32 (Packet.word p 2).toNat) = some (cap, st, ms, rs))
include hnew hback hport

/-- A message asked back that is not held any more stays where it is. -/
theorem State.portMessage_gone (hnone : ∀ r ∈ rs, r.src ≠ p.src.toNat ∨ r.tag ≠ p.tag.toNat) : s.portMessage p = s := by
  have hany : (rs.any fun r => r.src == p.src.toNat && r.tag == p.tag.toNat) = false :=
    List.any_eq_false.mpr fun r hr => by simpa [imp_iff_not_or] using hnone r hr
  rw [State.portMessage, if_neg (by simp [htype, hdst, hnew]), if_pos hback, State.giveBack, hport]
  simp only [hany, Bool.false_eq_true, if_false]

/-- The one message held is given back and answered so. -/
theorem State.portMessage_back {r : RemoteSender} (hone : rs = [r]) (hsrc : r.src = p.src.toNat) (htag : r.tag = p.tag.toNat) :
    s.portMessage p = (s.setPort (BitVec.ofNat 32 (Packet.word p 2).toNat) ms []).trySend (portAnswer s.peer p.src p.tag.toNat 14) := by
  subst hone
  rw [State.portMessage, if_neg (by simp [htype, hdst, hnew]), if_pos hback, State.giveBack, hport]
  have hleft : [r].filter (fun r => !(r.src == p.src.toNat && r.tag == p.tag.toNat)) = [] := by simp [hsrc, htag]
  simp only [hleft]
  rw [if_pos (by simp [hsrc, htag])]
  exact State.serveRemote_none ((State.port?_of_kern (State.trySend_kern _ _) _).trans (State.port?_setPort hport ms [])) 64

end

section
variable (hnew : bits (Packet.word p 2).toNat 63 63 = 0) (hsend : bits (Packet.word p 2).toNat 33 33 = 0)
  (hepoch : (Packet.word p 4).toNat = s.boot.epoch)
  (hport : s.port? (BitVec.ofNat 32 (Packet.word p 2).toNat) = some (cap, st, ms, rs))
include hnew hsend hepoch hport

/-- A message that has room and no one before it is queued. -/
theorem State.portMessage_room (hroom : ms.length < cap) (hheld : rs = [])
    (hwait : s.kernWaits .send (BitVec.ofNat 32 (Packet.word p 2).toNat) = []) :
    s.portMessage p = (s.setPort (BitVec.ofNat 32 (Packet.word p 2).toNat)
      (ms ++ [⟨s.now, slotBytes (Packet.bytes p 64) ((Packet.word p 3).toNat % 2 ^ 20) []⟩]) rs).trySend
        (portAnswer s.peer p.src p.tag.toNat 0) := by
  rw [State.portMessage, if_neg (by simp [htype, hdst, hnew]), if_neg (by simp [hsend])]
  simp only [hepoch, if_true, hport, hwait, hheld]
  rw [if_pos (by simp [hroom]), State.setPort_peer]

/-- A full port refuses a message that asks not to wait. -/
theorem State.portMessage_full (hfull : cap ≤ ms.length) (hnb : bits (Packet.word p 2).toNat 32 32 = 1) :
    s.portMessage p = s.trySend (portAnswer s.peer p.src p.tag.toNat 1) := by
  rw [State.portMessage, if_neg (by simp [htype, hdst, hnew]), if_neg (by simp [hsend])]
  simp only [hepoch, if_true, hport]
  rw [if_neg (by simp [hfull]), if_pos (by simp [hnb, Nat.le_add_right_of_le hfull])]

/-- At a full port the sender of any other message is held, behind those that wait already (R229). -/
theorem State.portMessage_held (hfull : cap ≤ ms.length) (hwait : bits (Packet.word p 2).toNat 32 32 = 0) :
    s.portMessage p = (({ s with next := s.next + 1 } : State).setPort (BitVec.ofNat 32 (Packet.word p 2).toNat) ms
      (rs ++ [⟨s.next, p.src.toNat, p.tag.toNat, slotBytes (Packet.bytes p 64) ((Packet.word p 3).toNat % 2 ^ 20) []⟩])).trySend
        (portAnswer s.peer p.src p.tag.toNat 15) := by
  rw [State.portMessage, if_neg (by simp [htype, hdst, hnew]), if_neg (by simp [hsend])]
  simp only [hepoch, if_true, hport]
  rw [if_neg (by simp [hfull]), if_neg (by simp [hwait]), State.setPort_peer]
  rfl

end

end

/-- Any answer but that the message is held is taken for its request (R288). -/
theorem exec_portMessageAnswerReceipt_answers (htype : p.type = 0x0B) (hanswer : bits (Packet.word p 2).toNat 63 63 = 1)
    (hheld : bits (Packet.word p 2).toNat 51 48 ≠ 15) : Claims.Answers (.portMessageAnswerReceipt p) p := by
  refine answers_of_answerReq fun s hdst hlink => congrArg Host.Outcome.next ?_
  rw [State.recv_of_linkOk hlink, State.portMessageAnswer, if_neg (by simp [htype, hdst, hanswer]), if_neg hheld]

/-- A message asked for back has bit 33 of its word 2 set in its request. -/
theorem State.withdraw_reqs (s : State) (q : Req → Bool) : (s.withdraw q).league.reqs = s.league.reqs.map fun r =>
    if q r && r.suspended && r.answer.isNone && !r.pkt.ext.getLsbD 33
      then { r with pkt := { r.pkt with ext := r.pkt.ext ||| BitVec.ofNat 384 (2 ^ 33) } } else r :=
  foldl_keeps (·.league.reqs) _ (fun t _ => t.trySend_reqs _) _ _

/-- Whether a request is still wanted does not depend on what the League holds. -/
theorem State.unwanted_league (s : State) (l : League) {q r : Req} (hhandle : q.handle = r.handle) (horphan : q.orphan = r.orphan) :
    ({ s with league := l } : State).unwanted q = s.unwanted r := by
  unfold State.unwanted
  rw [hhandle, horphan]
  rfl

/-- That its message is held suspends a request's timeout; where its wave is being saved the message is asked back at once (R229,
R288). -/
theorem State.portMessageAnswer_held {r : Req} (htype : p.type = 0x0B) (hdst : p.dst = s.peer)
    (hanswer : bits (Packet.word p 2).toNat 63 63 = 1) (hheld : bits (Packet.word p 2).toNat 51 48 = 15)
    (hreqs : s.league.reqs = [r]) (hopen : r.answer = none) (htag : r.tag = p.tag.toNat) (hfrom : r.pkt.dst = p.src)
    (hmessage : r.pkt.type = 0x0B) (hasked : r.pkt.ext.getLsbD 33 = false) :
    (s.portMessageAnswer p).league.reqs = [{ r with
      suspended := true
      pkt := if s.unwanted r then { r.pkt with ext := r.pkt.ext ||| BitVec.ofNat 384 (2 ^ 33) } else r.pkt }] := by
  rw [State.portMessageAnswer, if_neg (by simp [htype, hdst, hanswer]), if_pos hheld]
  simp only [State.withdraw_reqs, hreqs, List.map_cons, List.map_nil, hopen, htag, hfrom, hmessage, Option.isNone_none, BEq.rfl,
    Bool.and_self, if_true, Bool.true_and, hasked]
  rw [State.unwanted_league s _ (r := r) (hhandle := ?_) (horphan := ?_)]
  · cases s.unwanted r <;> rfl
  all_goals rfl

/-! ### Names (R237) -/

section
variable (htype : p.type = 0x0C) (hdst : p.dst = s.peer) (hlink : s.linkOk p = true)
include htype hdst hlink

/-- A name that no port of the device has is answered with status 3. -/
theorem exec_nameLookupReceipt_unnamed (hname : ∀ x ∈ s.kern.names, x.1 ≠ Packet.word p 2) : exec (.nameLookupReceipt p) s =
    .next (s.trySend { Packet.plain 0x0D s.peer p.src p.tag.toNat with
      ext := BitVec.ofNat 384 (3 * 2 ^ 48 + 2 ^ 64 * s.boot.epoch) }) := by
  have hnone : (s.kern.names.find? fun x => x.1 == Packet.word p 2) = none :=
    List.find?_eq_none.mpr fun x hx => by simpa using hname x hx
  refine congrArg Host.Outcome.next ?_
  rw [State.recv_of_linkOk hlink, State.nameLookup, if_neg (by simp [htype, hdst])]
  simp only [hnone]

/-- A port whose owner exports a window to the asker is answered with its handle. -/
theorem exec_nameLookupReceipt_seen {h : BitVec 32} {o po : Obj} {q : BitVec 20} {r t : BitVec 64} {sc : BitVec 32} {i : Nat}
    {w : BitVec 256} (hnames : s.kern.names = [(Packet.word p 2, h)]) (hnamed : s.named h = some o)
    (howner : s.obj? o.owner.toNat = some po) (hbody : po.body = .process q r t sc) (hwindow : (i, w) ∈ s.league.windows)
    (hvalid : (Win.mk w.toNat).valid = true) (hpasid : (Win.mk w.toNat).pasid = q)
    (himports : (Win.mk w.toNat).imports p.src.toNat = true) : exec (.nameLookupReceipt p) s =
      .next (s.trySend { Packet.plain 0x0D s.peer p.src p.tag.toNat with
        ext := BitVec.ofNat 384 (h.toNat + 2 ^ 64 * s.boot.epoch) }) := by
  have hfind : (s.kern.names.find? fun x => x.1 == Packet.word p 2) = some (Packet.word p 2, h) := by simp [hnames]
  have hseen : (s.league.windows.any fun x => (Win.mk x.2.toNat).valid && (Win.mk x.2.toNat).pasid == q &&
      (Win.mk x.2.toNat).imports p.src.toNat) = true :=
    List.any_eq_true.mpr ⟨(i, w), hwindow, by simp [hvalid, hpasid, himports]⟩
  refine congrArg Host.Outcome.next ?_
  rw [State.recv_of_linkOk hlink, State.nameLookup, if_neg (by simp [htype, hdst])]
  simp only [hfind, hnamed, howner, hbody, Option.bind_some, hseen, if_true]

end

/-- Invalidates, messages and names act as the manual says. -/
theorem messageEvents : Claims.MessageEvents := by
  refine ⟨fun s p htype hdst hlink hreqs hacks => exec_invalidateReceipt_idle htype hdst hlink hreqs hacks,
    fun s peer page k unit hk => s.copy?_dropPeerPage peer page unit hk,
    fun s p v htype hdst hlink hinvs hleft hpage => exec_invalidateAckReceipt_last htype hdst hlink hinvs hleft hpage,
    fun s peer v hinvs hleft => exec_importerCloseTimeout hinvs hleft, ?messages,
    fun s p htype hdst hlink hname => exec_nameLookupReceipt_unnamed htype hdst hlink hname, ?seen, ?reply⟩
  case messages =>
    intro s p htype hdst hlink w h ans slot
    refine ⟨fun hnew hsend hclosed => ?closed, fun cap st ms rs hnew hback hport => ⟨fun hnone => ?gone, fun r hone hsrc htag => ?back⟩,
      fun cap st ms rs hnew hsend hepoch hport => ⟨fun hroom hheld hwait => ?room, fun hfull hnb => ?full, fun hfull hwait => ?held⟩,
      exec_portMessageAnswerReceipt_answers htype, fun r hanswer hheld hreqs hopen htag hfrom hmessage hasked => ?suspends⟩
    case suspends =>
      refine ⟨s.portMessageAnswer p, congrArg Host.Outcome.next (State.recv_of_linkOk hlink _), ?_⟩
      exact State.portMessageAnswer_held htype hdst hanswer hheld hreqs hopen htag hfrom hmessage hasked
    all_goals refine (exec_portMessageReceipt hlink).trans (congrArg Host.Outcome.next ?_)
    case closed => exact State.portMessage_closed htype hdst hnew hsend hclosed
    case gone => exact State.portMessage_gone htype hdst hnew hback hport hnone
    case back => exact State.portMessage_back htype hdst hnew hback hport hone hsrc htag
    case room => exact State.portMessage_room htype hdst hnew hsend hepoch hport hroom hheld hwait
    case full => exact State.portMessage_full htype hdst hnew hsend hepoch hport hfull hnb
    case held => exact State.portMessage_held htype hdst hnew hsend hepoch hport hfull hwait
  case seen =>
    intro s p h o po q r t sc i w htype hdst hlink hnames hnamed howner hbody hwindow hvalid hpasid himports
    exact exec_nameLookupReceipt_seen htype hdst hlink hnames hnamed howner hbody hwindow hvalid hpasid himports
  case reply =>
    intro p htype
    refine answers_of_answerReq fun s hdst hlink => congrArg Host.Outcome.next ?_
    rw [if_pos (by simp [htype, hdst]), State.recv_of_linkOk hlink]

end Sys2Proof.Machine
end

-- ==== Shuffles; O60 ====
section
/-!
Shuffles: segments paired at the switch, written, held or answered negative at their receiver, and struck off at their sender
(R286, R287).
-/

namespace Sys2Proof.Machine

variable {s : State} {p x : Packet}

/-! ### The switch (R286) -/

/-- Packets forwarded one after another. -/
theorem foldl_forward (ps : List Packet) (s : State) :
    ps.foldl State.forward s = { s with league := { s.league with netOut := s.league.netOut ++ ps } } := by
  induction ps generalizing s with
  | nil => simp
  | cons p ps ih =>
    rw [List.foldl_cons, ih]
    simp [State.forward]

section
variable (htype : p.type = 0x10)
include htype

theorem State.switchSegment_unpaired (hpair : (Packet.seg p).pair = 0) : s.switchSegment p = s.forward p := by
  rw [State.switchSegment, if_neg (by simp [htype]), if_pos hpair]

/-- The first segment of a key waits. -/
theorem State.switchSegment_first (hpair : (Packet.seg p).pair ≠ 0) (hsegs : s.league.sw.segs = []) :
    s.switchSegment p = { s with league := { s.league with sw := { s.league.sw with segs := [(s.now, p)] } } } := by
  rw [State.switchSegment, if_neg (by simp [htype]), if_neg hpair, hsegs]
  rfl

/-- The second within 2 µs is sent with the first as one, and both keep their key. -/
theorem State.switchSegment_second {t : Nat} (hpair : (Packet.seg p).pair ≠ 0) (hsegs : s.league.sw.segs = [(t, x)])
    (hx : x.type = 0x10) (hkey : sameKey x p = true) (hnow : s.now ≤ t + 2000) : s.switchSegment p =
      { s with league := { s.league with
        sw := { s.league.sw with segs := [(t, passedSegment x), (s.now, passedSegment p)] }
        netOut := s.league.netOut ++ codedPackets x p } } := by
  have hsame : [(t, x)].filter (fun y => sameKey y.2 p) = [(t, x)] := by simp [hkey]
  rw [State.switchSegment, if_neg (by simp [htype]), if_neg hpair, hsegs]
  simp only [hsame]
  rw [if_pos (by simp [hx, hnow])]
  rw [foldl_forward]
  simp

/-- A third segment of a key meets no one. -/
theorem State.switchSegment_third {y : Packet} {t t' : Nat} (hsegs : s.league.sw.segs = [(t, x), (t', y)])
    (hx : sameKey x p = true) (hy : sameKey y p = true) : s.switchSegment p = s.forward p := by
  have hsame : [(t, x), (t', y)].filter (fun z => sameKey z.2 p) = [(t, x), (t', y)] := by simp [hx, hy]
  rw [State.switchSegment, if_neg (by simp [htype]), hsegs]
  simp only [hsame, ite_self]

end

/-- A segment that waits alone goes out as it is after 2 µs, not before. -/
theorem State.pairTimeout_one {t : Nat} (hsegs : s.league.sw.segs = [(t, x)]) (hx : x.type = 0x10) :
    s.pairTimeout x.plane.toNat 0 = if t + 2000 < s.now then
      ({ s with league := { s.league with sw := { s.league.sw with segs := [(t, passedSegment x)] } } } : State).forward x
      else s := by
  have hwaits : [(t, x)].filter (fun y => y.2.plane.toNat == x.plane.toNat && y.2.type == 0x10) = [(t, x)] := by simp [hx]
  have hgone : [(t, x)].filter (fun y => y ≠ (t, x)) = [] := by simp
  simp only [State.pairTimeout, hsegs, hwaits, hgone, List.getElem?_cons_zero, List.nil_append]

/-! ### Segments at their receiver (R287) -/

/-- A segment kept until it can be written. -/
def State.hold (s : State) (p : Packet) : State := { s with league := { s.league with held := s.league.held ++ [p] } }

/-- What storing a segment's bytes comes to: what follows is done, or the segment is kept, or its command fails. -/
def segmentEnd (core : Nat) (x : Cmd) (h : SegHead) (k : State → State) (u : State) : Fetched → SegDone
  | .ok _ => .gone (k (u.dropEngReqs (engHandle core) (segHalf x h)))
  | .wait | .park _ _ => .keep u
  | .fault _ b => .gone ((u.dropEngReqs (engHandle core) (segHalf x h)).engineFault core x b)

/-- With no request outstanding a segment's bytes are stored at its participant's receive base. -/
theorem State.writeSegment_stored {core : Nat} {x : Cmd} {off : Nat} {h : SegHead} {bs : List Byte} {f : Fetched} {u : State}
    (hreqs : s.league.reqs = []) (hstored : s.storePieces (s.engSpace core x) (engHandle core) (segHalf x h) 0 x.order.2
      (piecesOf (((collOf x.record).dst + off + 256 * h.seg) % 2 ^ 64) bs) = (f, u)) (k : State → State) :
    s.writeSegment core x off h bs k = segmentEnd core x h k u f := by
  simp only [State.writeSegment, hreqs, List.any_nil, Bool.false_eq_true, if_false, hstored]
  cases f <;> rfl

/-- What becomes of a segment that has been taken, or is to be kept. -/
def SegDone.after (p : Packet) : SegDone → State
  | .gone s => s
  | .keep s => s.hold p

section
variable (hdst : p.dst = s.peer) (hlink : s.linkOk p = true)
include hdst hlink

theorem exec_uncodedSegmentReceipt (htype : p.type = 0x10) :
    exec (.uncodedSegmentReceipt p) s = .next ((s.takeUncoded p).after p) := by
  refine congrArg Host.Outcome.next ?_
  rw [State.recv_of_linkOk hlink, State.uncodedSegment, if_neg (by simp [htype, hdst])]
  cases s.takeUncoded p <;> rfl

theorem exec_codedSegmentReceipt_taken (htype : p.type = 0x11) (hroom : s.decodeFull = false) :
    exec (.codedSegmentReceipt p) s = .next ((s.takeCoded p).after p) := by
  refine congrArg Host.Outcome.next ?_
  rw [State.recv_of_linkOk hlink, State.codedSegment, if_neg (by simp [htype, hdst]), if_neg (by simp [hroom])]
  cases s.takeCoded p <;> rfl

end

/-- A shuffle's participant notes that a block came uncoded. -/
def State.noteReceived (s : State) (core : Nat) (x : Cmd) (t : BitVec 32) : State :=
  s.updColl core x.id fun k => { k with received := if k.received.contains t then k.received else t :: k.received }

/-- It notes that a block it could not decode is to come again. -/
def State.noteFallback (s : State) (core : Nat) (x : Cmd) (t : BitVec 32) : State :=
  s.updColl core x.id fun k => { k with fallback := if k.fallback.contains t then k.fallback else t :: k.fallback }

/-- It notes that a block has been decoded. -/
def State.noteCoded (s : State) (core : Nat) (x : Cmd) (t : BitVec 32) : State :=
  s.updColl core x.id fun k => { k with coded := if k.coded.contains t then k.coded else t :: k.coded }

section
variable {core : Nat} {x : Cmd} {f : Fetched} {u : State}

theorem State.takeUncoded_early (hnone : s.collReceiver (Packet.seg p).ident (Packet.seg p).tag = none) :
    s.takeUncoded p = .keep s := by
  simp only [State.takeUncoded, hnone]

/-- An uncoded segment is written and acknowledged, or kept, or fails its command. -/
theorem State.takeUncoded_stored (hreceiver : s.collReceiver (Packet.seg p).ident (Packet.seg p).tag = some (core, x))
    (hreqs : s.league.reqs = []) (hstored : s.storePieces (s.engSpace core x) (engHandle core) (segHalf x (Packet.seg p)) 0 x.order.2
      (piecesOf (((collOf x.record).dst + Packet.recvOff p + 256 * (Packet.seg p).seg) % 2 ^ 64)
        (Packet.bytes p (p.lenm1.toNat + 1))) = (f, u)) :
    s.takeUncoded p = segmentEnd core x (Packet.seg p) (fun v =>
      (v.noteReceived core x (BitVec.ofNat 32 (Packet.seg p).tag)).trySend (segAnswer 0x04 v.peer p.src (Packet.seg p))) u f := by
  simp only [State.takeUncoded, hreceiver]
  exact State.writeSegment_stored hreqs hstored _

end

/-- The partner's segment of a coded packet. -/
def partnerOf (p : Packet) : SegHead := if Packet.second p then Packet.seg p else Packet.seg { p with ext := p.ext >>> 128 }

/-- The side block that decodes a coded packet. -/
def State.sideFor (s : State) (p : Packet) : Option Side :=
  s.league.side.find? fun y => y.ident = (Packet.codedFor p).1.ident && y.tag.toNat = (partnerOf p).tag

section
variable {core : Nat} {x : Cmd} {u v : State}

theorem State.takeCoded_early (hnone : s.collReceiver (Packet.codedFor p).1.ident (Packet.codedFor p).1.tag = none) :
    s.takeCoded p = .keep s := by
  simp only [State.takeCoded, hnone]

variable (hreceiver : s.collReceiver (Packet.codedFor p).1.ident (Packet.codedFor p).1.tag = some (core, x))
include hreceiver

/-- A coded segment without its side block is answered negative. -/
theorem State.takeCoded_noSide (hside : s.sideFor p = none) : s.takeCoded p = .gone
    ((s.noteFallback core x (BitVec.ofNat 32 (Packet.codedFor p).1.tag)).trySend
      (segAnswer 0x12 s.peer (BitVec.ofNat 9 (Packet.codedFor p).2.1) (Packet.codedFor p).1)) := by
  unfold State.sideFor partnerOf at hside
  simp only [State.takeCoded, hreceiver, hside]
  rfl

/-- A coded segment is decoded with its side block, written and acknowledged. -/
theorem State.takeCoded_decoded {y : Side} {vals vs : List (Nat × Nat)} (hside : s.sideFor p = some y) :
    let h := (Packet.codedFor p).1
    let a := (y.addr.toNat + 256 * h.seg) % 2 ^ 64
    let n := min 256 (y.len - 256 * h.seg)
    let len := min 256 (h.len - 256 * h.seg)
    let half := 2 ^ 63 + segHalf x h
    s.fetchNeed (s.engSpace core x) (engHandle core) half x.order.2 [(a, n)] = (.ok vals, u) → u.league.reqs = [] →
    u.storePieces (u.engSpace core x) (engHandle core) (segHalf x h) 0 x.order.2
      (piecesOf (((collOf x.record).dst + (Packet.codedFor p).2.2 + 256 * h.seg) % 2 ^ 64)
        (leBytes len ((p.data.toNat ^^^ leNat (granBytes vals a n)) % 2 ^ (8 * len)))) = (.ok vs, v) →
    let r := v.dropEngReqs (engHandle core) (segHalf x h)
    s.takeCoded p = .gone (((r.dropEngReqs (engHandle core) half).noteCoded core x (BitVec.ofNat 32 h.tag)).trySend
      (segAnswer 0x04 r.peer (BitVec.ofNat 9 (Packet.codedFor p).2.1) h)) := by
  intro h a n len half hfetched hreqs hstored r
  unfold State.sideFor partnerOf at hside
  simp only [State.takeCoded, hreceiver, hside]
  simp only [h, a, n, half] at hfetched
  simp only [hfetched]
  exact State.writeSegment_stored hreqs hstored _

end

/-- The participant that a coded segment is for notes that it is to come again, if its command has fired. -/
def State.noteMissed (s : State) (h : SegHead) : State :=
  match s.collReceiver h.ident h.tag with
  | some (core, x) => s.noteFallback core x (BitVec.ofNat 32 h.tag)
  | none => s

/-- A coded segment that finds the decode buffer full is answered negative. -/
theorem exec_codedSegmentReceipt_full (htype : p.type = 0x11) (hdst : p.dst = s.peer) (hlink : s.linkOk p = true)
    (hfull : s.decodeFull = true) : exec (.codedSegmentReceipt p) s =
      .next ((s.noteMissed (Packet.codedFor p).1).trySend
        (segAnswer 0x12 (s.noteMissed (Packet.codedFor p).1).peer (BitVec.ofNat 9 (Packet.codedFor p).2.1) (Packet.codedFor p).1)) := by
  refine congrArg Host.Outcome.next ?_
  rw [State.recv_of_linkOk hlink, State.codedSegment, if_neg (by simp [htype, hdst]), if_pos hfull]
  rfl

/-! ### Segments at their sender, and dones (R287) -/

section
variable {core : Nat} {x : Cmd} (hdst : p.dst = s.peer) (hlink : s.linkOk p = true)
  (hsender : s.collSender (Packet.seg p).ident p.src.toNat (Packet.seg p).tag (Packet.seg p).seg = some (core, x))
include hdst hlink hsender

/-- A segment answered negative goes out again uncoded. -/
theorem exec_segmentNegativeReceipt {e : SendEntry} {bs : List Byte} (htype : p.type = 0x12)
    (hdata : x.sendData.find? (fun q => q.1.tag = (Packet.seg p).tag && q.1.peer = p.src.toNat) = some (e, bs)) :
    exec (.segmentNegativeReceipt p) s = .next (s.trySend
      (segPacket s.peer (Packet.seg p).ident e 0 (Packet.seg p).seg (segBytes bs (Packet.seg p).seg))) := by
  refine congrArg Host.Outcome.next ?_
  rw [State.recv_of_linkOk hlink, State.segmentNegative, if_neg (by simp [htype, hdst]), hsender]
  simp only [hdata]

/-- A segment acknowledged is struck off, and the sender that has none left says so. -/
theorem exec_remoteResponseReceipt_segment (htype : p.type = 4) (hsegment : (Packet.word p 2).getLsbD 63 = true) :
    exec (.remoteResponseReceipt p) s = .next ((s.updColl core x.id fun k =>
      { k with unacked := k.unacked.filter fun u => u ≠ (p.src.toNat, (Packet.seg p).tag, (Packet.seg p).seg) }).sendDone core x) := by
  have hexec : exec (.remoteResponseReceipt p) s = execRemoteResponseReceipt p s := rfl
  have hack : (decide (p.type = 4) && p.dst == s.peer && (Packet.word p 2).getLsbD 63) = true := by 
    simp only [htype, hdst, hsegment, BEq.rfl, decide_true, Bool.and_self]
  rw [hexec, execRemoteResponseReceipt, if_neg (by simp [htype]), if_pos hack, State.recv_of_linkOk hlink, State.segmentAck, hsender]

end

section
variable {ident dst src : Nat}

/-- A DONE for a participant whose command has not fired is kept. -/
theorem State.heardDone_kept (hnone : ∀ k ∈ s.league.colls, s.collOf' ident dst k = false) (hnew : (ident, dst, src) ∉ s.league.dones) :
    (s.heardDone ident dst src).league.dones = s.league.dones ++ [(ident, dst, src)] := by
  rw [State.heardDone, if_neg (by simpa using hnone), if_neg (by simpa using hnew)]

/-- A DONE is noted in its participant's shuffle. -/
theorem State.heardDone_noted {k : Coll} (hcolls : s.league.colls = [k]) (hk : s.collOf' ident dst k = true) (hnew : src ∉ k.doneFrom) :
    (s.heardDone ident dst src).league.colls = [{ k with doneFrom := src :: k.doneFrom }] := by
  rw [State.heardDone, if_pos (by simp [hcolls, hk])]
  simp [hcolls, hk, hnew]

end

/-- Shuffles act as the manual says. -/
theorem shuffleEvents : Claims.ShuffleEvents := by
  refine ⟨fun s p x y t t' htype => ⟨fun hpair => ?unpaired, fun hpair hsegs => ?first, fun hpair hsegs hx hkey hnow => ?second,
    fun hsegs hx hy => ?third⟩, fun s t x hsegs hx => ⟨fun hnow => ?early, fun hnow => ?late⟩, ?uncoded, ?coded, ?sender, ?done⟩
  case unpaired => exact congrArg Host.Outcome.next (State.switchSegment_unpaired htype hpair)
  case first => exact ⟨_, congrArg Host.Outcome.next (State.switchSegment_first htype hpair hsegs), rfl, rfl⟩
  case second =>
    exact ⟨_, congrArg Host.Outcome.next (State.switchSegment_second htype hpair hsegs hx hkey hnow), rfl, rfl⟩
  case third => exact congrArg Host.Outcome.next (State.switchSegment_third htype hsegs hx hy)
  case early => exact congrArg Host.Outcome.next ((State.pairTimeout_one hsegs hx).trans (if_neg (Nat.not_lt.mpr hnow)))
  case late =>
    exact ⟨_, congrArg Host.Outcome.next ((State.pairTimeout_one hsegs hx).trans (if_pos hnow)), rfl, rfl⟩
  case uncoded =>
    intro s p htype hdst hlink h tag held
    have hexec := exec_uncodedSegmentReceipt hdst hlink htype
    refine ⟨fun hnone => ?_, ?_⟩
    · rw [hexec, State.takeUncoded_early hnone]
      rfl
    · intro core x f u hreceiver hreqs hstored v
      rw [hexec, State.takeUncoded_stored hreceiver hreqs hstored]
      refine ⟨?_, ?_, ?_⟩
      · rintro vs rfl
        rfl
      · rintro (rfl | ⟨qs, all, rfl⟩) <;> rfl
      · rintro code a rfl
        rfl
  case coded =>
    intro s p htype hdst hlink h tag from' other isSide
    refine ⟨fun hnone => ?_, fun core x hreceiver => ⟨fun hno => ?_, ?_⟩⟩
    · cases hfull : s.decodeFull with
      | true =>
        rw [exec_codedSegmentReceipt_full htype hdst hlink hfull, State.noteMissed, hnone]
        rfl
      | false =>
        rw [exec_codedSegmentReceipt_taken hdst hlink htype hfull, State.takeCoded_early hnone]
        rfl
    · intro u
      cases hfull : s.decodeFull with
      | true =>
        rw [exec_codedSegmentReceipt_full htype hdst hlink hfull, State.noteMissed, hreceiver]
        rfl
      | false =>
        have hside : s.sideFor p = none := hno.resolve_left (by simp [hfull])
        rw [exec_codedSegmentReceipt_taken hdst hlink htype hfull, State.takeCoded_noSide hreceiver hside]
        rfl
    · intro y vals u vs v hroom hside a n len half hfetched hreqs hstored r
      rw [exec_codedSegmentReceipt_taken hdst hlink htype hroom,
        State.takeCoded_decoded hreceiver (y := y) hside hfetched hreqs hstored]
      rfl
  case sender =>
    intro s p core x hdst hlink h hsender
    exact ⟨fun e bs htype hdata => exec_segmentNegativeReceipt hdst hlink hsender htype hdata,
      fun htype hsegment => exec_remoteResponseReceipt_segment hdst hlink hsender htype hsegment⟩
  case done =>
    intro s p htype hdst hlink
    refine ⟨congrArg Host.Outcome.next ?_, State.heardDone_kept, fun k => State.heardDone_noted⟩
    rw [State.recv_of_linkOk hlink, State.shuffleDone, if_pos (by simp [htype, hdst])]

end Sys2Proof.Machine
end

-- ==== Links and peer-set barriers; O60 ====
section
/-!
Links and peer-set barriers: what takes a port down or up, packets of another version, and the phases that arrivals and releases
make (R269, R271, R273, R289, R308).
-/

namespace Sys2Proof.Machine

variable {s : State} {p : Packet}

/-! ### Ports and LDOWN (R269, R273, R308) -/

@[simp] theorem State.ports_updPort (s : State) (k : Nat) (f : Port → Port) :
    (s.updPort k f).league.ports = updAt f k s.league.ports := rfl

theorem getLsbD_bit32 (k j : Nat) : (BitVec.ofNat 32 (2 ^ k)).getLsbD j = (decide (j < 32) && decide (k = j)) := by
  rw [BitVec.getLsbD_ofNat, Nat.testBit_two_pow]

/-- The LDOWN bit of a port that has changed is set while it is down. -/
theorem State.ldown_updPort_self {k : Nat} {x : Port} (hx : s.league.ports[k]? = some x) (hk : k < 32) (f : Port → Port) :
    (s.updPort k f).boot.ldown.getLsbD k = !(f x).up := by
  have hbit : (BitVec.ofNat 32 (2 ^ k)).getLsbD k = true := by simp only [getLsbD_bit32, hk, decide_true, Bool.and_self]
  simp only [State.updPort, updAt_getElem?_self, hx, Option.map_some, Option.getD_some]
  cases (f x).up with
  | false => rw [if_neg Bool.false_ne_true, BitVec.getLsbD_or, hbit, Bool.or_true, Bool.not_false]
  | true => rw [if_pos rfl, BitVec.getLsbD_and, BitVec.getLsbD_not, hbit, Bool.not_true, Bool.and_false, Bool.and_false]

/-- The other ports and their LDOWN bits stay. -/
theorem State.updPort_others {k j : Nat} (hj : j ≠ k) (f : Port → Port) :
    (s.updPort k f).league.ports[j]? = s.league.ports[j]? ∧ (s.updPort k f).boot.ldown.getLsbD j = s.boot.ldown.getLsbD j := by
  refine ⟨by rw [State.ports_updPort, updAt_getElem?, if_neg hj], ?_⟩
  have hbit : (BitVec.ofNat 32 (2 ^ k)).getLsbD j = false := by rw [getLsbD_bit32, decide_eq_false hj.symm, Bool.and_false]
  simp only [State.updPort]
  split
  · rw [BitVec.getLsbD_and, BitVec.getLsbD_not, hbit]
    by_cases h : j < 32
    · simp [h]
    · simp [BitVec.getLsbD_of_ge _ _ (Nat.le_of_not_lt h)]
  · rw [BitVec.getLsbD_or, hbit, Bool.or_false]

/-- A link out of training is up at version 1 where its ends agree on it and on the peer number (R273, R306). -/
theorem Link.port_trained (lo hi index : Nat) (peer : BitVec 9) :
    Link.port ⟨true, lo, hi, index⟩ peer = if lo ≤ 1 ∧ 1 ≤ hi ∧ index = peer.toNat then ⟨true, 1⟩ else ⟨false, 0⟩ := by
  simp [Link.port, and_assoc]

/-! ### Peer-set barriers (R289) -/

/-- The first arrival at a phase of several peers is kept; it completes nothing (R289). -/
theorem State.peerArrive_first {src key base count phase : Nat} (hbars : s.league.peerBars = []) (hcount : 1 < count)
    (hlo : base ≤ src) (hhi : src < base + count) (final : Bool) : s.peerArrive src key base count phase final =
      { s with league := { s.league with
        peerBars := [⟨key, base, count, phase, [src], if final then [src] else []⟩] } } := by
  have hother : ∃ m, m < count ∧ base + m ≠ src := by
    by_cases h : src = base
    · exact ⟨1, hcount, by omega⟩
    · exact ⟨0, by omega, by omega⟩
  obtain ⟨m, hm, hne⟩ := hother
  have hrange : ¬(src < base ∨ base + count ≤ src) := by omega
  have hnot : ¬∀ x < count, base + x = src := fun hall => hne (hall m hm)
  cases final <;> simp [State.peerArrive, hrange, hbars, hnot]

theorem State.peerArrive_outside {src key base count phase : Nat} (h : src < base ∨ base + count ≤ src) (final : Bool) :
    s.peerArrive src key base count phase final = s := if_pos h

section
variable (htype : p.type = 0x13) (hdst : p.dst = s.peer) (hlink : s.linkOk p = true)
include htype hdst hlink

theorem exec_peerBarrierRelease_set (hkind : setKind p = 4) :
    exec (.peerBarrierRelease p) s = .next (s.peerRelease (setKey p) (setBase p) (setCount p) (setPhase p)) := by
  refine congrArg Host.Outcome.next ?_
  rw [if_pos (by simp [htype, hkind, hdst]), State.recv_of_linkOk hlink]

theorem exec_peerBarrierArrival_set (hkind : setKind p = 3 ∨ setKind p = 6) : exec (.peerBarrierArrival p) s =
    .next (s.peerArrive p.src.toNat (setKey p) (setBase p) (setCount p) (setPhase p) (setKind p == 6)) := by
  refine congrArg Host.Outcome.next ?_
  rw [if_pos (by simpa [htype, hdst] using hkind), State.recv_of_linkOk hlink]

end

/-- Links and peer-set barriers act as the manual says. -/
theorem linkEvents : Claims.LinkEvents := by
  refine ⟨fun s p htype hdst hlink => ⟨fun i l hkind hset => ?release, fun hkind hset => ?unset, fun hkind hout => ?outside,
    fun hkind hbars hcount hlo hhi => ?first⟩, fun s port x hx hport => ⟨fun i hi => ?down, fun lo hi index hmin => ?minimal,
    ?trained⟩, fun s p i hdst hlink hi => ?drop, fun s port p => ⟨rfl, rfl⟩⟩
  case release =>
    rw [exec_peerBarrierRelease_set htype hdst hlink hkind]
    simp only [State.peerRelease, hset, Bool.and_eq_true, decide_eq_true_eq, Bool.not_eq_true']
  case unset => rw [exec_peerBarrierRelease_set htype hdst hlink hkind, State.peerRelease, hset]
  case outside => rw [exec_peerBarrierArrival_set htype hdst hlink hkind, State.peerArrive_outside hout]
  case first =>
    refine ⟨_, exec_peerBarrierArrival_set htype hdst hlink hkind, ?_⟩
    rw [State.peerArrive_first hbars hcount hlo hhi]
    simp only [beq_iff_eq]
  case down =>
    have hexec : exec i s = .next (s.updPort port fun p => { p with up := false }) := by
      rcases hi with rfl | rfl <;> rfl
    refine ⟨_, hexec, by rw [State.ports_updPort, updAt_getElem?_self, hx]; rfl, ?_, fun j hj => State.updPort_others hj _⟩
    rw [State.ldown_updPort_self hx hport, Bool.not_false]
  case minimal => exact congrArg Host.Outcome.next (State.unlessMin_of_min hmin _)
  case trained =>
    intro lo hi index hmin up
    refine ⟨_, congrArg Host.Outcome.next (State.unlessMin_of_notMin hmin _), ?_, ?_, fun j hj => State.updPort_others hj _⟩
    · rw [State.ports_updPort, updAt_getElem?_self, hx, Option.map_some, Link.port_trained]
    · rw [State.ldown_updPort_self hx hport, Link.port_trained]
      by_cases hup : up
      · rw [if_pos hup]; simp [hup]
      · rw [if_neg hup]; simp [hup]
  case drop =>
    have hdrop (f : State → State) := State.recv_of_linkDown hlink f
    have hrequest (t : Nat) (ht : p.type.toNat = t) : s.answerRequest [t] p = s.updPort p.plane.toNat fun x => { x with up := false } := by
      rw [State.answerRequest, if_pos (by simp [ht, hdst]), hdrop]
    rcases hi with ⟨ht, rfl⟩ | ⟨ht, rfl⟩ | ⟨ht, rfl⟩ | ⟨ht, rfl⟩ | ⟨ht, rfl⟩ | ⟨ht, rfl⟩ | ⟨ht, rfl⟩ | ⟨ht, rfl⟩ | ⟨ht, rfl | rfl⟩ |
      ⟨ht, rfl⟩ | ⟨ht, rfl⟩ | ⟨ht, rfl⟩ | ⟨ht, rfl⟩ | ⟨ht, rfl⟩ | ⟨ht, rfl⟩
    · exact congrArg Host.Outcome.next (hrequest 1 (by rw [ht]; rfl))
    · exact congrArg Host.Outcome.next (hrequest 3 (by rw [ht]; rfl))
    · exact congrArg Host.Outcome.next (hrequest 5 (by rw [ht]; rfl))
    · exact congrArg Host.Outcome.next ((if_pos (by simp [ht, hdst])).trans (hdrop _))
    · exact congrArg Host.Outcome.next ((if_pos (by simp [ht, hdst])).trans (hdrop _))
    · refine congrArg Host.Outcome.next ?_
      have hnot8 : p.type ≠ 8 := by rcases ht with h | h | h <;> simp [h]
      have hresponse : (p.dst == s.peer && (p.type = 2 || p.type = 4 || p.type = 6)) = true := by simpa [hdst, or_assoc] using ht
      rw [if_neg hnot8, hdrop, hdrop, if_pos hresponse, ite_self]
    · exact congrArg Host.Outcome.next ((if_pos (by simp [ht, hdst])).trans (hdrop _))
    · exact congrArg Host.Outcome.next ((if_pos (by simp [ht, hdst])).trans (hdrop _))
    · exact congrArg Host.Outcome.next (hdrop _)
    · exact congrArg Host.Outcome.next (hdrop _)
    · exact congrArg Host.Outcome.next (hdrop _)
    · exact congrArg Host.Outcome.next ((if_pos (by simp [ht, hdst])).trans (hdrop _))
    · exact congrArg Host.Outcome.next (hdrop _)
    · exact congrArg Host.Outcome.next (hdrop _)
    · exact congrArg Host.Outcome.next (hdrop _)
    · exact congrArg Host.Outcome.next (hdrop _)

/-- Settles O60: the four parts of the League's events. -/
theorem leagueEvents : Obligations.LeagueEvents := ⟨remoteEvents, messageEvents, shuffleEvents, linkEvents⟩

end Sys2Proof.Machine
end
